-- ==== Sys2Proof/Word.lean ====
section
/-! DEFINITION. Word.lean: the plain types the whole model is written over.

`Byte` and `Word32`, `Word64` are what the manual treats as bits. `Tab` is the one sparse form in which the
model holds every memory and every indexed family of state: key and value pairs with rising keys. -/

namespace Sys2Proof

/-- One byte of a memory, a packet or a table image. -/
abbrev Byte := BitVec 8

/-- A register of the register window (R347). -/
abbrev Word32 := BitVec 32

/-- A cue word (R52) or the payload of a head-link block (R178). -/
abbrev Word64 := BitVec 64

/-- 66 bits of a lane: a block as it is sent (R178). -/
abbrev Word66 := BitVec 66

/-- Instants and spans are counted in units of 2^-16 ns (R230). -/
abbrev Time := Nat

/-- A sparse table: entries (key, value), keys strictly rising, no value equal to what an unlisted key reads as. -/
abbrev Tab (α : Type) := List (Nat × α)

/-- A sparse byte memory: addresses and bytes in the form of `Tab`. -/
abbrev Mem := Tab Byte

end Sys2Proof
end

