-- ==== Sys2Proof/Syntax.lean ====
section
/-! DEFINITION. Syntax.lean: the commands of the block, one constructor of `Instr` for each row of
spec/opcode_table.json, with the operands that the row's rule gives it.

Numbers of the manual's parameter tables are natural numbers, their widths are in WellFormed.lean.
Operands called `t` are the device's elapsed time at which the step happens, in units of 2^-16 ns.
Operands that come from outside the device (what an HDM answered, what a sensor reads, what a read
of a memory met) are operands of the event that brings them. -/

namespace Sys2Proof

/-- What a command packet carries beside its parameters (R324): the ring, TAG, FLAGS (bit 0 FENCE, bit 1 QUIET)
and PARAM_LEN. `rsv` says that packet byte 7 or a byte from the opcode's size to PARAM_LEN - 1 is not 0 (R325);
`paramRsv` that a reserved field of the parameters themselves is not 0 (R328). `t` is the elapsed time at which
the command starts. -/
structure Hdr where
  ring : Nat
  tag : Nat
  flags : Nat
  paramLen : Nat
  rsv : Bool
  paramRsv : Bool
  t : Nat
deriving DecidableEq, Repr

/-- What a remote temperature input measures (R427, R429): of a diode the voltages in µV at 10, 40 and 160 µA; of a thermistor the node of its
divider with reference resistor `reference`, in 2^-20 of the supply across both; or that the front end finds it open, shorted or out of its
range. -/
inductive RemoteRaw where
  | diode (v10 v40 v160 : Nat)
  | ntc (node reference : Nat)
  | faulty
deriving DecidableEq, Repr

/-- What a frame other than a PTP message carries (R386), or how its reception failed (R396): `damaged` one with a coding or check-sequence
error, `fecLost` one lost to a codeword that RS-FEC could not correct. -/
inductive RxContent where
  | arp (targetIp : Nat)
  | echo (targetIp : Nat)
  | supervision
  | heartbeat (pressId : Nat)
  | other
  | damaged
  | fecLost
deriving DecidableEq, Repr

/-- The running long operation an event completes or advances (R329): its ring and tag, the elapsed time, and how far its work has come:
`reach` none says that the work is complete, some p that it has come to PROGRESS p of those operations whose progress nothing else in
the model shows, and of IMAGE_UPDATE_DATA to byte p of the update. -/
structure OpRef where
  ring : Nat
  tag : Nat
  t : Nat
  reach : Option Nat := none
deriving DecidableEq, Repr

/-- What befalls a read of a DRAM burst or an SRAM word (R301, R302): where an address fault has the array read in place of the place
asked, and the bits that read inverted. `flips` are (symbol, bits) of a burst, symbol 8 i + j being symbol j of nibble i, and (bit, 1) of
an SRAM word, bits 0 to 127 data and 128 to 137 check bits. -/
structure ReadErr where
  source : Option Nat
  flips : List (Nat × Nat)
deriving DecidableEq, Repr

/-- Nothing befalls the read. -/
def ReadErr.clean : ReadErr := { source := none, flips := [] }

/-- The resets' causes of R447. -/
inductive FatalCause where
  | refreshOverrun | fwDataUe | clockLoss | booksFatal
deriving DecidableEq, Repr

/-- The PLLs of R475. -/
inductive Pll where
  | pipe | ctrl | time | dram | pcie
deriving DecidableEq, Repr

/-- A protection input of R225, R226 (`bar g` is BAR_OPEN_N[g], `jam k` is JAM_N[k]). -/
inductive GateInput where
  | bar (g : Nat) | media | jam (k : Nat) | estop
deriving DecidableEq, Repr

/-- An upstream control block's address (R179): the group it arrives on and the sender's slot. -/
structure Up where
  group : Nat
  slot : Nat
  t : Nat
deriving DecidableEq, Repr

/-- The answer of an HDM in an ACK block (R194): what it answers, STATUS and VALUE. -/
structure AckBody where
  kind : Nat
  status : Nat
  value : Nat
deriving DecidableEq, Repr

/-- One heartbeat payload of R402, as the receiver reads it. `leaseEnd`, `sent` and `startTRun` are instants of TAI in 2^-16 ns, `flags`
and `links` bit masks, `pending` (boundary, page, sequence entry), `runRecord` its 96 bytes. -/
structure Heartbeat where
  pressId : Nat
  version : Nat
  index : Nat
  role : Nat
  state : Nat
  seq : Nat
  epoch : Nat
  leaseEnd : Nat
  flags : Nat
  links : Nat
  healthS : Nat
  webPos : Nat
  sent : Nat
  handoffTo : Nat
  stopB : Nat
  updSeq : Nat
  updEffective : Nat
  updPeriod : Nat
  updPEnc : Nat
  startTRun : Nat
  startLeadIn : Nat
  startFirstPage : Nat
  startP0 : Nat
  runRecord : List Byte
  pending : List (Nat × Nat × Nat)
  handoffB : Nat
  crcOk : Bool
deriving DecidableEq, Repr

/-- What an Announce message states of its grandmaster (R391): the fields the default best master clock
algorithm compares, in its order, and the grandmaster identity. `domain` is the tracked domain 0 or 1 (another number: a message of no
tracked domain), `sender` the sending port's identity, `interval` the time between its Announce messages in 2^-16 ns. -/
structure Announce where
  domain : Nat
  path : Nat
  priority1 : Nat
  clockClass : Nat
  clockAccuracy : Nat
  variance : Nat
  priority2 : Nat
  gmIdentity : Nat
  stepsRemoved : Nat
  sender : Nat
  interval : Nat
deriving DecidableEq, Repr

inductive Instr where
  -- host commands of the opcode table (R334)
  | nop (h : Hdr)
  | identify (h : Hdr)
  | getStatus (h : Hdr)
  | getProgress (h : Hdr) (ring tag : Nat)
  | abort (h : Hdr) (ring tag : Nat)
  | ringConfigEnable (h : Hdr) (ring log2 vector coalN coalUs cmdBase replyBase : Nat)
  | ringConfigDisable (h : Hdr) (ring : Nat)
  | plumeEnable (h : Hdr) (log2 vector coalN coalUs base interval : Nat)
  | plumeDisable (h : Hdr)
  | eventConfigEnable (h : Hdr) (mask : Nat)
  | eventConfigComparator (h : Hdr) (index mode w period : Nat)
  | imageUpdateBegin (h : Hdr) (target length : Nat)
  | imageUpdateData (h : Hdr) (offset length source : Nat)
  | imageUpdateDataDone (o : OpRef)
  | imageUpdateCommitActivate (h : Hdr)
  | imageUpdateCommitDone (o : OpRef)
  | imageUpdateCommitConfirm (h : Hdr)
  | imageUpdateCommitRollback (h : Hdr)
  | pressConfig (h : Hdr) (source length : Nat)
  | headScan (h : Hdr) (barMask dest : Nat)
  | headScanDone (o : OpRef)
  | schedLoad (h : Hdr) (addr length : Nat)
  | schedLoadDone (o : OpRef)
  | schedCheck (h : Hdr) (flags : Nat)
  | schedCheckDone (o : OpRef)
  | schedActivate (h : Hdr) (jobId first boundary : Nat)
  | storeAlloc (h : Hdr) (kind bank bar layer context count dest : Nat)
  | storeWrite (h : Hdr) (target flags handle source length offset : Nat)
  | storeFree (h : Hdr) (kind handle : Nat)
  | pageReady (h : Hdr) (jobId first count descriptor : Nat)
  | runArm (h : Hdr) (jobId seqEntry policy firstPage fenceLead : Nat)
  | runArmDone (o : OpRef)
  | runStart (h : Hdr) (mode mark leadIn sec ns period : Nat)
  | runStop (h : Hdr) (mode boundary : Nat)
  | runRejoin (h : Hdr) (source minPages record : Nat)
  | runRejoinArmed (o : OpRef)
  | rejoinBoundary
  | commit (h : Hdr) (classes barMask boundary : Nat)
  | gateRelease (h : Hdr) (barMask boundary : Nat)
  -- errs: the SRAM words in which its reads met errors, by byte address (R304, R305)
  | tableWrite (h : Hdr) (cls bar bank offset length host : Nat) (errs : List (Nat × ReadErr))
  | tableRead (h : Hdr) (cls bar bank offset length host : Nat) (errs : List (Nat × ReadErr))
  | nozzleSurvey (h : Hdr) (barMask rows slotMask tmax : Nat)
  | nozzleSurveyDone (o : OpRef)
  | nozzleMask (h : Hdr) (bar slot row op first count cap : Nat)
  | restoreSlot (h : Hdr) (bar slot : Nat)
  | camConfigEnable (h : Hdr) (port record : Nat)
  | camConfigDisable (h : Hdr) (port : Nat)
  | camCapture (h : Hdr) (port stage dest size : Nat)
  | camCaptureDone (o : OpRef)
  | keepConfigEnable (h : Hdr) (barMask record : Nat)
  | keepConfigDisable (h : Hdr) (barMask : Nat)
  | keepConfigLadder (h : Hdr) (record : Nat)
  | ladderReset (h : Hdr) (barMask slot : Nat)
  | regMeasure (h : Hdr) (flags rep record : Nat)
  | regMeasureDone (o : OpRef)
  | keepTargetCapture (h : Hdr) (barMask first count : Nat)
  | keepTargetCaptureDone (o : OpRef)
  | keepTargetCaptureTimeout (o : OpRef)
  | keepTargetLoad (h : Hdr) (barMask addr : Nat)
  | keepTargetRead (h : Hdr) (addr : Nat)
  | keepTargetClear (h : Hdr) (barMask : Nat)
  | scrubRange (h : Hdr) (memory start length dest : Nat)
  -- found: the words in error the range read met, as (word index from START, outcome); superseded: those whose write-back was dropped
  | scrubRangeDone (o : OpRef) (found : List (Nat × ReadErr)) (superseded : List Nat)
  | scrubRangePatrol (h : Hdr) (period : Nat)
  | calRunCalibrate (h : Hdr) (target groupMask laneMask sensorMask : Nat)
  | calRunCalibrateDone (o : OpRef)
  | prbsStart (h : Hdr) (groupMask laneMask pattern addr : Nat)
  -- counts: what the HDM's checkers answered, by lane 0 to 4 (R204)
  | prbsRead (h : Hdr) (groupMask laneMask addr : Nat) (counts : List Nat)
  | prbsStop (h : Hdr) (groupMask laneMask : Nat)
  | calRunSetup (h : Hdr) (addr : Nat)
  | calRunStatus (h : Hdr) (addr : Nat)
  | timeConfigNet (h : Hdr) (modeA modeB vlan ipv4 netmask : Nat)
  | timeConfigDomain (h : Hdr) (index number transport delay bandwidth : Nat) (asymA asymB : Int)
  | timeConfigPrefer (h : Hdr) (index : Nat)
  | setTime (h : Hdr) (sec ns : Nat)
  | timeConfigStatus (h : Hdr) (dest : Nat)
  | toutProgram (h : Hdr) (output mode flags source width startSec startNs period : Nat)
  | leadConfig (h : Hdr) (home switchBack eligible pressId groupMac : Nat)
  | leadTransfer (h : Hdr) (toIndex : Nat)
  | leadTransferTimeout (t : Nat)
  | arbiterVerdict (h : Hdr) (leadIndex epoch : Nat)
  | logReadRead (h : Hdr) (first count dest : Nat)
  | logReadAck (h : Hdr) (first : Nat)
  | logReadStatus (h : Hdr)
  | logReadFatal (h : Hdr) (first count dest : Nat)
  | clearFirst (h : Hdr)
  | counterSnapshot (h : Hdr) (first count mode dest : Nat)
  | traceFilterStart (h : Hdr) (mode output barMask sources triggerCode post startPos : Nat)
  | traceFilterStop (h : Hdr)
  | compress (h : Hdr) (source stride tileCols tileRows format planes options coverCh firstTile chain : Nat)
  | compressDone (o : OpRef)
  | decompressTest (h : Hdr) (kind layer source dest : Nat)
  | decompressTestDone (o : OpRef)
  | sensorExclude (h : Hdr) (input ackSeq : Nat)
  | sensorInclude (h : Hdr) (input : Nat)
  | deviceReset (h : Hdr) (kind : Nat)
  -- rings and register window
  | commandFetch (ring t : Nat)
  | replyCoalesceTimeout (ring t : Nat)
  | cmdTailWrite (ring value : Nat)
  | replyHeadWrite (ring value : Nat)
  | ring0EnableWrite (value : Word32)
  | evtStatusClear (value : Word32)
  | matchStatusClear (value : Word32)
  | plumeHeadWrite (value : Word32)
  | msixVectorUnmask (vector addr data : Nat)
  | timeSecLoRead (t : Nat)
  | webPosLoRead (t : Nat)
  -- offset: in the register window, or from 0x100_0000 on in the trace window; err: what the trace window's burst has
  | lowWordRead (offset : Nat) (err : ReadErr)
  -- bytes: the byte enables of the write, from bit 0 for the byte at offset (R347)
  | registerWrite (offset bytes : Nat) (value : Word64)
  -- resets and boot
  -- held: how long the level has stood, in 2^-16 ns
  | porN (held t : Nat)
  | supplyDrop (rail millivolts held t : Nat)
  | resetN (held t : Nat)
  -- fed: when the core last fed the watchdog
  | watchdogExpiry (core fed t : Nat)
  | fatalError (cause : FatalCause) (t : Nat)
  -- complete: the record was written; false when the 10 ms bound came first
  | fatalRecordWritten (complete : Bool) (t : Nat)
  -- srEntered: the PHYs confirmed self-refresh entry; timing: what training confirmed (R48 order);
  -- straps: STRAP_FLASH, STRAP_TCLK, TEST_EN; errs: the bursts in which the validation's reads met errors, by device address
  | boot (t : Nat) (srEntered : Bool) (timing : List Nat) (straps : Nat) (errs : List (Nat × ReadErr))
  | perstN (t : Nat)
  | pcieHotReset (t : Nat)
  | clockLoss (pll : Pll) (t : Nat)
  | powerDomainReady (domain t : Nat)
  -- line clock and runs; pipe: PIPE cycles measured since the tick before
  | lineClockTick (pipe : Nat)
  | tRunTick
  | lineClockStopNow
  -- cues: the bar, START of the page position they play, the cue word (R52), and the SRAM words in which the reads met errors, by byte
  -- address (R304)
  | runCue (bar page : Nat) (cue : Word64) (errs : List (Nat × ReadErr))
  | readDataReturn (bar layer context : Nat) (err : ReadErr)
  | decodeCue (bar page : Nat) (cue : Word64) (errs : List (Nat × ReadErr))
  | toneCue (bar page : Nat) (cue : Word64) (errs : List (Nat × ReadErr))
  | screenCue (bar page : Nat) (cue : Word64) (errs : List (Nat × ReadErr))
  | mapCue (bar page : Nat) (cue : Word64) (errs : List (Nat × ReadErr))
  | sendCue (bar page : Nat) (cue : Word64) (errs : List (Nat × ReadErr))
  | energyCue (bar page : Nat) (cue : Word64) (errs : List (Nat × ReadErr))
  | endCue (bar page : Nat)
  -- errs: the DRAM bursts in which the fence's reads met errors, by device address (R304)
  | fence (start : Nat) (errs : List (Nat × ReadErr))
  | commitWindowClose (boundary : Nat)
  | pageBoundary
  | gapStart (start : Nat)
  | pageDone (start : Nat)
  | tableCopyDone (t : Nat)
  | lineMatch (comparator : Nat)
  | plumeSummary
  | idleDeviceSummary (t : Nat)
  -- DRAM
  | geyserWindow (record : Nat)
  -- mr4: the sub-channel and rank pairs (16 bits: 2 × sub-channel + rank) whose devices ask a higher rate
  | retrainWindow (record mr4 : Nat)
  | srWindowEntry (gapStart index : Nat)
  | srWindowExit (gapStart index : Nat)
  | idleRefresh (subch rank t : Nat)
  | idleRetrain (channel mr4 t : Nat)
  | srIdleEntry (channel t : Nat)
  | dynamicShareRequest (cls addr : Nat) (write : Bool) (data : List Byte) (enables : List Bool) (err : ReadErr) (t : Nat)
  | scrubRead (memory addr : Nat) (err : ReadErr) (superseded : Bool) (t : Nat)
  | wearHarvest (t : Nat)
  | nozzlePlan (bar t : Nat)
  -- head link, upstream
  | credit (u : Up) (count due : Nat)
  | telem (u : Up) (temp : Int) (vsup flags seq : Nat)
  | alertTAbs (u : Up) (due : Nat) (isPartial : Bool)
  | alertLaneLost (u : Up) (lane : Nat)
  | alert (u : Up) (cause lane due : Nat)
  | survey (u : Up) (nozzle row res : Nat)
  | hmem (u : Up) (word : Nat) (data : Word32)
  | ack (u : Up) (body : AckBody)
  | tableLoadTimeout (bar slot t : Nat)
  | enumTimeout (group t : Nat)
  | telemNowTimeout (bar slot t : Nat)
  | surveySlotTimeout (bar slot t : Nat)
  | calAnswerTimeout (group t : Nat)
  | laneSwitch (group t : Nat)
  | creditAudit (t : Nat)
  -- protection inputs and web motion
  -- held, here and below: how long the input has held the level that it took at t (the filters of R225, R232)
  | gatingInputEdge (input : GateInput) (level : Bool) (held t : Nat)
  -- a, b: the levels of A and B from t on
  | encoderCount (enc : Nat) (a b : Bool) (held t : Nat)
  | encoderIndex (enc held t : Nat)
  | speedWindowEnd (t : Nat)
  | markEdge (input : Nat) (level : Bool) (held t : Nat)
  | markMissing (start : Nat)
  | periodUpdateEffective
  | toutPulse (output t : Nat)
  | toutPulseEnd (output t : Nat)
  -- cameras
  | csi2FrameStart (port vc number t : Nat)
  | csi2FrameEnd (port vc t : Nat)
  -- crcOk, headerOk: the packet's CRC and header ECC; pixels: the packet's samples, in pixel order
  | csi2LongPacket (port vc dataType wordCount : Nat) (pixels : List Nat) (crcOk headerOk : Bool) (t : Nat)
  | csi2ShortPacket (port vc dataType : Nat) (headerOk : Bool) (t : Nat)
  | camFrameTimeout (port t : Nat)
  | camLinePipeline (t : Nat)
  | zoneRecordSample (port t : Nat)
  -- page: where the page of the ladder begins
  | ladderDash (declaration bar slot row nozzle page : Nat)
  | keepIntervalEnd (bar t : Nat)
  -- press network
  | heartbeatSend (t : Nat)
  -- sameMac: the frame came from this device's own MAC address
  | heartbeatReceive (path : Nat) (hb : Heartbeat) (sameMac : Bool) (t : Nat)
  | leaseRenew (t : Nat)
  | leaseLost (t : Nat)
  | takeover (t : Nat)
  | handoff (t : Nat)
  | prpSupervision (t : Nat)
  -- lan: the trailer's LAN identifier, 0 when the frame has no trailer; length: the frame's bytes with its trailer
  | prpFrameReceive (path source seq lan : Nat) (trailer : Bool) (length : Nat) (content : RxContent) (t : Nat)
  | arpRequest (path targetIp t : Nat)
  | icmpEchoRequest (path targetIp t : Nat)
  | networkPortLink (path : Nat) (up : Bool) (t : Nat)
  | ptpAnnounce (a : Announce) (t : Nat)
  -- domain of this and the rows below: tracked domain 0 or 1; origin: the master's time stamp, arrival: the local one (both in 2^-16 ns);
  -- logInterval n: Sync messages come every 2^(n - 7) s; twoStep: a Follow_Up comes
  | ptpSync (domain path sender seq origin arrival logInterval : Nat) (twoStep : Bool) (t : Nat)
  | ptpFollowUp (domain path sender seq origin t : Nat)
  | ptpDelayResp (domain path sender seq received t : Nat)
  | ptpPdelayReq (domain path sender seq t : Nat)
  | ptpPdelayResp (domain path sender seq : Nat) (followUp : Bool) (stamp t : Nat)
  | pdelayReqSend (domain path t : Nat)
  | ptpEstimateLoss (domain t : Nat)
  | preferredDomainReturn (t : Nat)
  -- calibration, sensors
  | calEvaluation (t : Nat)
  | calRetry (target t : Nat)
  -- code: the sensor's reading in 0.1 °C, or broken (open, short, out of range)
  | onDieSensorConversion (readings : List (Option Int)) (t : Nat)
  | sensorEpisodeEnd (sensor t : Nat)
  | remoteSensorConversion (input : Nat) (raw : RemoteRaw) (t : Nat)
  | tJEvaluation (t : Nat)
  | throttleOff (t : Nat)
  | thermalRestart (t : Nat)
  -- errors and observation
  | logRecord (t : Nat)
  | followUpEnd (t : Nat)
  | followUpTimeout (t : Nat)
  | rejoinRecordTimeout (o : OpRef)
  | traceStartPosition
  | traceTriggerStop
  | upstreamBlockLock (group : Nat) (words : List Word66) (t : Nat)
  -- errors: bit errors HDM 0 answered for the setting just dwelt at, or the trim result of a sensor
  | calMeasurementDone (target : Nat) (value : Int) (stateOk : Bool) (t : Nat)
  | delayReqSend (domain path t : Nat)
  | timeSlewEnd (t : Nat)
  | verdictLeaseEnd (t : Nat)
  | jtagInstructionLoad (instruction t : Nat)
  | pcieLinkUp (t : Nat)
deriving DecidableEq, Repr

end Sys2Proof
end

