-- ==== Sys2Proof/Config.lean ====
section
/-! DEFINITION. Config.lean: what one implementation fixes, and the free values.

An `opaque` constant without a body stands for a value or a function that the manual leaves open, or that only
the outside world knows. No proof can see what it is, so a theorem holds whatever it is. Each is named in the
assumption log. -/

namespace Sys2Proof

/-- What a head's own memory states (R150 to R155, R197, R210, R217, R220, R165). `rowOffset` is the across-web
offset between its rows; `mOff` (1/256 line) and `gOff` (1/256 column) are its datum offsets; a threshold of 0
means that the head states none. `defects` are (row, nozzle) pairs. `place` is the slot that the head is for, where the memory states one. -/
structure HeadMem where
  n : Nat
  orderDesc : Bool
  leadRowB : Bool
  rowSpacing : Nat
  rowOffset : Int
  mOff : Int
  gOff : Int
  serial : Nat
  rank : Nat
  vNom : Nat
  warmLimit : Nat
  rNom : Nat
  tWarn : Nat
  tLimit : Nat
  tAbs : Nat
  defects : List (Nat × Nat)
  place : Option Nat
deriving DecidableEq, Repr, Inhabited

/-- What the firmware keeps at an offset of its data in DRAM (R289, R377): the table mirror's copy of a class and bar (by 8 × class +
bar), the allocation and heap maps, or anything else. -/
inductive FwUse where
  | mirror (key : Nat) | maps | other
deriving DecidableEq, Repr, Inhabited

namespace Config

/-- Where the firmware keeps what in its data in DRAM, which the manual does not say, by byte offset (log 60). -/
opaque fwUse : Nat → FwUse

/-- Spare rows and columns of an SRAM bank that the fuse map of manufacture leaves free, out of 16 and 4 (R306) (log 61). -/
opaque spareRows : Nat → Nat
opaque spareColumns : Nat → Nat

/-- The row of an SRAM word in its bank, which the manual does not say (log 60). -/
opaque sramRow : Nat → Nat

/-- The layout of head memory is not in the manual: what the words that HMEM blocks brought state (log 5). -/
opaque headMemory : Tab Word32 → HeadMem

/-- Silicon revision, fused MAC address, versions (R335, R352, R386): facts of one device (log 6). -/
opaque deviceRev : Nat
opaque macAddress : Nat

/-- ECDSA P-384 verification of a package under key 0 or 1, and key 0's revocation fuse (R371); the keys are
fused secrets of the part (log 7). -/
opaque signatureVerifies : Nat → List Byte → Bool
opaque key0Revoked : Bool

/-- The token stream the compressor chooses for 16,384 pixels (R115, R125 bound it, nothing fixes it), as the
tokens of each row group (log 8). -/
opaque encodeTile : List Byte → List (List Byte)

/-- A deviation the decode-and-compare of R125 may meet: whether the comparison of the n-th compressed tile
fails in hardware, and whether the RAW tile fails too (log 9). -/
opaque compareFails : Nat → Bool
opaque rawFails : Nat → Bool

/-- By how much L*, a* and b* of (X, Y, Z) against a white differ from the formulas of CIE 1976, in 1/256, of which the device uses at most
2 either way (R260); against a white with a 0, the values themselves (log 10). -/
opaque labError : Nat × Nat × Nat → Nat × Nat × Nat → Int × Int × Int

/-- 8-bit sRGB of (X, Y, Z) against a Yn of 0, for which the manual states none (R260) (log 10). -/
opaque srgb : Nat × Nat × Nat → Nat × Nat × Nat

/-- Bytes that a zone record (0) or a window row of so many pixels takes in the vision ring (R263) (log 69). -/
opaque visionBytes : Nat → Nat

/-- Whether the firmware rounds an inexact quotient of its arithmetic up (R272, R281) (log 11). -/
opaque roundsUp : Int → Nat → Bool

/-- EMEAN of a bucket whose mean E is above what its 16 bits hold (R271), by the mean's sum and weight (log 11). -/
opaque wideMean : Int → Nat → Nat

/-- L* of the paper of a zone, in 1/256, where the target holds no paper sample (R279) (log 93). -/
opaque paperL : Nat → Nat

/-- LSDU sizes, below 1,024, of the supervision frames (0), ARP replies (1) and echo replies (2) of the device (R387), which the standards set
(log 72). -/
opaque lsduSize : Nat → Nat

/-- The PTP servo (R392): the correction of the phase, in 2^-16 ns, it makes to the time base, the offset estimate it holds after a Sync and
its frequency correction in ppb, from the measured offsets, newest first, and the bandwidth code (log 12). -/
opaque servoCorrection : Nat → List Int → Int
opaque servoOffset : Nat → List Int → Int
opaque servoFreq : Nat → List Int → Int

/-- The remote diode's or thermistor's temperature is brought by the event; the read-timing update of a RETRAIN
window moves a tap by at most one (R292): which way, by channel and draw (log 13). -/
opaque dqsStep : Nat → Nat → Int

/-- A value the manual leaves open, fresh at every draw (log 14). -/
opaque freeNat : Nat → Nat

/-- The dimension M of a MARK block: UI from the tick to the block's first UI, 396 to 527 (R181) (log 15). -/
opaque markM : Nat → Nat

/-- UNIT of a trace record of a source that belongs to no bar, group, path or ring (R452) (log 16). -/
opaque traceUnit : Nat → Nat

end Config
end Sys2Proof
end

