-- ==== Sys2Proof/Machine/State.lean ====
section
/-! DEFINITION. Machine/State.lean: every piece of state the manual gives the ERY-8240, as plain data.

Families indexed by ring, bar, slot, context, counter and so on are sparse tables (`Tab`): an index that is not
listed holds its reset value. Slots are indexed 24 × bar + slot, contexts 256 × (2 × bar + layer) + context. -/

namespace Sys2Proof.Machine

open Sys2Proof

/-- Device states (R66), with the codes of R335. -/
inductive DevState where
  | boot | maint | idle | armed | run | drain | fault
deriving DecidableEq, Repr

/-- Roles of a device in a press (R335, R400). -/
inductive Role where
  | solo | lead | follower | none
deriving DecidableEq, Repr

/-- MAINT_REASON (R352, R372). -/
inductive MaintReason where
  | none | imageMissing | signature | untestedPair | contract
deriving DecidableEq, Repr

/-- RESET_SOURCE (R363). -/
inductive ResetSource where
  | porN | resetN | watchdog | thermalRestart | deviceReset | fatal
deriving DecidableEq, Repr

/-- FAULT_CAUSE (R335, R97). -/
inductive FaultCause where
  | none | schedUe | shortFrame | fatal
deriving DecidableEq, Repr

/-- How far the reset and boot path of R364 to R370 has come. `held` is step 5 with RESET_N or POR_N still low or a
rail out; `test` is the state after a boundary-scan test instruction (R457); `shutdown` the thermal shutdown of
R432; `lockout` the one of R434; `record` waits for the fatal record (R367). -/
inductive PowerPath where
  | up | booting | held | test | shutdown | lockout | record
deriving DecidableEq, Repr

/-! ## Host interface -/

/-- A status reply (R326). -/
structure Reply where
  ring : Nat
  tag : Nat
  status : Nat
  progress : Nat
  phase : Bool
  final : Bool
  pos : Bool
  skipped : Bool
  opcode : Nat
  timestamp : Nat
  result : List Byte
deriving DecidableEq, Repr

/-- An entry of a ring's command queue that the device has fetched and not yet started (R319, R327): a command, or
a packet that spells no command of the table, with its opcode and its first parameter byte. -/
inductive Fetched where
  | cmd (i : Instr)
  | bad (h : Hdr) (opcode op : Nat)
deriving DecidableEq, Repr

/-- One command ring (R318 to R323, R353, R354). `unsignalled` and `oldest` are the coalescing count and the time
of the oldest reply not yet signalled. `last` is the latest reply written: the model's own record of the
ring's output. `orphans` are commands fetched before a hot reset or link-down, which run to their end without a
reply (R384). -/
structure Ring where
  enabled : Bool
  cmdBase : Nat
  replyBase : Nat
  log2 : Nat
  vector : Nat
  coalN : Nat
  coalUs : Nat
  cmdHead : Nat
  cmdTail : Nat
  replyHead : Nat
  replyTail : Nat
  phase : Bool
  owed : Nat
  unsignalled : Nat
  oldest : Time
  fetched : List Fetched
  orphans : List Fetched
  last : Option Reply
deriving DecidableEq, Repr

/-- A long operation between its ACCEPTED and its final reply (R329 to R332). `orphan`: its ring has been lost to a hot
reset, and its replies are discarded (R384). -/
structure LongOp where
  ring : Nat
  tag : Nat
  opcode : Nat
  orphan : Bool
  progress : Nat
  pos : Bool
  quiet : Bool
  skipped : Bool
  lastProgress : Nat
  lastAt : Time
  acceptedAt : Time
deriving DecidableEq, Repr

/-- What a command that is not a long operation waits for before its reply. -/
inductive WaitKind where
  | activate (jobId first boundary : Nat) | commit (classes barMask : Nat)
  | restoreTelem (bar slot : Nat) | restoreClear (bar slot : Nat)
  | leadTransfer (toIndex epoch : Nat) | snapshot (first count dest : Nat)
  | domain (mask : Nat) (result : List Byte)
deriving DecidableEq, Repr

structure Wait where
  ring : Nat
  tag : Nat
  opcode : Nat
  orphan : Bool
  since : Time
  kind : WaitKind
deriving DecidableEq, Repr

/-- One MSI-X table entry (R357). -/
structure Msix where
  addr : Nat
  data : Nat
  masked : Bool
deriving DecidableEq, Repr

/-- The Plume stream (R343 to R346). `lostPending` and `firstLost` wait for the LOST record; `snap` holds the counters of
R345 as they stood at the previous summary. -/
structure Plume where
  enabled : Bool
  base : Nat
  log2 : Nat
  vector : Nat
  coalN : Nat
  coalUs : Nat
  interval : Nat
  head : Nat
  tail : Nat
  phase : Bool
  seq : Nat
  lost : Nat
  lostPending : Nat
  firstLost : Nat
  unsignalled : Nat
  oldest : Time
  snap : Tab Nat
  summed : Option Nat
  summaryAt : Time
deriving DecidableEq, Repr

/-- The host interface. `mem` is host memory as DMA reaches it; a read that covers an address of `badReads` ends in
a poisoned completion or a completion timeout (R316). `epWrites` is the model's record of the writes that carried the EP bit (R304). -/
structure HostIf where
  linkUp : Bool
  perstLow : Bool
  mem : Mem
  badReads : List Nat
  rings : Tab Ring
  longOps : List LongOp
  waits : List Wait
  evtStatus : BitVec 16
  evtEnable : BitVec 16
  matchStatus : BitVec 8
  msix : Tab Msix
  pba : BitVec 80
  messages : Tab Nat
  plume : Plume
  epWrites : List (Nat × Nat)
deriving DecidableEq, Repr

/-- The register window's own state (R347 to R362). `readData` is what the latest read returned. `lowLatch` holds,
by offset of a low word, the high word its read latched (R348); the snapshot groups hold the registers of R358
and R359 as latched, by offset. -/
structure RegWindow where
  scratch : Word32
  hotResets : Nat
  readData : Word64
  readEp : Bool
  lowLatch : Tab Word32
  timeGroup : Tab Word32
  runGroup : Tab Word32
deriving DecidableEq, Repr

/-! ## Log, trace -/

/-- A report in the error unit (R443): everything its entry will state. `arrival` orders reports within a
severity; `followAt` says when a report arrived whose entry waits for its follow-up. -/
structure Report where
  code : Nat
  arrival : Nat
  followAt : Option Time
  time : Nat
  webPos : Nat
  key : List Byte
  value : Nat
  fields : List Byte
deriving DecidableEq, Repr

/-- A log entry (R361, R441). `key` is bytes 24 to 27, `value` bytes 28 to 31, `fields` bytes 32 to 55. `writtenAt` (when it
was written, R442) and `arrival` (its report's place in the order of arrival, R445) are not part of its bytes. -/
structure LogEntry where
  writtenAt : Time
  arrival : Nat
  seq : Nat
  code : Nat
  severity : Nat
  rep : Bool
  time : Nat
  webPos : Nat
  key : List Byte
  value : Nat
  fields : List Byte
  count : Nat
deriving DecidableEq, Repr

/-- The log (R438 to R448). `next` is LOG_NEXT, `slots` the 256 entries by SEQ mod 256, `readMark` the mark of LOG_READ
ACK, `first` FIRST_ERROR, `firstArrival` the report that is to become it, `since` the counts by severity after the freeze,
`queue` the reports that wait, in order of arrival, `followUps` those whose entry waits for its follow-up, with the time
of the report, and `fatalRecords` the MRAM's fatal records, newest first. -/
structure LogUnit where
  next : Nat
  overflow : Nat
  slots : Tab (Option LogEntry)
  readMark : Nat
  first : Option LogEntry
  firstArrival : Option Nat
  since : Tab Nat
  queue : List Report
  followUps : List (Report × Time)
  arrivals : Nat
  fatalRecords : List (List Byte)
deriving DecidableEq, Repr

/-- Trace recording (R452 to R455). `buffer` is the trace buffer of the reserved DRAM (R289). `postLeft` counts records still to be written
after the trigger. The buffer takes a record at once; `queue` are the records that the trace port has still to send, each with the
instant at which it will have sent it (log 20), `lost` the records dropped since the queue was full, and `portCount` and `portFrame`
the count and the latest frame of the port. -/
structure Trace where
  mode : Nat
  output : Nat
  barMask : Nat
  sources : Nat
  triggerCode : Nat
  post : Nat
  startPos : Nat
  armed : Bool
  stopped : Bool
  write : Nat
  wraps : Nat
  triggered : Bool
  postLeft : Nat
  buffer : Mem
  queue : List (Time × List Byte)
  lost : Nat
  portFree : Time
  portCount : Nat
  portFrame : List Byte
deriving DecidableEq, Repr

/-! ## Press description and heads -/

/-- The motion record of R232. -/
structure Motion where
  trim : Nat
  encSel : Nat
  encFilter : Nat
  speedPolicy : Nat
  countLen0 : Nat
  countLen1 : Nat
  dir : Nat
  linePitch : Nat
  errLimit : Nat
  checkTol : Nat
  markFilter : Nat
deriving DecidableEq, Repr

/-- A slot record of the press description (R339). -/
structure SlotDesc where
  q : Nat
  d : Int
  g : Int
  a : Int
  f : Nat
deriving DecidableEq, Repr

/-- The header of a bar record of the press description (R339). -/
structure BarDesc where
  pressCol0 : Nat
  keySlot : Nat
  leftW : Nat
  rightW : Nat
  leftBias : Int
  rightBias : Int
  leftKind : Nat
  rightKind : Nat
  aKey : Int
  fKey : Nat
deriving DecidableEq, Repr

/-- The press description in force (R338, R339) and the first 8 bytes of its SHA-384. -/
structure Press where
  index : Nat
  devices : Nat
  barMask : Nat
  gateFilter : Nat
  motion : Motion
  bars : Tab BarDesc
  slots : Tab SlotDesc
  digest : Nat
deriving DecidableEq, Repr

/-- What HEAD_SCAN has read of the HDM of a slot (R197, R340): chain position, grant G, STEER_CAP in 4,096-byte
units, PACK code, LAST, and its head memory. -/
structure Head where
  q : Nat
  g : Nat
  steerCap : Nat
  pack : Nat
  last : Bool
  mem : HeadMem
  aComputed : Int
  fComputed : Int
deriving DecidableEq, Repr

/-- HEAD_SCAN while it runs: the group's chain as enumerated, the words HMEM blocks brought by 24 × group + q, the
HDMs that have answered HMEM_READ, and groups whose ENUM timed out. -/
structure ScanOp where
  ring : Nat
  tag : Nat
  barMask : Nat
  dest : Nat
  chain : Tab (Option Nat)
  words : Tab (Tab Word32)
  done : Tab Bool
  silent : Tab Bool
deriving DecidableEq, Repr

/-! ## Schedule banks and runs -/

/-- A Caldera bank (R60 to R65). `follow`: the check was made with FOLLOW against the image that has been active since (R63). -/
structure Bank where
  image : Mem
  length : Nat
  loaded : Bool
  checked : Bool
  follow : Bool
  pressDigest : Nat
  slotN : Tab Nat
  poison : List Nat
deriving DecidableEq, Repr

/-- A SCHED_LOAD or SCHED_CHECK in progress on the inactive bank. -/
structure SchedOp where
  ring : Nat
  tag : Nat
  check : Bool
  addr : Nat
  length : Nat
  follow : Bool
  wasLoaded : Bool
  wasChecked : Bool
deriving DecidableEq, Repr

/-- A page position of a run: placed by a sequence entry, at web position `start` (R58, R74). `bank` is the Caldera
bank whose page program it plays. `flags` are those of the page record (R75). `descriptor` none: not resolved
or a blank position. `absent` are the frame handles that were free at its fence (R110). `repeatNo` counts the
repeats of its entry placed before it. -/
structure PagePos where
  start : Nat
  length : Nat
  gap : Nat
  bank : Nat
  pageProg : Nat
  gapProg : Nat
  seqEntry : Nat
  repeatNo : Nat
  pageIndex : Nat
  jobId : Nat
  placed : Bool
  resolved : Bool
  blank : Bool
  descriptor : Option Nat
  baseOnly : Bool
  flags : Nat
  underrunLines : Nat
  absent : List Nat
  gapRaised : Bool
  done : Bool
  patterned : Bool
deriving DecidableEq, Repr

/-- An entry of the ready queue (R82). -/
structure Ready where
  jobId : Nat
  first : Nat
  count : Nat
  descriptor : Nat
  signature : Nat
deriving DecidableEq, Repr

/-- A COMMIT that waits for its boundary (R76 to R79, R228 with `classes` 0). `keep` marks a commit of the keeping
firmware; `closed` that its window has closed. -/
structure PendingCommit where
  classes : Nat
  barMask : Nat
  boundary : Nat
  closed : Bool
  keep : Bool
deriving DecidableEq, Repr

/-- The copy of R79 that has still to end: of the classes and bars, and whether it has begun. -/
structure TableCopy where
  classes : Nat
  barMask : Nat
  boundary : Nat
  begun : Bool
deriving DecidableEq, Repr

/-- A SCHED_ACTIVATE accepted in RUN (R89). -/
structure Activation where
  jobId : Nat
  first : Nat
  boundary : Nat
deriving DecidableEq, Repr

/-- How a run is to end (R95). -/
inductive StopEnd where
  | none | atBoundary (b : Nat) | now (lastTick : Nat)
deriving DecidableEq, Repr

structure Run where
  jobId : Nat
  seqEntry : Nat
  firstPage : Nat
  pageIndex : Nat
  leadIn : Nat
  tRun : Nat
  p0 : Nat
  startArmed : Bool
  startMark : Option Nat
  active : Nat
  banks : Tab Bank
  schedOp : Option SchedOp
  pages : List PagePos
  marked : List Nat
  defects : List Nat
  ready : List Ready
  commits : List PendingCommit
  copies : List TableCopy
  locks : List (Nat × Nat)
  activation : Option Activation
  oldBankBusy : Bool
  stop : StopEnd
  hdmStale : List Nat
  armPolicy : Nat
  armLead : Nat
  gapStartPos : Nat
  gapStartPage : Nat
  pageDonePos : Nat
  pageDonePage : Nat
  pagePlaced : Nat
  rejoinAt : Option (Nat × Nat)
deriving DecidableEq, Repr

/-- RUN_ARM, SCHED_ACTIVATE, COMMIT or RUN_REJOIN waiting for HDMs to confirm table loads (R69, R64, R81, R381). `outstanding`
are (24 × bar + slot, table kind) pairs still to be confirmed; `classes` are those of a COMMIT, whose loads carry the values
of the shadow banks; `loaded` counts loads confirmed; `waiting`: they are not sent before the pending calibrations of the groups have
ended (R415); `woken` the groups woken. -/
structure LoadOp where
  ring : Nat
  tag : Nat
  opcode : Nat
  classes : Nat
  outstanding : List (Nat × Nat)
  loaded : Nat
  waiting : Bool
  since : Time
  woken : List Nat
deriving DecidableEq, Repr

/-- RUN_REJOIN in progress (R380 to R382). -/
structure RejoinOp where
  ring : Nat
  tag : Nat
  source : Nat
  minPages : Nat
  record : Option (List Byte)
  skipped : Nat
  boundary : Nat
deriving DecidableEq, Repr

/-! ## Tables -/

/-- One table class of one bar (R10, R23, R79, R147): two banks, which of them is committed, and the boundary from
which pages use it (pages that began before it still use the other bank). `poison0`, `poison1` are the byte
offsets of poisoned words of each bank; `told0` and `told1` those that a read has met and raised (R149). -/
structure TableSt where
  bank0 : Mem
  bank1 : Mem
  live : Nat
  since : Nat
  poison0 : List Nat
  poison1 : List Nat
  told0 : List Nat
  told1 : List Nat
deriving DecidableEq, Repr

/-- A header latch of R149, R158: the header bytes as last loaded and the page they were loaded for (none: no page of the
run yet), those of the page before, which lines of that page still read, and whether a poisoned word has stopped
further loads. -/
structure Latch where
  page : Option Nat
  bytes : List Byte
  before : List Byte
  frozen : Bool
deriving DecidableEq, Repr

/-- The zone ramp of a bar over the page that begins at `page` (R139 to R141): the start gains FROM by zone (0x8000 unlisted)
and the ramp position k of the page's image line 0. TO is the entry of the bank the page uses. -/
structure Ramp where
  page : Nat
  lines : Nat
  start : Tab Nat
  k0 : Nat
deriving DecidableEq, Repr

/-- Tables: classes by 8 × class + bar, latches likewise, the ramps of each bar for the current page and the one before. -/
structure Tables where
  classes : Tab TableSt
  latches : Tab Latch
  ramps : Tab (List Ramp)
  zoneCommits : Tab (List Nat)
deriving DecidableEq, Repr

/-! ## Image store and print path -/

/-- An area of the heap (R98, R106): its handle and size in units of 4,096 bytes. -/
structure Area where
  handle : Nat
  units : Nat
  bytes : Nat
deriving DecidableEq, Repr

/-- Causes of concealment, with the codes of R441. -/
inductive Conceal where
  | absent | poisoned | illegal | distance | length
deriving DecidableEq, Repr

/-- A contone row that a context presents, with its coverage row: the page and row it is of (R85, R117). -/
structure OutRow where
  page : Nat
  row : Nat
  pixels : List Byte
  cov : List Byte
deriving DecidableEq, Repr

/-- A decoder context (R117 to R120, R300): the row group it holds, the tile header with what makes it unusable, the bytes that have
arrived of the group by offset in the store frame, its bursts that have arrived and those that came poisoned, whether a base run was
skipped, the rows of the group that stand once it is decoded, and why the others do not; the last good rows, why an episode of
concealment is open, what the tile's CRC is taken over, and the latest rows presented, newest first. -/
structure Context where
  page : Option Nat
  tileRow : Nat
  group : Nat
  header : Option (List Byte)
  headerBad : Option Conceal
  bytes : Mem
  got : List Nat
  poisoned : List Nat
  skipped : Bool
  begun : Bool
  rows : List (List Byte × List Byte)
  failed : Option Conceal
  good : List Byte
  goodCov : List Byte
  concealing : Option Conceal
  clean : Bool
  decoded : List Byte
  masks : List Byte
  outs : List OutRow
deriving DecidableEq, Repr

/-- A scheduled burst on its way from DRAM to a context (R30, R46): its page, row group (8 × tile row + group), number in the store frame
and data, with the marker it carried when the cue read it. -/
structure Inflight where
  bar : Nat
  layer : Nat
  context : Nat
  page : Nat
  group : Nat
  part : Nat
  burst : Nat
  phys : Nat
  data : List Byte
  poisoned : Bool
deriving DecidableEq, Repr

/-- Values of one image line of a bar's page in the pass for the slots whose coarse offset lies `above` lines above the bar's smallest
(R44): the mask of 16-column units that TONE has worked, print values after TONE, levels after SCREEN, by column (R20). -/
structure LineVals where
  bar : Nat
  page : Nat
  line : Nat
  above : Int
  toned : Nat
  print : Tab Nat
  levels : Tab Nat
deriving DecidableEq, Repr

/-- A slot line in line staging (R20, R173, R185): its due tick, page and image line, row, packed levels in stream
order, and the blocks sent; `voided` when it found no credit (R189). -/
structure SlotLine where
  bar : Nat
  slot : Nat
  due : Nat
  page : Nat
  line : Nat
  row : Nat
  trail : Bool
  stream : List Nat
  began : Bool
  voided : Bool
  gate : Bool
  sent : Nat
deriving DecidableEq, Repr

/-- The print path. `issued` are the cue words issued in the frame of the latest tick, with their bar and page (R52). `wear` are the wear
counters and `wearTotals` the 64-bit totals, by 245,760 × bar + 10,240 × slot + 5,120 × row + nozzle; `wearSat` the flag of R169. -/
structure PrintPath where
  contexts : Tab Context
  inflight : List Inflight
  lines : List LineVals
  staging : List SlotLine
  issued : List (Nat × Nat × Nat)
  wear : Tab Nat
  wearTotals : Tab Nat
  wearSat : Tab Bool
  lastHarvest : Time
deriving DecidableEq, Repr

/-- Where a stream stands in a chain of buffers (R127). -/
structure ChainPos where
  desc : Nat
  used : Nat
deriving DecidableEq, Repr

/-- How far a COMPRESS has come (R122, R126): its place in the chain, the next tile index, the tiles emitted, those stored RAW for their size
and after a failed comparison, the stream's length in 64 bytes, and the status that stops it. -/
structure CodeRun where
  pos : ChainPos
  index : Nat
  tiles : Nat
  rawSize : Nat
  rawVerify : Nat
  units : Nat
  stop : Option Nat
deriving DecidableEq, Repr

/-- A COMPRESS that has emitted no tile. -/
def CodeRun.reset : CodeRun where
  pos := { desc := 0, used := 0 }
  index := 0
  tiles := 0
  rawSize := 0
  rawVerify := 0
  units := 0
  stop := none

/-- A COMPRESS or DECOMPRESS_TEST (R121 to R129), on engine 0 or 1, or waiting for one (2). -/
structure CodecOp where
  ring : Nat
  tag : Nat
  compress : Bool
  engine : Nat
  source : Nat
  stride : Nat
  tileCols : Nat
  tileRows : Nat
  format : Nat
  planes : Nat
  options : Nat
  coverCh : Nat
  firstTile : Nat
  chain : Nat
  kind : Nat
  layer : Nat
  dest : Nat
  run : CodeRun
deriving DecidableEq, Repr

/-- The image store. `dram` holds the bytes of DRAM by physical address, `poison` the bursts with the marker, which are those of the
poison map (R289, R303, R304). -/
structure Store where
  dram : Mem
  poison : List Nat
  poisonMap : List Nat
  frames : List Nat
  areas : List Area
  codec : List CodecOp
  tilesDone : Nat
deriving DecidableEq, Repr

/-! ## Head link, energy, gating -/

/-- A 66-bit block (R178): its sync header (false data 01, true control 10) and payload. -/
structure Blk where
  ctrl : Bool
  payload : Word64
deriving DecidableEq, Repr

/-- Power states of one direction of a group (R202). -/
inductive LinkPower where
  | l0 | ls | loff
deriving DecidableEq, Repr

/-- A spare-lane switch that has been announced (R198). -/
structure LaneSwitch where
  lane : Nat
  toDs : Bool
  tick : Nat
  since : Time
deriving DecidableEq, Repr

/-- When a block leaves (R180, R202): in block time j of the running frame; in one of block times 2 to 7, the reserve; in a block time from 8
on outside every occupancy; at any block time, the line clock standing. -/
inductive LinkTime where
  | frame (j : Nat)
  | reserve
  | outside
  | stopped
deriving DecidableEq, Repr

/-- A block on its way: D0 to D3 are lanes 0 to 3, DS is 4, and none is a logical lane of the device's choice; `wire` its 66 bits as they leave
the lane (R178), and `after` the instant before which a group that wakes does not send it. -/
structure SentBlk where
  time : LinkTime
  lane : Option Nat
  blk : Blk
  wire : Word66
  after : Time
deriving DecidableEq, Repr

/-- One lane group (R174 to R204). `sent` are the blocks of the latest sending, in order: the model's record of the group's output.
`wokeFrom` and `wokeAt` say from which state and when the downstream last woke, `descr` is the descrambler's register of U0, and `gens` holds the
registers of the pattern generators of the lanes that carry a raw pattern. -/
structure Group where
  down : LinkPower
  up : LinkPower
  dsLane : Option Nat
  switch : Option LaneSwitch
  failedLane : Option Nat
  locked : Bool
  goodRun : Nat
  window : List Bool
  descr : Nat
  prbsLanes : Nat
  prbsPattern : Nat
  u0Seen : Nat
  u0Reg : Nat
  u0Errors : Nat
  gens : Tab Nat
  sent : List SentBlk
  wokeFrom : LinkPower
  wokeAt : Time
  enumAt : Option Time
  mark : Option Word64
  prog : Option Word64
deriving DecidableEq, Repr

/-- A TELEM of a slot (R194, R221): `tick` is its measuring tick, 0 for one measured while the clock stood; `since` the first
tick whose frame may use it (R212). -/
structure Telem where
  temp : Int
  vsup : Nat
  flags : Nat
  seq : Nat
  tick : Nat
  since : Nat
deriving DecidableEq, Repr

/-- The codes of an energy record (R187). -/
structure Energy where
  w1 : Nat
  w2 : Nat
  w3 : Nat
  warm : Nat
  warmN : Nat
deriving DecidableEq, Repr

/-- A withdrawn head (R167, R222): the decision tick and the cause (0 T_LIMIT, 1 T_ABS, 2 TELEM_LOST). `restore`:
RESTORE_SLOT ends it with the next NOZZLE commit (R168); `ends` is the boundary of that commit once its window closed. -/
structure Withdrawn where
  td : Nat
  cause : Nat
  restore : Bool
  ends : Option Nat
deriving DecidableEq, Repr

/-- The survey of one slot (R215 to R219). -/
structure SlotSurvey where
  startAt : Time
  results : List (Nat × Nat × Nat)
  finished : Bool
deriving DecidableEq, Repr

/-- One slot of a bar. `tempMax` to `warmMax` and `seen` (TELEMs received) gather what the next summary reports (R345). -/
structure Slot where
  head : Option Head
  credit : Nat
  telem : Option Telem
  telem2 : Option Telem
  withdrawn : Option Withdrawn
  gone : List Withdrawn
  limitSeen : Bool
  tabsHeld : Bool
  warnHeld : Bool
  vsupHeld : Bool
  energy : Energy
  loaded : Bool
  tempMax : Int
  vsupMin : Nat
  vsupMax : Nat
  flagsOr : Nat
  warmMax : Nat
  seen : Nat
  survey : Option SlotSurvey
deriving DecidableEq, Repr

/-- NOZZLE_SURVEY in progress (R215 to R219). -/
structure SurveyOp where
  ring : Nat
  tag : Nat
  rows : Nat
  tmax : Nat
  slots : List Nat
  checked : List Nat
  measuring : Bool
  discarded : Bool
  dropped : List Nat
  lost : Nat
deriving DecidableEq, Repr

/-- One bar: FIRE_EN as driven (R226), the gate latch and release boundary (R227 to R229), and the time-base instant of its
last falling edge. -/
structure Bar where
  fireEn : Bool
  latch : Bool
  releaseBoundary : Nat
  fellAt : Time
  lows : List (Time × Time)
deriving DecidableEq, Repr

structure Inputs where
  barOpenN : Nat
  mediaOk : Bool
  jamN : Nat
  estopN : Bool
  thermalOk : Bool
deriving DecidableEq, Repr

structure Link where
  groups : Tab Group
  slots : Tab Slot
  bars : Tab Bar
  inputs : Inputs
  scan : Option ScanOp
  load : Option LoadOp
  survey : Option SurveyOp
  rf : Tab (Tab Nat)
  health : Tab (Tab Nat)
  toPlan : List (Nat × Nat × Nat × Nat)
  results : List (Nat × Nat × Nat × Nat × Nat)
  creditAuditAt : Option Time
deriving DecidableEq, Repr

/-! ## Line clock and motion -/

/-- p_enc of R235: no value yet, no upper bound (v ≤ 0), or num / den in 2^-16 ns. -/
inductive PEnc where
  | unset | unbounded | value (num den : Nat)
deriving DecidableEq, Repr

/-- A period change that waits for its tick (R231, R246). -/
structure PeriodUpdate where
  seq : Nat
  effective : Nat
  period : Nat
  pEnc : PEnc
deriving DecidableEq, Repr

/-- One encoder: its inputs, and its count edges in the open speed window (R233, R234). -/
structure Encoder where
  count : Int
  edges : Nat
  firstAt : Time
  lastAt : Time
  bad : Bool
  levelA : Bool
  levelB : Bool
  lastEdge : Option Time
deriving DecidableEq, Repr

/-- A line-match comparator (R244). -/
structure Comparator where
  mode : Nat
  w : Nat
  period : Nat
deriving DecidableEq, Repr

/-- A TOUT output (R397 to R399, R242). `waiting` is a program that takes effect when the pulse in progress ends. -/
structure ToutProg where
  mode : Nat
  activeLow : Bool
  source : Nat
  width : Nat
  start : Nat
  period : Nat
  earliest : Nat
deriving DecidableEq, Repr

structure Tout where
  prog : ToutProg
  waiting : Option ToutProg
  active : Bool
  endsAt : Time
  nextPulse : Nat
  pending : List Int
deriving DecidableEq, Repr

/-- The line clock and what measures the web. `tickTime` is the time-base instant of the latest tick, `period` that of the
frame it began; `nominal` is that period without the additions of R247; `trims` are period changes of R235 by the tick at which they apply; `lengthErr` is E in 2^-8 nm; `history` are the latest
frames, newest first (tick, its instant, period), which R253 looks back to, and `stoppedAt` the instant at which the clock last stopped. -/
structure Web where
  running : Bool
  ticked : Bool
  webPos : Nat
  tickTime : Time
  period : Nat
  nominal : Nat
  pEnc : PEnc
  updates : List PeriodUpdate
  late : List (Nat × Int)
  lastUpdateSeq : Nat
  motion : Motion
  windowStart : Time
  trims : List (Nat × Nat)
  encoders : Tab Encoder
  lengthErr : Int
  warned : Bool
  limited : Bool
  eps : Option Int
  regActive : Bool
  marks : Tab Nat
  comparators : Tab Comparator
  touts : Tab Tout
  history : List (Nat × Nat × Nat)
  stoppedAt : Nat
deriving DecidableEq, Repr

/-! ## Cameras -/

/-- A camera context record as read (R251), with its tables. -/
structure CamContext where
  lanes : Nat
  dataType : Nat
  cfa : Nat
  exposures : Nat
  vcBase : Nat
  priority : Nat
  outputs : Nat
  scaleA : Nat
  scaleB : Nat
  pixels : Nat
  visLines : Nat
  frameLines : Nat
  linePeriod : Nat
  latency : Nat
  camDist : Nat
  col0 : Int
  pitch : Nat
  sat : Nat
  ratio1 : Nat
  ratio2 : Nat
  matrix : List Int
  white : Nat × Nat × Nat
  lut : List Nat
  flat : List Nat
  ringAddr : Nat
  ringSize : Nat
  chain : Nat
  roi : List (Nat × Nat × Nat × Nat)
deriving DecidableEq, Repr

/-- A scan line as received: its place among the frame's kept lines, one list of samples for each exposure, and its print position
(R249, R253, R254). -/
structure CamLine where
  index : Nat
  seq : Nat
  exposures : List (List Nat)
  pos : Option Int
deriving DecidableEq, Repr

/-- A zone record of the vision output (R262). -/
structure ZoneRec where
  port : Nat
  zone : Nat
  pos : Int
  pixels : Nat
  lab : Int × Int × Int
deriving DecidableEq, Repr

/-- A window row (R263): its ROI, print position, the device column of its first pixel (in 2^-16 column), PITCH, and L* values. -/
structure WindowRow where
  roi : Nat
  pos : Int
  first : Int
  pitch : Nat
  vals : List Nat
deriving DecidableEq, Repr

/-- The open camera frame of a port (R255, R256, R259): scan lines seen and, of the first FRAME_LINES of them, those kept. Histograms
by 768 × exposure + 256 × channel + bin, grid sums and pixel counts by 1,024 × channel + 64 × row + column, display boxes (sums of X, Y
and Z and pixels) by row and column in raster order, and sRGB rows for coding by kept line. -/
structure CamFrame where
  seq : Nat
  ctx : CamContext
  installed : Nat
  why : Option Nat
  csiFrame : Nat
  openedAt : Time
  stamp : Nat
  seen : Nat
  kept : Nat
  excess : Nat
  lost : Nat
  errors : Nat
  flags : Nat
  firstPos : Option Int
  lastPos : Option Int
  hist : Tab Nat
  gridSum : Tab Nat
  gridCount : Tab Nat
  display : Tab (Nat × Nat × Nat)
  displayN : Tab Nat
  coded : Tab (List Byte)
deriving DecidableEq, Repr

/-- The vision block being gathered (R262): the print positions of its lines, and sums of X, Y and Z with the pixels, by zone. -/
structure VisionBlock where
  positions : List Int
  sums : Tab (Nat × Nat × Nat)
  counts : Tab Nat
  seq : Nat
deriving DecidableEq, Repr

/-- The rows of a closed frame that wait for the compressor (R264): PIXELS, the frame's tile rows, and which chain they go to. -/
structure CodeJob where
  seq : Nat
  pixels : Nat
  tileRows : Nat
  chain : Nat
  rows : Tab (List Byte)
deriving DecidableEq, Repr

/-- CAM_CAPTURE in progress (R267): STAGE and DEST, the frame it copies once that has opened, the lines dropped, and whether that frame
closed with TIMEOUT once it has closed. -/
structure CamCapture where
  ring : Nat
  tag : Nat
  stage : Nat
  dest : Nat
  seq : Option Nat
  dropped : Nat
  closed : Option Bool
deriving DecidableEq, Repr

/-- A camera port (R248 to R267). `lineBuf` are its complete scan lines that wait, `part` the one that is arriving and `badLine` that one of
its exposures was dropped. `closing` are the frames that have closed while lines of
them wait for the pipeline; `staging` are the bytes of its staging queue; `vision` and `windows` hold
what fills its vision ring, oldest first. `installed` counts the contexts that have taken effect; `chains` holds the place in each one's chain, none once it has
ended. -/
structure CamPort where
  ctx : Option CamContext
  next : Option CamContext
  disabling : Bool
  frame : Option CamFrame
  closing : List CamFrame
  frames : Nat
  lineBuf : List CamLine
  part : Option CamLine
  badLine : Bool
  staging : Nat
  staged : List (Nat × Nat)
  lineLost : Bool
  panic : Bool
  block : VisionBlock
  vision : List ZoneRec
  windows : List WindowRow
  installed : Nat
  chains : Tab (Option ChainPos)
  codeWait : List CodeJob
  captures : List CamCapture
deriving DecidableEq, Repr

/-! ## Colour keeping -/

/-- The keep record of R283, with its defaults resolved. -/
structure KeepRecord where
  interval : Nat
  stepMax : Nat
  range : Nat
  deadband : Nat
  domMin : Nat
  otherMax : Nat
  unifTol : Nat
  minSamples : Nat
  minCover : Nat
deriving DecidableEq, Repr

/-- An exact quotient of colour keeping: numerator and denominator. -/
structure Frac where
  num : Int
  den : Nat
deriving DecidableEq, Repr

/-- Samples of one zone in the open interval (R274): number, weight, and weighted sum of rho. -/
structure ZoneAcc where
  count : Nat
  weight : Nat
  sum : Frac
deriving DecidableEq, Repr

/-- Colour keeping of one bar (R274 to R276, R283): the gains at ENABLE, the open interval with its samples, the boundary of a step that
has still to take effect and what its record will state, `ownedUntil` the boundary after which ZONE_GAIN returns to host software, the
boundary of the latest step, and the gains computed at an interval's end while ZONE_GAIN was locked. -/
structure KeepBar where
  enabled : Bool
  record : KeepRecord
  gRef : Tab Nat
  intervalStart : Option Nat
  intervals : Nat
  acc : Tab ZoneAcc
  stepAt : Option Nat
  stepped : Nat
  held : Nat
  atRange : Nat
  inBand : Nat
  maxStep : Int
  samples : Nat
  rangeLogged : Tab Bool
  thinLogged : Tab Bool
  ownedUntil : Option Nat
  lastStep : Nat
  computed : Option (Tab Nat)
deriving DecidableEq, Repr

/-- One feed accumulator of a bar and zone in an open feed block (R268): sum and count of T, least and greatest sum of T over
16 columns of a line, disturbed, and whether the zone's gain was ramping. -/
structure FeedAcc where
  sum : Nat
  count : Nat
  least : Nat
  greatest : Nat
  disturbed : Bool
  ramp : Bool
deriving DecidableEq, Repr

/-- A feed block that is being accumulated (R268): of the page that begins at `page`; `bars` is the mask of bars whose last
line of it has been toned; its accumulators by 432 × bar + zone. -/
structure FeedOpen where
  page : Nat
  block : Nat
  bars : Nat
  accs : Tab FeedAcc
deriving DecidableEq, Repr

/-- What the firmware knows of a block of the feed ring (R269) beside the entries, which stand in DRAM: its slot, its page and place, the
descriptor of a page treated as declared (R278), the zone gains TO in force for the page, and the sums of the column gains of each zone
(R270). -/
structure FeedBlock where
  slot : Nat
  jobId : Nat
  pageIndex : Nat
  page : Nat
  block : Nat
  lines : Nat
  barMask : Nat
  pattern : Option Nat
  gains : Tab Nat
  columns : Tab Nat
deriving DecidableEq, Repr

/-- A ladder or registration declaration (R278). -/
structure Decl where
  descriptor : Nat
  kind : Nat
  barMask : Nat
  refBar : Nat
  confirm : Nat
  firstLine : Nat
  step : Nat
  dash : Nat
  space : Nat
  missPct : Nat
  weakPct : Nat
  devTol : Nat
  x : List Nat
deriving DecidableEq, Repr

/-- Sums of KEEP_TARGET CAPTURE for one bucket (R272): pixel-weighted sums of L*, a*, b* and of E in 1/8, weight and count. -/
structure BucketSum where
  l : Int
  a : Int
  b : Int
  e : Frac
  weight : Nat
  count : Nat
deriving DecidableEq, Repr

/-- KEEP_TARGET CAPTURE in progress (R272), with its sums by record: 6,912 × bar + 16 × zone + bucket, and 55,296 + zone for paper; when the
last page was done, and where it ends. -/
structure CaptureOp where
  ring : Nat
  tag : Nat
  barMask : Nat
  first : Nat
  count : Nat
  accepted : Nat
  jobId : Nat
  sums : Tab BucketSum
  lastDone : Option Time
  lastEnd : Nat
deriving DecidableEq, Repr

/-- A registration page done while REG_MEASURE runs (R281): its declaration and place; `rows` says that its window rows can still be told
from those of a later run. -/
structure RegPage where
  decl : Decl
  start : Nat
  length : Nat
  rows : Bool
deriving DecidableEq, Repr

/-- REG_MEASURE in progress (R281), with the registration pages done since it was accepted. -/
structure RegOp where
  ring : Nat
  tag : Nat
  flags : Nat
  rep : Nat
  record : Nat
  seen : List RegPage
deriving DecidableEq, Repr

/-- Colour keeping. `streaks` are by nozzle the class of R279, in how many consecutive ladders it has shown, and one more than the page
of the latest of them; `shifts` the bars with the delta A that REG_MEASURE with APPLY has still to write and commit (R282). -/
structure Keeping where
  bars : Tab KeepBar
  target : Mem
  decls : List Decl
  capture : Option CaptureOp
  reg : Option RegOp
  streaks : Tab (Nat × Nat × Nat)
  shifts : List (Nat × Int)
  rows : List WindowRow
  feedOpen : List FeedOpen
  feed : Tab (Option FeedBlock)
  feedNext : Nat
deriving DecidableEq, Repr

/-! ## DRAM, repair, scrubbing -/

inductive SelfRefresh where
  | awake | idleSr | windowSr
deriving DecidableEq, Repr

/-- A dynamic-share request that waits for its channel to wake (R297). -/
structure HeldReq where
  cls : Nat
  addr : Nat
  write : Bool
  data : List Byte
  enables : List Bool
  err : ReadErr
deriving DecidableEq, Repr

/-- A DRAM channel (R292, R296, R297): whether it sleeps, the time of the latest request, the requests that hold a token until it
wakes, whether a request has cancelled the entry of the SR window in progress, the latest retraining, since when the DQS interval
oscillator runs, and whether a ZQ calibration has been started and not latched. -/
structure Channel where
  sr : SelfRefresh
  lastRequest : Time
  held : List HeldReq
  cancelled : Bool
  lastRetrain : Time
  oscSince : Time
  zq : Bool
deriving DecidableEq, Repr

/-- A place found in error (R307): kind 0 SRAM_ROW, 1 SRAM_COLUMN, 2 DRAM_ROW. -/
structure Repair where
  kind : Nat
  place : Nat
  firstSeen : Time
  count : Nat
deriving DecidableEq, Repr

/-- SCRUB_RANGE RANGE in progress (R311). -/
structure ScrubOp where
  ring : Nat
  tag : Nat
  memory : Nat
  start : Nat
  length : Nat
  dest : Nat
  checked : Nat
  corrected : Nat
  bad : List Nat
deriving DecidableEq, Repr

/-- The trained DRAM configuration (R291): RATE, RANKS and the sixteen timing values of R48; `config` and `map` of the
boot configuration record (R285, R287), HOT (R294) and SR_IDLE in ms (R296). -/
structure DramConfig where
  config : Nat
  rate : Nat
  map : Nat
  hot : Bool
  retain : Bool
  srIdle : Nat
  timing : List Nat
deriving DecidableEq, Repr

/-- A correctable error of the last 24 h (R307): its memory (0 DRAM, 1 SRAM), word (a row page of DRAM, a word of SRAM), bit, and time. -/
structure Correction where
  memory : Nat
  word : Nat
  bit : Nat
  time : Time
deriving DecidableEq, Repr

/-- The DRAM controller and the scrubber. Refresh debts (R35) are by 2 × sub-channel + rank, in 2^-16 ns times MT/s, as they stood at
`debtAt`; `hot` says of a rank that its devices ask for a higher refresh rate (R294); `taps` are its DQS read delays (R292);
`windowAt` is, by window record, one more than the web position of the frame it was last served in. `sramPoison` are the SRAM words with
the marker, by byte address; `scrubDram` and `scrubSram` the addresses the patrol scrubber reads next. -/
structure Dram where
  cfg : DramConfig
  trained : Bool
  vendor : Nat
  debt : Tab Nat
  debtAt : Tab Nat
  channels : Tab Channel
  taps : Tab Int
  windowAt : Tab Nat
  hot : Tab Bool
  repairs : List Repair
  recent : List Correction
  sramPoison : List Nat
  scrubDram : Nat
  scrubSram : Nat
  passHours : Nat
  scrub : Option ScrubOp
deriving DecidableEq, Repr

/-! ## Reset, boot, firmware -/

/-- An open firmware update (R374, R375). -/
structure Update where
  target : Nat
  length : Nat
  written : Nat
  data : List Byte
deriving DecidableEq, Repr

/-- The MRAM checkpoint (R377) and the copies whose CRCs it holds. A copy and its CRC differ exactly when the copy has been
damaged: `mapBad` says so of the store maps, `mirrorBad` lists the damaged entries of the table mirror (by
8 × class + bar). `zoneGains` are the committed zone gains of a bar with their boundary; `cfg` the DRAM configuration of
the last cold boot. -/
structure Checkpoint where
  runRecord : Option (List Byte)
  ready : List Ready
  mapBad : Bool
  mapFrames : List Nat
  mapAreas : List Area
  mirror : Tab (Option Mem)
  mirrorBad : List Nat
  zoneGains : Tab (Nat × Mem)
  cfg : Option DramConfig
  taps : Tab Int
  vendor : Nat
deriving DecidableEq, Repr

/-- The shutdown record PD0 latches (R432). -/
structure ShutdownRecord where
  cluster : Nat
  readings : List Int
  tai : Nat
deriving DecidableEq, Repr

/-- Resets, boot, firmware images, power and pins (R363 to R379, R432 to R437, R456, R472): how the device came up and from what reset, the
pair in force, the fatal record kept for the next boot, the boot state (PREFERRED, TRIAL, TRIES), the update that is open and the
operations on it, the checkpoint, the reset pins and outputs, the straps, the power domains, thermal shutdowns, RUN_REJOIN. -/
structure BootUnit where
  path : PowerPath
  warm : Bool
  source : ResetSource
  resetAt : Time
  resetReq : Option Nat
  retained : Bool
  maint : MaintReason
  fwVersion : Nat
  ucodeVersion : Nat
  fatal : Option FatalCause
  fatalRec : List Byte
  fatalAt : Time
  recordLost : Bool
  flash : Mem
  preferred : Nat
  trial : Bool
  tries : Nat
  update : Option Update
  dataOp : Option (Nat × Nat × Nat × Nat × Nat)
  commitOp : Option (Nat × Nat × Nat)
  checkpoint : Checkpoint
  porLow : Bool
  resetLow : Bool
  supplyBad : Bool
  resetOutN : Bool
  wdogOut : Bool
  xspiResetN : Bool
  dramResetN : Bool
  straps : Nat
  domains : Nat
  domainsReady : Nat
  shutdownRec : Option ShutdownRecord
  shutdowns : List Time
  coolSince : Option Time
  lockoutLog : Bool
  rejoin : Option RejoinOp
  jtag : Nat
  pllLost : List Pll
  wdogFed : Tab Nat
deriving DecidableEq, Repr

/-! ## Time base, network, lead role -/

/-- What disciplines the time base (R358, R390). -/
inductive TimeSource where
  | freeRun | tracked0 | tracked1 | holdover
deriving DecidableEq, Repr

/-- The time base (R390, R394): elapsed time, which REFCLK_TIME keeps, plus an offset, what is slewed in of a difference D since its
beginning, and what the DCO's correction adds. `rate` is that correction in ppb, to which the DCO moves from `rateWas` since `rateSince`;
`rates` are the corrections of the last 60 s with their beginnings, newest first; `steps` counts steps. -/
structure Clk where
  elapsed : Time
  offset : Int
  source : TimeSource
  taiValid : Bool
  slew : Option (Int × Time)
  rate : Int
  rateWas : Int
  rateSince : Time
  rates : List (Time × Int)
  steps : Nat
  prefer : Nat
deriving DecidableEq, Repr

/-- A master heard in a domain: its latest Announce, when it came, and whether an earlier one came within four of its intervals, which
qualifies it. -/
structure Master where
  announce : Announce
  last : Time
  qualified : Bool
deriving DecidableEq, Repr

/-- A tracked PTP domain (R391 to R396). `offsets` are the measured offsets of the time base from the master and `filtered` the
servo's estimates after them, newest first; `delays` the path delay by path; `pendingSync` a two-step Sync that waits for its Follow_Up
(path, sequence number, arrival); the latest Sync's origin and arrival, when it came and the interval it states; the Delay_Req
(sequence number, path, instant of sending) and by path the Pdelay_Req that wait for answers, with the elapsed time of the latter, and the
receipt stamp and arrival of a Pdelay_Resp. -/
structure PtpDomain where
  number : Nat
  transport : Nat
  delayMech : Nat
  bandwidth : Nat
  asymA : Int
  asymB : Int
  masters : List Master
  selected : Option Announce
  offsets : List Int
  filtered : List Int
  delays : Tab (Option Nat)
  pendingSync : Option (Nat × Nat × Nat)
  syncOrigin : Nat
  syncArrival : Nat
  syncAt : Option Time
  syncInterval : Nat
  delayReq : Option (Nat × Nat × Nat)
  pdelayReq : Tab (Option (Nat × Nat × Time))
  pdelayRx : Tab (Option (Nat × Nat))
  estimate : Bool
  heldSince : Time
  txSeq : Nat
deriving DecidableEq, Repr

/-- Frames the device sends (R386, R387, R391, R402). -/
inductive TxKind where
  | heartbeat (group vlan : Nat) (payload : List Byte)
  | supervision
  | arpReply (ip : Nat)
  | echoReply (ip : Nat)
  | delayReq (domain seq : Nat)
  | pdelayReq (domain seq : Nat)
  | pdelayResp (domain seq : Nat)
  | pdelayRespFollowUp (domain seq : Nat)
deriving DecidableEq, Repr

/-- The redundancy control trailer of a frame (R387): sequence number, LAN identifier, LSDU size and suffix. -/
structure Trailer where
  seq : Nat
  lan : Nat
  size : Nat
  suffix : Nat
deriving DecidableEq, Repr

/-- A frame as sent on one path: PTP messages carry no trailer (R387, R389). -/
structure TxFrame where
  kind : TxKind
  trailer : Option Trailer
deriving DecidableEq, Repr

/-- One network path (R385, R396): mode, up, the eight counters of the status block in its order, and the latest frame sent: the model's
record of the path's output. -/
structure NetPort where
  mode : Nat
  up : Bool
  counters : Tab Nat
  lastTx : Option TxFrame
deriving DecidableEq, Repr

/-- An entry of the duplicate-discard table (R388): a source, its last frame, and the sequence numbers received with their times. -/
structure DupEntry where
  source : Nat
  last : Time
  seqs : List (Nat × Time)
deriving DecidableEq, Repr

/-- What the device keeps of another device of the press (R403, R404, R406). -/
structure Peer where
  lastA : Option Time
  lastB : Option Time
  seq : Nat
  role : Nat
  epoch : Nat
  leaseEnd : Nat
  flags : Nat
  healthS : Nat
deriving DecidableEq, Repr

structure LeadConfig where
  home : Bool
  manual : Bool
  eligible : Bool
  pressId : Nat
  groupMac : Nat
deriving DecidableEq, Repr

/-- A handoff announced by the lead (R409): the target, its boundary (0 for at once). -/
structure Handoff where
  target : Nat
  boundary : Nat
deriving DecidableEq, Repr

/-- The lead role (R400 to R412): the configuration in force, epochs and the lease held or followed (an instant of the time base), the device
that leads, verdicts, the handoff announced, when one took effect, the other devices heard, heartbeats sent and the millisecond of the
latest, what the heartbeats show, and what the lead's latest heartbeat told. -/
structure LeadUnit where
  role : Role
  config : Option LeadConfig
  epochSeen : Nat
  epoch : Nat
  leaseEnd : Nat
  renewedAt : Time
  leadIndex : Option Nat
  verdictNone : Bool
  verdictEpoch : Option Nat
  autoSuspended : Bool
  handoff : Option Handoff
  transferAt : Option Time
  peers : Tab (Option Peer)
  hbSeq : Nat
  release : Bool
  stopReq : Option Nat
  stopAt : Option Nat
  stopNow : Bool
  startRec : Bool
  healthySince : Option Time
  leadRecord : Option (List Byte)
  leadUpdate : Option PeriodUpdate
  leadPending : List (Nat × Nat × Nat)
  hbLast : Option Nat
deriving DecidableEq, Repr

structure Net where
  ports : Tab NetPort
  vlan : Nat
  ipv4 : Nat
  netmask : Nat
  domains : Tab PtpDomain
  dup : List DupEntry
  supervisedAt : Option Time
  prpSeq : Nat
  lead : LeadUnit
deriving DecidableEq, Repr

/-! ## Calibration and temperature -/

/-- A calibration target (R413 to R421), by the target codes of R423; the duty cycle of lane l of group g, which has no code of its
own, is held under 128 + 8g + l. `spanStart` and `spanBest` are the error-free span the sweep is in and the longest it has met;
`noSpan` says that the first sweep met none; `slice` is an upstream sampler's main slice. A delay line or duty code comes from `was`, which it
held at `movedAt`, to `value` tap by tap (R419). `startState` is what R420 has unchanged over a measurement. -/
structure CalTarget where
  value : Int
  was : Int
  movedAt : Time
  reference : Option Int
  pending : Bool
  failures : Nat
  retryAt : Option Time
  gaveUp : Option Int
  running : Bool
  m1 : Option Int
  startState : Int
  setting : Nat
  spanStart : Option Nat
  spanBest : Option (Nat × Nat)
  noSpan : Bool
  slice : Nat
deriving DecidableEq, Repr

/-- CAL_RUN CALIBRATE or SETUP in progress (R423): targets still to be done, outcomes counted by kind (0 OK, 1 CAL_DISAGREE, 2
CAL_IMPLAUSIBLE, 3 CAL_ABORT_STATE), the first target with an outcome other than OK, and the groups it woke. -/
structure CalOp where
  ring : Nat
  tag : Nat
  todo : List Nat
  counts : Tab Nat
  firstBad : Nat
  total : Nat
  woken : List Nat
deriving DecidableEq, Repr

/-- Where the training loop of a group's lane stands (R200): the lane moves to DS, LOOP_ENTER is sent, the sweeps run, LOOP_EXIT is
sent, the lane returns. -/
inductive LoopPhase where
  | toDs | entering | sweeping | exiting | returning
deriving DecidableEq, Repr

/-- The training loop of a lane (R200, R422): since when its answer is waited for, a lane lost meanwhile that takes DS when this one
returns, and whether the group is to leave L0 then. -/
structure LoopCal where
  lane : Nat
  phase : LoopPhase
  since : Time
  lost : Option Nat
  sleep : Bool
  result : Option (Nat × Int)
deriving DecidableEq, Repr

/-- The thermal record of R424: SOURCE, DELTA_T, and by input KIND, OFFSET, PARAM_A, PARAM_B. -/
structure RemoteCfg where
  kind : Nat
  offset : Int
  paramA : Nat
  paramB : Nat
deriving DecidableEq, Repr

/-- A sensor (0 to 23 on die, 24 to 27 TSENSE): its latest reading (200.0 °C while broken), whether it is broken, an
open episode and since when it reads in range (R429). -/
structure Sensor where
  reading : Int
  broken : Bool
  episode : Bool
  inRangeSince : Option Time
  excluded : Bool
  brokenSeq : Option Nat
deriving DecidableEq, Repr

/-- Calibration and temperature (R413 to R434): `convertedAt`, `remoteAt`, `evaluatedAt` and `judgedAt` are the instants of the latest
conversions and evaluations, which come at their intervals. -/
structure Thermal where
  targets : Tab CalTarget
  loops : Tab (Option LoopCal)
  op : Option CalOp
  sourceCfg : Nat
  deltaT : Nat
  remotes : Tab RemoteCfg
  sensors : Tab Sensor
  tj : Int
  warn : Bool
  throttle : Bool
  belowSince : Option Time
  convertedAt : Time
  remoteAt : Tab Time
  evaluatedAt : Time
  judgedAt : Time
deriving DecidableEq, Repr

/-! ## The whole machine -/

/-- The state of the block. `pending` is the queue of commands, first in first out; `draws` counts the draws of
`Config.freeNat` and is the model's own. -/
structure State where
  pending : List Instr
  dev : DevState
  fault : FaultCause
  clk : Clk
  host : HostIf
  regs : RegWindow
  counters : Tab Nat
  log : LogUnit
  trace : Trace
  press : Option Press
  run : Run
  web : Web
  tables : Tables
  store : Store
  path : PrintPath
  link : Link
  cams : Tab CamPort
  keep : Keeping
  dram : Dram
  boot : BootUnit
  net : Net
  thermal : Thermal
  draws : Nat
deriving DecidableEq, Repr

/-! ## The state after reset

Each `reset` is the value its structure has right after reset: what the manual gives (cited), else zero, or empty, by
log entry 1. A family's `reset` is what an index that is not listed holds. -/

/-- A ring that is not enabled (R321, R353, R354): PHASE is 1 on its first pass. -/
def Ring.reset : Ring where
  enabled := false
  cmdBase := 0
  replyBase := 0
  log2 := 0
  vector := 0
  coalN := 0
  coalUs := 0
  cmdHead := 0
  cmdTail := 0
  replyHead := 0
  replyTail := 0
  phase := true
  owed := 0
  unsignalled := 0
  oldest := 0
  fetched := []
  orphans := []
  last := none

def Msix.reset : Msix where
  addr := 0
  data := 0
  masked := true

def Bank.reset : Bank where
  image := []
  length := 0
  loaded := false
  checked := false
  follow := false
  pressDigest := 0
  slotN := []
  poison := []

def TableSt.reset : TableSt where
  bank0 := []
  bank1 := []
  live := 0
  since := 0
  poison0 := []
  poison1 := []
  told0 := []
  told1 := []

def Latch.reset : Latch where
  page := none
  bytes := []
  before := []
  frozen := false

def Context.reset : Context where
  page := none
  tileRow := 0
  group := 0
  header := none
  headerBad := none
  bytes := []
  got := []
  poisoned := []
  skipped := false
  begun := false
  rows := []
  failed := none
  good := []
  goodCov := []
  concealing := none
  clean := false
  decoded := []
  masks := []
  outs := []

def Group.reset : Group where
  down := .loff
  up := .loff
  dsLane := none
  switch := none
  failedLane := none
  locked := false
  goodRun := 0
  window := []
  descr := 0
  prbsLanes := 0
  prbsPattern := 0
  u0Seen := 0
  u0Reg := 0
  u0Errors := 0
  gens := []
  sent := []
  wokeFrom := .loff
  wokeAt := 0
  enumAt := none
  mark := none
  prog := none

def Energy.reset : Energy where
  w1 := 0
  w2 := 0
  w3 := 0
  warm := 0
  warmN := 0

def Slot.reset : Slot where
  head := none
  credit := 0
  telem := none
  telem2 := none
  withdrawn := none
  gone := []
  limitSeen := false
  tabsHeld := false
  warnHeld := false
  vsupHeld := false
  energy := Energy.reset
  loaded := false
  tempMax := 0
  vsupMin := 0
  vsupMax := 0
  flagsOr := 0
  warmMax := 0
  seen := 0
  survey := none

def Bar.reset : Bar where
  fireEn := false
  latch := false
  releaseBoundary := 0
  fellAt := 0
  lows := []

def Encoder.reset : Encoder where
  count := 0
  edges := 0
  firstAt := 0
  lastAt := 0
  bad := false
  levelA := false
  levelB := false
  lastEdge := none

def Comparator.reset : Comparator where
  mode := 0
  w := 0
  period := 0

def ToutProg.reset : ToutProg where
  mode := 0
  activeLow := false
  source := 0
  width := 0
  start := 0
  period := 0
  earliest := 0

def Tout.reset : Tout where
  prog := ToutProg.reset
  waiting := none
  active := false
  endsAt := 0
  nextPulse := 0
  pending := []

def VisionBlock.reset : VisionBlock where
  positions := []
  sums := []
  counts := []
  seq := 0

def CamPort.reset : CamPort where
  ctx := none
  next := none
  disabling := false
  frame := none
  closing := []
  frames := 0
  lineBuf := []
  part := none
  badLine := false
  staging := 0
  staged := []
  lineLost := false
  panic := false
  block := VisionBlock.reset
  vision := []
  windows := []
  installed := 0
  chains := []
  codeWait := []
  captures := []

def KeepRecord.reset : KeepRecord where
  interval := 0
  stepMax := 0
  range := 0
  deadband := 0
  domMin := 0
  otherMax := 0
  unifTol := 0
  minSamples := 0
  minCover := 0

def KeepBar.reset : KeepBar where
  enabled := false
  record := KeepRecord.reset
  gRef := []
  intervalStart := none
  intervals := 0
  acc := []
  stepAt := none
  stepped := 0
  held := 0
  atRange := 0
  inBand := 0
  maxStep := 0
  samples := 0
  rangeLogged := []
  thinLogged := []
  ownedUntil := none
  lastStep := 0
  computed := none

def ZoneAcc.reset : ZoneAcc where
  count := 0
  weight := 0
  sum := { num := 0, den := 1 }

def FeedAcc.reset : FeedAcc where
  sum := 0
  count := 0
  least := 0
  greatest := 0
  disturbed := false
  ramp := false

def Channel.reset : Channel where
  sr := .awake
  lastRequest := 0
  held := []
  cancelled := false
  lastRetrain := 0
  oscSince := 0
  zq := false

def PtpDomain.reset : PtpDomain where
  number := 255
  transport := 0
  delayMech := 0
  bandwidth := 0
  asymA := 0
  asymB := 0
  masters := []
  selected := none
  offsets := []
  filtered := []
  delays := []
  pendingSync := none
  syncOrigin := 0
  syncArrival := 0
  syncAt := none
  syncInterval := 0
  delayReq := none
  pdelayReq := []
  pdelayRx := []
  estimate := false
  heldSince := 0
  txSeq := 0

def NetPort.reset : NetPort where
  mode := 0
  up := false
  counters := []
  lastTx := none

def CalTarget.reset : CalTarget where
  value := 0
  was := 0
  movedAt := 0
  reference := none
  pending := false
  failures := 0
  retryAt := none
  gaveUp := none
  running := false
  m1 := none
  startState := 0
  setting := 0
  spanStart := none
  spanBest := none
  noSpan := false
  slice := 0

def RemoteCfg.reset : RemoteCfg where
  kind := 0
  offset := 0
  paramA := 0
  paramB := 0

def Sensor.reset : Sensor where
  reading := 0
  broken := false
  episode := false
  inRangeSince := none
  excluded := false
  brokenSeq := none

def SlotDesc.reset : SlotDesc where
  q := 0xFF
  d := 0
  g := 0
  a := 0
  f := 0

def BarDesc.reset : BarDesc where
  pressCol0 := 0
  keySlot := 0
  leftW := 0
  rightW := 0
  leftBias := 0
  rightBias := 0
  leftKind := 0
  rightKind := 0
  aKey := 0
  fKey := 0

def Clk.reset : Clk where
  elapsed := 0
  offset := 0
  source := .freeRun
  taiValid := false
  slew := none
  rate := 0
  rateWas := 0
  rateSince := 0
  rates := []
  steps := 0
  prefer := 0

def Plume.reset : Plume where
  enabled := false
  base := 0
  log2 := 0
  vector := 0
  coalN := 0
  coalUs := 0
  interval := 0
  head := 0
  tail := 0
  phase := true
  seq := 0
  lost := 0
  lostPending := 0
  firstLost := 0
  unsignalled := 0
  oldest := 0
  snap := []
  summed := none
  summaryAt := 0

def HostIf.reset : HostIf where
  linkUp := false
  perstLow := false
  mem := []
  badReads := []
  rings := []
  longOps := []
  waits := []
  evtStatus := 0
  evtEnable := 0
  matchStatus := 0
  msix := []
  pba := 0
  messages := []
  plume := Plume.reset
  epWrites := []

def RegWindow.reset : RegWindow where
  scratch := 0
  hotResets := 0
  readData := 0
  readEp := false
  lowLatch := []
  timeGroup := []
  runGroup := []

def LogUnit.reset : LogUnit where
  next := 0
  overflow := 0
  slots := []
  readMark := 0
  first := none
  firstArrival := none
  since := []
  queue := []
  followUps := []
  arrivals := 0
  fatalRecords := []

def Trace.reset : Trace where
  mode := 0
  output := 0
  barMask := 0
  sources := 0
  triggerCode := 0
  post := 0
  startPos := 0
  armed := false
  stopped := true
  write := 0
  wraps := 0
  triggered := false
  postLeft := 0
  buffer := []
  queue := []
  lost := 0
  portFree := 0
  portCount := 0
  portFrame := []

def Run.reset : Run where
  jobId := 0
  seqEntry := 0
  firstPage := 0
  pageIndex := 0
  leadIn := 0
  tRun := 0
  p0 := 0
  startArmed := false
  startMark := none
  active := 0
  banks := []
  schedOp := none
  pages := []
  marked := []
  defects := []
  ready := []
  commits := []
  copies := []
  locks := []
  activation := none
  oldBankBusy := false
  stop := .none
  hdmStale := []
  armPolicy := 0
  armLead := 0
  gapStartPos := 0
  gapStartPage := 0xFFFFFFFF
  pageDonePos := 0
  pageDonePage := 0xFFFFFFFF
  pagePlaced := 0xFFFFFFFF
  rejoinAt := none

def Motion.reset : Motion where
  trim := 0
  encSel := 0
  encFilter := 3
  speedPolicy := 0
  countLen0 := 0
  countLen1 := 0
  dir := 0
  linePitch := 0
  errLimit := 0
  checkTol := 0
  markFilter := 0

def Web.reset : Web where
  running := false
  ticked := false
  webPos := 0
  tickTime := 0
  period := 0
  nominal := 0
  pEnc := .unset
  updates := []
  late := []
  lastUpdateSeq := 0
  motion := Motion.reset
  windowStart := 0
  trims := []
  encoders := []
  lengthErr := 0
  warned := false
  limited := false
  eps := none
  regActive := false
  marks := []
  comparators := []
  touts := []
  history := []
  stoppedAt := 0

def Tables.reset : Tables where
  classes := []
  latches := []
  ramps := []
  zoneCommits := []

def Store.reset : Store where
  dram := []
  poison := []
  poisonMap := []
  frames := []
  areas := []
  codec := []
  tilesDone := 0

def PrintPath.reset : PrintPath where
  contexts := []
  inflight := []
  lines := []
  staging := []
  issued := []
  wear := []
  wearTotals := []
  wearSat := []
  lastHarvest := 0

def Inputs.reset : Inputs where
  barOpenN := 0
  mediaOk := false
  jamN := 0
  estopN := false
  thermalOk := true

def Link.reset : Link where
  groups := []
  slots := []
  bars := []
  inputs := Inputs.reset
  scan := none
  load := none
  survey := none
  rf := []
  health := []
  toPlan := []
  results := []
  creditAuditAt := none

def Keeping.reset : Keeping where
  bars := []
  target := []
  decls := []
  capture := none
  reg := none
  streaks := []
  shifts := []
  rows := []
  feedOpen := []
  feed := []
  feedNext := 0

def DramConfig.reset : DramConfig where
  config := 0
  rate := 0
  map := 2
  hot := false
  retain := false
  srIdle := 0
  timing := []

def Dram.reset : Dram where
  cfg := DramConfig.reset
  trained := false
  vendor := 0
  debt := []
  debtAt := []
  channels := []
  taps := []
  windowAt := []
  hot := []
  repairs := []
  recent := []
  sramPoison := []
  scrubDram := 0
  scrubSram := 0
  passHours := 24
  scrub := none

def Checkpoint.reset : Checkpoint where
  runRecord := none
  ready := []
  mapBad := false
  mapFrames := []
  mapAreas := []
  mirror := []
  mirrorBad := []
  zoneGains := []
  cfg := none
  taps := []
  vendor := 0

def BootUnit.reset : BootUnit where
  path := .booting
  warm := false
  source := .porN
  resetAt := 0
  resetReq := none
  retained := false
  maint := .none
  fwVersion := 0
  ucodeVersion := 0
  fatal := none
  fatalRec := []
  fatalAt := 0
  recordLost := false
  flash := []
  preferred := 0
  trial := false
  tries := 0
  update := none
  dataOp := none
  commitOp := none
  checkpoint := Checkpoint.reset
  porLow := false
  resetLow := false
  supplyBad := false
  resetOutN := false
  wdogOut := false
  xspiResetN := false
  dramResetN := false
  straps := 0
  domains := 1
  domainsReady := 1
  shutdownRec := none
  shutdowns := []
  coolSince := none
  lockoutLog := false
  rejoin := none
  jtag := 1
  pllLost := []
  wdogFed := []

def LeadUnit.reset : LeadUnit where
  role := .none
  config := none
  epochSeen := 0
  epoch := 0
  leaseEnd := 0
  renewedAt := 0
  leadIndex := none
  verdictNone := false
  verdictEpoch := none
  autoSuspended := false
  handoff := none
  transferAt := none
  peers := []
  hbSeq := 0
  release := false
  stopReq := none
  stopAt := none
  stopNow := false
  startRec := false
  healthySince := none
  leadRecord := none
  leadUpdate := none
  leadPending := []
  hbLast := none

def Net.reset : Net where
  ports := []
  vlan := 0
  ipv4 := 0
  netmask := 0
  domains := []
  dup := []
  supervisedAt := none
  prpSeq := 0
  lead := LeadUnit.reset

def Thermal.reset : Thermal where
  targets := []
  loops := []
  op := none
  sourceCfg := 0
  deltaT := 0
  remotes := []
  sensors := []
  tj := 0
  warn := false
  throttle := false
  belowSince := none
  convertedAt := 0
  remoteAt := []
  evaluatedAt := 0
  judgedAt := 0

/-- The machine right after reset. -/
def State.reset : State where
  pending := []
  dev := .boot
  fault := .none
  clk := Clk.reset
  host := HostIf.reset
  regs := RegWindow.reset
  counters := []
  log := LogUnit.reset
  trace := Trace.reset
  press := none
  run := Run.reset
  web := Web.reset
  tables := Tables.reset
  store := Store.reset
  path := PrintPath.reset
  link := Link.reset
  cams := []
  keep := Keeping.reset
  dram := Dram.reset
  boot := BootUnit.reset
  net := Net.reset
  thermal := Thermal.reset
  draws := 0

/-- Reasons the model stops with a fault. -/
inductive Fault where
  /-- Raised by DYNAMIC_SHARE_REQUEST and SCRUB_READ for an address beyond installed memory, which the manual says
  does not exist (R285, R311). Safe: the model stops. -/
  | noSuchAddress
deriving DecidableEq, Repr

/-- Reasons the model refuses a command. -/
inductive Refusal where
  /-- The command has no meaning in the model yet. Raised by exec's refused arms only. Safe. -/
  | notModelled (mnemonic : String)
deriving DecidableEq, Repr

end Sys2Proof.Machine
end

