-- ==== Sys2Proof/Machine/Ops.lean ====
section
/-! DEFINITION. Machine/Ops.lean: the operations every family of commands shares: sparse tables, byte order and bit
fields, one-field updates of State, elapsed time and the time base, host memory through DMA. -/

namespace Sys2Proof.Machine

open Sys2Proof

/-- What a meaning answers. -/
abbrev Result := Host.Outcome State Fault Refusal

/-! ## Sparse tables -/

/-- What key `k` of a sparse table reads as; `d k` where it is not listed. -/
def tget {α : Type} (d : Nat → α) : Tab α → Nat → α
  | [], k => d k
  | (k', v) :: t, k => if k = k' then v else tget d t k

/-- Write key `k` of a sparse table, in canonical form: writing the value an unlisted key reads as removes the entry. -/
def tput {α : Type} [DecidableEq α] (d : Nat → α) : Tab α → Nat → α → Tab α
  | [], k, v => if v = d k then [] else [(k, v)]
  | (k', v') :: t, k, v =>
    if k < k' then (if v = d k then (k', v') :: t else (k, v) :: (k', v') :: t)
    else if k = k' then (if v = d k then t else (k, v) :: t)
    else (k', v') :: tput d t k v

/-- The keys of a table rise strictly, all from `lo` on, and no entry holds what its key would read as unlisted. -/
def twfFrom {α : Type} [DecidableEq α] (d : Nat → α) : Nat → Tab α → Bool
  | _, [] => true
  | lo, (k, v) :: t => decide (lo ≤ k) && decide (v ≠ d k) && twfFrom d (k + 1) t

/-- The canonical form of a sparse table. -/
def twf {α : Type} [DecidableEq α] (d : Nat → α) (t : Tab α) : Bool := twfFrom d 0 t

/-- A table indexed family of numbers that start at 0. -/
def nget (t : Tab Nat) (k : Nat) : Nat := tget (fun _ => 0) t k
def nput (t : Tab Nat) (k v : Nat) : Tab Nat := tput (fun _ => 0) t k v

/-! ## Byte memories -/

/-- `n` bytes of a memory from address `a` on. -/
def mread (d : Nat → Byte) (m : Mem) (a : Nat) : Nat → List Byte
  | 0 => []
  | n + 1 => tget d m a :: mread d m (a + 1) n

/-- Place bytes in a memory from address `a` on. -/
def mwrite (d : Nat → Byte) (m : Mem) (a : Nat) : List Byte → Mem
  | [] => m
  | b :: bs => mwrite d (tput d m a b) (a + 1) bs

/-- The canonical form of the two memories, host memory and DRAM, whose unlisted bytes read 0. -/
def memWf (m : Mem) : Bool := twf (fun _ => (0 : Byte)) m

/-- What an unlisted byte of host memory and of DRAM reads as (R370 for DRAM). -/
def zeroByte : Nat → Byte := fun _ => 0

/-! ## Byte order and bit fields (little-endian throughout: R324, R339, R441) -/

/-- The number that bytes spell, lowest byte first. -/
def leNat : List Byte → Nat
  | [] => 0
  | b :: bs => b.toNat + 256 * leNat bs

/-- `w` bytes of a number, lowest first; what does not fit is dropped. -/
def leBytes : Nat → Nat → List Byte
  | 0, _ => []
  | w + 1, v => BitVec.ofNat 8 v :: leBytes w (v / 256)

/-- A number of `w` bytes read as two's complement. -/
def signed (w v : Nat) : Int := if v < 2 ^ (8 * w - 1) then (v : Int) else (v : Int) - (2 ^ (8 * w) : Nat)

/-- Two's complement of an integer in `w` bytes, as a number. -/
def unsigned (w : Nat) (v : Int) : Nat := (v % ((2 ^ (8 * w) : Nat) : Int)).toNat

/-- `w` bytes of an integer. -/
def leInt (w : Nat) (v : Int) : List Byte := leBytes w (unsigned w v)

/-- Bits [lo + n - 1 : lo] of a number. -/
def bits (v lo n : Nat) : Nat := v / 2 ^ lo % 2 ^ n

/-- Bit i of a number. -/
def bit (v i : Nat) : Bool := v.testBit i

/-- A number with bit i set, or cleared. -/
def setBit (v i : Nat) (b : Bool) : Nat := if v.testBit i = b then v else if b then v + 2 ^ i else v - 2 ^ i

def bitNat (b : Bool) : Nat := if b then 1 else 0

/-- The numbers below n whose bit is set in a mask, rising. -/
def maskList (mask n : Nat) : List Nat := (List.range n).filter (fun i => bit mask i)

def countBits (mask n : Nat) : Nat := (maskList mask n).length

/-- The mask of a list of bit numbers. -/
def maskOf (l : List Nat) : Nat := l.foldl (fun m i => setBit m i true) 0

/-- `w` bytes of a byte list from offset `o`, as a number; absent bytes count 0. -/
def field (bs : List Byte) (o w : Nat) : Nat := leNat ((bs.drop o).take w)

def fieldInt (bs : List Byte) (o w : Nat) : Int := signed w (field bs o w)

/-- A byte list padded with zeros, or cut, to n bytes. -/
def padTo (n : Nat) (bs : List Byte) : List Byte := (bs ++ List.replicate n 0).take n

/-- Put bytes over a byte list at offset `o`; the list keeps its length. -/
def overlay (bs : List Byte) (o : Nat) (x : List Byte) : List Byte :=
  (bs.take o ++ x ++ bs.drop (o + x.length)).take bs.length

/-- The first element that has a property, with its place. -/
def findIndexFrom {α : Type} (p : α → Bool) : Nat → List α → Option Nat
  | _, [] => none
  | n, a :: l => if p a then some n else findIndexFrom p (n + 1) l

def findIndex {α : Type} (p : α → Bool) (l : List α) : Option Nat := findIndexFrom p 0 l

/-- Element n of a list, or a default. -/
def nth {α : Type} (d : α) : List α → Nat → α
  | [], _ => d
  | a :: _, 0 => a
  | _ :: l, n + 1 => nth d l n

/-- The elements of a list, each once. -/
def distinct {α : Type} [DecidableEq α] (l : List α) : List α := l.foldr (fun a r => if a ∈ r then r else a :: r) []

/-- Saturation at the greatest number of `w` bytes. -/
def sat (w v : Nat) : Nat := min v (2 ^ (8 * w) - 1)

/-- An integer held between two bounds. -/
def clampInt (lo hi v : Int) : Int := if v < lo then lo else if hi < v then hi else v

def clampNat (lo hi v : Nat) : Nat := if v < lo then lo else if hi < v then hi else v

/-- Quotient rounded to nearest, ties away from zero, for a positive divisor. -/
def roundDivNat (a b : Nat) : Nat := (2 * a + b) / (2 * b)

def roundDiv (a : Int) (b : Nat) : Int :=
  if 0 ≤ a then (roundDivNat a.toNat b : Int) else -(roundDivNat (-a).toNat b : Int)

/-- Quotient rounded up. -/
def ceilDiv (a b : Nat) : Nat := (a + b - 1) / b

/-! ## Exact quotients of colour keeping -/

/-- A quotient in lowest terms. -/
def frac (n : Int) (d : Nat) : Frac :=
  let g := max 1 (Nat.gcd n.natAbs d)
  { num := n / (g : Int), den := d / g }

def Frac.zero : Frac := { num := 0, den := 1 }

def Frac.add (x y : Frac) : Frac := frac (x.num * y.den + y.num * x.den) (x.den * y.den)

/-- A quotient times a whole number. -/
def Frac.scale (x : Frac) (n : Nat) : Frac := frac (x.num * n) x.den

/-- A quotient as the firmware rounds it: itself where it is whole, else one of its two neighbours (log 11). -/
def quotient (n : Int) (d : Nat) : Int :=
  n / (d : Int) + (if n % (d : Int) = 0 then 0 else if Config.roundsUp n d then 1 else 0)

def sumInt (l : List Int) : Int := l.foldl (· + ·) 0

/-! ## Updates of one field of State -/

def State.withPending (s : State) (x : List Instr) : State := { s with pending := x }
def State.withDev (s : State) (x : DevState) : State := { s with dev := x }
def State.withFault (s : State) (x : FaultCause) : State := { s with fault := x }
def State.withClk (s : State) (x : Clk) : State := { s with clk := x }
def State.withHost (s : State) (x : HostIf) : State := { s with host := x }
def State.withRegs (s : State) (x : RegWindow) : State := { s with regs := x }
def State.withCounters (s : State) (x : Tab Nat) : State := { s with counters := x }
def State.withLog (s : State) (x : LogUnit) : State := { s with log := x }
def State.withTrace (s : State) (x : Trace) : State := { s with trace := x }
def State.withPress (s : State) (x : Option Press) : State := { s with press := x }
def State.withRun (s : State) (x : Run) : State := { s with run := x }
def State.withWeb (s : State) (x : Web) : State := { s with web := x }
def State.withTables (s : State) (x : Tables) : State := { s with tables := x }
def State.withStore (s : State) (x : Store) : State := { s with store := x }
def State.withPath (s : State) (x : PrintPath) : State := { s with path := x }
def State.withLink (s : State) (x : Link) : State := { s with link := x }
def State.withCams (s : State) (x : Tab CamPort) : State := { s with cams := x }
def State.withKeep (s : State) (x : Keeping) : State := { s with keep := x }
def State.withDram (s : State) (x : Dram) : State := { s with dram := x }
def State.withBoot (s : State) (x : BootUnit) : State := { s with boot := x }
def State.withNet (s : State) (x : Net) : State := { s with net := x }
def State.withThermal (s : State) (x : Thermal) : State := { s with thermal := x }
def State.withDraws (s : State) (x : Nat) : State := { s with draws := x }

/-! ## Elapsed time and the time base (R230, R358, R390, R394) -/

def nsT : Nat := 65536
def usT : Nat := 1000 * nsT
def msT : Nat := 1000 * usT
def secT : Nat := 1000 * msT

/-- The step happens at elapsed time `t`; elapsed time never goes back. -/
def State.at (s : State) (t : Time) : State := s.withClk { s.clk with elapsed := max s.clk.elapsed t }

/-- What has been slewed in of a difference D after a span, at 10 ppm (R394). -/
def slewed (d : Int) (span : Nat) : Int :=
  if 0 ≤ d then min d (span / 100000 : Nat) else max d (-((span / 100000 : Nat) : Int))

/-- How long a move of the DCO by `gap` ppb lasts at 1 ppm per ms, and its correction after a span (R394). -/
def dcoRamp (gap : Nat) : Nat := gap * (msT / 1000)

def dcoRate (r0 r1 : Int) (span : Nat) : Int :=
  let step : Int := (span / (msT / 1000) : Nat)
  if r0 ≤ r1 then min r1 (r0 + step) else max r1 (r0 - step)

/-- What the DCO's correction adds in a span in which it moves from `r0` to `r1` ppb, at 1 ppm per ms, and then stays (R390, R394). -/
def dcoGain (r0 r1 : Int) (span : Nat) : Int :=
  let a := min span (dcoRamp (r1 - r0).natAbs)
  let bend : Int := (a * a / (2 * (msT / 1000)) : Nat)
  (r0 * a + (if r0 ≤ r1 then bend else -bend) + r1 * (span - a : Nat)) / 1000000000

/-- What has been slewed in by elapsed time `t`. -/
def Clk.slewedBy (c : Clk) (t : Time) : Int :=
  match c.slew with
  | none => 0
  | some (d, since) => slewed d (t - since)

/-- The time base at elapsed time `t`, in 2^-16 ns of TAI (R390, R394). -/
def Clk.baseAt (c : Clk) (t : Time) : Nat :=
  ((t : Int) + c.offset + c.slewedBy t + dcoGain c.rateWas c.rate (t - c.rateSince)).toNat

def State.base (s : State) : Nat := s.clk.baseAt s.clk.elapsed

/-- The time base in ns, low 64 bits (R344, R361). -/
def State.baseNs (s : State) : Nat := s.base / nsT % 2 ^ 64

/-- Bits [31:0] of the time base in µs (R326). -/
def State.baseUs (s : State) : Nat := s.base / usT % 2 ^ 32

/-- An instant of the time base as TAI seconds, nanoseconds and fraction in 2^-16 ns. -/
def taiSec (b : Nat) : Nat := b / secT
def taiNs (b : Nat) : Nat := b % secT / nsT
def taiFrac (b : Nat) : Nat := b % nsT

/-! ## Free values -/

/-- A fresh free value (Config.freeNat) below `n`, and the state with the draw counted. -/
def State.draw (s : State) (n : Nat) : Nat × State := (Config.freeNat s.draws % n, s.withDraws (s.draws + 1))

/-! ## Host memory (R316) -/

def State.withMem (s : State) (m : Mem) : State := s.withHost { s.host with mem := m }

/-- A write of the device into host memory; with the link down nothing arrives (R384). -/
def State.dmaWrite (s : State) (a : Nat) (bs : List Byte) : State :=
  if s.host.linkUp then s.withMem (mwrite zeroByte s.host.mem a bs) else s

/-- The first host address of a span whose read ends in a poisoned completion or a completion timeout; with the link down
every read does (R384). -/
def State.dmaBad (s : State) (a n : Nat) : Option Nat :=
  if s.host.linkUp then s.host.badReads.find? (fun x => decide (a ≤ x ∧ x < a + n)) else some a

/-- The bytes of host memory from `a` on. -/
def State.dmaRead (s : State) (a n : Nat) : List Byte := mread zeroByte s.host.mem a n

end Sys2Proof.Machine
end

