-- ==== Sys2Proof/Machine/Coding.lean ====
section
/-! DEFINITION. Machine/Coding.lean: the block coding of the head link: sync headers, the scrambler, block types (R178, R179), and the test
patterns with their checker (R204). -/

namespace Sys2Proof.Machine

open Sys2Proof

/-! ## Sync headers and the scrambler (R178) -/

/-- The sync header of a block in the order sent: 01 for data, 10 for control. -/
def syncHeader (ctrl : Bool) : List Bool := if ctrl then [true, false] else [false, true]

/-- 00 and 11 are block errors. -/
def headerValid (a b : Bool) : Bool := a != b

/-- The scrambler's register holds the last 58 scrambled bits, the newest in bit 0: x^39 and x^58 are bits 38 and 57. -/
def scramblerTap (r : Nat) : Bool := Nat.testBit r 38 != Nat.testBit r 57
def pushBit (r : Nat) (b : Bool) : Nat := (2 * r + bitNat b) % 2 ^ 58

/-- Payload bits through the scrambler from a register, with the register after them. -/
def scramble : Nat → List Bool → List Bool × Nat
  | r, [] => ([], r)
  | r, b :: l =>
    let x := b != scramblerTap r
    let rest := scramble (pushBit r x) l
    (x :: rest.1, rest.2)

/-- The receiver's side of it: the register takes the bits as received. -/
def descramble : Nat → List Bool → List Bool × Nat
  | r, [] => ([], r)
  | r, x :: l =>
    let rest := descramble (pushBit r x) l
    ((x != scramblerTap r) :: rest.1, rest.2)

/-- A number whose bits are those of a list, the first lowest. -/
def bitsNat : List Bool → Nat
  | [] => 0
  | b :: l => bitNat b + 2 * bitsNat l

def bitList (n v : Nat) : List Bool := (List.range n).map (bit v)

/-- A block as its 66 bits leave the lane, the first in bit 0, with the scrambler's register after it. -/
def wireBlock (r : Nat) (b : Blk) : BitVec 66 × Nat :=
  let x := scramble r (bitList 64 b.payload.toNat)
  (BitVec.ofNat 66 (bitsNat (syncHeader b.ctrl ++ x.1)), x.2)

/-! ## Block types (R179) -/

def blockTypes : List Nat :=
  [0x1E, 0x2D, 0x33, 0x3C, 0x4B, 0x55, 0x5A, 0x66, 0x69, 0x78, 0x87, 0x96, 0xA5, 0xB4, 0xC3, 0xCC, 0xD2, 0xE1]

/-- A payload whose TYPE is reserved. -/
def typeReserved (payload : Nat) : Bool := decide (payload % 256 ∉ blockTypes)

/-! ## Test patterns (R204) -/

/-- Length of the register of a pattern and its other tap: PRBS31 is x^31 + x^28 + 1, PRBS9 is x^9 + x^5 + 1. -/
def prbsTaps (pattern : Nat) : Nat × Nat := if pattern = 0 then (31, 28) else (9, 5)

/-- The next bit of a pattern from a register of its latest bits, the newest in bit 0. -/
def prbsNext (pattern r : Nat) : Bool :=
  let t := prbsTaps pattern
  Nat.testBit r (t.1 - 1) != Nat.testBit r (t.2 - 1)

def prbsPush (pattern r : Nat) (b : Bool) : Nat := (2 * r + bitNat b) % 2 ^ (prbsTaps pattern).1

/-- The next `n` bits of a generator. -/
def prbsBits (pattern : Nat) : Nat → Nat → List Bool
  | 0, _ => []
  | n + 1, r =>
    let b := prbsNext pattern r
    b :: prbsBits pattern n (prbsPush pattern r b)

/-- A checker: the bits it has taken as its start, its register and the errors it has counted, which saturate in 32 bits. -/
structure Checker where
  seen : Nat
  reg : Nat
  errors : Nat
deriving DecidableEq, Repr

/-- A checker takes its register from the first bits received, and counts every later bit that differs from the pattern so begun (DESIGN
CHOICE, log 90: the manual does not say how a checker finds the phase of the pattern). -/
def Checker.take (pattern : Nat) (c : Checker) (b : Bool) : Checker :=
  if c.seen < (prbsTaps pattern).1 then { c with seen := c.seen + 1, reg := prbsPush pattern c.reg b }
  else
    let want := prbsNext pattern c.reg
    { c with reg := prbsPush pattern c.reg want, errors := if b = want then c.errors else sat 4 (c.errors + 1) }

end Sys2Proof.Machine
end

