-- ==== Sys2Proof/Machine/Ecc.lean ====
section
/-! DEFINITION. Machine/Ecc.lean: the codes that protect a DRAM burst and an SRAM word, and the outcome of a read under them (R301 to R304).

Both codes are linear, so what a read finds depends only on how the word read differs from the word stored for the place asked: by bits
that read inverted, by the marker of a poisoned word, and by address bits where the array was read at another place. -/

namespace Sys2Proof.Machine

open Sys2Proof

/-- What a read finds (R304). -/
inductive ReadOut where
  | clean | corrected | poison | uncorrectable
deriving DecidableEq, Repr

/-! ## GF(2^8) -/

/-- Twice an element: the field's polynomial is x^8 + x^4 + x^3 + x^2 + 1, and α is 2 (DESIGN CHOICE, log 87: the manual names none). -/
def gfDouble (a : Nat) : Nat := if 128 ≤ a then Nat.xor (2 * a) 0x11D else 2 * a

/-- The product of `a` and the low `n` bits of `b`. -/
def gfMulBits : Nat → Nat → Nat → Nat
  | 0, _, _ => 0
  | n + 1, a, b => Nat.xor (if b % 2 = 1 then a else 0) (gfMulBits n (gfDouble a) (b / 2))

def gfMul (a b : Nat) : Nat := gfMulBits 8 a b

def gfPow (a : Nat) : Nat → Nat
  | 0 => 1
  | n + 1 => gfMul a (gfPow a n)

/-- Sum of two polynomials, coefficients from degree 0 upward. -/
def gfAdd (p q : List Nat) : List Nat := List.zipWith Nat.xor p q

/-- The product of a polynomial and (a + b x). -/
def gfMulLin (a b : Nat) (p : List Nat) : List Nat := gfAdd (p.map (gfMul a) ++ [0]) (0 :: p.map (gfMul b))

/-- A polynomial at a point. -/
def gfEval (x : Nat) (p : List Nat) : Nat := p.foldr (fun c v => Nat.xor c (gfMul v x)) 0

/-! ## The Reed–Solomon code of a DRAM burst (R301) -/

/-- The degree in the codeword of symbol j of nibble i, as 8 i + j: nibbles 0 to 7 hold data, 8 and 9 the check symbols. The address
symbols follow from degree 80 on (DESIGN CHOICE, log 87). -/
def symbolDegree (p : Nat) : Nat := if p < 64 then 16 + p else p - 64

/-- The generator polynomial, with the roots α^0 to α^15. -/
def rsGenerator : List Nat := (List.range 16).foldl (fun g l => gfMulLin (gfPow 2 l) 1 g) [1]

/-- One more message symbol, from the highest degree downward, in the division by the generator. -/
def rsStep (m : Nat) (rem : List Nat) : List Nat :=
  let f := Nat.xor m (nth 0 rem 15)
  gfAdd (0 :: rem.take 15) ((rsGenerator.take 16).map (gfMul f))

/-- The 16 check symbols over data and address symbols, which are the codeword from degree 16 upward. -/
def rsCheck (message : List Nat) : List Nat := message.foldr rsStep (List.replicate 16 0)

/-- Data symbols of a burst: symbol j of nibble i holds DQ[4i + 3:4i] of beats 2j (low) and 2j + 1 (high); byte k of a beat travels on
DQ[8k + 7:8k] (DESIGN CHOICE, log 87). -/
def burstSymbols (data : List Byte) : List Nat :=
  let nibble (beat i : Nat) : Nat := bits (nth 0 data (4 * beat + i / 2)).toNat (4 * (i % 2)) 4
  (List.range 64).map (fun p => nibble (2 * (p % 8)) (p / 8) + 16 * nibble (2 * (p % 8) + 1) (p / 8))

/-- The 8 address symbols: sub-channel, rank, bank group, bank, row page in three, column burst (DESIGN CHOICE, log 87). -/
def addressSymbols (subch rank bg bank row col : Nat) : List Nat := [subch, rank, bg, bank, row % 256, row / 256 % 256, row / 65536, col]

/-- The 16 syndromes of a word, symbols from degree 0 upward. -/
def rsSyndromes (w : List Nat) : List Nat := (List.range 16).map (fun l => gfEval (gfPow 2 l) w)

/-- The polynomial whose roots locate the eight symbols of a nibble. -/
def nibbleLocator (i : Nat) : List Nat := (List.range 8).foldl (fun p j => gfMulLin 1 (gfPow 2 (symbolDegree (8 * i + j))) p) [1]

/-- Symbols of one nibble alone in error have these syndromes: the recurrence that the nibble's locator sets holds. -/
def nibbleExplains (syn : List Nat) (i : Nat) : Bool :=
  let loc := nibbleLocator i
  (List.range 8).all (fun j => decide ((List.range 9).foldl (fun v k => Nat.xor v (gfMul (nth 0 loc k) (nth 0 syn (j + 8 - k)))) 0 = 0))

/-- The poison constant of each check symbol (R303; DESIGN CHOICE, log 87). -/
def poisonSymbol : Nat := 0xFF

/-- The word by which a poisoned burst differs from the codeword. -/
def rsMarker : List Nat := List.replicate 16 poisonSymbol ++ List.replicate 72 0

/-- The outcome of a read that differs from the codeword by `diff`: the marker's syndromes are POISON, and any others are corrected only
when the symbols in error lie in one nibble. -/
def rsOutcome (diff : List Nat) : ReadOut :=
  if diff.all (fun c => c == 0) then .clean
  else
    let syn := rsSyndromes diff
    if syn.all (fun c => c == 0) then .clean
    else if syn = rsSyndromes rsMarker then .poison
    else if (List.range 10).any (nibbleExplains syn) then .corrected
    else .uncorrectable

/-- By what a burst read differs from the codeword asked for: bits of stored symbols, the marker, and the address symbols of the place
asked and the place read. -/
def burstDiff (asked read : List Nat) (marked : Bool) (flips : List (Nat × Nat)) : List Nat :=
  let flipped := (List.range 80).map (fun d =>
    flips.foldl (fun v f => if symbolDegree f.1 = d then Nat.xor v (f.2 % 256) else v) 0)
  gfAdd (flipped ++ gfAdd asked read) (if marked then rsMarker else List.replicate 88 0)

/-! ## The SEC-DED code of an SRAM word (R302) -/

/-- The columns of weight `n` whose highest 1 lies below bit `top`. -/
def columnsBelow : Nat → Nat → List Nat
  | 0, _ => [0]
  | n + 1, top => (List.range top).flatMap (fun k => (columnsBelow n k).map (fun c => c + 2 ^ k))

/-- The columns of the code for the 128 data bits and the 23 address bits: the 120 of weight 3, then those of weight 5 with bit 0. All are
odd and distinct, and none is the complement of another (DESIGN CHOICE, log 87). -/
def secdedColumns : List Nat := columnsBelow 3 10 ++ (columnsBelow 4 9).map (fun c => 2 * c + 1)

/-- The column of a bit of the stored word: 0 to 127 data, 128 to 137 check bits. -/
def bitColumn (b : Nat) : Nat := if b < 128 then nth 0 secdedColumns b else 2 ^ (b - 128)

/-- What address bits that differ add to the syndrome. -/
def addressSyndrome (x : Nat) : Nat := (maskList x 23).foldl (fun v k => Nat.xor v (nth 0 secdedColumns (128 + k))) 0

/-- The 10 check bits of a word over its data bits and its address (R302). -/
def secdedCheck (data address : Nat) : Nat := (maskList data 128).foldl (fun v b => Nat.xor v (bitColumn b)) (addressSyndrome address)

/-- The outcome of a read of the SRAM word of number `asked` from the word of number `read` (R302, R303). -/
def wordOutcome (asked read : Nat) (marked : Bool) (flips : List Nat) : ReadOut :=
  if asked = read ∧ flips = [] then (if marked then .poison else .clean)
  else
    let syn := flips.foldl (fun v b => Nat.xor v (bitColumn b)) (addressSyndrome (Nat.xor asked read))
    let syn := if marked then Nat.xor syn 0x3FF else syn
    if syn = 0 then .clean
    else if syn = 0x3FF then .poison
    else if syn ∈ secdedColumns.take 128 ∨ syn ∈ (List.range 10).map (fun k => 2 ^ k) then .corrected
    else .uncorrectable

/-! ## The layout of the on-die memory (R300) -/

/-- What the SRAM word at a byte address is used for: byte `off` of a bank of a table class and bar, a schedule bank, a wear counter, a
decoder context, line staging, a camera's line buffers or vision ring, the compressor, the feed accumulators and counters, firmware data,
or nothing. -/
inductive SramUse where
  | schedule (bank off : Nat) | table (cls bar bank off : Nat) | wear (counter : Nat) | context (bar layer context : Nat) | staging
  | cameraLine (port : Nat) | vision (port : Nat) | compressor | counters | firmware | none
deriving DecidableEq, Repr

/-- Bytes a bank of a table takes, in whole words. -/
def tableWords (size : Nat) : Nat := 16 * ceilDiv size 16

/-- The tables that a run of banks holds, one class after the other and in each by bar and then by bank; `bars` is how many copies the
class has. -/
def tableUse : List (Nat × Nat × Nat) → Nat → SramUse
  | [], _ => .none
  | (cls, size, bars) :: l, off =>
    let n := tableWords size
    if off < 2 * bars * n then .table cls (off / (2 * n)) (off / n % 2) (off % n)
    else tableUse l (off - 2 * bars * n)

/-- Where a bank of a table lies in its run of banks. -/
def tablePlace : List (Nat × Nat × Nat) → Nat → Nat → Nat → Nat
  | [], _, _, _ => 0
  | (c, size, bars) :: l, cls, bar, bank =>
    if c = cls then tableWords size * (2 * bar + bank) else 2 * bars * tableWords size + tablePlace l cls bar bank

end Sys2Proof.Machine
end

