-- ==== Sys2Proof/Machine/Flags.lean ====
section
/-! DEFINITION. Machine/Flags.lean: what every unit raises and counts: counters, MSI-X messages, events, Plume records,
trace records, reports to the log and the writing of log entries. -/

namespace Sys2Proof.Machine

open Sys2Proof

/-! ## Counters (R360) -/

/-- Counter `i` as it reads. -/
def State.counter (s : State) (i : Nat) : Nat := nget s.counters i

/-- Counter `i` counts `n` more, saturating at 64 bits. -/
def State.countN (s : State) (i n : Nat) : State := s.withCounters (nput s.counters i (sat 8 (s.counter i + n)))

def State.count (s : State) (i : Nat) : State := s.countN i 1

/-- Counter j of bar b, of slot s of bar b, of camera port p (R360). -/
def barCounter (b j : Nat) : Nat := 64 + 32 * b + j
def slotFaultCounter (b sl : Nat) : Nat := 320 + 24 * b + sl
def slotRepeatCounter (b sl : Nat) : Nat := 512 + 24 * b + sl
def camCounter (p j : Nat) : Nat := 704 + 32 * p + j

/-! ## Messages (R315, R357) -/

def State.msixEntry (s : State) (v : Nat) : Msix := tget (fun _ => Msix.reset) s.host.msix v

/-- Signal vector v: a masked vector sets its pending bit, any other sends its message. -/
def State.signal (s : State) (v : Nat) : State :=
  if (s.msixEntry v).masked then s.withHost { s.host with pba := s.host.pba ||| BitVec.ofNat 80 (2 ^ v) }
  else s.withHost { s.host with messages := nput s.host.messages v (nget s.host.messages v + 1) }

/-! ## Trace (R452 to R455) -/

/-- The 16 bytes of a trace record. -/
def traceBytes (s : State) (source unit : Nat) (data : List Byte) : List Byte :=
  leBytes 6 s.baseNs ++ leBytes 1 source ++ leBytes 1 unit ++ padTo 8 data

/-- The time the port takes for a record: 18 bytes at 250 MHz (R454). -/
def portFrameTime : Time := 72 * nsT

/-- Records that the port has sent by now leave the queue (R455). -/
def Trace.drain (t : Trace) (now : Time) : Trace :=
  let gone := t.queue.filter (fun x => decide (x.1 ≤ now))
  match gone.getLast? with
  | none => t
  | some x => { t with queue := t.queue.filter (fun x => decide (now < x.1)),
                       portCount := (t.portCount + gone.length) % 256,
                       portFrame := (0xA5 : Byte) :: leBytes 1 ((t.portCount + gone.length - 1) % 256) ++ x.2 }

/-- A record is taken: by the buffer at once, where FILL stops when it is full, and by the queue to the port; recording after the trigger
stops when its POST records are written (R453). -/
def Trace.take (t : Trace) (now : Time) (rec : List Byte) : Trace :=
  let t := if bit t.output 0 then
      { t with buffer := mwrite zeroByte t.buffer t.write rec,
               write := (t.write + 16) % 4194304,
               wraps := if t.write + 16 = 4194304 then sat 4 (t.wraps + 1) else t.wraps,
               stopped := decide (t.mode = 1 ∧ t.write + 16 = 4194304) }
    else t
  let sent := max now t.portFree + portFrameTime
  let t := if bit t.output 1 then { t with queue := t.queue ++ [(sent, rec)], portFree := sent } else t
  { t with postLeft := if t.triggered then t.postLeft - 1 else t.postLeft }

/-- A record arrives at the queue of 4,096 (R455): a full queue drops it, and the first record after space returns is a LOST record. -/
def Trace.offer (t : Trace) (now : Time) (lostRec : Nat → List Byte) (rec : List Byte) : Trace :=
  let t := t.drain now
  if 4096 ≤ t.queue.length then { t with lost := sat 8 (t.lost + 1) }
  else if t.lost = 0 then t.take now rec
  else
    let t : Trace := { t.take now (lostRec t.lost) with lost := 0 }
    if 4096 ≤ t.queue.length then { t with lost := 1 } else if t.stopped then t else t.take now rec

def State.traceWrite (s : State) (rec : List Byte) : State :=
  s.withTrace (s.trace.offer s.clk.elapsed (fun n => traceBytes s 15 (Config.traceUnit 15) (leBytes 8 n)) rec)

/-- A traced activity: recorded while the trace is recording and its source, and for sources 0, 3, 4 and 5 its bar,
is selected. -/
def State.traceRec (s : State) (source unit : Nat) (data : List Byte) : State :=
  let t := s.trace
  let barOk := decide (source ∉ [0, 3, 4, 5]) || bit t.barMask unit
  if !t.stopped && bit t.sources source && barOk && !(t.triggered && t.postLeft == 0) then
    s.traceWrite (traceBytes s source unit data)
  else s

/-! ## Events (R336, R337) -/

/-- Event `i` occurs. Its bit is set whatever EVT_ENABLE holds; a bit that was clear and is enabled signals vector
64 + i. -/
def State.raise (s : State) (i : Nat) : State :=
  let was := s.host.evtStatus.getLsbD i
  let s := s.traceRec 2 (Config.traceUnit 2) (leBytes 1 i ++ [0] ++ leBytes 6 s.web.webPos)
  let s := s.withHost { s.host with evtStatus := s.host.evtStatus ||| BitVec.ofNat 16 (2 ^ i) }
  if !was && s.host.evtEnable.getLsbD i then s.signal (64 + i) else s

/-! ## Plume (R343 to R346) -/

/-- Entries of the stream that host software has not freed, and the free ones. -/
def Plume.used (p : Plume) : Nat := (p.tail + 2 ^ p.log2 - p.head) % 2 ^ p.log2
def Plume.free (p : Plume) : Nat := 2 ^ p.log2 - 1 - p.used

/-- The coalescing rule of R323 after one more entry: signal now, or wait. -/
def coalesceDue (n pendingEntries : Nat) : Bool := decide (max n 1 ≤ pendingEntries)

/-- Write one entry of the stream at PLUME_TAIL (R344). -/
def State.plumeWrite (s : State) (kind seq : Nat) (body : List Byte) : State :=
  let p := s.host.plume
  let e := leBytes 1 kind ++ leBytes 1 (bitNat p.phase) ++ leBytes 2 body.length ++ leBytes 4 seq
    ++ leBytes 8 s.web.webPos ++ leBytes 8 s.baseNs ++ padTo 40 body
  let s := s.dmaWrite (p.base + 64 * p.tail) e
  let tail := (p.tail + 1) % 2 ^ p.log2
  let n := p.unsignalled + 1
  let due := coalesceDue p.coalN n
  let s := s.withHost { s.host with plume :=
    { p with tail := tail, phase := if tail = 0 then !p.phase else p.phase,
             unsignalled := if due then 0 else n,
             oldest := if p.unsignalled = 0 then s.clk.elapsed else p.oldest } }
  if due then s.signal p.vector else s

/-- A record is produced: a LOST record goes ahead of it when records were lost and an entry is free, and the record
itself is written, or lost and counted when none is free (R346). SEQ counts every record, written or not (log 22). -/
def State.plumeEmit (s : State) (kind : Nat) (body : List Byte) : State :=
  let p := s.host.plume
  let s := if p.enabled && decide (0 < p.lostPending) && decide (0 < p.free) then
      let s := s.plumeWrite 5 p.seq (leBytes 4 p.lostPending ++ leBytes 4 p.firstLost)
      s.withHost { s.host with plume := { s.host.plume with seq := (p.seq + 1) % 2 ^ 32, lostPending := 0 } }
    else s
  let p := s.host.plume
  let s := s.withHost { s.host with plume := { p with seq := (p.seq + 1) % 2 ^ 32 } }
  if !p.enabled then s
  else if 0 < p.free then s.plumeWrite kind p.seq body
  else s.withHost { s.host with plume :=
    { s.host.plume with lost := sat 4 (p.lost + 1), lostPending := p.lostPending + 1,
                        firstLost := if p.lostPending = 0 then p.seq else p.firstLost } }

/-! ## Reports (R438 to R445) -/

/-- The severity of an entry code (R439, R440). -/
def severityOf (code : Nat) : Nat :=
  if code ∈ [0x1004, 0x3006, 0x3007, 0x7002, 0x7004] then 0
  else if code ∈ [0x1005, 0x1006, 0x1008, 0x100C, 0x100D, 0x2009, 0x200A, 0x7008, 0x7009] then 1
  else if code ∈ [0x3001, 0x3003, 0x3005, 0x300F, 0x4001, 0x4002, 0x5003, 0x5004, 0x6001, 0x6002] then 2
  else if code ∈ [0x1009, 0x2004, 0x2006, 0x200C, 0x3002, 0x300A, 0x300C, 0x300D, 0x300E, 0x6003, 0x6004, 0x6005,
      0x6006, 0x700A] then 3
  else if code ∈ [0x100A, 0x100B, 0x7005, 0x7006] then 4
  else match code / 0x1000 with
    | 1 => 2
    | 2 => 2
    | 3 => 1
    | 4 => 1
    | 5 => 3
    | 6 => 1
    | 7 => 2
    | _ => 5

/-- Key bytes 24 to 27 of an entry: bar, slot, then lane, port, sub-channel or path, and layer; 0xFF where a part does
not apply (R441). -/
def logKey (bar slot lane layer : Option Nat) : List Byte :=
  [BitVec.ofNat 8 (bar.getD 0xFF), BitVec.ofNat 8 (slot.getD 0xFF), BitVec.ofNat 8 (lane.getD 0xFF),
   BitVec.ofNat 8 (layer.getD 0xFF)]

/-- The report a full queue loses: the newest of the lowest severity. -/
def lowestReport (q : List Report) : Option Report :=
  q.foldl (fun m r => match m with
    | none => some r
    | some x => if severityOf r.code ≤ severityOf x.code then some r else some x) none

/-- A report leaves without an entry: LOG_OVERFLOW counts it, and it can no longer become FIRST_ERROR (log 21). -/
def LogUnit.lose (l : LogUnit) (r : Report) : LogUnit :=
  let q := l.queue.filter (fun x => x.arrival != r.arrival)
  { l with queue := q, overflow := sat 4 (l.overflow + 1),
           firstArrival := if l.firstArrival = some r.arrival then
               ((q ++ l.followUps.map (·.1)).filter (fun x => decide (3 ≤ severityOf x.code))).foldl
                 (fun m x => match m with
                   | none => some x.arrival
                   | some a => some (min a x.arrival)) none
             else l.firstArrival }

/-- Places of the queue a report may take: 64, of which one is kept for a FATAL report (R444). -/
def queuePlaces (code : Nat) : Nat := if severityOf code = 5 then 64 else 63

/-- A report arrives at the queue (R443, R444), with its instant and web position. -/
def LogUnit.arrive (l : LogUnit) (r : Report) : LogUnit :=
  let r := { r with arrival := l.arrivals }
  let l := { l with arrivals := l.arrivals + 1,
                    firstArrival := if l.first.isNone && l.firstArrival.isNone && decide (3 ≤ severityOf r.code) then
                      some r.arrival else l.firstArrival }
  if l.queue.length < queuePlaces r.code then { l with queue := l.queue ++ [r] }
  else match lowestReport l.queue with
    | none => l
    | some x =>
      if severityOf r.code < severityOf x.code then l.lose r
      else { l.lose x with queue := (l.lose x).queue ++ [r] }

/-- A unit reports a code with its key, the value of bytes 28 to 31, and its fields. -/
def State.report (s : State) (code : Nat) (key : List Byte) (value : Nat) (fields : List Byte) : State :=
  s.withLog (s.log.arrive { code := code, arrival := 0, followAt := none, time := s.baseNs, webPos := s.web.webPos, key := key,
                            value := value, fields := fields })

/-- A report whose entry is written when its follow-up ends (R443); the follow-up begins when it has come to the head of the queue. -/
def State.reportFollow (s : State) (code : Nat) (key : List Byte) (value : Nat) (fields : List Byte) : State :=
  s.withLog (s.log.arrive { code := code, arrival := 0, followAt := some s.clk.elapsed, time := s.baseNs, webPos := s.web.webPos, key := key,
                            value := value, fields := fields })

/-! ## Writing an entry (R361, R438, R442, R445) -/

/-- The 64 bytes of an entry (R361, R441). -/
def LogEntry.toBytes (e : LogEntry) : List Byte :=
  leBytes 4 e.seq ++ leBytes 2 e.code ++ leBytes 1 e.severity ++ leBytes 1 (bitNat e.rep) ++ leBytes 8 e.time
    ++ leBytes 8 e.webPos ++ padTo 4 e.key ++ leBytes 4 e.value ++ padTo 24 e.fields ++ leBytes 4 e.count
    ++ leBytes 4 e.seq

def LogUnit.slot (l : LogUnit) (i : Nat) : Option LogEntry := tget (fun _ => none) l.slots i

/-- The entry with sequence number `seq`, when the log still holds it. -/
def LogUnit.held (l : LogUnit) (seq : Nat) : Option LogEntry :=
  match l.slot (seq % 256) with
  | some e => if e.seq = seq then some e else none
  | none => none

/-- Codes that coalesce: LINK_CREDIT_FAULT, LINK_CREDIT_OVER, RING_DOORBELL_BAD, VERIFY_FAIL (R442). -/
def coalesces (code : Nat) : Bool := decide (code ∈ [0x2001, 0x2002, 0x6001, 0x4002])

/-- The entry a new occurrence coalesces into: same code and key bytes 24 to 31, written less than 1 s ago. -/
def coalesceTarget (s : State) (r : Report) : Option LogEntry :=
  if coalesces r.code then
    (s.log.slots.filterMap (·.2)).find? (fun e => decide (e.code = r.code ∧ e.key = r.key ∧ e.value = r.value
      ∧ s.clk.elapsed < e.writtenAt + secT))
  else none

/-- Freeze FIRST_ERROR, or count an entry written after the freeze (R445). -/
def LogUnit.freeze (l : LogUnit) (e : LogEntry) : LogUnit :=
  match l.first with
  | some _ => { l with since := nput l.since e.severity (sat 2 (nget l.since e.severity + 1)) }
  | none => if l.firstArrival = some e.arrival then { l with first := some e } else l

/-- The trace's trigger is tested on every entry (R453). -/
def State.traceTest (s : State) (code : Nat) : State :=
  let t := s.trace
  if !t.stopped && decide (t.mode = 2) && !t.triggered && decide (t.triggerCode = code) then
    s.withTrace { t with triggered := true, postLeft := t.post }
  else s

/-- A SENSOR_BROKEN entry is the latest of the sensor it names (R430). -/
def State.noteBroken (s : State) (sensor seq : Nat) : State :=
  let x := tget (fun _ => Sensor.reset) s.thermal.sensors sensor
  s.withThermal { s.thermal with sensors := tput (fun _ => Sensor.reset) s.thermal.sensors sensor { x with brokenSeq := some seq } }

/-- The error unit records a report: it counts in an entry it coalesces into, or gets an entry of its own. -/
def State.record (s : State) (r : Report) : State :=
  match coalesceTarget s r with
  | some e =>
    let e' : LogEntry := { e with rep := true, count := if e.rep then sat 4 (e.count + 1) else 2 }
    s.withLog { s.log with slots := tput (fun _ => none) s.log.slots (e.seq % 256) (some e') }
  | none =>
    let l := s.log
    let e : LogEntry := { writtenAt := s.clk.elapsed, arrival := r.arrival, seq := l.next, code := r.code,
                          severity := severityOf r.code, rep := false, time := r.time, webPos := r.webPos,
                          key := r.key, value := r.value, fields := r.fields, count := 0 }
    let lost := match l.slot (l.next % 256) with
      | some old => decide (l.readMark ≤ old.seq)
      | none => false
    let l := { l with slots := tput (fun _ => none) l.slots (l.next % 256) (some e),
                      next := (l.next + 1) % 2 ^ 32,
                      overflow := if lost then sat 4 (l.overflow + 1) else l.overflow }
    let s := s.withLog (l.freeze e)
    let s := if r.code = 0x7007 then s.noteBroken (field r.fields 0 1) e.seq else s
    let s := s.traceTest r.code
    let s := s.traceRec 1 (Config.traceUnit 1) (leBytes 4 e.seq ++ leBytes 2 e.code ++ leBytes 1 e.severity)
    if 1 ≤ e.severity then s.raise 14 else s

/-- The report at the head of the queue: highest severity, then earliest arrival (R443). -/
def headReport (q : List Report) : Option Report :=
  q.foldl (fun m r => match m with
    | none => some r
    | some x => if severityOf x.code < severityOf r.code then some r else some x) none

/-- Take the report at the head of the queue: it is recorded, or its follow-up begins. -/
def State.recordHead (s : State) : State :=
  match headReport s.log.queue with
  | none => s
  | some r =>
    let s := s.withLog { s.log with queue := s.log.queue.filter (fun x => x.arrival != r.arrival) }
    match r.followAt with
    | some t => s.withLog { s.log with followUps := s.log.followUps ++ [(r, t)] }
    | none => s.record r

end Sys2Proof.Machine
end

