-- ==== Sys2Proof/Machine/Command.lean ====
section
/-! DEFINITION. Machine/Command.lean: how any host command starts and is answered: the opcode table's data, rings and
reply entries, the checks of R325, replies (R321, R326), long operations (R329 to R332). -/

namespace Sys2Proof.Machine

open Sys2Proof

/-! ## Status codes (R328) -/

def stOk : Nat := 0x0000
def stAccepted : Nat := 0x0001
def stInProgress : Nat := 0x0002
def stBadOpcode : Nat := 0x0100
def stBadLength : Nat := 0x0101
def stBadParam : Nat := 0x0102
def stWrongState : Nat := 0x0103
def stBusy : Nat := 0x0104
def stNoResource : Nat := 0x0105
def stContract : Nat := 0x0200
def stConflict : Nat := 0x0201
def stDeadline : Nat := 0x0202
def stCapacity : Nat := 0x0203
def stRefresh : Nat := 0x0204
def stUntested : Nat := 0x0300
def stSignature : Nat := 0x0301
def stCalState : Nat := 0x0400
def stCalDisagree : Nat := 0x0401
def stCalImplausible : Nat := 0x0402
def stDataUe : Nat := 0x0500
def stIllegalCode : Nat := 0x0501
def stDistance : Nat := 0x0502
def stLength : Nat := 0x0503
def stCrc : Nat := 0x0504
def stVerify : Nat := 0x0505
def stLeadDenied : Nat := 0x0600
def stAborted : Nat := 0x0700
def stTimeout : Nat := 0x0701

/-! ## The opcode table (R334) -/

/-- One row: opcode, parameter size, admin ring only, device states, long operation, position progress. -/
structure CmdInfo where
  opcode : Nat
  size : Nat
  admin : Bool
  states : List DevState
  long : Bool
  pos : Bool
deriving DecidableEq, Repr

def statesAll : List DevState := [.maint, .idle, .armed, .run, .drain, .fault]
def statesUp : List DevState := [.idle, .armed, .run, .drain, .fault]
def statesMI : List DevState := [.maint, .idle]
def statesI : List DevState := [.idle]
def statesIAU : List DevState := [.idle, .armed, .run]
def statesIAUD : List DevState := [.idle, .armed, .run, .drain]

/-- A row of class A, B or C. -/
def shortCmd (opcode size : Nat) (admin : Bool) (states : List DevState) : CmdInfo :=
  { opcode := opcode, size := size, admin := admin, states := states, long := false, pos := false }

/-- A row of class L with progress in percent, or as a position. -/
def longCmd (opcode size : Nat) (admin : Bool) (states : List DevState) : CmdInfo :=
  { opcode := opcode, size := size, admin := admin, states := states, long := true, pos := false }

def posCmd (opcode size : Nat) (admin : Bool) (states : List DevState) : CmdInfo :=
  { opcode := opcode, size := size, admin := admin, states := states, long := true, pos := true }

/-- The row of an opcode; `op` is parameter byte 0, which decides the class of KEEP_CONFIG (4 REG_MEASURE),
KEEP_TARGET (0 CAPTURE) and SCRUB_RANGE (0 RANGE). -/
def cmdInfo (opcode op : Nat) : Option CmdInfo :=
  match opcode with
  | 0x0001 => some (shortCmd 0x0001 0 false statesAll)
  | 0x0002 => some (shortCmd 0x0002 0 false statesAll)
  | 0x0003 => some (shortCmd 0x0003 0 false statesAll)
  | 0x0004 => some (shortCmd 0x0004 4 false statesAll)
  | 0x0005 => some (shortCmd 0x0005 4 false statesAll)
  | 0x0010 => some (shortCmd 0x0010 32 true statesUp)
  | 0x0011 => some (shortCmd 0x0011 20 true statesUp)
  | 0x0020 => some (shortCmd 0x0020 16 true statesMI)
  | 0x0021 => some (posCmd 0x0021 24 true statesMI)
  | 0x0022 => some (longCmd 0x0022 8 true statesMI)
  | 0x0030 => some (shortCmd 0x0030 16 true statesI)
  | 0x0031 => some (longCmd 0x0031 16 false statesI)
  | 0x0040 => some (longCmd 0x0040 12 false statesIAUD)
  | 0x0041 => some (longCmd 0x0041 4 false statesIAUD)
  | 0x0042 => some (shortCmd 0x0042 16 false statesIAU)
  | 0x0050 => some (shortCmd 0x0050 24 false statesUp)
  | 0x0051 => some (shortCmd 0x0051 24 false statesUp)
  | 0x0052 => some (shortCmd 0x0052 8 false statesUp)
  | 0x0053 => some (shortCmd 0x0053 16 false [.armed, .run])
  | 0x0060 => some (longCmd 0x0060 16 false statesI)
  | 0x0061 => some (shortCmd 0x0061 32 false [.armed])
  | 0x0062 => some (shortCmd 0x0062 16 false [.armed, .run, .drain, .fault])
  | 0x0063 => some (longCmd 0x0063 16 false statesI)
  | 0x0068 => some (shortCmd 0x0068 16 false statesIAU)
  | 0x0070 => some (shortCmd 0x0070 24 false statesUp)
  | 0x0071 => some (shortCmd 0x0071 24 false statesUp)
  | 0x0080 => some (longCmd 0x0080 16 false statesI)
  | 0x0081 => some (shortCmd 0x0081 16 false statesUp)
  | 0x0090 => some (shortCmd 0x0090 16 false statesUp)
  | 0x0091 => some (posCmd 0x0091 20 false statesUp)
  | 0x00A0 => some (if op = 4 then longCmd 0x00A0 16 false statesIAU else shortCmd 0x00A0 16 false statesIAU)
  | 0x00A1 => some (if op = 0 then longCmd 0x00A1 24 false statesUp else shortCmd 0x00A1 24 false statesUp)
  | 0x00B0 => some (if op = 0 then posCmd 0x00B0 32 false statesUp else shortCmd 0x00B0 32 false statesUp)
  | 0x00C0 => some (longCmd 0x00C0 16 false statesIAUD)
  | 0x00D0 => some (shortCmd 0x00D0 32 true statesUp)
  | 0x00D1 => some (shortCmd 0x00D1 32 false statesUp)
  | 0x00E0 => some (shortCmd 0x00E0 16 true statesI)
  | 0x00E1 => some (shortCmd 0x00E1 8 true statesIAUD)
  | 0x00E2 => some (shortCmd 0x00E2 16 true statesUp)
  | 0x00F0 => some (shortCmd 0x00F0 24 false statesAll)
  | 0x00F1 => some (shortCmd 0x00F1 16 false statesUp)
  | 0x00F2 => some (shortCmd 0x00F2 32 false statesUp)
  | 0x0100 => some (longCmd 0x0100 32 false statesUp)
  | 0x0101 => some (longCmd 0x0101 24 false statesUp)
  | 0x0110 => some (shortCmd 0x0110 8 true statesUp)
  | 0x0120 => some (shortCmd 0x0120 8 true statesAll)
  | _ => none

/-- The row of a command of the table. -/
def cmdOf (opcode op : Nat) : CmdInfo := (cmdInfo opcode op).getD (shortCmd opcode 0 false [])

/-! ## Rings and reply entries (R318 to R323) -/

def State.ring (s : State) (r : Nat) : Ring := tget (fun _ => Ring.reset) s.host.rings r

def State.withRing (s : State) (r : Nat) (x : Ring) : State :=
  s.withHost { s.host with rings := tput (fun _ => Ring.reset) s.host.rings r x }

def Ring.entries (r : Ring) : Nat := 2 ^ r.log2

/-- Reply entries host software has not freed, and free ones. -/
def Ring.unread (r : Ring) : Nat := (r.replyTail + r.entries - r.replyHead) % r.entries
def Ring.free (r : Ring) : Nat := r.entries - 1 - r.unread

/-- Reply entries of a command (R320). -/
def CmdInfo.need (c : CmdInfo) : Nat := if c.long then 2 else 1

/-- The 32 bytes of a reply (R326). -/
def Reply.toBytes (r : Reply) : List Byte :=
  leBytes 2 r.tag ++ leBytes 2 r.status ++ leBytes 2 r.progress
    ++ leBytes 1 (bitNat r.phase + 2 * bitNat r.final + 4 * bitNat r.pos + 8 * bitNat r.skipped)
    ++ leBytes 1 r.ring ++ leBytes 2 r.opcode ++ [0, 0] ++ leBytes 4 r.timestamp ++ padTo 16 r.result

/-- A reply is written at REPLY_TAIL, REPLY_TAIL advances, and the vector is signalled under the coalescing rule
(R321, R323). A ring that is not enabled discards it (R384). -/
def State.putReply (s : State) (r : Reply) : State :=
  let g := s.ring r.ring
  if !g.enabled then s
  else
    let r := { r with phase := g.phase, timestamp := s.baseUs }
    let s := s.dmaWrite (g.replyBase + 32 * g.replyTail) r.toBytes
    let tail := (g.replyTail + 1) % g.entries
    let n := g.unsignalled + 1
    let due := coalesceDue g.coalN n
    let s := s.withRing r.ring { g with
      replyTail := tail
      phase := if tail = 0 then !g.phase else g.phase
      unsignalled := if due then 0 else n
      oldest := if g.unsignalled = 0 then s.clk.elapsed else g.oldest
      last := some r }
    let s := s.traceRec 8 r.ring (leBytes 2 r.tag ++ leBytes 2 r.opcode ++ leBytes 2 r.status
      ++ leBytes 1 (bitNat r.final))
    if due then s.signal g.vector else s

/-- `n` owed reply entries of a ring are written or released (R320). -/
def State.oweLess (s : State) (ring n : Nat) : State :=
  s.withRing ring { s.ring ring with owed := (s.ring ring).owed - n }

/-- What a command answers: status, RESULT, and for GET_PROGRESS the PROGRESS and POS of its target. -/
structure Answer where
  status : Nat
  result : List Byte
  progress : Option (Nat × Bool)
deriving DecidableEq, Repr

def answer (status : Nat) (result : List Byte) : Answer := { status := status, result := result, progress := none }

/-- A one-number error answer. -/
def refuse (status : Nat) : Answer := answer status []

/-- The final reply of a command that is not a long operation (R326), using one owed entry. -/
def State.finalShort (s : State) (orphan : Bool) (ring tag opcode : Nat) (a : Answer) : State :=
  if orphan then s
  else
    let p := a.progress.getD (if a.status = stOk then 10000 else 0, false)
    (s.oweLess ring 1).putReply
      { ring := ring, tag := tag, status := a.status, progress := p.1, phase := false, final := true,
        pos := p.2, skipped := false, opcode := opcode, timestamp := 0, result := a.result }

/-! ## Long operations (R329 to R332) -/

/-- The long operation of a ring and tag whose final reply is not written; one whose ring a hot reset has taken (R384) only where no
other has the same ring and tag. -/
def State.longOp (s : State) (ring tag : Nat) : Option LongOp :=
  match s.host.longOps.find? (fun o => decide (o.ring = ring ∧ o.tag = tag) && !o.orphan) with
  | some o => some o
  | none => s.host.longOps.find? (fun o => decide (o.ring = ring ∧ o.tag = tag))

/-- Replace a long operation. -/
def replaceLong (o x : LongOp) : List LongOp → List LongOp
  | [] => []
  | y :: l => if y = o then x :: l else y :: replaceLong o x l

def State.updLong (s : State) (ring tag : Nat) (f : LongOp → LongOp) : State :=
  s.withHost { s.host with longOps := match s.longOp ring tag with
    | none => s.host.longOps
    | some o => replaceLong o (f o) s.host.longOps }

/-- The final reply of a running long operation: 10,000 or the last position index with OK, the progress reached with any
other status (R329). -/
def State.finishOp (s : State) (o : LongOp) (a : Answer) : State :=
  let s := s.withHost { s.host with longOps := s.host.longOps.erase o }
  if o.orphan then s
  else (s.oweLess o.ring 1).putReply
    { ring := o.ring, tag := o.tag, status := a.status,
      progress := if a.status = stOk ∧ !o.pos then 10000 else o.progress, phase := false, final := true,
      pos := o.pos, skipped := o.skipped, opcode := o.opcode, timestamp := 0, result := a.result }

/-- The final reply of the long operation of a ring and tag. -/
def State.finishLong (s : State) (ring tag : Nat) (a : Answer) : State :=
  match s.longOp ring tag with
  | none => s
  | some o => s.finishOp o a

/-- The operation has come to `p`. An IN_PROGRESS reply follows when PROGRESS has grown by 100, or the position has
changed, 10 ms after the tag's previous reply at the earliest, unless QUIET; without an entry beyond those owed it is
skipped and marked (R320, R329). -/
def State.progressTo (s : State) (ring tag p : Nat) : State :=
  match s.longOp ring tag with
  | none => s
  | some o =>
    let o := { o with progress := p }
    let g := s.ring ring
    let due := !o.quiet && !o.orphan && decide (o.lastAt + 10 * msT ≤ s.clk.elapsed)
      && (if o.pos then decide (p ≠ o.lastProgress) else decide (o.lastProgress + 100 ≤ p))
    if !due then s.updLong ring tag (fun _ => o)
    else if g.free ≤ g.owed then s.updLong ring tag (fun _ => { o with skipped := true })
    else
      State.putReply (s.updLong ring tag (fun _ => { o with lastProgress := p, lastAt := s.clk.elapsed, skipped := false }))
        { ring := ring, tag := tag, status := stInProgress, progress := p, phase := false, final := false,
          pos := o.pos, skipped := o.skipped, opcode := o.opcode, timestamp := 0, result := [] }

/-- A long operation starts: NO_RESOURCE when sixteen run (R330), else ACCEPTED (R329). -/
def State.startLong (s : State) (orphan : Bool) (h : Hdr) (c : CmdInfo) (body : State → State) : State :=
  if 16 ≤ s.host.longOps.length then
    if orphan then s else (s.oweLess h.ring 1).finalShort false h.ring h.tag c.opcode (refuse stNoResource)
  else
    let o : LongOp := { ring := h.ring, tag := h.tag, opcode := c.opcode, orphan := orphan, progress := 0,
                        pos := c.pos, quiet := bit h.flags 1, skipped := false, lastProgress := 0,
                        lastAt := s.clk.elapsed, acceptedAt := s.clk.elapsed }
    let s := s.withHost { s.host with longOps := s.host.longOps ++ [o] }
    let s := if orphan then s else (s.oweLess h.ring 1).putReply
      { ring := h.ring, tag := h.tag, status := stAccepted, progress := 0, phase := false, final := false,
        pos := c.pos, skipped := false, opcode := c.opcode, timestamp := 0, result := [] }
    body s

/-! ## Commands that answer later -/

def State.addWait (s : State) (orphan : Bool) (h : Hdr) (c : CmdInfo) (k : WaitKind) : State :=
  s.withHost { s.host with waits := s.host.waits ++
    [{ ring := h.ring, tag := h.tag, opcode := c.opcode, orphan := orphan, since := s.clk.elapsed, kind := k }] }

/-- The waiting command of this kind answers. -/
def State.endWait (s : State) (w : Wait) (a : Answer) : State :=
  (s.withHost { s.host with waits := s.host.waits.erase w }).finalShort w.orphan w.ring w.tag w.opcode a

/-! ## Starting (R319, R325, R327) -/

/-- Is ring `r` served: enabled, ring 0 alone in MAINT, none in BOOT (R322, R372). -/
def ringServed (s : State) (r : Nat) : Bool :=
  (s.ring r).enabled && decide (s.dev ≠ .boot) && (decide (s.dev ≠ .maint) || decide (r = 0))

/-- The previous command of the ring has still to write its final or ACCEPTED reply. -/
def ringBlocked (s : State) (orphan : Bool) (r : Nat) : Bool :=
  s.host.waits.any (fun w => decide (w.ring = r) && (w.orphan == orphan))

/-- R327: a command may start when its predecessor has answered, with FENCE when all earlier ones have ended. -/
def mayStart (s : State) (orphan : Bool) (h : Hdr) : Bool :=
  !ringBlocked s orphan h.ring
    && (!bit h.flags 0 || !s.host.longOps.any (fun o => decide (o.ring = h.ring) && (o.orphan == orphan)))

/-- The first check of R325 that a command fails, in the order of R325. -/
def packetCheck (s : State) (c : CmdInfo) (h : Hdr) : Option Nat :=
  if c.admin && decide (h.ring ≠ 0) then some stBadOpcode
  else if h.paramLen < c.size ∨ 56 < h.paramLen then some stBadLength
  else if s.dev ∉ c.states then some stWrongState
  else if 4 ≤ h.flags ∨ h.rsv ∨ s.host.longOps.any (fun o => decide (o.ring = h.ring ∧ o.tag = h.tag) && !o.orphan)
      ∨ s.host.waits.any (fun w => decide (w.ring = h.ring ∧ w.tag = h.tag) && !w.orphan) then some stBadParam
  else none

/-- The final reply of a command that fails a check of R325; a long operation's second owed entry is released. -/
def State.rejectPacket (s : State) (orphan : Bool) (h : Hdr) (c : CmdInfo) (status : Nat) : State :=
  (if orphan || !c.long then s else s.oweLess h.ring 1).finalShort orphan h.ring h.tag c.opcode (refuse status)

/-- Answer the packets at the front of the fetched entries that no command of the table spells (R325): an unknown
opcode, or an operation code its opcode does not have. -/
def settleFetched : Nat → State → Nat → State
  | 0, s, _ => s
  | n + 1, s, ring =>
    match (s.ring ring).fetched with
    | .bad h opcode op :: rest =>
      if ringServed s ring && mayStart s false h then
        let s := s.withRing ring { s.ring ring with fetched := rest }
        let s := match cmdInfo opcode op with
          | none => s.finalShort false h.ring h.tag opcode (refuse stBadOpcode)
          | some c =>
            match packetCheck s c h with
            | some st => s.rejectPacket false h c st
            | none =>
              if c.long then s.startLong false h c (fun s => s.finishLong h.ring h.tag (refuse stBadParam))
              else s.finalShort false h.ring h.tag opcode (refuse stBadParam)
        settleFetched n s ring
      else s
    | _ => s

def State.settle (s : State) (ring : Nat) : State := settleFetched (s.ring ring).fetched.length s ring

/-- A command in the form it has in the fetched entries: without the instant at which it starts. -/
def unstarted (h : Hdr) : Hdr := { h with t := 0 }

/-- Does the command start now? `some orphan` says that it does. It is taken from the front of the ring's fetched
entries, or, where the ring has no entry between CMD_HEAD and CMD_TAIL and none fetched, host software writes it, rings
the doorbell and the device fetches it in this step (log 17). A command that may not start yet stays fetched. -/
def intake (i : Instr) (h : Hdr) (c : CmdInfo) (s : State) : State × Option Bool :=
  let g := s.ring h.ring
  if g.orphans.head? = some (.cmd i) then
    if mayStart s true h then (s.withRing h.ring { g with orphans := g.orphans.drop 1 }, some true) else (s, none)
  else if !ringServed s h.ring then (s, none)
  else if g.fetched.head? = some (.cmd i) then
    if mayStart s false h then (s.withRing h.ring { g with fetched := g.fetched.drop 1 }, some false) else (s, none)
  else if .cmd i ∉ g.fetched ∧ g.cmdHead = g.cmdTail ∧ g.owed + c.need ≤ g.free then
    let next := (g.cmdHead + 1) % g.entries
    let g := { g with cmdHead := next, cmdTail := next, owed := g.owed + c.need }
    if g.fetched = [] ∧ mayStart s false h then (s.withRing h.ring g, some false)
    else (s.withRing h.ring { g with fetched := g.fetched ++ [.cmd i] }, none)
  else (s, none)

/-- Run a command's own rules after the checks of R325. A body that gives no answer leaves a waiting command. -/
def shortBody (h : Hdr) (c : CmdInfo) (body : Bool → State → State × Option Answer) (s : State) (orphan : Bool) : State :=
  match packetCheck s c h with
  | some st => s.rejectPacket orphan h c st
  | none =>
    if h.paramRsv then s.finalShort orphan h.ring h.tag c.opcode (refuse stBadParam)
    else match body orphan s with
      | (s, some a) => s.finalShort orphan h.ring h.tag c.opcode a
      | (s, none) => s

/-- A command of class A, B or C whose answer may come later. -/
def hostWait (i : Instr) (h : Hdr) (c : CmdInfo) (body : Bool → State → State × Option Answer) (s : State) : State :=
  match intake i h c (s.at h.t) with
  | (s, none) => s
  | (s, some orphan) => (shortBody h c body s orphan).settle h.ring

/-- A command of class A, B or C that answers in its own step. -/
def hostCmd (i : Instr) (h : Hdr) (c : CmdInfo) (body : State → State × Answer) (s : State) : State :=
  hostWait i h c (fun _ s => ((body s).1, some (body s).2)) s

/-- A long operation: `body` begins it after ACCEPTED, and may end it at once. -/
def hostLong (i : Instr) (h : Hdr) (c : CmdInfo) (body : State → State) (s : State) : State :=
  match intake i h c (s.at h.t) with
  | (s, none) => s
  | (s, some orphan) =>
    State.settle (match packetCheck s c h with
      | some st => s.rejectPacket orphan h c st
      | none => s.startLong orphan h c (fun s =>
          if h.paramRsv then s.finishLong h.ring h.tag (refuse stBadParam) else body s)) h.ring

/-- An event of the long operation `o` names: nothing happens when no such operation runs. `f` is given that operation. -/
def withStep (o : OpRef) (opcode : Nat) (f : LongOp → State → State) (s : State) : State :=
  let s := s.at o.t
  match s.longOp o.ring o.tag with
  | some l => if l.opcode = opcode then (f l s).settle o.ring else s
  | none => s

/-- Operations that report how far they have come in hundredths of a percent and whose progress nothing else in the model shows (R329):
IMAGE_UPDATE_COMMIT, SCHED_LOAD, SCHED_CHECK, DECOMPRESS_TEST. -/
def worked : List Nat := [0x0022, 0x0040, 0x0041, 0x0101]

/-- An event that ends or advances a long operation. Its work complete, `f` ends it; else PROGRESS becomes what its event states, which
never goes back and is below 10,000 until the end. -/
def withOp (o : OpRef) (opcode : Nat) (f : State → State) (s : State) : State :=
  withStep o opcode (fun l s => match o.reach with
    | none => f s
    | some p => if opcode ∈ worked then s.progressTo o.ring o.tag (max l.progress (min p 9999)) else s) s

end Sys2Proof.Machine
end

