-- ==== Sys2Proof/Machine/Digest.lean ====
section
/-! DEFINITION. Machine/Digest.lean: the checksums the manual names: CRC-32C (R48, R110, R369, R377, R379, R402, R448) and
SHA-384 (R338, R371). -/

namespace Sys2Proof.Machine

open Sys2Proof

/-! ## CRC-32C: polynomial 0x1EDC6F41 reflected, all-ones start and final complement -/

def crcStep (c : BitVec 32) : Nat → BitVec 32
  | 0 => c
  | n + 1 => crcStep (if c.getLsbD 0 then (c >>> 1) ^^^ 0x82F63B78#32 else c >>> 1) n

/-- CRC-32C of a byte list. -/
def crc32c (bs : List Byte) : Nat :=
  ((bs.foldl (fun c b => crcStep (c ^^^ b.zeroExtend 32) 8) 0xFFFFFFFF#32) ^^^ 0xFFFFFFFF#32).toNat

/-! ## SHA-384 (FIPS 180-4). Its constants are the leading 64 fraction bits of roots of primes, and are computed here as that. -/

/-- The primes below 410: the first eighty. -/
def shaPrimes : List Nat :=
  (List.range 410).filter (fun n => decide (2 ≤ n) && (List.range 21).all (fun d => decide (d < 2 ∨ n ≤ d ∨ n % d ≠ 0)))

/-- The largest number below `x + 2^n`, and from `x` on, whose e-th power is at most `v`; found bit by bit. -/
def rootFrom (e v : Nat) : Nat → Nat → Nat
  | 0, x => x
  | n + 1, x => rootFrom e v n (if (x + 2 ^ n) ^ e ≤ v then x + 2 ^ n else x)

/-- 64 fraction bits of the e-th root of p. -/
def rootBits (e p : Nat) : Word64 := BitVec.ofNat 64 (rootFrom e (p * 2 ^ (64 * e)) 70 0)

/-- The constants of the eighty rounds, from cube roots. -/
def shaRoundKeys : List Word64 := shaPrimes.map (rootBits 3)

/-- The start value, from square roots of the ninth to the sixteenth prime. -/
def shaStart : List Word64 := ((shaPrimes.drop 8).take 8).map (rootBits 2)

/-- The exclusive or of a word turned right by each of some amounts. -/
def turned (x : Word64) (by_ : List Nat) : Word64 := by_.foldl (fun y n => y ^^^ x.rotateRight n) 0

/-- Words of a block, highest byte first. -/
def bigWords : Nat → List Byte → List Word64
  | 0, _ => []
  | n + 1, m => BitVec.ofNat 64 (leNat (m.take 8).reverse) :: bigWords n (m.drop 8)

/-- The word that enters sixteen rounds after the first of a window of sixteen. -/
def shaNext (w : List Word64) : Word64 :=
  let near := nth 0 w 1
  let far := nth 0 w 14
  nth 0 w 0 + nth 0 w 9 + (turned near [1, 8] ^^^ (near >>> 7)) + (turned far [19, 61] ^^^ (far >>> 6))

/-- One round: the eight working words move down by one place, the fifth takes in the fourth and the mixed word, and a new first word
stands before them. -/
def shaMix (key word : Word64) (v : List Word64) : List Word64 :=
  let x (i : Nat) : Word64 := nth 0 v i
  let pick := x 6 ^^^ (x 4 &&& (x 5 ^^^ x 6))
  let most := (x 0 &&& (x 1 ||| x 2)) ||| (x 1 &&& x 2)
  let mixed := word + key + pick + turned (x 4) [14, 18, 41] + x 7
  (mixed + most + turned (x 0) [28, 34, 39]) :: (v.take 3 ++ (x 3 + mixed) :: (v.drop 4).take 3)

/-- All rounds over a window of message words. -/
def shaRun : List Word64 → List Word64 → List Word64 → List Word64
  | [], _, v => v
  | k :: ks, w, v => shaRun ks (w.drop 1 ++ [shaNext w]) (shaMix k (nth 0 w 0) v)

/-- The hash words after each block of 128 bytes. -/
def shaFold : Nat → List Byte → List Word64 → List Word64
  | 0, _, h => h
  | n + 1, m, h => shaFold n (m.drop 128) (List.zipWith (fun x y => x + y) h (shaRun shaRoundKeys (bigWords 16 m) h))

/-- SHA-384: the message, a one bit, zeros and its length in bits in 16 bytes fill whole blocks; the digest is six hash words. -/
def sha384 (m : List Byte) : List Byte :=
  let blocks := (m.length + 17 + 127) / 128
  let tail := (leBytes 16 (8 * m.length)).reverse
  let text := m ++ [0x80] ++ List.replicate (128 * blocks - m.length - 17) 0 ++ tail
  ((shaFold blocks text shaStart).take 6).flatMap (fun w => (leBytes 8 w.toNat).reverse)

end Sys2Proof.Machine
end

