-- ==== Sys2Proof/Machine/Image.lean ====
section
/-! DEFINITION. Machine/Image.lean: how a schedule image is read: header, sections, records and cue words (R48 to R59). All
functions are total; what an ill-formed image makes them read is of no consequence, because check 8 refuses it. -/

namespace Sys2Proof.Machine

open Sys2Proof

/-- A little-endian field of an image. -/
def imgN (m : Mem) (o w : Nat) : Nat := leNat (mread zeroByte m o w)

/-! ## Header (R48) -/

def imgMagic (m : Mem) : Nat := imgN m 0 4
def imgFormat (m : Mem) : Nat := imgN m 4 2
def imgContract (m : Mem) : Nat := imgN m 6 2
def imgLength (m : Mem) : Nat := imgN m 8 4
def imgCrc (m : Mem) : Nat := imgN m 12 4
def imgId (m : Mem) : Nat := imgN m 16 8
def imgPressDigest (m : Mem) : Nat := imgN m 24 8
def imgPMin (m : Mem) : Nat := imgN m 32 8
def imgPMax (m : Mem) : Nat := imgN m 40 8
def imgLMin (m : Mem) : Nat := imgN m 48 4
def imgBarMask (m : Mem) : Nat := imgN m 52 1
def imgRate (m : Mem) : Nat := imgN m 53 1
def imgRanks (m : Mem) : Nat := imgN m 54 1

/-- DRAM_TIMING value i, in DRAM clock cycles: 0 CL, 1 tRCD, 2 tRP, 3 tRAS, 4 tRC, 5 tRRD_S, 6 tRRD_L, 7 tFAW,
8 tCCD_S, 9 tCCD_L, 10 tRTP, 11 tRFC2, 12 tREFI2, 13 tXS. -/
def imgTiming (m : Mem) (i : Nat) : Nat := imgN m (64 + 2 * i) 2

/-- Cable delay of lane group g, in ps. -/
def imgFlight (m : Mem) (g : Nat) : Nat := imgN m (96 + 2 * g) 2

/-- Data rate in MT/s. -/
def rateMts (code : Nat) : Nat := 3200 + 400 * code

/-- A period as whole PIPE cycles of 0.8 ns (R27). -/
def pipeCycles (p : Nat) : Nat := p * 5 / 262144

/-! ## Sections (R49) -/

/-- A section entry. -/
structure Sec where
  off : Nat
  len : Nat
  count : Nat
deriving DecidableEq, Repr

def secEntry (m : Mem) (i : Nat) : Nat × Sec :=
  (imgN m (128 + 16 * i) 4,
   { off := imgN m (132 + 16 * i) 4, len := imgN m (136 + 16 * i) 4, count := imgN m (140 + 16 * i) 4 })

/-- The section of a kind: the first entry of that kind. -/
def sec (m : Mem) (kind : Nat) : Sec :=
  match ((List.range 8).map (secEntry m)).find? (fun e => decide (e.1 = kind)) with
  | some e => e.2
  | none => { off := 0, len := 0, count := 0 }

/-- Where record i of a section with an offset table begins and ends, from the image start. -/
def recStart (m : Mem) (kind i : Nat) : Nat := (sec m kind).off + imgN m ((sec m kind).off + 4 * i) 4

def recEnd (m : Mem) (kind i : Nat) : Nat :=
  if i + 1 < (sec m kind).count then recStart m kind (i + 1) else (sec m kind).off + (sec m kind).len

/-! ## Slot map (R31, R49) -/

def nibble (m : Mem) (base i : Nat) : Nat := imgN m (base + i / 2) 1 / (if i % 2 = 0 then 1 else 16) % 16

/-- Owner of wheel position k mod 64 of a sub-channel, and of a bank group on a rank. -/
def wheelOwner (m : Mem) (h k : Nat) : Nat := nibble m ((sec m 1).off + 32 * h) (k % 64)
def groupOwner (m : Mem) (h rank bg : Nat) : Nat := nibble m ((sec m 1).off + 256) (8 * (2 * h + rank) + bg)

/-! ## Store plan (R50) -/

/-- Pool index and tile column of a context; pool 0xFF means unused. -/
def ctxPool (m : Mem) (bar layer ctx : Nat) : Nat := imgN m ((sec m 2).off + 4 * (256 * (2 * bar + layer) + ctx)) 1
def ctxTileCol (m : Mem) (bar layer ctx : Nat) : Nat :=
  imgN m ((sec m 2).off + 4 * (256 * (2 * bar + layer) + ctx) + 2) 2
def ctxUsed (m : Mem) (bar layer ctx : Nat) : Bool := decide (ctxPool m bar layer ctx ≠ 0xFF)

/-- The contexts in use of a bar and layer, ascending. -/
def ctxList (m : Mem) (bar layer : Nat) : List Nat := (List.range 256).filter (ctxUsed m bar layer)

/-- A pool record. -/
structure Pool where
  subch : Nat
  rank : Nat
  bg : Nat
  bank : Nat
  row : Nat
  frames : Nat
  bar : Nat
  layer : Nat
deriving DecidableEq, Repr

def pool (m : Mem) (i : Nat) : Pool :=
  let o := (sec m 2).off + 16384 + 16 * i
  { subch := imgN m o 1, rank := imgN m (o + 1) 1, bg := imgN m (o + 2) 1, bank := imgN m (o + 3) 1,
    row := imgN m (o + 4) 4, frames := imgN m (o + 8) 4, bar := imgN m (o + 12) 1, layer := imgN m (o + 13) 1 }

def poolCount (m : Mem) : Nat := (sec m 2).count

/-! ## Device windows (R51) -/

structure Window where
  kind : Nat
  subchMask : Nat
  rankMask : Nat
  refreshes : Nat
  first : Nat
  slots : Nat
  period : Nat
  phase : Nat
deriving DecidableEq, Repr

def window (m : Mem) (i : Nat) : Window :=
  let o := (sec m 3).off + 16 * i
  { kind := imgN m o 1, subchMask := imgN m (o + 1) 1, rankMask := imgN m (o + 2) 1, refreshes := imgN m (o + 3) 1,
    first := imgN m (o + 4) 4, slots := imgN m (o + 8) 2, period := imgN m (o + 10) 2, phase := imgN m (o + 12) 2 }

def windowCount (m : Mem) : Nat := (sec m 3).count

/-- Does a window apply in the frame whose tick has web position w (R37)? -/
def Window.applies (x : Window) (w : Nat) : Bool := decide (((w : Int) - x.phase) % x.period = 0)

/-! ## Cue words (R52) -/

structure Cue where
  kind : Nat
  time : Nat
  lead : Int
  args : Nat
deriving DecidableEq, Repr

def Cue.ofWord (w : Nat) : Cue :=
  { kind := bits w 60 4, time := bits w 42 18,
    lead := if bits w 30 12 < 2048 then (bits w 30 12 : Int) else (bits w 30 12 : Int) - 4096,
    args := bits w 0 30 }

def Cue.layer (c : Cue) : Nat := bits c.args 29 1
def Cue.context (c : Cue) : Nat := bits c.args 21 8
def Cue.part (c : Cue) : Nat := bits c.args 19 2
def Cue.first (c : Cue) : Nat := bits c.args 13 6
def Cue.bursts (c : Cue) : Nat := bits c.args 7 6 + 1
def Cue.stride (c : Cue) : Nat := bits c.args 5 2 + 1
def Cue.ctxFirst (c : Cue) : Nat := bits c.args 21 8
def Cue.ctxLast (c : Cue) : Nat := bits c.args 13 8
def Cue.unit (c : Cue) : Nat := bits c.args 17 13
def Cue.units (c : Cue) : Nat := bits c.args 4 13
def Cue.slot (c : Cue) : Nat := bits c.args 25 5
def Cue.block (c : Cue) : Nat := bits c.args 17 8
def Cue.blocks (c : Cue) : Nat := bits c.args 9 8 + 1

/-- The contexts of a DECODE cue, the columns of a TONE or SCREEN cue. -/
def Cue.contexts (c : Cue) : List Nat := (List.range (c.ctxLast + 1)).filter (fun x => decide (c.ctxFirst ≤ x))
def Cue.columns (c : Cue) : List Nat := (List.range (16 * c.units)).map (fun x => 16 * c.unit + x)

/-- The cue words from `o` on up to END, at most n. -/
def cuesFrom (m : Mem) : Nat → Nat → List Nat
  | 0, _ => []
  | n + 1, o => if imgN m o 8 / 2 ^ 60 = 0 then [] else imgN m o 8 :: cuesFrom m n (o + 8)

/-- The cue words of frame program f, END left out. -/
def frameCueWords (m : Mem) (f : Nat) : List Nat := cuesFrom m ((recEnd m 4 f - recStart m 4 f) / 8) (recStart m 4 f)

def frameCues (m : Mem) (f : Nat) : List Cue := (frameCueWords m f).map Cue.ofWord

/-! ## Page programs (R55) -/

def ppLen (m : Mem) (p : Nat) : Nat := imgN m (recStart m 5 p) 4
def ppMask (m : Mem) (p : Nat) : Nat := imgN m (recStart m 5 p + 4) 1
def ppCFirst (m : Mem) (p b : Nat) : Nat := imgN m (recStart m 5 p + 8 + 4 * b) 2
def ppCSpan (m : Mem) (p b : Nat) : Nat := imgN m (recStart m 5 p + 10 + 4 * b) 2
def ppStepOff (m : Mem) (p b : Nat) : Nat := imgN m (recStart m 5 p + 40 + 4 * b) 4
def ppBars (m : Mem) (p : Nat) : List Nat := maskList (ppMask m p) 8
def ppCount (m : Mem) : Nat := (sec m 5).count

/-- The smallest c_first of any bar of a page program. -/
def ppCMin (m : Mem) (p : Nat) : Nat :=
  match (ppBars m p).map (ppCFirst m p) with
  | [] => 0
  | x :: l => l.foldl min x

/-- Steps (frame program, repeat) from `o` on up to repeat 0, at most n. -/
def stepsFrom (m : Mem) : Nat → Nat → List (Nat × Nat)
  | 0, _ => []
  | n + 1, o => if imgN m (o + 4) 4 = 0 then [] else (imgN m o 2, imgN m (o + 4) 4) :: stepsFrom m n (o + 8)

def ppSteps (m : Mem) (p b : Nat) : List (Nat × Nat) :=
  stepsFrom m ((recEnd m 5 p - (recStart m 5 p + ppStepOff m p b)) / 8) (recStart m 5 p + ppStepOff m p b)

/-- The frame program played in frame `j` of a step list. -/
def stepAt : List (Nat × Nat) → Nat → Option Nat
  | [], _ => none
  | (f, r) :: l, j => if j < r then some f else stepAt l (j - r)

def stepTotal (l : List (Nat × Nat)) : Nat := l.foldl (fun n x => n + x.2) 0

/-- The bar's frame index at a tick for a page that begins at `start` (R52). -/
def frameIndex (m : Mem) (p b start w : Nat) : Int := (w : Int) - start - ppCFirst m p b

/-- The frame program that bar b plays of a page program at tick w, for a page that begins at `start` (R55). -/
def framePlayed (m : Mem) (p b start w : Nat) : Option Nat :=
  let j := frameIndex m p b start w + 5
  if bit (ppMask m p) b && decide (0 ≤ j) then stepAt (ppSteps m p b) j.toNat else none

/-- DECODE plays of a context over a whole page program of a bar. -/
def decodePlays (m : Mem) (p b layer ctx : Nat) : Nat :=
  (ppSteps m p b).foldl (fun n st => n + st.2 *
    ((frameCues m st.1).filter (fun c => decide (c.kind = 2 ∧ c.layer = layer ∧ ctx ∈ c.contexts))).length) 0

/-- Lines per contone row of a bar under a page program: 2 for 600 dpi along the web, where each context has one DECODE
for two lines, else 1 (R20; the image states it only through its DECODE cues, log 23). -/
def alongDiv (m : Mem) (p b : Nat) : Nat :=
  let plays := (ctxList m b 0).map (decodePlays m p b 0) ++ (ctxList m b 1).map (decodePlays m p b 1)
  if plays ≠ [] ∧ plays.all (fun x => decide (2 * x ≤ ppLen m p + 1)) ∧ 1 < ppLen m p then 2 else 1

/-- Contone rows and tile rows of a page for a bar. -/
def contoneRows (m : Mem) (p b : Nat) : Nat := ceilDiv (ppLen m p) (alongDiv m p b)
def tileRows (m : Mem) (p b : Nat) : Nat := ceilDiv (contoneRows m p b) 64

/-! ## Gap programs, sequence, budget (R57 to R59) -/

def gpLen (m : Mem) (g : Nat) : Nat := imgN m (recStart m 6 g) 4
def gpSrCount (m : Mem) (g : Nat) : Nat := imgN m (recStart m 6 g + 4) 2
def gpCount (m : Mem) : Nat := (sec m 6).count

/-- SR window i of a gap program: channel mask, entry line, exit line. -/
def gpSr (m : Mem) (g i : Nat) : Nat × Nat × Nat :=
  let o := recStart m 6 g + 8 + 16 * i
  (imgN m o 1, imgN m (o + 4) 4, imgN m (o + 8) 4)

/-- Sequence entry i: page program, gap program, repeat count. -/
def seqEntry (m : Mem) (i : Nat) : Nat × Nat × Nat :=
  let o := (sec m 7).off + 8 * i
  (imgN m o 2, imgN m (o + 2) 2, imgN m (o + 4) 4)

def seqCount (m : Mem) : Nat := (sec m 7).count

/-- The place of the budget entry of a bar, base context and tile row within its page program's entries (R59). -/
def budgetIndex (m : Mem) (p b ctx row : Nat) : Nat :=
  let before := ((ppBars m p).filter (fun x => decide (x < b))).foldl
    (fun n x => n + (ctxList m x 0).length * tileRows m p x) 0
  before + ((ctxList m b 0).filter (fun x => decide (x < ctx))).length * tileRows m p b + row

/-- First span burst and burst count of row group g (R59). -/
def budget (m : Mem) (p b ctx row g : Nat) : Nat × Nat :=
  let v := imgN m (recStart m 8 p + 16 * budgetIndex m p b ctx row + 2 * g) 2
  (bits v 7 9, bits v 0 7)

/-- The entries the budget of page program p must hold. -/
def budgetCount (m : Mem) (p : Nat) : Nat :=
  (ppBars m p).foldl (fun n x => n + (ctxList m x 0).length * tileRows m p x) 0

/-- Does the image give a bar variable-layer contexts? -/
def hasVariable (m : Mem) (b : Nat) : Bool := (ctxList m b 1) ≠ []

end Sys2Proof.Machine
end

