-- ==== Sys2Proof/Machine/Geometry.lean ====
section
/-! DEFINITION. Machine/Geometry.lean: the press description, the heads as HEAD_SCAN read them, and the table banks: which
bank a page uses, the header latches, the offsets c, f, h and r of a slot. -/

namespace Sys2Proof.Machine

open Sys2Proof

/-! ## Press description and slots (R338, R339) -/

/-- The index of slot sl of bar b in every family of slots. -/
def slotIx (b sl : Nat) : Nat := 24 * b + sl

def Press.slot (p : Press) (b sl : Nat) : SlotDesc := tget (fun _ => SlotDesc.reset) p.slots (slotIx b sl)
def Press.bar (p : Press) (b : Nat) : BarDesc := tget (fun _ => BarDesc.reset) p.bars b

/-- A slot is fitted when its bar is in BAR_MASK and its Q is not 0xFF (R338). -/
def Press.fitted (p : Press) (b sl : Nat) : Bool := bit p.barMask b && decide ((p.slot b sl).q ≠ 0xFF)

def State.fitted (s : State) (b sl : Nat) : Bool :=
  match s.press with
  | none => false
  | some p => p.fitted b sl

/-- The fitted slots of a bar, ascending. -/
def State.fittedSlots (s : State) (b : Nat) : List Nat := (List.range 24).filter (s.fitted b)

def State.slotDesc (s : State) (b sl : Nat) : SlotDesc :=
  match s.press with
  | none => SlotDesc.reset
  | some p => p.slot b sl

/-- Devices of the press; one while no description is in force. -/
def State.devices (s : State) : Nat :=
  match s.press with
  | none => 1
  | some p => p.devices

def State.slot (s : State) (b sl : Nat) : Slot := tget (fun _ => Slot.reset) s.link.slots (slotIx b sl)

def State.withSlot (s : State) (b sl : Nat) (x : Slot) : State :=
  s.withLink { s.link with slots := tput (fun _ => Slot.reset) s.link.slots (slotIx b sl) x }

def State.group (s : State) (g : Nat) : Group := tget (fun _ => Group.reset) s.link.groups g

def State.withGroup (s : State) (g : Nat) (x : Group) : State :=
  s.withLink { s.link with groups := tput (fun _ => Group.reset) s.link.groups g x }

def State.bar (s : State) (b : Nat) : Bar := tget (fun _ => Bar.reset) s.link.bars b

def State.withBar (s : State) (b : Nat) (x : Bar) : State :=
  s.withLink { s.link with bars := tput (fun _ => Bar.reset) s.link.bars b x }

def State.head (s : State) (b sl : Nat) : Option Head := (s.slot b sl).head

/-- N(s) of head memory, 0 where no head has been read. -/
def State.nozzles (s : State) (b sl : Nat) : Nat :=
  match s.head b sl with
  | none => 0
  | some h => h.mem.n

/-- Blocks per slot line (R27). -/
def blocksOf (n : Nat) : Nat := 1 + ceilDiv (2 * n) 64

/-- The first fitted slot of the bars in a mask whose head memory has not been read. -/
def State.firstUnread (s : State) (mask : Nat) : Option (Nat × Nat) :=
  (maskList mask 8).findSome? (fun b => ((s.fittedSlots b).find? (fun sl => (s.head b sl).isNone)).map (fun sl => (b, sl)))

/-! ## Table images (R76, R147, R156, R208, R210, R239, R341) -/

/-- Bytes of a table image. -/
def tableSize (cls : Nat) : Nat :=
  match cls with
  | 0 => 528
  | 1 => 880
  | 2 => 221184
  | 3 => 16
  | 4 => 524320
  | 5 => 557856
  | 6 => 48
  | 7 => 464
  | 8 => 160
  | 9 => 4
  | 16 => 983040
  | 17 => 1966080
  | _ => 0

/-- The reset value of each byte of a table image (R135, R138, R142, R156, R210, R239, R493). -/
def tableDefault (cls off : Nat) : Byte :=
  match cls with
  | 0 => if off = 2 then 0xFF else if off = 3 then 0x0F else 0
  | 1 => if 16 ≤ off ∧ off % 2 = 1 then 0x80 else 0
  | 2 => if off % 2 = 1 then 0x80 else 0
  | 4 => if off < 6 then (if off % 2 = 0 then 0xFF else 0x0F) else 0
  | 5 => if 66336 ≤ off ∧ off % 2 = 1 then 0x18 else 0
  | 7 => if 144 ≤ off ∧ off < 272 ∧ off % 2 = 1 then 0x80 else 0
  | 8 => if off = 0 then 0xFF else if off = 2 then 16 else if off = 9 then 4 else 0
  | _ => 0

/-- REGISTRATION and RUN_POLICY are one table each for the device. -/
def deviceWide (cls : Nat) : Bool := decide (cls = 8 ∨ cls = 9)

def tableKey (cls bar : Nat) : Nat := 8 * cls + if deviceWide cls then 0 else bar

def State.table (s : State) (cls bar : Nat) : TableSt := tget (fun _ => TableSt.reset) s.tables.classes (tableKey cls bar)

def State.withTable (s : State) (cls bar : Nat) (x : TableSt) : State :=
  s.withTables { s.tables with classes := tput (fun _ => TableSt.reset) s.tables.classes (tableKey cls bar) x }

def TableSt.bank (t : TableSt) (i : Nat) : Mem := if i = 0 then t.bank0 else t.bank1
def TableSt.poison (t : TableSt) (i : Nat) : List Nat := if i = 0 then t.poison0 else t.poison1

def TableSt.withBank (t : TableSt) (i : Nat) (m : Mem) : TableSt :=
  if i = 0 then { t with bank0 := m } else { t with bank1 := m }

def TableSt.withPoison (t : TableSt) (i : Nat) (l : List Nat) : TableSt :=
  if i = 0 then { t with poison0 := l, told0 := t.told0.filter (fun x => decide (x ∈ l)) }
  else { t with poison1 := l, told1 := t.told1.filter (fun x => decide (x ∈ l)) }

def TableSt.told (t : TableSt) (i : Nat) : List Nat := if i = 0 then t.told0 else t.told1

/-- The shadow bank, and the bank a page uses that begins at `start` (R11, R79). The committed bank is `live` from the close
of its window on, for pages that begin at `since` or later. -/
def TableSt.shadow (t : TableSt) : Nat := 1 - t.live
def TableSt.bankFor (t : TableSt) (start : Nat) : Nat := if t.since ≤ start then t.live else 1 - t.live

/-- A field of one bank of a table. -/
def TableSt.num (cls : Nat) (t : TableSt) (bank off w : Nat) : Nat := leNat (mread (tableDefault cls) (t.bank bank) off w)

/-- Is a word of `w` bytes from `off` on poisoned in a bank? Poison is kept by the byte offset of its 16-byte SRAM word. -/
def TableSt.poisoned (t : TableSt) (bank off w : Nat) : Bool :=
  (t.poison bank).any (fun x => decide (x < off + w ∧ off < x + 16))

/-- A field of the bank in force at the latest tick. -/
def State.tabNum (s : State) (cls bar off w : Nat) : Nat :=
  (s.table cls bar).num cls ((s.table cls bar).bankFor s.web.webPos) off w

/-- A field of the bank that the page beginning at `start` uses. -/
def State.tabNumFor (s : State) (cls bar start off w : Nat) : Nat :=
  (s.table cls bar).num cls ((s.table cls bar).bankFor start) off w

/-- A field of the shadow bank. -/
def State.tabShadow (s : State) (cls bar off w : Nat) : Nat := (s.table cls bar).num cls (s.table cls bar).shadow off w

/-! ## Poisoned table words (R149, R158) -/

/-- Reads have met these spans (offset and bytes) of the bank a page uses: each read of a poisoned word counts in POISON_READ, and each such
word once in TABLE_UE; MEMORY_UE was raised when the word was found in error. -/
def State.meetSpans (s : State) (cls bar start : Nat) (spans : List (Nat × Nat)) : State :=
  let t := s.table cls bar
  let k := t.bankFor start
  if t.poison k = [] then s
  else
    let met := (t.poison k).filter (fun x => spans.any (fun o => decide (x < o.1 + o.2 ∧ o.1 < x + 16)))
    let fresh := met.filter (fun x => decide (x ∉ t.told k))
    let t := if k = 0 then { t with told0 := t.told0 ++ fresh } else { t with told1 := t.told1 ++ fresh }
    fresh.foldl (fun s _ => (s.count 3).count (barCounter bar 9)) ((s.countN 21 met.length).withTable cls bar t)

/-- Two-byte entries at these offsets have been read. -/
def State.meetWords (s : State) (cls bar start : Nat) (offs : List Nat) : State := s.meetSpans cls bar start (offs.map (fun o => (o, 2)))

/-! ## Header latches (R149, R158) -/

/-- Header bytes of a class that the print path reads through a latch. -/
def headerSize (cls : Nat) : Nat :=
  match cls with
  | 0 => 16
  | 1 => 16
  | 3 => 16
  | 4 => 32
  | 5 => 800
  | _ => 0

def resetHeader (cls : Nat) : List Byte := (List.range (headerSize cls)).map (tableDefault cls)

/-- The latch of a class and bar with its reset values loaded (R149, R158: at the first page of a run). -/
def freshLatch (cls : Nat) : Latch :=
  { page := none, bytes := resetHeader cls, before := resetHeader cls, frozen := false }

def State.latch (s : State) (cls bar : Nat) : Latch := tget (fun k => freshLatch (k / 8)) s.tables.latches (tableKey cls bar)

def State.withLatch (s : State) (cls bar : Nat) (x : Latch) : State :=
  s.withTables { s.tables with latches := tput (fun k => freshLatch (k / 8)) s.tables.latches (tableKey cls bar) x }

/-- The stage begins a page: its latch loads the header of the bank the page uses; a poisoned word loads nothing, is
counted, and stops further loads until a commit takes effect (R149). A latch that serves this page or a later one already is left alone. -/
def State.loadLatch (s : State) (cls bar start : Nat) : State :=
  let l := s.latch cls bar
  let done := match l.page with
    | none => false
    | some p => decide (start ≤ p)
  if done then s
  else
    let t := s.table cls bar
    let k := t.bankFor start
    let fresh := match l.page with
      | none => false
      | some p => decide (p < t.since ∧ t.since ≤ start)
    if l.frozen && !fresh then s.withLatch cls bar { l with page := some start, before := l.bytes }
    else if t.poisoned k 0 (headerSize cls) then
      (s.withLatch cls bar { l with page := some start, before := l.bytes, frozen := true }).meetSpans cls bar start [(0, headerSize cls)]
    else s.withLatch cls bar { l with page := some start, before := l.bytes, frozen := false, bytes := mread (tableDefault cls) (t.bank k) 0 (headerSize cls) }

/-- A header field as the stage reads it for the page that begins at `start`. -/
def State.headerNum (s : State) (cls bar start off w : Nat) : Nat :=
  let l := s.latch cls bar
  match l.page with
  | some p => field (if start < p then l.before else l.bytes) off w
  | none => field l.bytes off w

/-! ## Offsets of a slot (R22, R152, R155) -/

/-- c(b, s) in lines: floor(A / 256). -/
def State.coarse (s : State) (b sl : Nat) : Nat := ((s.slotDesc b sl).a / 256).toNat

/-- f(b, s) of the page that begins at `start`, from the FINE_DELAY bank it uses (R208). -/
def State.fineFor (s : State) (b sl start : Nat) : Nat := s.tabNumFor 6 b start (2 * sl) 1

/-- f(b, s) committed. -/
def State.fine (s : State) (b sl : Nat) : Nat := s.tabNum 6 b (2 * sl) 1

def State.rowSpacing (s : State) (b sl : Nat) : Nat :=
  match s.head b sl with
  | none => 0
  | some h => h.mem.rowSpacing

/-- u, h and r of R152 from f and ROW_SPACING. -/
def trailTicks (f spacing : Nat) : Nat := 2 * ((f + spacing) / 512)
def trailRest (f spacing : Nat) : Nat := (f + spacing) % 512

/-- The row that fires a line due at tick t: A on even ticks, B on odd ones. It is the trailing row when it is not the lead row. -/
def firingRow (t : Nat) : Nat := t % 2
def firesTrail (leadB : Bool) (t : Nat) : Bool := decide (firingRow t ≠ bitNat leadB)

/-- h(b, s) with the committed fine delay. -/
def State.held (s : State) (b sl : Nat) : Nat := trailTicks (s.fine b sl) (s.rowSpacing b sl)

/-- The largest value of a function over a list, 0 when it is empty. -/
def maxOver {α : Type} (f : α → Nat) (l : List α) : Nat := l.foldl (fun m x => max m (f x)) 0

/-- c_done over the fitted slots of a bar mask (R74). -/
def State.cDone (s : State) (mask : Nat) : Nat :=
  maxOver (fun b => maxOver (fun sl => s.coarse b sl + s.held b sl) (s.fittedSlots b)) (maskList mask 8)

/-! ## Caldera banks -/

def State.bank (s : State) (i : Nat) : Bank := tget (fun _ => Bank.reset) s.run.banks i

def State.withBank (s : State) (i : Nat) (x : Bank) : State :=
  s.withRun { s.run with banks := tput (fun _ => Bank.reset) s.run.banks i x }

/-- The image of the active bank. -/
def State.activeImage (s : State) : Mem := (s.bank s.run.active).image

/-- Bars of the active image. -/
def State.scheduledBars (s : State) : List Nat := maskList (imgBarMask s.activeImage) 8

def bankLoaded (s : State) (i : Nat) : Bool := (s.bank i).loaded

end Sys2Proof.Machine
end

