-- ==== Sys2Proof/Machine/Host.lean ====
section
/-! DEFINITION. Machine/Host.lean: the host interface's own commands and its rings (R318 to R337, R343 to R346, R353): identity
and status, GET_PROGRESS, ring, Plume and event configuration, doorbells, the ring-0 enable, coalescing. -/

namespace Sys2Proof.Machine

open Sys2Proof

/-! ## Codes of R335 and R352 -/

def DevState.code : DevState → Nat
  | .boot => 0
  | .maint => 1
  | .idle => 2
  | .armed => 3
  | .run => 4
  | .drain => 5
  | .fault => 6

def Role.code : Role → Nat
  | .solo => 0
  | .lead => 1
  | .follower => 2
  | .none => 3

def FaultCause.code : FaultCause → Nat
  | .none => 0
  | .schedUe => 1
  | .shortFrame => 2
  | .fatal => 3

def MaintReason.code : MaintReason → Nat
  | .none => 0
  | .imageMissing => 1
  | .signature => 2
  | .untestedPair => 3
  | .contract => 4

def ResetSource.code : ResetSource → Nat
  | .porN => 0
  | .resetN => 1
  | .watchdog => 2
  | .thermalRestart => 3
  | .deviceReset => 4
  | .fatal => 5

/-- BANKS of R335. -/
def banksField (s : State) : Nat := s.run.active + 2 * bitNat (s.bank 0).checked + 4 * bitNat (s.bank 1).checked

/-- INDEX: the device index of the press description, 0xFF when none is in force. -/
def indexField (s : State) : Nat :=
  match s.press with
  | none => 0xFF
  | some p => p.index

/-- JOB_ID: the armed or running job, 0 in IDLE. -/
def jobField (s : State) : Nat := if s.dev ∈ [.boot, .maint, .idle] then 0 else s.run.jobId

/-! ## NOP, IDENTIFY, GET_STATUS, GET_PROGRESS -/

/-- NOP (R334): answers OK. -/
def execNop (h : Hdr) (s : State) : Result :=
  .next (hostCmd (.nop (unstarted h)) h (cmdOf 0x0001 0) (fun s => (s, refuse stOk)) s)

/-- The result of IDENTIFY (R335). -/
def identifyResult (s : State) : List Byte :=
  leBytes 4 0x8240 ++ leBytes 1 Config.deviceRev ++ [3] ++ leBytes 1 (indexField s) ++ [0]
    ++ leBytes 4 s.boot.fwVersion ++ leBytes 4 s.boot.ucodeVersion

def execIdentify (h : Hdr) (s : State) : Result :=
  .next (hostCmd (.identify (unstarted h)) h (cmdOf 0x0002 0) (fun s => (s, answer stOk (identifyResult s))) s)

/-- The result of GET_STATUS (R335). -/
def statusResult (s : State) : List Byte :=
  leBytes 1 s.dev.code ++ leBytes 1 s.net.lead.role.code ++ leBytes 1 (banksField s) ++ leBytes 1 s.fault.code
    ++ leBytes 4 (jobField s) ++ leBytes 8 s.web.webPos

def execGetStatus (h : Hdr) (s : State) : Result :=
  .next (hostCmd (.getStatus (unstarted h)) h (cmdOf 0x0003 0) (fun s => (s, answer stOk (statusResult s))) s)

/-- The long operation of a ring and tag whose ring has not been lost (R331, R332). -/
def State.liveOp (s : State) (ring tag : Nat) : Option LongOp :=
  s.host.longOps.find? (fun o => decide (o.ring = ring ∧ o.tag = tag) && !o.orphan)

def progressBody (ring tag : Nat) (s : State) : State × Answer :=
  match s.liveOp ring tag with
  | none => (s, refuse stBadParam)
  | some o => (s, { status := stOk, progress := some (o.progress, o.pos),
                    result := leBytes 2 o.opcode ++ [0, 0] ++ leBytes 4 ((s.clk.elapsed - o.acceptedAt) / msT) })

/-- GET_PROGRESS (R331): the progress of a long operation without a final reply. -/
def execGetProgress (h : Hdr) (ring tag : Nat) (s : State) : Result :=
  .next (hostCmd (.getProgress (unstarted h) ring tag) h (cmdOf 0x0004 0) (progressBody ring tag) s)

/-! ## RING_CONFIG (R323, R343) -/

/-- A ring as ENABLE leaves it: heads and tails 0, PHASE 1. -/
def enabledRing (log2 vector coalN coalUs cmdBase replyBase : Nat) : Ring :=
  { Ring.reset with enabled := true, cmdBase := cmdBase, replyBase := replyBase, log2 := log2, vector := vector,
                    coalN := coalN, coalUs := coalUs, phase := true }

def ringEnableBody (ring log2 vector coalN coalUs cmdBase replyBase : Nat) (s : State) : State × Answer :=
  if ring < 1 ∨ 63 < ring ∨ log2 < 4 ∨ 12 < log2 ∨ 63 < vector ∨ 64 < coalN ∨ 1000 < coalUs ∨ cmdBase % 4096 ≠ 0
      ∨ replyBase % 4096 ≠ 0 then (s, refuse stBadParam)
  else if (s.ring ring).enabled then (s, refuse stWrongState)
  else (s.withRing ring { enabledRing log2 vector coalN coalUs cmdBase replyBase with orphans := (s.ring ring).orphans },
        refuse stOk)

/-- RING_CONFIG ENABLE (R323). -/
def execRingConfigEnable (h : Hdr) (ring log2 vector coalN coalUs cmdBase replyBase : Nat) (s : State) : Result :=
  .next (hostCmd (.ringConfigEnable (unstarted h) ring log2 vector coalN coalUs cmdBase replyBase) h (cmdOf 0x0010 1)
    (ringEnableBody ring log2 vector coalN coalUs cmdBase replyBase) s)

def ringDisableBody (ring : Nat) (s : State) : State × Answer :=
  if ring < 1 ∨ 63 < ring then (s, refuse stBadParam)
  else if 0 < (s.ring ring).owed then (s, refuse stBusy)
  else (s.withRing ring { s.ring ring with enabled := false }, refuse stOk)

/-- RING_CONFIG DISABLE (R323): BUSY while the ring owes any reply. -/
def execRingConfigDisable (h : Hdr) (ring : Nat) (s : State) : Result :=
  .next (hostCmd (.ringConfigDisable (unstarted h) ring) h (cmdOf 0x0010 0) (ringDisableBody ring) s)

def plumeEnableBody (log2 vector coalN coalUs base interval : Nat) (s : State) : State × Answer :=
  let every := if interval = 0 then 4096 else interval
  if log2 < 6 ∨ 16 < log2 ∨ 63 < vector ∨ 64 < coalN ∨ 1000 < coalUs ∨ base % 4096 ≠ 0 ∨ every % 64 ≠ 0
      ∨ every < 64 ∨ 1048576 < every then (s, refuse stBadParam)
  else if s.host.plume.enabled then (s, refuse stWrongState)
  else
    let p : Plume := { Plume.reset with enabled := true, base := base, log2 := log2, vector := vector, coalN := coalN,
                                        coalUs := coalUs, interval := every, phase := true, seq := s.host.plume.seq,
                                        snap := s.host.plume.snap, summaryAt := s.clk.elapsed }
    (s.withHost { s.host with plume := p }, refuse stOk)

/-- RING_CONFIG PLUME_ENABLE (R343). -/
def execPlumeEnable (h : Hdr) (log2 vector coalN coalUs base interval : Nat) (s : State) : Result :=
  .next (hostCmd (.plumeEnable (unstarted h) log2 vector coalN coalUs base interval) h (cmdOf 0x0010 2)
    (plumeEnableBody log2 vector coalN coalUs base interval) s)

def plumeOff (s : State) : State := s.withHost { s.host with plume := { s.host.plume with enabled := false } }

/-- RING_CONFIG PLUME_DISABLE (R323). -/
def execPlumeDisable (h : Hdr) (s : State) : Result :=
  .next (hostCmd (.plumeDisable (unstarted h)) h (cmdOf 0x0010 3) (fun s => (plumeOff s, refuse stOk)) s)

/-! ## EVENT_CONFIG (R336, R244) -/

def eventEnableBody (mask : Nat) (s : State) : State × Answer :=
  if 65536 ≤ mask then (s, refuse stBadParam)
  else
    let was := s.host.evtEnable
    let s := s.withHost { s.host with evtEnable := BitVec.ofNat 16 mask }
    let newly := (List.range 16).filter (fun i => bit mask i && !was.getLsbD i && s.host.evtStatus.getLsbD i)
    (newly.foldl (fun s i => s.signal (64 + i)) s, refuse stOk)

/-- EVENT_CONFIG ENABLE (R336): an enabled bit that is set already sends its message at once. -/
def execEventConfigEnable (h : Hdr) (mask : Nat) (s : State) : Result :=
  .next (hostCmd (.eventConfigEnable (unstarted h) mask) h (cmdOf 0x0011 0) (eventEnableBody mask) s)

def State.comparator (s : State) (k : Nat) : Comparator := tget (fun _ => Comparator.reset) s.web.comparators k

def State.withComparator (s : State) (k : Nat) (c : Comparator) : State :=
  s.withWeb { s.web with comparators := tput (fun _ => Comparator.reset) s.web.comparators k c }

/-- The first position of a PERIODIC comparator beyond web position `p`. -/
def firstBeyond (w period p : Nat) : Nat := if p < w then w else w + ((p - w) / period + 1) * period

/-- The current web position + 1; a stopped line clock holds its last position (R359). -/
def nextTick (s : State) : Nat := s.web.webPos + 1

def comparatorBody (index mode w period : Nat) (s : State) : State × Answer :=
  if 7 < index ∨ 2 < mode ∨ (mode = 2 ∧ (period = 0 ∨ 2 ^ 32 ≤ period)) ∨ (mode = 1 ∧ w ≤ nextTick s) then (s, refuse stBadParam)
  else
    let c : Comparator := { mode := mode, period := period, w := if mode = 2 then firstBeyond w period (nextTick s) else w }
    (s.withComparator index (if mode = 0 then Comparator.reset else c), refuse stOk)

/-- EVENT_CONFIG COMPARATOR (R244): OFF, ONCE or PERIODIC; a PERIODIC comparator is held at its next position. -/
def execEventConfigComparator (h : Hdr) (index mode w period : Nat) (s : State) : Result :=
  .next (hostCmd (.eventConfigComparator (unstarted h) index mode w period) h (cmdOf 0x0011 1)
    (comparatorBody index mode w period) s)

/-! ## Doorbells (R319, R353, R356) -/

/-- An index out of range or outside its span: counted and logged. -/
def badDoorbell (ring value : Nat) (s : State) : State :=
  (s.count 30).report 0x6001 (logKey none none none none) ring (leBytes 4 value)

/-- A write of CMD_TAIL. -/
def writeCmdTail (ring value : Nat) (s : State) : State :=
  let g := s.ring ring
  if !g.enabled then s.count 30
  else if g.entries ≤ value then badDoorbell ring value s
  else s.withRing ring { g with cmdTail := value }

/-- CMD_TAIL_WRITE (R319, R353). -/
def execCmdTailWrite (ring value : Nat) (s : State) : Result :=
  .next (if !s.host.linkUp ∨ 63 < ring then s else writeCmdTail ring (value % 65536) s)

/-- A write of REPLY_HEAD: it must lie from the current REPLY_HEAD to REPLY_TAIL. -/
def writeReplyHead (ring value : Nat) (s : State) : State :=
  let g := s.ring ring
  if !g.enabled then s.count 30
  else if g.entries ≤ value ∨ g.unread < (value + g.entries - g.replyHead) % g.entries then badDoorbell ring value s
  else s.withRing ring { g with replyHead := value }

/-- REPLY_HEAD_WRITE (R319, R353). -/
def execReplyHeadWrite (ring value : Nat) (s : State) : Result :=
  .next (if !s.host.linkUp ∨ 63 < ring then s else writeReplyHead ring (value % 65536) s)

/-- A write of PLUME_HEAD. -/
def writePlumeHead (value : Nat) (s : State) : State :=
  let p := s.host.plume
  if !p.enabled ∨ 2 ^ p.log2 ≤ value ∨ p.used < (value + 2 ^ p.log2 - p.head) % 2 ^ p.log2 then s.count 30
  else s.withHost { s.host with plume := { p with head := value } }

/-- PLUME_HEAD_WRITE (R343, R356). -/
def execPlumeHeadWrite (value : Word32) (s : State) : Result :=
  .next (if !s.host.linkUp then s else writePlumeHead (value.toNat % 65536) s)

/-! ## Ring 0 (R322, R355) -/

/-- A write of the register at offset 0x10 of ring 0's block: ignored while the ring is enabled; ENABLE checks the size
that the same write sets. -/
def writeRing0Control (value : Nat) (s : State) : State :=
  let g := s.ring 0
  if g.enabled then s
  else
    let g := { g with log2 := bits value 8 4, vector := bits value 16 6 }
    if !bit value 0 then s.withRing 0 g
    else if g.log2 < 4 ∨ 12 < g.log2 then (s.withRing 0 g).report 0x6002 (logKey none none none none) 0 []
    else s.withRing 0 { enabledRing g.log2 g.vector g.coalN g.coalUs g.cmdBase g.replyBase with orphans := g.orphans }

/-- RING0_ENABLE_WRITE (R355). -/
def execRing0EnableWrite (value : Word32) (s : State) : Result :=
  .next (if !s.host.linkUp then s else writeRing0Control value.toNat s)

/-! ## Event and match status (R336, R356) -/

def writeEvtStatus (value : Nat) (s : State) : State :=
  s.withHost { s.host with evtStatus := s.host.evtStatus &&& ~~~(BitVec.ofNat 16 value) }

/-- EVT_STATUS_CLEAR (R336): bits written 1 are cleared. -/
def execEvtStatusClear (value : Word32) (s : State) : Result :=
  .next (if !s.host.linkUp then s else writeEvtStatus value.toNat s)

def writeMatchStatus (value : Nat) (s : State) : State :=
  s.withHost { s.host with matchStatus := s.host.matchStatus &&& ~~~(BitVec.ofNat 8 value) }

/-- MATCH_STATUS_CLEAR (R356). -/
def execMatchStatusClear (value : Word32) (s : State) : Result :=
  .next (if !s.host.linkUp then s else writeMatchStatus value.toNat s)

/-! ## MSI-X (R357) -/

/-- Put an entry in the MSI-X table; unmasking a vector sends its pending message. -/
def writeMsix (vector : Nat) (e : Msix) (s : State) : State :=
  let s := s.withHost { s.host with msix := tput (fun _ => Msix.reset) s.host.msix vector e }
  if !e.masked && s.host.pba.getLsbD vector then
    (s.withHost { s.host with pba := s.host.pba &&& ~~~(BitVec.ofNat 80 (2 ^ vector)) }).signal vector
  else s

/-- MSIX_VECTOR_UNMASK (R357). -/
def execMsixVectorUnmask (vector addr data : Nat) (s : State) : Result :=
  .next (if !s.host.linkUp ∨ 79 < vector then s
    else writeMsix vector { addr := addr % 2 ^ 64, data := data % 2 ^ 32, masked := false } s)

/-! ## Coalescing (R323) -/

def coalesceRing (ring : Nat) (s : State) : State :=
  let g := s.ring ring
  if g.enabled ∧ 0 < g.unsignalled ∧ g.coalUs ≠ 0 ∧ g.oldest + g.coalUs * usT ≤ s.clk.elapsed then
    (s.withRing ring { g with unsignalled := 0 }).signal g.vector
  else s

def coalescePlume (s : State) : State :=
  let p := s.host.plume
  if p.enabled ∧ 0 < p.unsignalled ∧ p.coalUs ≠ 0 ∧ p.oldest + p.coalUs * usT ≤ s.clk.elapsed then
    (s.withHost { s.host with plume := { p with unsignalled := 0 } }).signal p.vector
  else s

/-- REPLY_COALESCE_TIMEOUT (R323, R343): COALESCE_US has passed since the oldest entry not yet signalled, of a ring 0 to 63,
or of the Plume stream as 64. -/
def execReplyCoalesceTimeout (ring t : Nat) (s : State) : Result :=
  .next (if ring = 64 then coalescePlume (s.at t) else if ring < 64 then coalesceRing ring (s.at t) else s.at t)

end Sys2Proof.Machine
end

