-- ==== Sys2Proof/Machine/Plan.lean ====
section
/-! DEFINITION. Machine/Plan.lean: where the page positions of a run lie (R55, R58, R71, R83, R90, R91, R95): the positions
already fixed stand in `run.pages`, oldest first; every later one follows from the sequence of its bank. -/

namespace Sys2Proof.Machine

open Sys2Proof

/-- The page boundary that ends a position (R74). -/
def PagePos.endPos (p : PagePos) : Nat := p.start + p.length + p.gap

/-- FLAGS bit i of the page record (R75). -/
def PagePos.flagged (p : PagePos) (i : Nat) : Bool := bit p.flags i
def PagePos.flag (p : PagePos) (i : Nat) : PagePos := { p with flags := setBit p.flags i true }

/-- The page index the position after this one takes: a slipped index moves on (R83). -/
def PagePos.nextIndex (p : PagePos) : Nat := if p.flagged 2 then p.pageIndex else (p.pageIndex + 1) % 2 ^ 32

/-- A position that a sequence entry of a bank places at a web position, before its fence. -/
def makePos (s : State) (bank entry repeatNo start index job : Nat) : PagePos :=
  let m := (s.bank bank).image
  let e := seqEntry m entry
  { start := start, length := ppLen m e.1, gap := gpLen m e.2.1, bank := bank, pageProg := e.1, gapProg := e.2.1,
    seqEntry := entry, repeatNo := repeatNo, pageIndex := index, jobId := job, placed := false, resolved := false,
    blank := false, descriptor := none, baseOnly := false, flags := 0, underrunLines := 0, absent := [],
    gapRaised := false, done := false, patterned := false }

/-- The first position of the run, at LEAD_IN (R71). -/
def firstPos (s : State) : PagePos :=
  makePos s s.run.active s.run.seqEntry 0 s.run.leadIn s.run.firstPage s.run.jobId

/-- The position that follows another one: the first entry of the other image at the boundary of an activation (R90), none
from the boundary at which the run ends on, else the entry's next repeat or the next entry (R58); repeat count 0 goes
on for ever. -/
def following (s : State) (p : PagePos) : Option PagePos :=
  let stopped := match s.run.stop with
    | .none => false
    | .atBoundary b => decide (b ≤ p.endPos)
    | .now _ => true
  let act := match s.run.activation with
    | some a => if a.boundary = p.endPos then some a else none
    | none => none
  if stopped then none
  else match act with
    | some a => some (makePos s (1 - p.bank) 0 0 p.endPos a.first a.jobId)
    | none =>
      let m := (s.bank p.bank).image
      let reps := (seqEntry m p.seqEntry).2.2
      if reps = 0 ∨ p.repeatNo + 1 < reps then
        some (makePos s p.bank p.seqEntry (p.repeatNo + 1) p.endPos p.nextIndex p.jobId)
      else if p.seqEntry + 1 < seqCount m then some (makePos s p.bank (p.seqEntry + 1) 0 p.endPos p.nextIndex p.jobId)
      else none

/-- The run ends at or before its first boundary, LEAD_IN. -/
def endsFirst (s : State) : Bool :=
  match s.run.stop with
  | .none => false
  | .atBoundary b => decide (b ≤ s.run.leadIn)
  | .now _ => true

/-- The position after those already fixed. -/
def nextPos (s : State) : Option PagePos :=
  match s.run.pages.getLast? with
  | some p => following s p
  | none => if endsFirst s then none else some (firstPos s)

/-- A page boundary and the page index that begins there. -/
structure Boundary where
  pos : Nat
  index : Nat
deriving DecidableEq, Repr

/-- Walk positions from `p` on (first those already fixed, then those that follow), looking at the boundary that ends
each: the first one wanted, unless one to stop at comes before. -/
def walkBoundaries (s : State) (want stop : Boundary → Bool) : Nat → PagePos → List PagePos → Option Boundary
  | 0, _, _ => none
  | n + 1, p, rest =>
    let next := match rest with
      | q :: _ => some q
      | [] => following s p
    let b : Boundary := { pos := p.endPos, index := match next with
      | some q => q.pageIndex
      | none => p.nextIndex }
    if want b then some b
    else if stop b then none
    else match rest, next with
      | q :: rest, _ => walkBoundaries s want stop n q rest
      | [], some q => walkBoundaries s want stop n q []
      | [], none => none

/-- The first boundary of the run that is wanted, LEAD_IN counting as the boundary that begins the first page
(log 25). Each position has at least one line, so `far` boundaries reach `far` lines ahead. -/
def findBoundary (s : State) (far : Nat) (want stop : Boundary → Bool) : Option Boundary :=
  let lead : Boundary := { pos := s.run.leadIn, index := s.run.firstPage }
  match s.run.pages with
  | p :: rest =>
    if p.start = s.run.leadIn ∧ want lead then some lead else walkBoundaries s want stop (far + rest.length + 1) p rest
  | [] => if want lead then some lead else if stop lead then none else walkBoundaries s want stop (far + 1) (firstPos s) []

/-- Is the commit window of boundary B open (R77)? -/
def windowOpen (s : State) (b : Nat) : Bool := decide (s.web.webPos + 4096 < b)

/-- The effective boundary of a command with BOUNDARY `b` (R77, R89), and whether it is LATE: not the first boundary
after the current web position. -/
def effectiveBoundary (s : State) (b : Nat) : Option (Boundary × Bool) :=
  let after : Boundary → Bool := fun x => decide (s.web.webPos < x.pos)
  let first := findBoundary s 1 after (fun _ => false)
  let found :=
    if b = 0 then findBoundary s 4098 (fun x => windowOpen s x.pos) (fun _ => false)
    else findBoundary s (b - s.web.webPos) (fun x => decide (x.pos = b) && windowOpen s x.pos) (fun x => decide (b ≤ x.pos))
  match found with
  | none => none
  | some x => some (x, decide (first ≠ some x) && decide (b = 0))

/-- Web position of the tick at which a position's page is first played by any bar (R55). -/
def PagePos.beginsPlay (s : State) (p : PagePos) : Nat := p.start + ppCMin (s.bank p.bank).image p.pageProg - 5

/-- FENCE_POLICY and FENCE_LEAD in force (R68, R84). -/
def State.fencePolicy (s : State) : Nat := s.tabNum 9 0 0 1
def State.fenceLead (s : State) : Nat := s.tabNum 9 0 2 2

/-- The fence of a position (R83); a fence before tick 0 counts as tick 0. -/
def PagePos.fence (s : State) (p : PagePos) : Nat :=
  p.start + ppCMin (s.bank p.bank).image p.pageProg - 5 - s.fenceLead

/-- The tick of a position's PAGE_DONE (R74). -/
def PagePos.doneAt (s : State) (p : PagePos) : Nat :=
  p.start + p.length + s.cDone (imgBarMask (s.bank p.bank).image)

/-- Replace the position that begins at `start`. -/
def State.updPage (s : State) (start : Nat) (f : PagePos → PagePos) : State :=
  s.withRun { s.run with pages := s.run.pages.map (fun p => if p.start = start then f p else p) }

def State.pageAt (s : State) (start : Nat) : Option PagePos := s.run.pages.find? (fun p => decide (p.start = start))

/-- Does the ready queue bind an index of a job? The latest entry counts (R82). -/
def readyFor (s : State) (job index : Nat) : Option Ready :=
  s.run.ready.reverse.find? (fun r => decide (r.jobId = job ∧ r.first ≤ index)
    && (decide (r.count = 0xFFFFFFFF) || decide (index < r.first + r.count)))

/-- The next position that places page index `index`, or holds it, among those fixed and those that follow. -/
def walkPages (s : State) (want stop : PagePos → Bool) : Nat → PagePos → List PagePos → Option PagePos
  | 0, _, _ => none
  | n + 1, p, rest =>
    if want p then some p
    else if stop p then none
    else match rest with
      | q :: rest => walkPages s want stop n q rest
      | [] => match following s p with
        | some q => walkPages s want stop n q []
        | none => none

def findPage (s : State) (far : Nat) (want stop : PagePos → Bool) : Option PagePos :=
  match s.run.pages with
  | p :: rest => walkPages s want stop (far + rest.length + 1) p rest
  | [] => walkPages s want stop (far + 1) (firstPos s) []

end Sys2Proof.Machine
end

