-- ==== Sys2Proof/Machine/Gating.lean ====
section
/-! DEFINITION. Machine/Gating.lean: run enable, the protection inputs, gate latches and FIRE_EN (R66, R225 to R229). -/

namespace Sys2Proof.Machine

open Sys2Proof

/-- Run enable (R66, R95): asserted in RUN and in DRAIN, until the tick from which RUN_STOP NOW deasserts it. -/
def runEnabled (s : State) : Bool :=
  let on := match s.run.stop with
    | .now last => decide (s.web.webPos + 5 < last)
    | _ => true
  match s.dev with
  | .run => on
  | .drain => on
  | _ => false

/-- Every gating input of bar b reads clear (R226, R227). -/
def inputsClear (s : State) (b : Nat) : Bool :=
  let i := s.link.inputs
  bit i.barOpenN b && i.mediaOk && decide (i.jamN % 16 = 15) && i.estopN && i.thermalOk

/-- The truth table of R226. -/
def fireEnValue (s : State) (b : Nat) : Bool := runEnabled s && inputsClear s b && !(s.bar b).latch

/-- FIRE_EN[7:0] and the latches of bars 7 to 0 as masks. -/
def fireMask (s : State) : Nat := maskOf ((List.range 8).filter (fun b => (s.bar b).fireEn))
def latchMask (s : State) : Nat := maskOf ((List.range 8).filter (fun b => (s.bar b).latch))

/-- The input levels in the layout of register 0x60 of the run snapshot (R359). -/
def inputLevels (s : State) : Nat :=
  let i := s.link.inputs
  i.barOpenN % 256 + 256 * bitNat i.mediaOk + 512 * (i.jamN % 16) + 8192 * bitNat i.estopN + 16384 * bitNat i.thermalOk

/-- R227: in ARMED, RUN and DRAIN the latch of a bar sets while one of its inputs reads open. -/
def latchBar (s : State) (b : Nat) : State :=
  if s.dev ∈ [.armed, .run, .drain] ∧ !inputsClear s b then s.withBar b { s.bar b with latch := true } else s

/-- Drive FIRE_EN of one bar to its truth-table value; its edges are time-stamped. -/
def driveFire (s : State) (b : Nat) : State :=
  let x := s.bar b
  let v := fireEnValue s b
  if x.fireEn = v then s
  else if v then s.withBar b { x with fireEn := true, lows := ((x.fellAt, s.base) :: x.lows).take 8 }
  else s.withBar b { x with fireEn := false, fellAt := s.base }

/-- Recompute latches and FIRE_EN of every bar; edges raise GATE_CHANGE and write one entry with the mask of the bars
that changed, the input levels, the time stamp and the web position (R227; field widths: log 30). -/
def State.settleGates (s : State) : State :=
  let before := fireMask s
  let s := (List.range 8).foldl latchBar s
  let s := (List.range 8).foldl driveFire s
  let changed := Nat.xor before (fireMask s)
  if changed = 0 then s
  else
    let s := s.raise 7
    let s := s.report 0x1006 (logKey none none none none) 0
      (leBytes 1 changed ++ leBytes 2 (inputLevels s) ++ leBytes 8 s.base ++ leBytes 8 s.web.webPos)
    (maskList changed 8).foldl (fun s b => s.traceRec 5 b
      (leBytes 1 (fireMask s) ++ leBytes 1 (latchMask s) ++ leBytes 4 (inputLevels s))) s

/-- Enter a device state; FIRE_EN follows run enable. -/
def State.enter (s : State) (d : DevState) : State := (s.withDev d).settleGates

/-- Enter FAULT (R97). -/
def State.enterFault (s : State) (c : FaultCause) : State := ((s.withFault c).withDev .fault).settleGates

/-- R97: an uncorrectable error in the active schedule bank leads to FAULT in ARMED, RUN and DRAIN: when it is found, and when a bank that
holds one becomes the active bank of such a state. -/
def State.faultOnPoison (s : State) : State :=
  if (s.bank s.run.active).poison ≠ [] ∧ s.dev ∈ [.armed, .run, .drain] then
    (s.report 0x100B (logKey none none none none) 0 []).enterFault .schedUe
  else s

/-- A gate release of one bar takes effect (R228): with every input clear its latch clears, and a boundary becomes its
release boundary; otherwise it is void and logged. -/
def releaseBar (boundary : Option Nat) (s : State) (b : Nat) : State :=
  let x := s.bar b
  if inputsClear s b then
    s.withBar b { x with latch := false, releaseBoundary := boundary.getD x.releaseBoundary }
  else s.report 0x1007 (logKey (some b) none none none) 0 []

/-- A gate release of the bars of a mask. -/
def releaseBars (boundary : Option Nat) (mask : Nat) (s : State) : State :=
  ((maskList mask 8).foldl (releaseBar boundary) s).settleGates

/-- A release of the bar is pending for a boundary at or before `start`, its window closed and every input clear
(R229). -/
def releasePending (s : State) (b start : Nat) : Bool :=
  inputsClear s b && s.run.commits.any (fun c => decide (c.classes = 0 ∧ c.boundary ≤ start) && bit c.barMask b
    && !windowOpen s c.boundary)

/-- GATE of the header of a slot line of the page that begins at `start` (R229). -/
def gateBit (s : State) (b start : Nat) : Bool :=
  decide ((s.bar b).releaseBoundary ≤ start) && ((s.bar b).fireEn || releasePending s b start)

/-- A protection input with its new filtered level. -/
def Inputs.edge (i : Inputs) (input : GateInput) (level : Bool) : Inputs :=
  match input with
  | .bar g => { i with barOpenN := setBit i.barOpenN g level }
  | .media => { i with mediaOk := level }
  | .jam k => { i with jamN := setBit i.jamN k level }
  | .estop => { i with estopN := level }

/-- The filter time of the protection inputs (R225, R338): steps of 2 ns, 25 where the press description holds 0 or is not given. -/
def gateFilterTime (s : State) : Time :=
  let n := match s.press with
    | none => 0
    | some p => p.gateFilter
  2 * nsT * (if n = 0 then 25 else n)

/-- GATING_INPUT_EDGE (R225, R226, R227): a protection input takes a level at `t` and holds it for `held`. Both edges are filtered: the
level counts once it has held for the filter time. -/
def execGatingInputEdge (input : GateInput) (level : Bool) (held t : Time) (s : State) : Result :=
  let f := gateFilterTime s
  if held < f then .next (s.at t)
  else
    let s := s.at (t + f)
    .next (State.settleGates (s.withLink { s.link with inputs := s.link.inputs.edge input level }))

end Sys2Proof.Machine
end

