-- ==== Sys2Proof/Machine/Repair.lean ====
section
/-! DEFINITION. Machine/Repair.lean: the on-die memory: its layout, its poisoned words, what a read of a word meets, and the soft-repair
list (R300, R302 to R307, R149, R158, R97). -/

namespace Sys2Proof.Machine

open Sys2Proof

/-! ## The layout (R300) -/

def sramBytes : Nat := 100663296
def bankBytes : Nat := 2097152

/-- Tables by class, size and copies, in the runs of banks that hold them: tone, zone gain, column gain, scale and mask; NOZZLE; the rest. -/
def toneRun : List (Nat × Nat × Nat) := [0, 1, 2, 3, 4].map (fun c => (c, tableSize c, 8))
def nozzleRun : List (Nat × Nat × Nat) := [(5, tableSize 5, 8)]
def otherRun : List (Nat × Nat × Nat) := [(6, tableSize 6, 8), (7, tableSize 7, 8), (8, tableSize 8, 1), (9, tableSize 9, 1)]

/-- The use of the SRAM word at a byte address. Banks are taken in the order of R300's table, and in them the uses in the order of their
numbers (DESIGN CHOICE, log 60). -/
def sramUse (a : Nat) : SramUse :=
  let k := a / bankBytes
  if k < 2 then .schedule k (a % bankBytes)
  else if k < 8 then tableUse toneRun (a - 2 * bankBytes)
  else if k < 13 then tableUse nozzleRun (a - 8 * bankBytes)
  else if k < 17 then
    let n := (a - 13 * bankBytes) / 4
    if n < 1966080 then .wear n else .none
  else if k < 26 then
    let n := (a - 17 * bankBytes) / 4608
    if n < 4096 then .context (n / 512) (n / 256 % 2) (n % 256) else .none
  else if k < 30 then .staging
  else if k < 32 then
    let n := (a - 30 * bankBytes) / 1572864
    if n < 2 then .cameraLine n else .none
  else if k < 36 then .vision ((a - 32 * bankBytes) / 4194304)
  else if k < 38 then .compressor
  else if k < 39 then
    match tableUse otherRun (a - 38 * bankBytes) with
    | .none => .counters
    | u => u
  else .firmware

/-- The byte address of byte `off` of a bank of a table. -/
def tableAddress (cls bar bank off : Nat) : Nat :=
  (if cls < 5 then 2 * bankBytes + tablePlace toneRun cls bar bank
   else if cls = 5 then 8 * bankBytes + tablePlace nozzleRun cls bar bank
   else 38 * bankBytes + tablePlace otherRun cls bar bank) + off

/-! ## Poisoned words -/

/-- Words of these uses are written anew as data pass through them; the model keeps no marker of them (log 60). -/
def passing : SramUse → Bool
  | .context _ _ _ => true
  | .staging => true
  | .cameraLine _ => true
  | .vision _ => true
  | .compressor => true
  | .counters => true
  | _ => false

/-- An SRAM word holds the marker. Of a table and of a schedule bank the bank itself keeps its poisoned words, so that what writes a word
whole clears it there. -/
def wordMarked (s : State) (word : Nat) : Bool :=
  match sramUse word with
  | .table cls bar bank off => decide (off / 16 * 16 ∈ (s.table cls bar).poison bank)
  | .schedule k off => decide (off / 16 * 16 ∈ (s.bank k).poison)
  | u => !passing u && decide (word / 16 * 16 ∈ s.dram.sramPoison)

/-- An SRAM word takes the marker: a table word reads as poisoned (R149, R158), one of the active schedule bank leads to FAULT (R97), and one
of a decoder context makes it conceal its row group (R304). -/
def markWord (word : Nat) (s : State) : State :=
  match sramUse word with
  | .table cls bar bank off =>
    let t := s.table cls bar
    s.withTable cls bar (t.withPoison bank (distinct (t.poison bank ++ [off / 16 * 16])))
  | .schedule k off =>
    let s := s.withBank k { s.bank k with poison := distinct ((s.bank k).poison ++ [off / 16 * 16]) }
    if k = s.run.active then s.faultOnPoison else s
  | .context b layer c =>
    let k := 256 * (2 * b + layer) + c
    let x := tget (fun _ => Context.reset) s.path.contexts k
    s.withPath { s.path with contexts := tput (fun _ => Context.reset) s.path.contexts k { x with poisoned := x.got } }
  | u => if passing u then s else s.withDram { s.dram with sramPoison := distinct (word / 16 * 16 :: s.dram.sramPoison) }

/-! ## The soft-repair list (R306, R307) -/

def kindSramRow : Nat := 0
def kindSramColumn : Nat := 1
def kindDramRow : Nat := 2

/-- Note a place in the soft-repair list: a place already there counts, and a full list of 1,024 takes no more. -/
def addRepair (kind place : Nat) (s : State) : State :=
  let d := s.dram
  if d.repairs.any (fun r => decide (r.kind = kind ∧ r.place = place)) then
    s.withDram { d with repairs := d.repairs.map (fun r =>
      if r.kind = kind ∧ r.place = place then { r with count := sat 4 (r.count + 1) } else r) }
  else if 1024 ≤ d.repairs.length then s
  else s.withDram { d with repairs := d.repairs ++ [{ kind := kind, place := place, firstSeen := s.base, count := 1 }] }

/-- A correctable error joins those of the last 24 h. -/
def noteCorrection (memory word b : Nat) (s : State) : State :=
  let day := 86400 * secT
  let kept := s.dram.recent.filter (fun c => decide (s.clk.elapsed < c.time + day))
  s.withDram { s.dram with recent := kept ++ [{ memory := memory, word := word, bit := b, time := s.clk.elapsed }] }

/-- Places of the soft-repair list: a row of an SRAM bank, a column of one. -/
def sramRowPlace (word : Nat) : Nat := 131072 * (word / bankBytes) + Config.sramRow word
def sramColumnPlace (word b : Nat) : Nat := 138 * (word / bankBytes) + b

/-- The bit that a correction of an SRAM word inverts: the one that read inverted, where only one did. -/
def correctedBit (err : ReadErr) : Nat := match err.flips with
  | [] => 0
  | f :: _ => f.1

/-- A correctable SRAM error of a word is counted; the third of the word, or the third row of the bank with the same bit, within 24 h is
repaired. -/
def sramCorrected (word : Nat) (err : ReadErr) (s : State) : State :=
  let b := correctedBit err
  let s := noteCorrection 1 word b (s.count 20)
  let mine := s.dram.recent.filter (fun c => decide (c.memory = 1))
  let rows := distinct ((mine.filter (fun c => decide (c.bit = b ∧ c.word / bankBytes = word / bankBytes))).map (fun c => sramRowPlace c.word))
  let s := if 3 ≤ (mine.filter (fun c => decide (c.word = word))).length then addRepair kindSramRow (sramRowPlace word) s else s
  if 3 ≤ rows.length then addRepair kindSramColumn (sramColumnPlace word b) s else s

/-! ## Reading a word (R304) -/

/-- The entry of an uncorrectable SRAM error: for a table word it names the bar and the class (R149). -/
def reportWord (word : Nat) (s : State) : State :=
  match sramUse word with
  | .table cls bar _ _ => s.report 0x5001 (logKey (some bar) none none none) 0 (leBytes 1 cls)
  | _ => s.report 0x5001 (logKey none none none none) 0 []

/-- The outcome of a read of the SRAM word at a byte address. -/
def sramOutcome (s : State) (word : Nat) (err : ReadErr) : ReadOut :=
  let read := err.source.getD word
  wordOutcome (word / 16) (read / 16) (wordMarked s read) (err.flips.map (·.1))

/-- A fresh uncorrectable error of an SRAM word is reported: MEMORY_UE, which is raised once for a word, its entry, and its row for repair. -/
def sramUe (word : Nat) (s : State) : State := reportWord word (addRepair kindSramRow (sramRowPlace word) ((s.count 25).raise 9))

/-- A reader meets an SRAM word: a correctable error is counted, a fresh uncorrectable one reported and marked. -/
def meetWord (word : Nat) (err : ReadErr) (s : State) : State :=
  match sramOutcome s word err with
  | .clean => s
  | .corrected => sramCorrected word err s
  | .poison => s
  | .uncorrectable => markWord word (sramUe word s)

/-- What befell the read of word `i`, by the list of words in error. -/
def errAt (found : List (Nat × ReadErr)) (i : Nat) : ReadErr :=
  match found.find? (fun x => decide (x.1 = i)) with
  | some x => x.2
  | none => .clean

/-- The words in which the SRAM reads of a command met errors, by byte address (R304). -/
def meetErrors (errs : List (Nat × ReadErr)) (s : State) : State := errs.foldl (fun s e => meetWord e.1 e.2 s) s

end Sys2Proof.Machine
end

