-- ==== Sys2Proof/Machine/DramMap.lean ====
section
/-! DEFINITION. Machine/DramMap.lean: DRAM geometry, address maps, the reserved region, store frames and the heap (R98, R99, R285
to R290). DRAM contents are kept by physical byte address: that of MAP_LINEAR for the place. -/

namespace Sys2Proof.Machine

open Sys2Proof

/-- Configurations A to D are 0 to 3 (R285). -/
def rankCount (cfg : Nat) : Nat := if cfg = 1 then 2 else 1
def rowBits (cfg : Nat) : Nat := if cfg < 2 then 16 else 17
def rowsPerBank (cfg : Nat) : Nat := 2 ^ rowBits cfg
def dramCapacity (cfg : Nat) : Nat := 8 * rankCount cfg * 32 * rowsPerBank cfg * 4096

/-- A 4,096-byte row page. -/
structure RowPage where
  subch : Nat
  rank : Nat
  bg : Nat
  bank : Nat
  row : Nat
deriving DecidableEq, Repr

/-- Physical byte address of byte `o` of a row page. -/
def physOf (cfg : Nat) (p : RowPage) (o : Nat) : Nat :=
  o + 4096 * (p.bank + 4 * (p.bg + 8 * (p.row + rowsPerBank cfg * (p.rank + rankCount cfg * p.subch))))

/-- Row page and byte of a device address under a map (R287). -/
def placeOf (cfg map a : Nat) : RowPage × Nat :=
  let w := rowsPerBank cfg
  let r := rankCount cfg
  if map = 0 then
    ({ bank := a / 4096 % 4, bg := a / 16384 % 8, row := a / 131072 % w, rank := a / (131072 * w) % r,
       subch := a / (131072 * w * r) % 8 }, a % 4096)
  else
    let row := a / (1048576 * r) % w
    let bank := a / 2048 % 4
    let bg := a / 8192 % 8
    ({ subch := a / 256 % 8, rank := a / 1048576 % r, row := row,
       bank := if map = 2 then Nat.xor bank (row / 8 % 4) else bank,
       bg := if map = 2 then Nat.xor bg (row % 8) else bg },
     a % 64 + 64 * (a / 64 % 4) + 256 * (a / 65536 % 16))

/-- The row page of a physical byte address; its byte in the page is the address modulo 4,096. -/
def rowPageOf (cfg phys : Nat) : RowPage :=
  let w := rowsPerBank cfg
  { bank := phys / 4096 % 4, bg := phys / 16384 % 8, row := phys / 131072 % w, rank := phys / (131072 * w) % rankCount cfg,
    subch := phys / (131072 * w * rankCount cfg) }

/-- The device address of a physical byte address: the inverse of `physAddr`. -/
def devAddr (cfg map phys : Nat) : Nat :=
  if map = 0 then phys
  else
    let p := rowPageOf cfg phys
    let o := phys % 4096
    let bank := if map = 2 then Nat.xor p.bank (p.row / 8 % 4) else p.bank
    let bg := if map = 2 then Nat.xor p.bg (p.row % 8) else p.bg
    o % 256 + 256 * p.subch + 2048 * bank + 8192 * bg + 65536 * (o / 256) + 1048576 * (p.rank + rankCount cfg * p.row)

def physAddr (cfg map a : Nat) : Nat := physOf cfg (placeOf cfg map a).1 (placeOf cfg map a).2

/-- The first byte of the reserved region (R289). -/
def reservedBase (cfg : Nat) : Nat := dramCapacity cfg - 268435456

/-- Does a row page hold a burst of the reserved region? The region is the top of device address: under MAP_LINEAR the
highest rows of the last sub-channel and rank, under the other maps the highest rows of all. -/
def pageReserved (cfg map : Nat) (p : RowPage) : Bool :=
  if map = 0 then decide (p.subch = 7 ∧ p.rank + 1 = rankCount cfg ∧ rowsPerBank cfg ≤ p.row + 2048)
  else decide (rowsPerBank cfg ≤ p.row + 256 / rankCount cfg)

/-- The row pages that hold a burst of heap unit `u` (4,096 bytes of device address). -/
def unitPages (cfg map u : Nat) : List RowPage :=
  distinct ((List.range 16).map (fun i => (placeOf cfg map (4096 * u + 256 * i)).1))

/-- The row page in which a pool's row `i` lies. -/
def Pool.page (p : Pool) (i : Nat) : RowPage :=
  { subch := p.subch, rank := p.rank, bg := p.bg, bank := p.bank, row := p.row + i }

def Pool.holds (p : Pool) (x : RowPage) : Bool :=
  decide (x.subch = p.subch ∧ x.rank = p.rank ∧ x.bg = p.bg ∧ x.bank = p.bank ∧ p.row ≤ x.row ∧ x.row < p.row + 5 * p.frames)

/-- R50, R290: inside installed DRAM and free of the reserved region. -/
def Pool.installed (cfg map : Nat) (p : Pool) : Bool :=
  decide (p.subch < 8 ∧ p.rank < rankCount cfg ∧ p.bg < 8 ∧ p.bank < 4 ∧ 1 ≤ p.frames
    ∧ p.row + 5 * p.frames ≤ rowsPerBank cfg) && !pageReserved cfg map (p.page (5 * p.frames - 1))

/-- The handle of store frame i of a pool (R99). -/
def Pool.handle (p : Pool) (i : Nat) : Nat :=
  2 ^ 29 * p.subch + 2 ^ 28 * p.rank + 2 ^ 25 * p.bg + 2 ^ 23 * p.bank + 2 ^ 5 * (p.row + 5 * i)

/-- The first row page of a frame handle. -/
def handlePage (h : Nat) : RowPage :=
  { subch := bits h 29 3, rank := bits h 28 1, bg := bits h 25 3, bank := bits h 23 2, row := bits h 5 18 }

/-- Physical byte address of offset `o` of a store frame. -/
def framePhys (cfg h o : Nat) : Nat :=
  let p := handlePage h
  physOf cfg { p with row := p.row + o / 4096 } (o % 4096)

/-- Does a handle name a frame of a pool? -/
def Pool.owns (p : Pool) (h : Nat) : Bool :=
  let x := handlePage h
  p.holds x && decide ((x.row - p.row) % 5 = 0 ∧ h % 32 = 0 ∧ h < 2 ^ 32)

/-- The pools of the images that the Caldera banks hold. -/
def State.pools (s : State) : List Pool :=
  [0, 1].flatMap (fun k => if (s.bank k).loaded then (List.range (poolCount (s.bank k).image)).map (pool (s.bank k).image) else [])

/-- A heap unit: below the reserved region, with no burst in a row page of a pool (R290). -/
def heapUnit (s : State) (u : Nat) : Bool :=
  let c := s.dram.cfg
  decide (4096 * u < reservedBase c.config) &&
    (unitPages c.config c.map u).all (fun x => !s.pools.any (fun p => p.holds x))

/-- Bytes of DRAM by device address. -/
def State.devRead (s : State) (a n : Nat) : List Byte :=
  (List.range n).map (fun i => tget zeroByte s.store.dram (physAddr s.dram.cfg.config s.dram.cfg.map (a + i)))

/-- The burst (64 bytes) of a physical address. -/
def burstOf (phys : Nat) : Nat := phys / 64

def State.burstPoisoned (s : State) (phys : Nat) : Bool := decide (burstOf phys ∈ s.store.poison)

/-- Is any burst of a span of device addresses poisoned? -/
def State.devPoisoned (s : State) (a n : Nat) : Bool :=
  (List.range (n / 64 + 2)).any (fun i => decide (a / 64 + i < (a + n + 63) / 64)
    && s.burstPoisoned (physAddr s.dram.cfg.config s.dram.cfg.map (64 * (a / 64 + i))))

def State.withDramMem (s : State) (m : Mem) : State := s.withStore { s.store with dram := m }

/-- Place bytes at device addresses. -/
def State.devWrite (s : State) (a : Nat) (bs : List Byte) : State :=
  s.withDramMem ((List.zip (List.range bs.length) bs).foldl (fun m x =>
    tput zeroByte m (physAddr s.dram.cfg.config s.dram.cfg.map (a + x.1)) x.2) s.store.dram)

/-- Bytes of a store frame. -/
def State.frameRead (s : State) (h o n : Nat) : List Byte :=
  (List.range n).map (fun i => tget zeroByte s.store.dram (framePhys s.dram.cfg.config h (o + i)))

/-- Bursts that a write covers whole lose their poison (R305); those it covers in part keep it. -/
def clearBursts (l : List Nat) (covered : List Nat) : List Nat := l.filter (fun b => decide (b ∉ covered))

/-- The bursts with the marker. An entry of the poison map goes with its marker. -/
def State.withPoison (s : State) (l : List Nat) : State :=
  s.withStore { s.store with poison := l, poisonMap := s.store.poisonMap.filter (fun b => decide (b ∈ l)) }

/-- The poison marker is written to a burst, which enters the poison map while that has room for it (R289, R303, R304). -/
def markBurst (phys : Nat) (s : State) : State :=
  let b := burstOf phys
  if b ∈ s.store.poison then s
  else
    let m := s.store.poisonMap
    s.withStore { s.store with poison := s.store.poison ++ [b], poisonMap := if m.length < 4096 then m ++ [b] else m }

/-! ## Findings of DRAM reads (R301, R303, R304, R307) -/

/-- The place of a DRAM row in the soft-repair list: its row page, in configuration D the lower of the two row pages that make up a physical
row (R286, DEDUCED: row pages 2r and 2r + 1, log 59). -/
def dramRowPlace (cfg phys : Nat) : Nat :=
  let p := rowPageOf cfg phys
  if cfg = 3 then physOf cfg { p with row := p.row / 2 * 2 } 0 / 4096 else phys / 4096

/-- A correctable DRAM error at a burst: counted; the third of a row page within 24 h puts the row on the list. -/
def dramCorrected (phys : Nat) (s : State) : State :=
  let h := (rowPageOf s.dram.cfg.config phys).subch
  let s := noteCorrection 0 (phys / 4096) 0 ((s.count 19).count (768 + h))
  if 3 ≤ (s.dram.recent.filter (fun c => decide (c.memory = 0 ∧ c.word = phys / 4096))).length then
    addRepair kindDramRow (dramRowPlace s.dram.cfg.config phys) s
  else s

/-- A fresh uncorrectable DRAM error is met: MEMORY_UE is raised and counted, and the row goes on the repair list. -/
def dramUe (phys : Nat) (s : State) : State :=
  let h := (rowPageOf s.dram.cfg.config phys).subch
  addRepair kindDramRow (dramRowPlace s.dram.cfg.config phys) (((s.count 25).count (776 + h)).raise 9)

/-- The entry of an uncorrectable DRAM error that is not the scrubber's. -/
def reportUe (phys : Nat) (s : State) : State :=
  s.report 0x5001 (logKey none none (some (rowPageOf s.dram.cfg.config phys).subch) none) 0 []

/-- The address symbols of a burst (R301). -/
def burstAddress (cfg phys : Nat) : List Nat :=
  let p := rowPageOf cfg phys
  addressSymbols p.subch p.rank p.bg p.bank p.row (phys % 4096 / 64)

/-- The outcome of the read of a burst; `marked` says that it holds the marker. -/
def burstOutcome (s : State) (phys : Nat) (marked : Bool) (err : ReadErr) : ReadOut :=
  let cfg := s.dram.cfg.config
  match err.source with
  | none => rsOutcome (burstDiff (burstAddress cfg phys) (burstAddress cfg phys) marked err.flips)
  | some x => rsOutcome (burstDiff (burstAddress cfg phys) (burstAddress cfg x) (s.burstPoisoned x) err.flips)

/-- What a reader of a burst meets (R304): whether it may use the data. -/
def meetBurst (phys : Nat) (marked : Bool) (err : ReadErr) (s : State) : State × Bool :=
  match burstOutcome s phys marked err with
  | .clean => (s, true)
  | .corrected => (dramCorrected phys s, true)
  | .poison => (s.count 21, false)
  | .uncorrectable => (markBurst phys (reportUe phys (dramUe phys s)), false)

def readBurst (phys : Nat) (err : ReadErr) (s : State) : State × Bool := meetBurst phys (s.burstPoisoned phys) err s

/-- The bursts in which the DRAM reads of a command met errors, by device address (R304). -/
def meetBursts (errs : List (Nat × ReadErr)) (s : State) : State :=
  errs.foldl (fun s e => (readBurst (physAddr s.dram.cfg.config s.dram.cfg.map e.1) e.2 s).1) s

/-! ## Channels (R292 to R297) -/

def State.channel (s : State) (c : Nat) : Channel := tget (fun _ => Channel.reset) s.dram.channels c

def State.withChannel (s : State) (c : Nat) (x : Channel) : State :=
  s.withDram { s.dram with channels := tput (fun _ => Channel.reset) s.dram.channels c x }

/-- No rank owes a refresh, from now on. -/
def State.noDebt (s : State) : State :=
  s.withDram { s.dram with debt := [], debtAt := (List.range 16).foldl (fun m k => nput m k s.clk.elapsed) [] }

/-- The DRAM is trained, and the controller serves it: from the end of the boot to the next reset. -/
def dramLive (s : State) : Bool := s.dram.trained && decide (s.boot.path = .up)

/-- A rank, as 2 × sub-channel + rank. -/
def rankIx (h rank : Nat) : Nat := 2 * h + rank

/-- One refresh in units of debt: tREFI2 in DRAM clock cycles of 2,000 / rate ns. -/
def refreshUnit (c : DramConfig) : Nat := nth 0 c.timing 12 * (2000 * nsT)

/-- Ranks of the configuration. -/
def State.ranks (s : State) : List Nat := List.range (rankCount s.dram.cfg.config)

/-- What a rank owes now. It accrues one refresh per tREFI2, two where a device asks for a higher rate, and none asleep. -/
def debtNow (s : State) (h rank : Nat) : Nat :=
  let k := rankIx h rank
  let since := nget s.dram.debtAt k
  let rate := rateMts s.dram.cfg.rate * (if tget (fun _ => false) s.dram.hot k then 2 else 1)
  nget s.dram.debt k + (if (s.channel (h / 2)).sr = .awake then (s.clk.elapsed - since) * rate else 0)

/-- Bring a rank's debt up to now and lower it by `n` refreshes, not below 0. -/
def payDebt (h rank n : Nat) (s : State) : State :=
  let k := rankIx h rank
  s.withDram { s.dram with debt := nput s.dram.debt k (debtNow s h rank - n * refreshUnit s.dram.cfg)
                           debtAt := nput s.dram.debtAt k s.clk.elapsed }

/-- The SR window whose entry frame is the frame of the latest tick and that names a channel (R38, R57). -/
def entryDue (s : State) (c : Nat) : Bool :=
  s.web.running && s.run.pages.any (fun p => p.placed && (List.range (gpSrCount (s.bank p.bank).image p.gapProg)).any (fun i =>
    let w := gpSr (s.bank p.bank).image p.gapProg i
    bit w.1 c && decide (p.start + p.length + w.2.1 = s.web.webPos)))

/-! ## The dynamic share (R297, R298) -/

/-- Classes: 0 CAM0, 1 CAM1, 2 HOST, 3 CODEC, 4 DEVICE, 5 FIRMWARE, 6 SCRUB, with their weights and tokens per sub-channel. -/
def classWeight (cls : Nat) : Nat := nth 1 [8, 8, 16, 8, 4, 4, 1] cls
def classTokens (cls : Nat) : Nat := nth 8 [32, 32, 64, 32, 16, 32, 8] cls

def subchOf (s : State) (addr : Nat) : Nat := (placeOf s.dram.cfg.config s.dram.cfg.map addr).1.subch

/-- Tokens of a class that requests waiting on a sub-channel hold. -/
def tokensHeld (s : State) (h cls : Nat) : Nat :=
  ((s.channel (h / 2)).held.filter (fun r => decide (r.cls = cls ∧ subchOf s r.addr = h))).length

/-- A channel that sleeps in IDLE wakes for a request (R297): its ranks' debts accrue again from now on. -/
def wakeIdle (c : Nat) (s : State) : State :=
  let s := (payDebt (2 * c) 0 0 s).withChannel c { s.channel c with sr := .awake }
  ([(2 * c, 0), (2 * c, 1), (2 * c + 1, 0), (2 * c + 1, 1)]).foldl (fun s k =>
    s.withDram { s.dram with debtAt := nput s.dram.debtAt (rankIx k.1 k.2) s.clk.elapsed }) s

/-- A request reaches a channel (R296, R297): it restarts the count of SR_IDLE, cancels an entry that has not been made, and wakes a channel
that sleeps in IDLE. -/
def touchChannel (s : State) (c : Nat) : State :=
  let s := if (s.channel c).sr = .idleSr then wakeIdle c s else s
  let x := s.channel c
  s.withChannel c { x with lastRequest := s.clk.elapsed, cancelled := x.cancelled || (decide (x.sr = .awake) && entryDue s c) }

/-- The sub-channels that `n` bytes of device address from `a` on lie in. Under the interleaved maps 2,048 bytes meet all of them. -/
def spanSubs (s : State) (a n : Nat) : List Nat :=
  if n = 0 then []
  else if s.dram.cfg.map = 0 then
    (List.range (subchOf s (a + n - 1) + 1)).filter (fun h => decide (subchOf s a ≤ h))
  else distinct ((List.range (min 8 ((a + n - 1) / 256 - a / 256 + 1))).map (fun i => (a / 256 + i) % 8))

/-- The dynamic-share accesses of a command or engine to sub-channels (R297, R298). They take their class's tokens and return them within the
step, and a wait for a channel that an SR window holds asleep shows only as time (log 59). -/
def State.share (s : State) (subs : List Nat) : State :=
  if dramLive s then (distinct (subs.map (fun h => h / 2))).foldl touchChannel s else s

/-- Requests of a class can be accepted on sub-channels now: the class has tokens left, and no SR window holds the channel (R297, R298). -/
def shareOpen (s : State) (cls : Nat) (subs : List Nat) : Bool :=
  subs.all (fun h => decide (tokensHeld s h cls < classTokens cls ∧ (s.channel (h / 2)).sr ≠ .windowSr))

/-- A run's first tick finds every channel awake and every rank owing no refresh (R293, R296). -/
def State.freshDram (s : State) : State :=
  let s := State.noDebt (s.withDram { s.dram with windowAt := [] })
  (List.range 4).foldl (fun s c =>
    if (s.channel c).sr = .idleSr then s.withChannel c { s.channel c with sr := .awake } else s) s

end Sys2Proof.Machine
end

