-- ==== Sys2Proof/Machine/Commit.lean ====
section
/-! DEFINITION. Machine/Commit.lean: table classes: what COMMIT checks and does, windows, locks and copies, TABLE_WRITE,
TABLE_READ and the gate release (R76 to R81, R84, R133, R148, R154, R157, R211, R228, R239, R341). -/

namespace Sys2Proof.Machine

open Sys2Proof

/-! ## What a commit checks in a table image -/

/-- The lowest of some failing offsets. -/
def lowest (l : List (Option Nat)) : Option Nat :=
  l.foldl (fun m x => match m, x with
    | none, x => x
    | m, none => m
    | some a, some b => some (min a b)) none

/-- A condition on the field at offset `o`. -/
def badIf (c : Prop) [Decidable c] (o : Nat) : Option Nat := if c then some o else none

/-- The first listed byte that is not 0 in one of the reserved spans (first, last). Unlisted reserved bytes are 0. -/
def reservedBad (m : Mem) (spans : List (Nat × Nat)) : Option Nat :=
  (m.find? (fun e => decide (e.2 ≠ 0) && spans.any (fun p => decide (p.1 ≤ e.1 ∧ e.1 ≤ p.2)))).map (·.1)

/-- The first 16-bit entry from offset `lo` on whose bits [15:12] are not 0. -/
def entryBad (m : Mem) (lo : Nat) : Option Nat :=
  (m.find? (fun e => decide (lo ≤ e.1 ∧ e.1 % 2 = 1 ∧ 16 ≤ e.2.toNat))).map (fun e => e.1 - 1)

/-- T_WARN, T_LIMIT, T_ABS of a head in 0.1 °C (R220): the lower of the device's value and the head's, when it states
one. -/
def tempLimit (dflt stated : Nat) : Nat := if stated = 0 then dflt else min dflt stated
def warnAt (h : HeadMem) : Nat := tempLimit 580 h.tWarn
def limitAt (h : HeadMem) : Nat := tempLimit 650 h.tLimit
def absAt (h : HeadMem) : Nat := tempLimit 720 h.tAbs

/-- The word rules of the STATE table (R156, R157) for nozzle j of a head with n nozzles. A GIVE names a column; nozzle j
prints column j from the left, or n - 1 - j in descending order. -/
def nozzleWordOk (word j n : Nat) (desc : Bool) : Bool :=
  let st := bits word 13 3
  let cap := bits word 11 2
  let give := bits word 9 2
  let col := if desc then n - 1 - j else j
  let stateOk := match st with
    | 0 => decide (cap = 3 ∧ give = 0)
    | 1 => decide (cap ≤ 2)
    | 2 => decide (cap = 0)
    | 3 => decide (cap = 0)
    | _ => false
  let giveOk := (decide (give = 0 ∨ give = 2) || decide (0 < col)) && (decide (give = 0 ∨ give = 1) || decide (col + 1 < n))
  stateOk && decide (bits word 4 3 ≤ 4) && decide (bits word 0 4 = 0) && (decide (give = 0) || decide (j < n)) && giveOk

/-- R157 for one slot record of a bank image. -/
def slotRecordBad (s : State) (b : Nat) (num : Nat → Nat → Nat) (sl : Nat) : Option Nat :=
  let o := 32 + 32 * sl
  let fit := s.fitted b sl
  let first := num o 4
  let n := num (o + 4) 2
  let flags := num (o + 6) 1
  let nx := num (o + 10) 1
  let kind := num (o + 11) 1
  let w := num (o + 12) 2
  let bias := signed 2 (num (o + 14) 2)
  let h := s.head b sl
  let same (f : HeadMem → Bool) : Bool := match h with
    | none => true
    | some h => f h.mem
  lowest
    [badIf (fit ∧ first ≠ (s.slotDesc b sl).f) o,
     badIf (fit ∧ !same (fun m => decide (n = m.n))) (o + 4),
     badIf (!fit ∧ n ≠ 0) (o + 4),
     badIf (n ≠ 0 ∧ (n % 8 ≠ 0 ∨ 5120 < n ∨ 110592 < first + n)) (o + 4),
     badIf (fit ∧ n = 0) (o + 4),
     badIf (fit ∧ !same (fun m => bit flags 0 == m.orderDesc && bit flags 1 == m.leadRowB)) (o + 6),
     badIf (8 ≤ flags) (o + 6),
     badIf (fit ∧ !(match h with
       | none => true
       | some h => decide (num (o + 7) 1 = h.pack))) (o + 7),
     badIf (fit ∧ !same (fun m => decide (num (o + 8) 2 = m.rowSpacing))) (o + 8),
     badIf (nx = 0xFF ∧ w ≠ 0) (o + 12),
     badIf (nx = 0xFF ∧ kind ≠ 0) (o + 11),
     badIf (!fit ∧ nx ≠ 0xFF) (o + 10),
     badIf (nx ≠ 0xFF ∧ (nx = sl ∨ !s.fitted b nx)) (o + 10),
     badIf (nx ≠ 0xFF ∧ (w : Int) ≠ (first : Int) + n - num (32 + 32 * nx) 4) (o + 12),
     badIf (w ≠ 0 ∧ (w < 32 ∨ 256 < w)) (o + 12),
     badIf (2 < kind ∨ (w = 0 ∧ kind ≠ 0) ∨ (w ≠ 0 ∧ kind = 0)) (o + 11),
     badIf (bias < -((w / 4 : Nat) : Int) ∨ ((w / 4 : Nat) : Int) < bias) (o + 14)]

/-- R157 for the bar header against the press description. -/
def nozzleHeaderBad (s : State) (b : Nat) (num : Nat → Nat → Nat) : Option Nat :=
  let d := match s.press with
    | none => BarDesc.reset
    | some p => p.bar b
  lowest
    [badIf (num 0 4 ≠ d.pressCol0) 0, badIf (1 < num 4 1) 4, badIf (4 ≤ num 5 1) 5,
     badIf (num 6 2 ≠ d.leftW) 6, badIf (num 8 2 ≠ d.rightW) 8,
     badIf (signed 2 (num 10 2) ≠ d.leftBias) 10, badIf (signed 2 (num 12 2) ≠ d.rightBias) 12,
     badIf (num 14 1 ≠ d.leftKind) 14, badIf (num 15 1 ≠ d.rightKind) 15,
     badIf (15 < num 16 1) 16, badIf (15 < num 17 1) 17, badIf (15 < num 18 1) 18]

/-- A column that lies in more than two fitted heads: it is then the first column of one of them. -/
def crowdedSlot (s : State) (b : Nat) (num : Nat → Nat → Nat) : Option Nat :=
  let span (sl : Nat) : Nat × Nat := (num (32 + 32 * sl) 4, num (36 + 32 * sl) 2)
  ((s.fittedSlots b).find? (fun sl =>
    let x := (span sl).1
    decide (2 < ((s.fittedSlots b).filter (fun o => decide ((span o).1 ≤ x ∧ x < (span o).1 + (span o).2))).length))).map
    (fun sl => 32 + 32 * sl)

/-- The first listed nozzle word that breaks the rules. -/
def nozzleWordBad (m : Mem) (num : Nat → Nat → Nat) : Option Nat :=
  (m.find? (fun e => decide (66336 ≤ e.1) &&
    (let i := (e.1 - 66336) / 2
     let sl := i / 10240
     !nozzleWordOk (num (66336 + 2 * i) 2) (i % 5120) (num (36 + 32 * sl) 2) (bit (num (38 + 32 * sl) 1) 0)))).map
    (fun e => 66336 + 2 * ((e.1 - 66336) / 2))

/-- R211 for one slot record of the ENERGY image. -/
def energySlotBad (s : State) (b : Nat) (num : Nat → Nat → Nat) (sl : Nat) : Option Nat :=
  let o := 272 + 8 * sl
  let bad (f : HeadMem → Bool) : Bool := s.fitted b sl && match s.head b sl with
    | none => false
    | some h => f h.mem
  lowest
    [badIf (15 < num o 1) o, badIf (bad (fun m => decide (num o 1 ≠ m.rank))) o,
     badIf (bad (fun m => decide (num (o + 2) 2 ≠ m.vNom))) (o + 2),
     badIf (bad (fun m => decide (num (o + 4) 2 ≠ m.warmLimit))) (o + 4),
     badIf (bad (fun m => decide (num 0 2 ≠ 0 ∧ warnAt m ≤ num 0 2))) 0]

/-- The byte offset of the first field of a bank image that keeps COMMIT from committing it (R148, R157, R211, R239; for
RUN_POLICY log 27), none when the image is accepted. -/
def imageBad (s : State) (cls b : Nat) : Option Nat :=
  let t := s.table cls b
  let m := t.bank t.shadow
  let num := t.num cls t.shadow
  match cls with
  | 0 => lowest [badIf (2 < num 0 2) 0, badIf (4095 < num 2 2) 2, reservedBad m [(4, 15)], entryBad m 16]
  | 1 => lowest [badIf (1 < num 0 2) 0, reservedBad m [(2, 15)]]
  | 3 => lowest [badIf (1 < num 0 1) 0, reservedBad m [(1, 15)]]
  | 4 => lowest [badIf (num 0 2 < 1) 0, badIf (num 2 2 < num 0 2) 2, badIf (num 4 2 < num 2 2 ∨ 4095 < num 4 2) 4,
      badIf (511 < num 12 2) 12, badIf (1 < num 14 1) 14, reservedBad m [(6, 7), (15, 31)], entryBad m 32]
  | 5 => lowest ([nozzleHeaderBad s b num, crowdedSlot s b num, nozzleWordBad m num,
      reservedBad m ((19, 31) :: (List.range 24).map (fun sl => (48 + 32 * sl, 63 + 32 * sl)))]
      ++ (List.range 24).map (slotRecordBad s b num))
  | 6 => (m.find? (fun e => decide (e.1 % 2 = 1 ∧ e.2 ≠ 0) && s.fitted b (e.1 / 2))).map (fun e => e.1)
  | 7 => lowest ([badIf (8 < num 2 1) 2,
      reservedBad m ((4, 15) :: (List.range 24).flatMap (fun sl => [(273 + 8 * sl, 273 + 8 * sl), (278 + 8 * sl, 279 + 8 * sl)])),
      (m.find? (fun e => decide (144 ≤ e.1 ∧ e.1 < 272 ∧ num (e.1 / 2 * 2) 2 < 16384))).map (fun e => e.1 / 2 * 2)]
      ++ (List.range 24).map (energySlotBad s b num))
  | 8 => lowest ([badIf (3 < num 0 1 ∧ num 0 1 ≠ 0xFF) 0, badIf (1 < num 1 1) 1, badIf (num 2 2 < 16 ∨ 4096 < num 2 2) 2,
      badIf (num 8 4 < 1024 ∨ 1048576 < num 8 4) 8,
      reservedBad m ((16, 31) :: (List.range 8).flatMap (fun j => [(34 + 16 * j, 35 + 16 * j), (40 + 16 * j, 47 + 16 * j)]))]
      ++ (List.range 8).map (fun j => lowest [badIf (4 < num (32 + 16 * j) 1) (32 + 16 * j), badIf (7 < num (33 + 16 * j) 1) (33 + 16 * j)]))
  | 9 => lowest [badIf (2 < num 0 1) 0, reservedBad m [(1, 1)], badIf (num 2 2 < 64) 2]
  | _ => none

/-! ## The cases of a commit -/

/-- The bars a commit of a class names: bar 0 stands for a class of the whole device (R76). -/
def classBars (cls mask : Nat) : List Nat := if deviceWide cls then [0] else maskList mask 8

/-- The (class, bar) pairs a COMMIT names. -/
def commitPairs (classes mask : Nat) : List (Nat × Nat) :=
  (maskList classes 10).flatMap (fun c => (classBars c mask).map (fun b => (c, b)))

/-- Colour keeping owns ZONE_GAIN of a bar (R80, R283). -/
def keepOwns (s : State) (b : Nat) : Bool :=
  let k := tget (fun _ => KeepBar.reset) s.keep.bars b
  k.enabled || k.ownedUntil.isSome

/-- c_min of the active image for R84: the largest c_min of its page programs (log 32). -/
def imageCMin (m : Mem) : Nat := maxOver (ppCMin m) (List.range (ppCount m))

/-- The smallest FENCE_LEAD of a press of several devices (R84). -/
def fenceLeadBound (m : Mem) : Nat := max 256 (imageCMin m + ceilDiv (12 * msT) (imgPMin m))

/-- R84: a press of several devices refuses SLIP and a short FENCE_LEAD. -/
def policyRefused (s : State) (policy lead : Nat) : Bool :=
  decide (1 < s.devices) && (decide (policy = 0) || decide (lead < fenceLeadBound s.activeImage))

/-- R154: a FINE_DELAY bank that changes h of a fitted slot. -/
def changesHeld (s : State) (b : Nat) : Bool :=
  (s.fittedSlots b).any (fun sl =>
    decide (trailTicks (s.tabShadow 6 b (2 * sl) 1) (s.rowSpacing b sl) ≠ s.held b sl))

/-- R133: a SCALE bank that changes ACROSS without an activation for the same boundary. -/
def changesAcross (s : State) (b boundary : Nat) : Bool :=
  decide (s.tabShadow 3 b 0 1 ≠ s.tabNum 3 b 0 1) && !(match s.run.activation with
    | some a => decide (a.boundary = boundary)
    | none => false)

/-- Is a class locked on a bar (R78)? -/
def isLocked (s : State) (cls b : Nat) : Bool := decide ((cls, if deviceWide cls then 0 else b) ∈ s.run.locks)

/-- Log COMMIT_REJECT with the bar, the class and the byte offset (R148, R157, R211; widths log 26). -/
def logReject (cls b off : Nat) (s : State) : State :=
  s.report 0x100D (logKey (if deviceWide cls then none else some b) none none none) 0 (leBytes 1 cls ++ leBytes 4 off)

/-- The first named class and bar whose image is refused. -/
def firstBadImage (s : State) (pairs : List (Nat × Nat)) : Option (Nat × Nat × Nat) :=
  pairs.findSome? (fun p => (imageBad s p.1 p.2).map (fun o => (p.1, p.2, o)))

/-- The checks of the content of the named classes; `boundary` is the effective boundary in RUN. -/
def contentCheck (s : State) (pairs : List (Nat × Nat)) (boundary : Option Nat) : Option (State → State) :=
  match firstBadImage s pairs with
  | some (c, b, o) => some (logReject c b o)
  | none =>
    match boundary, pairs.find? (fun p => decide (p.1 = 3) && (match boundary with
        | some x => changesAcross s p.2 x
        | none => false)) with
    | some _, some p => some (logReject 3 p.2 0)
    | _, _ =>
      if boundary.isSome ∧ pairs.any (fun p => decide (p.1 = 6) && changesHeld s p.2) then some id
      else if (9, 0) ∈ pairs ∧ s.dev ≠ .idle ∧ policyRefused s (s.tabShadow 9 0 0 1) (s.tabShadow 9 0 2 2) then some id
      else none

/-! ## Taking effect -/

/-- The committed content of a class and bar goes into the table mirror (R377); of a keeping commit it is then no longer
needed apart. -/
def mirrorTable (cls b : Nat) (s : State) : State :=
  let t := s.table cls b
  let c := s.boot.checkpoint
  let k := tableKey cls b
  s.withBoot { s.boot with checkpoint :=
    { c with zoneGains := if cls = 1 then tput (fun _ => (0, [])) c.zoneGains b (0, []) else c.zoneGains,
             mirror := tput (fun _ => none) c.mirror k (some (t.bank t.live)), mirrorBad := c.mirrorBad.filter (fun x => x != k) } }

/-- Outside a run a NOZZLE commit ends the withdrawals that RESTORE_SLOT has marked at once (R168). -/
def dropRestored (b : Nat) (s : State) : State :=
  (List.range 24).foldl (fun s sl =>
    match (s.slot b sl).withdrawn with
    | some w => if w.restore then s.withSlot b sl { s.slot b sl with withdrawn := none, gone := [] } else s
    | none => s) s

/-- A commit of a class and bar that takes effect outside a run (R81): both banks hold the committed content; no zone ramp
runs (R141). -/
def commitNow (p : Nat × Nat) (s : State) : State :=
  let (cls, b) := p
  let t := s.table cls b
  let m := t.bank t.shadow
  let bad := t.poison t.shadow
  let s := s.withTable cls b { t with bank0 := m, bank1 := m, since := 0, poison0 := bad, poison1 := bad, told0 := [], told1 := [] }
  let s := s.withLatch cls b { s.latch cls b with frozen := false }
  let s := if cls = 5 then dropRestored b s else s
  let s := if cls = 1 then
      s.withTables { s.tables with ramps := tput (fun _ => []) s.tables.ramps b [{ page := 0, lines := 0, start := [], k0 := 4096 }] }
    else s
  mirrorTable cls b s

def commitAll (pairs : List (Nat × Nat)) (s : State) : State := pairs.foldl (fun s p => commitNow p s) s

/-! ## Windows, boundaries and copies (R78, R79) -/

/-- Does some page position of the run begin before a boundary? -/
def pageBefore (s : State) (b : Nat) : Bool := decide (s.run.leadIn < b)

/-- The last page that begins before a boundary is done. -/
def lastPageDone (s : State) (b : Nat) : Bool := s.run.pages.any (fun p => p.done && decide (p.endPos = b))

/-- RESTORE_SLOT ends with this NOZZLE commit, for pages from the boundary on (R168). -/
def endRestored (boundary b : Nat) (s : State) : State :=
  (List.range 24).foldl (fun s sl =>
    match (s.slot b sl).withdrawn with
    | some w => if w.restore ∧ w.ends.isNone then
        s.withSlot b sl { s.slot b sl with withdrawn := some { w with ends := some boundary } } else s
    | none => s) s

/-- The zone ramp of a bar starts anew at a boundary (R140). -/
def noteZoneCommit (boundary b : Nat) (s : State) : State :=
  let old := tget (fun _ => []) s.tables.zoneCommits b
  s.withTables { s.tables with zoneCommits := tput (fun _ => []) s.tables.zoneCommits b (old ++ [boundary]) }

/-- A class and bar committed for a boundary whose window closes: pages from the boundary on use the bank that was the
shadow (R11, R79), whose SRAM words it found poisoned stay so. Where an earlier commit's copy has still to end, the shadow
bank will equal the committed one, and no bank changes; the zone ramp starts anew all the same (R140). -/
def closeTable (boundary : Nat) (p : Nat × Nat) (s : State) : State :=
  let s := if p.1 = 1 then noteZoneCommit boundary p.2 s else s
  if isLocked s p.1 p.2 then s
  else
    let t := s.table p.1 p.2
    let s := s.withTable p.1 p.2 { t with live := t.shadow, since := boundary }
    if p.1 = 5 then endRestored boundary p.2 s else s

/-- COMMIT_WINDOW_CLOSE (R78): at the tick at B - 4,096 the classes committed for B lock on their bars. Where no page
begins before B, the copy begins at once (R79). -/
def execCommitWindowClose (boundary : Nat) (s : State) : Result :=
  let due := s.run.commits.filter (fun c => decide (c.boundary = boundary) && !c.closed)
  if s.dev ∈ [.run, .drain] ∧ !windowOpen s boundary ∧ due ≠ [] then
    let pairs := due.flatMap (fun c => commitPairs c.classes c.barMask)
    let copies : List TableCopy := (due.filter (fun c => decide (c.classes ≠ 0))).map (fun c =>
      { classes := c.classes, barMask := c.barMask, boundary := boundary, begun := !pageBefore s boundary || lastPageDone s boundary })
    let s := (distinct pairs).foldl (fun s p => closeTable boundary p s) s
    .next (s.withRun { s.run with
      commits := s.run.commits.map (fun c => if c.boundary = boundary then { c with closed := true } else c)
      locks := s.run.locks ++ (distinct pairs).filter (fun p => decide (p ∉ s.run.locks))
      copies := s.run.copies ++ copies })
  else .next s

/-- The copy of one class and bar ends: the old bank takes the committed content (R79). Its own poisoned words are written in full; a word
that was committed with the marker is copied with it. -/
def copyTable (p : Nat × Nat) (s : State) : State :=
  let (cls, b) := p
  let t := s.table cls b
  mirrorTable cls b (s.withTable cls b ((t.withBank t.shadow (t.bank t.live)).withPoison t.shadow (t.poison t.live)))

/-! ## TABLE_WRITE and TABLE_READ (R341) -/

/-- Counter of nozzle entry `e` (10,240 s + 5,120 q + j) of a bar in the wear families (R169, R341). -/
def wearIx (b e : Nat) : Nat := 245760 * b + e

/-- The wear totals of the reserved region (R289): their first device address, and their bytes. -/
def wearBase (s : State) : Nat := reservedBase s.dram.cfg.config + 0x07800000
def wearBytes : Nat := 15728640

/-- A wear total that cannot be read is set to 0 and reported with bar, slot, row and nozzle. -/
def loseTotal (s : State) (i : Nat) : State :=
  let e := i % 245760
  (s.withPath { s.path with wearTotals := nput s.path.wearTotals i 0 }).report 0x5003
    (logKey (some (i / 245760)) (some (e / 10240)) none none) 0 (leBytes 1 (e % 10240 / 5120) ++ leBytes 4 (e % 5120))

/-- The eight totals of a burst that cannot be read are set to 0 (R304), which writes the burst whole; `a` is its device address. -/
def loseBurst (s : State) (a : Nat) : State :=
  let s := (List.range 8).foldl (fun s i => loseTotal s ((a - wearBase s) / 8 + i)) s
  s.withPoison (clearBursts s.store.poison [burstOf (physAddr s.dram.cfg.config s.dram.cfg.map a)])

/-- Device addresses of the bursts that a span of `n` bytes from device address `a` on meets, and whether it covers one whole. -/
def burstsIn (a n : Nat) : List Nat := ((List.range (n / 64 + 2)).map (fun i => 64 * (a / 64 + i))).filter (fun x => decide (x < a + n))
def coversBurst (a n x : Nat) : Bool := decide (a ≤ x ∧ x + 64 ≤ a + n)

/-- Those of them that are poisoned. -/
def lostBursts (s : State) (a n : Nat) : List Nat :=
  if s.store.poison = [] then []
  else (burstsIn a n).filter (fun x => s.burstPoisoned (physAddr s.dram.cfg.config s.dram.cfg.map x))

/-- A reader of wear totals meets the poisoned ones among them. -/
def meetTotals (a n : Nat) (s : State) : State :=
  let l := lostBursts s a n
  l.foldl loseBurst (s.countN 21 l.length)

/-- The read, merge and write of a burst that is covered in part (R305): its read may meet an error. -/
def mergeBurst (errs : List (Nat × ReadErr)) (s : State) (x : Nat) : State :=
  let phys := physAddr s.dram.cfg.config s.dram.cfg.map x
  let err := errAt errs x
  let (t, good) := readBurst phys err s
  if !good then t.count 23
  else if burstOutcome s phys (s.burstPoisoned phys) err = .corrected then t.count 22
  else t

/-- A write of wear totals (R305): bursts that it covers whole are no longer poisoned. -/
def writeWear (a n : Nat) (errs : List (Nat × ReadErr)) (s : State) : State :=
  let s := ((burstsIn a n).filter (fun x => !coversBurst a n x)).foldl (mergeBurst errs) (s.share (spanSubs s a n))
  let whole := ((burstsIn a n).filter (coversBurst a n)).map (fun x => burstOf (physAddr s.dram.cfg.config s.dram.cfg.map x))
  if s.store.poison.any (fun b => decide (b ∈ whole)) then s.withPoison (clearBursts s.store.poison whole) else s

/-- Are OFFSET and LENGTH legal for the class (R341)? -/
def spanOk (cls off len : Nat) : Bool :=
  let unit := if cls = 16 then 4 else if cls = 17 then 8 else 2
  decide (tableSize cls ≠ 0 ∧ off % unit = 0 ∧ len % unit = 0 ∧ 1 ≤ len ∧ len ≤ 1048576 ∧ off + len ≤ tableSize cls)

/-- Poisoned words that a write of a span clears: those it covers whole (R305). -/
def clearPoison (l : List Nat) (off len : Nat) : List Nat := l.filter (fun x => !decide (off ≤ x ∧ x + 16 ≤ off + len))

/-- Write 8-byte totals of nozzle entries from entry `e` on. -/
def writeTotals (b e : Nat) : List Byte → Nat → Tab Nat → Tab Nat
  | _, 0, t => t
  | bs, n + 1, t => writeTotals b (e + 1) (bs.drop 8) n (nput t (wearIx b e) (leNat (bs.take 8)))

/-- Words of a span's ends that a write covers in part, by offset. -/
def partWords (off len : Nat) : List Nat :=
  distinct ([off / 16 * 16, (off + len - 1) / 16 * 16].filter (fun x => !decide (off ≤ x ∧ x + 16 ≤ off + len)))

/-- The read, merge and write of a word that is covered in part (R305): its read may meet an error. -/
def mergeWord (cls b : Nat) (errs : List (Nat × ReadErr)) (s : State) (x : Nat) : State :=
  let k := (s.table cls b).shadow
  let a := tableAddress cls (if deviceWide cls then 0 else b) k x
  let err := errAt errs a
  let t := meetWord a err s
  match sramOutcome s a err with
  | .clean => t
  | .corrected => t.count 22
  | .poison => (t.count 21).count 23
  | .uncorrectable => t.count 23

/-! ### Nozzle words (R156, R165) -/

/-- The byte offset of the word of a slot, row and nozzle. -/
def wordOff (sl row j : Nat) : Nat := 66336 + 2 * (10240 * sl + 5120 * row + j)

def nozzleWord (state cap give boost source : Nat) : Nat :=
  8192 * state + 2048 * cap + 512 * give + 128 * boost + 16 * source

/-- The part of a nozzle word that the nozzle-health history keeps: STATE, CAP and SOURCE. -/
def healthPart (w : Nat) : Nat := nozzleWord (bits w 13 3) (bits w 11 2) 0 0 (bits w 4 3)

/-- A nozzle word with STATE, CAP and SOURCE of the history; a GOOD nozzle gives nothing. -/
def withHealth (w hp : Nat) : Nat :=
  nozzleWord (bits hp 13 3) (bits hp 11 2) (if bits hp 13 3 = 0 then 0 else bits w 9 2) (bits w 7 2) (bits hp 4 3)

def State.healthOf (s : State) (serial : Nat) : Tab Nat := tget (fun _ => []) s.link.health serial

def State.withHealth (s : State) (serial : Nat) (t : Tab Nat) : State :=
  s.withLink { s.link with health := tput (fun _ => []) s.link.health serial t }

/-- STATE, CAP and SOURCE of a nozzle go into the history of its slot's head (R165). -/
def setHealth (b sl row j hp : Nat) (s : State) : State :=
  match s.head b sl with
  | none => s
  | some h => s.withHealth h.mem.serial (tput (fun _ => 0x1800) (s.healthOf h.mem.serial) (5120 * row + j) hp)

/-- The planner has to meet a change of a nozzle's state (R164). -/
def notePlan (b sl row j : Nat) (s : State) : State :=
  let p := (b, sl, row, j)
  if p ∈ s.link.toPlan then s else s.withLink { s.link with toPlan := s.link.toPlan ++ [p] }

/-- A nozzle word that host software has written into the shadow bank: the history takes its state, and the planner meets a change. -/
def hostWord (old : Nat → Nat) (b : Nat) (s : State) (i : Nat) : State :=
  let off := 66336 + 2 * i
  let w := s.tabShadow 5 b off 2
  let sl := i / 10240
  let row := i % 10240 / 5120
  if s.nozzles b sl ≤ i % 5120 ∨ healthPart w = healthPart (old off) then s
  else notePlan b sl row (i % 5120) (setHealth b sl row (i % 5120) (healthPart w) s)

/-- Place written bytes in the shadow bank, or in the wear totals of the reserved region. Nozzle words take their states into the
history (R165). -/
def placeTable (cls b off : Nat) (bs : List Byte) (errs : List (Nat × ReadErr)) (s : State) : State :=
  if cls = 17 then
    let s := writeWear (wearBase s + 8 * wearIx b (off / 8)) bs.length errs s
    s.withPath { s.path with wearTotals := writeTotals b (off / 8) bs (bs.length / 8) s.path.wearTotals }
  else
    let s := (partWords off bs.length).foldl (mergeWord cls b errs) s
    let t := s.table cls b
    let k := t.shadow
    let written := s.withTable cls b
      ((t.withBank k (mwrite (tableDefault cls) (t.bank k) off bs)).withPoison k (clearPoison (t.poison k) off bs.length))
    if cls = 5 then
      ((List.range (bs.length / 2)).filter (fun i => decide (66336 ≤ off + 2 * i))).foldl
        (fun u i => hostWord (fun o => s.tabShadow 5 b o 2) b u ((off + 2 * i - 66336) / 2)) written
    else written

/-- REG_MEASURE with APPLY holds FINE_DELAY (R282). -/
def regHolds (s : State) : Bool :=
  match s.keep.reg with
  | none => false
  | some o => bit o.flags 0

/-- Log DMA_FAULT with the host address (R316). -/
def State.dmaFault (s : State) (addr : Nat) : State := s.report 0x6003 (logKey none none none none) 0 (leBytes 8 addr)

def tableWriteBody (cls bar bank off len host : Nat) (errs : List (Nat × ReadErr)) (s : State) : State × Answer :=
  if ((9 < cls ∧ cls ≠ 17) ∨ (7 < bar ∧ !deviceWide cls) ∨ bank ≠ 0 ∨ !spanOk cls off len) then (s, refuse stBadParam)
  else if (cls = 1 ∧ keepOwns s bar) ∨ (cls = 17 ∧ s.dev ≠ .idle) then (s, refuse stWrongState)
  else if isLocked s cls bar ∨ (cls = 6 ∧ regHolds s) then (s, refuse stBusy)
  else match s.dmaBad host len with
    | some a => (s.dmaFault a, refuse stDataUe)
    | none => (placeTable cls bar off (s.dmaRead host len) errs s, refuse stOk)

/-- TABLE_WRITE (R341): all its bytes go into the shadow bank in one step. -/
def execTableWrite (h : Hdr) (cls bar bank offset length host : Nat) (errs : List (Nat × ReadErr)) (s : State) : Result :=
  .next (hostCmd (.tableWrite (unstarted h) cls bar bank offset length host []) h (cmdOf 0x0070 0)
    (tableWriteBody cls bar bank offset length host errs) s)

/-- The fixed value that the print path reads in place of a poisoned byte of a live bank (R149, R158). -/
def fixedByte (s : State) (cls b off : Nat) : Byte :=
  if off < headerSize cls then nth 0 (s.latch cls b).bytes off
  else match cls with
    | 0 => 0
    | 1 => if off % 2 = 1 then 0x80 else 0
    | 2 => if off % 2 = 1 then 0x80 else 0
    | 4 => if off % 2 = 1 then 0x0F else 0xFF
    | 5 => if off < 66336 then 0x80 else if off % 2 = 1 then 0x18 else 0
    | _ => 0

/-- The bits of a byte of a table image that are not RSV: reserved bits of an entry read 0 (R7). -/
def readableBits (cls off : Nat) : Byte :=
  match cls with
  | 0 => if 16 ≤ off ∧ off % 2 = 1 then 0x0F else 0xFF
  | 4 => if 32 ≤ off ∧ off % 2 = 1 then 0x0F else 0xFF
  | 5 => if 66336 ≤ off ∧ off % 2 = 0 then 0xF0 else 0xFF
  | _ => 0xFF

/-- One byte of a table as TABLE_READ returns it. -/
def tableByte (s : State) (cls b bank off : Nat) : Byte :=
  if cls = 16 then BitVec.ofNat 8 (nget s.path.wear (wearIx b (off / 4)) / 256 ^ (off % 4))
  else if cls = 17 then BitVec.ofNat 8 (nget s.path.wearTotals (wearIx b (off / 8)) / 256 ^ (off % 8))
  else
    let t := s.table cls b
    let k := if bank = 1 then t.live else t.shadow
    readableBits cls off &&& (if bank = 1 ∧ t.poisoned k off 1 then fixedByte s cls b off else tget (tableDefault cls) (t.bank k) off)

def tableReadBody (cls bar bank off len host : Nat) (errs : List (Nat × ReadErr)) (s : State) : State × Answer :=
  if (7 < bar ∧ !deviceWide cls) ∨ 1 < bank ∨ !spanOk cls off len then (s, refuse stBadParam)
  else
    let bad := if bank = 1 then (s.table cls bar).poison (s.table cls bar).live else (s.table cls bar).poison (s.table cls bar).shadow
    let s := s.countN 21 (bad.filter (fun x => decide (cls ≤ 9 ∧ x < off + len ∧ off < x + 16))).length
    let at_ := wearBase s + 8 * wearIx bar (off / 8)
    let s := if cls = 17 then meetBursts errs (s.share (spanSubs s at_ len)) else meetErrors errs s
    let t := s.table cls bar
    let k := if bank = 1 then t.live else t.shadow
    let ue := if cls = 17 then lostBursts s at_ len ≠ [] else decide (cls ≤ 9) && t.poisoned k off len
    let s := if cls = 17 then meetTotals at_ len s else s
    let bs := (List.range len).map (fun i => tableByte s cls bar bank (off + i))
    if !s.host.linkUp then (s, refuse stDataUe)
    else
      let s := s.dmaWrite host bs
      let s := if cls = 17 ∧ ue then s.withHost { s.host with epWrites := s.host.epWrites ++ [(host, len)] } else s
      (s, refuse (if ue then stDataUe else stOk))

/-- TABLE_READ (R341). -/
def execTableRead (h : Hdr) (cls bar bank offset length host : Nat) (errs : List (Nat × ReadErr)) (s : State) : Result :=
  .next (hostCmd (.tableRead (unstarted h) cls bar bank offset length host []) h (cmdOf 0x0071 0)
    (tableReadBody cls bar bank offset length host errs) s)

end Sys2Proof.Machine
end

