-- ==== Sys2Proof/Machine/Energy.lean ====
section
/-! DEFINITION. Machine/Energy.lean: width codes and energy records (R187, R209 to R214), the head-link blocks that the device
sends (R178, R179) and the table loads of an HDM (R191 to R193). -/

namespace Sys2Proof.Machine

open Sys2Proof

/-! ## CRC-16 (R185) -/

/-- One bit through the CRC-16: polynomial 0x1021, most significant bit first. -/
def crc16Step (c : Nat) (b : Bool) : Nat :=
  let x := Nat.testBit c 15 != b
  let d := c * 2 % 65536
  if x then Nat.xor d 0x1021 else d

/-- CRC-16 of the low `n` bits of a payload, bit 0 first, from a running value. -/
def crc16From (c v n : Nat) : Nat := ((List.range n).map (bit v)).foldl crc16Step c

/-- CRC-16 with initial value 0xFFFF. -/
def crc16 (v n : Nat) : Nat := crc16From 0xFFFF v n

/-! ## Blocks the device sends (R178, R179) -/

/-- A control block: TYPE, ADDR, BYQ and BODY. -/
def ctrlPayload (type addr : Nat) (byq : Bool) (body : Nat) : Nat :=
  type + 256 * (addr % 32) + 8192 * bitNat byq + 65536 * (body % 2 ^ 48)

def ctrlBlk (type addr : Nat) (byq : Bool) (body : Nat) : Blk :=
  { ctrl := true, payload := BitVec.ofNat 64 (ctrlPayload type addr byq body) }

def dataBlk (payload : Nat) : Blk := { ctrl := false, payload := BitVec.ofNat 64 payload }

def idleBlk : Blk := ctrlBlk 0x1E 31 false 0

/-- A wake takes 2 µs from LS, in which the device sends only IDLE, and 200 µs from LOFF, in which CK runs and all five lanes carry ALIGN every
16 block times (R202). -/
def Group.readyAt (x : Group) : Time :=
  match x.wokeFrom with
  | .l0 => x.wokeAt
  | .ls => x.wokeAt + 2 * usT
  | .loff => x.wokeAt + 200 * usT

/-- The block of every lane in block time `n` of a wake. -/
def Group.wakeBlk (x : Group) (n : Nat) : Blk := if x.wokeFrom = .loff ∧ n % 16 = 0 then ctrlBlk 0x96 31 false 0 else idleBlk

/-- Block times of a control block that no rule ties to one (R180). -/
def timeOf (s : State) (b : Blk) : LinkTime :=
  if !s.web.running then .stopped
  else if b.payload.toNat % 256 ∈ [0x66, 0x69, 0x78] then .reserve
  else .outside

/-- Blocks on one lane, in order, through its scrambler. -/
def onLane (lane : Option Nat) (after : Time) : Nat → List (LinkTime × Blk) → List SentBlk
  | _, [] => []
  | r, (t, b) :: l =>
    let w := wireBlock r b
    { time := t, lane := lane, blk := b, wire := w.1, after := after } :: onLane lane after w.2 l

/-- What the scrambler of a lane holds when a sending begins is a free value: the bits since its wake are not kept (log 90). -/
def onLanes (after : Time) : List (Option Nat × List (LinkTime × Blk)) → State → List SentBlk × State
  | [], s => ([], s)
  | x :: l, s =>
    let (r, s) := s.draw (2 ^ 58)
    let rest := onLanes after l s
    (onLane x.1 after r x.2 ++ rest.1, rest.2)

/-- Control blocks other than IDLE are traced (R452). -/
def traceSent (g : Nat) (s : State) (b : Blk) : State :=
  if b.ctrl && decide (b.payload.toNat % 256 ≠ 0x1E) then s.traceRec 3 g (leBytes 8 b.payload.toNat) else s

/-- Control blocks leave on group g, in block times that no rule ties to one. -/
def State.sendBlocks (s : State) (g : Nat) (bs : List Blk) : State :=
  let r := onLanes (max s.clk.elapsed (s.group g).readyAt) [(none, bs.map (fun b => (timeOf s b, b)))] s
  bs.foldl (traceSent g) (r.2.withGroup g { r.2.group g with sent := r.1 })

/-- The column of a lane in consecutive block times of a frame, each given by the blocks of logical lanes 0 on: a logical lane without a block
carries IDLE, and so does DS unless it substitutes for a lane or carries copies (R180, R198). -/
def laneColumn (ds : Option Nat) (copy : Bool) (rows : List (Nat × List Blk)) (lane : Nat) : List (LinkTime × Blk) :=
  rows.map (fun r => (.frame r.1,
    if lane < 4 then nth idleBlk r.2 lane
    else match ds with
      | some l => nth idleBlk r.2 l
      | none => if copy then nth idleBlk r.2 0 else idleBlk))

/-- Lanes that carry blocks: not those with a raw pattern, and not DS while it is in its training loop (R204, R416). -/
def blockLanes (s : State) (g : Nat) : List Nat :=
  let ds := match tget (fun _ => none) s.thermal.loops g with
    | some x => decide (x.lane = 4)
    | none => false
  (List.range 5).filter (fun l => decide (nget (s.group g).gens l = 0) && !(ds && decide (l = 4)))

/-- Blocks leave on the lanes of group g in block times of the running frame. -/
def State.sendFrame (s : State) (g : Nat) (copy : Bool) (rows : List (Nat × List Blk)) : State :=
  let ds := (s.group g).dsLane
  let r := onLanes s.clk.elapsed ((blockLanes s g).map (fun l => (some l, laneColumn ds copy rows l))) s
  r.2.withGroup g { r.2.group g with sent := r.1 }

/-- Blocks of an occupancy that begins in block time `start`, striped over the logical lanes (R40, R184). -/
def stripe : Nat → Nat → List Blk → List (Nat × List Blk)
  | 0, _, _ => []
  | n + 1, start, bs => (start, bs.take 4) :: stripe n (start + 1) (bs.drop 4)

/-- An occupancy leaves on group g; its control blocks are traced. -/
def State.sendOccupancy (s : State) (g start : Nat) (bs : List Blk) : State :=
  bs.foldl (traceSent g) (s.sendFrame g false (stripe (ceilDiv bs.length 4) start bs))

/-- A CMD block with operation `op` to the HDM at chain position `q` (R196). -/
def cmdBlk (op q args : Nat) : Blk := ctrlBlk 0x87 q true (op + 256 * args)

/-! ## Width codes (R212) -/

/-- The temperature factor at TEMP, of the bank that `num` reads. -/
def ktAt (num : Nat → Nat → Nat) (temp : Int) : Int :=
  let u := (clampInt 0 630 (temp - 100)).toNat
  let i := u / 10
  let k (j : Nat) : Int := num (144 + 2 * j) 2
  if 63 ≤ i then k 63 else k i + (k (i + 1) - k i) * (u % 10 : Nat) / 10

def vfOf (vnom vsup : Nat) : Nat := (vnom * vnom * 32768 + vsup * vsup / 2) / (vsup * vsup)

/-- BASE of a rank and entry. -/
def baseOf (num : Nat → Nat → Nat) (rank e : Nat) : Nat := num (16 + 8 * rank + 2 * e) 2

/-- A drop level's code after step 6, and whether step 6 changed it. -/
def dropCode (base : Nat) (kt : Int) (vf : Nat) : Nat × Bool :=
  let w := (base * kt.toNat * vf + 2 ^ 33) / 2 ^ 34
  if base = 0 then (0, false) else if w < 320 then (320, true) else if 2560 < w then (2560, true) else (w, false)

/-- The warming code after step 6. -/
def warmCode (base limit vf : Nat) : Nat × Bool :=
  let w := min limit ((base * vf + 2 ^ 18) / 2 ^ 19)
  if base = 0 then (0, false)
  else if w < 320 then (if limit < 320 then 0 else 320, true)
  else if 2560 < w then (2560, true) else (w, false)

/-- The rank, V_NOM and WARM_LIMIT of a slot in an ENERGY bank. -/
def energyRank (num : Nat → Nat → Nat) (sl : Nat) : Nat := num (272 + 8 * sl) 1
def energyVnom (num : Nat → Nat → Nat) (sl : Nat) : Nat := num (274 + 8 * sl) 2
def energyWarmLimit (num : Nat → Nat → Nat) (sl : Nat) : Nat := num (276 + 8 * sl) 2

/-- R213: V_NOM is 0, or VSUP differs from it by more than 10 %. -/
def supplyBad (vnom vsup : Nat) : Bool :=
  decide (vnom = 0 ∨ vnom < 10 * (vsup - vnom) ∨ vnom < 10 * (vnom - vsup))

/-- The four codes of a slot from a TELEM (R212), and how many step 6 changed. -/
def codesOf (num : Nat → Nat → Nat) (sl : Nat) (t : Telem) : (Nat × Nat × Nat × Nat) × Nat :=
  let rank := energyRank num sl
  let vf := vfOf (energyVnom num sl) t.vsup
  let kt := ktAt num t.temp
  let a := dropCode (baseOf num rank 0) kt vf
  let b := dropCode (baseOf num rank 1) kt vf
  let c := dropCode (baseOf num rank 2) kt vf
  let w := warmCode (baseOf num rank 3) (energyWarmLimit num sl) vf
  ((a.1, b.1, c.1, w.1), bitNat a.2 + bitNat b.2 + bitNat c.2 + bitNat w.2)

/-- WARM_N of the next record from the newest TEMP (R214). -/
def warmStep (num : Nat → Nat → Nat) (temp : Int) (prev : Nat) : Nat :=
  let target := num 0 2
  if target = 0 then 0
  else if temp < (target : Int) - num 3 1 then min (num 2 1) (prev + 1)
  else if (target : Int) < temp then prev - 1
  else prev

/-- Count clamped codes of a slot of bar b (R212). -/
def countClamps (b n : Nat) (s : State) : State := (s.countN 6 n).countN (barCounter b 6) n

/-- A VSUP_RANGE entry (R213). -/
def logVsup (b sl vsup : Nat) (s : State) : State := s.report 0x2008 (logKey (some b) (some sl) none none) 0 (leBytes 2 vsup)

/-- The record loaded with SLOT_PARAMS (R213): computed from the newest TELEM held, or all codes 0. -/
def loadRecord (num : Nat → Nat → Nat) (b sl : Nat) (s : State) : State × Energy :=
  match (s.slot b sl).telem with
  | none => (s, Energy.reset)
  | some t =>
    if energyVnom num sl = 0 then (s, Energy.reset)
    else if supplyBad (energyVnom num sl) t.vsup then (logVsup b sl t.vsup s, Energy.reset)
    else
      let c := codesOf num sl t
      (countClamps b c.2 s, { w1 := c.1.1, w2 := c.1.2.1, w3 := c.1.2.2.1, warm := c.1.2.2.2, warmN := 0 })

/-- The newest TELEM of a slot received before the tick that begins the running frame (R212). -/
def telemForFrame (s : State) (x : Slot) : Option Telem :=
  match x.telem with
  | none => none
  | some t => if t.since ≤ s.web.webPos then some t else x.telem2

/-- R213: no TELEM with a measuring tick within the last 1,024 ticks. -/
def telemLost (s : State) (x : Slot) : Bool :=
  match telemForFrame s x with
  | none => true
  | some t => decide (t.tick + 1024 < s.web.webPos)

/-- Every withdrawal of a slot that may still matter: those that a NOZZLE commit has ended, and the latest. -/
def Slot.withdrawals (x : Slot) : List Withdrawn := x.gone ++ x.withdrawn.toList

/-- A withdrawal holds for lines of the page that begins at `start` (R168). -/
def Withdrawn.holds (w : Withdrawn) (start : Nat) : Bool :=
  match w.ends with
  | none => true
  | some e => decide (start < e)

/-- Is a slot withdrawn for lines of the page that begins at `start`? -/
def slotWithdrawn (s : State) (b sl start : Nat) : Bool := (s.slot b sl).withdrawals.any (fun w => w.holds start)

/-- The record that an ENERGY block of the running frame carries (R212 to R214), for a page that begins at `start`. -/
def frameRecord (s : State) (b sl start : Nat) : State × Energy :=
  let num := (s.table 7 b).num 7 ((s.table 7 b).bankFor start)
  let x := s.slot b sl
  let warmN (n : Nat) : Nat := if slotWithdrawn s b sl start then 0 else n
  let keep : Energy := { x.energy with warmN := warmN x.energy.warmN }
  match telemForFrame s x with
  | none => (s, keep)
  | some t =>
    if t.tick + 1024 < s.web.webPos then (s, keep)
    else if t.tick + 256 < s.web.webPos then ((s.count 7).count (barCounter b 7), keep)
    else if supplyBad (energyVnom num sl) t.vsup then
      let s := if x.vsupHeld then s else logVsup b sl t.vsup s
      (s.withSlot b sl { x with vsupHeld := true },
       { x.energy with warmN := warmN (warmStep num t.temp x.energy.warmN) })
    else
      let c := codesOf num sl t
      (countClamps b c.2 (s.withSlot b sl { x with vsupHeld := false }),
       { w1 := c.1.1, w2 := c.1.2.1, w3 := c.1.2.2.1, warm := c.1.2.2.2,
         warmN := warmN (warmStep num t.temp x.energy.warmN) })

/-- The two payloads of an energy record (R187), FROM being the due tick of its first line. -/
def energyPayloads (e : Energy) (since : Nat) : Nat × Nat :=
  let e0 := since % 65536 + 2 ^ 16 * (e.w1 % 4096) + 2 ^ 28 * (e.w2 % 4096) + 2 ^ 40 * (e.w3 % 4096)
    + 2 ^ 52 * (e.warm % 4096)
  let low := e.warmN % 16
  (e0, low + 2 ^ 48 * crc16From (crc16 e0 64) low 48)

/-- DELAY of R209 in unit intervals. -/
def delayUi (x period : Nat) : Nat := (x * period * 165 + 2 ^ 27) / 2 ^ 28

/-! ## Table loads (R191 to R193) -/

/-- The blocks of a table load: TABLE_ADDR, TABLE_DATA with 6 bytes each, TABLE_END with the CRC-32C of what was written. -/
def dataBlks (addr : Nat) : Nat → List Byte → List Blk
  | 0, _ => []
  | n + 1, bs => ctrlBlk 0x55 addr true (leNat (bs.take 6)) :: dataBlks addr n (bs.drop 6)

def loadBlks (q kind bank : Nat) (bytes : List Byte) : List Blk :=
  let n := ceilDiv bytes.length 6
  let bs := padTo (6 * n) bytes
  ctrlBlk 0x4B q true (kind + 16 * bank) :: dataBlks q n bs ++ [ctrlBlk 0x5A q true (crc32c bs)]

/-- SLOT_PARAMS of a slot with fine delay `f` and record `e`. -/
def slotParams (s : State) (b sl f : Nat) (e : Energy) : List Byte :=
  match s.head b sl with
  | none => []
  | some h =>
    let p := energyPayloads e 0
    leBytes 2 h.mem.n ++ leBytes 1 sl ++ leBytes 1 (bitNat h.mem.orderDesc + 2 * bitNat h.mem.leadRowB)
      ++ leBytes 1 (trailTicks f h.mem.rowSpacing) ++ [0] ++ leBytes 2 (trailRest f h.mem.rowSpacing)
      ++ leBytes 2 (warnAt h.mem) ++ leBytes 2 (limitAt h.mem) ++ leBytes 2 (absAt h.mem) ++ [0, 0]
      ++ leBytes 8 p.1 ++ leBytes 8 p.2

/-- RF of a nozzle entry (5,120 × row + j) of a head in the calibration store (R218); 2,048 without a survey. -/
def State.rfOf (s : State) (serial e : Nat) : Nat :=
  tget (fun _ => 2048) (tget (fun _ => []) s.link.rf serial) e

/-- The TRIM table (R192). -/
def trimTable (s : State) (b sl : Nat) : List Byte :=
  match s.head b sl with
  | none => []
  | some h => ((List.range 2).flatMap (fun q => (List.range h.mem.n).map (fun j => 5120 * q + j))).flatMap
      (fun e => leBytes 2 (s.rfOf h.mem.serial e))

/-- Frame programs that bar b plays in some page program of an image. -/
def barPrograms (m : Mem) (b : Nat) : List Nat :=
  ((List.range (ppCount m)).filter (fun p => bit (ppMask m p) b)).flatMap (fun p => (ppSteps m p b).map (·.1))

/-- d(s) of R44: the coarse offset above the smallest of the bar. -/
def State.coarseAbove (s : State) (b sl : Nat) : Nat :=
  s.coarse b sl - ((s.fittedSlots b).map (s.coarse b)).foldl min (s.coarse b sl)

/-- The STEER entries of a slot in one frame program: START, KIND, FIRST, COUNT and DUE (R184). -/
def steerEntries (s : State) (m : Mem) (b sl f : Nat) : List Nat :=
  ((frameCues m f).filter (fun c => decide ((c.kind = 6 ∨ c.kind = 7) ∧ c.slot = sl))).map (fun c =>
    c.time / 8 % 32768 + 2 ^ 15 * bitNat (c.kind == 7) + 2 ^ 16 * (if c.kind = 7 then 0 else c.block)
      + 2 ^ 24 * (if c.kind = 7 then 1 else c.blocks - 1) + 2 ^ 32 * ((c.lead + (s.coarseAbove b sl : Int)).toNat % 4))

/-- The STEER table of a slot for an image; programs the bar does not play have no entry. -/
def steerTable (s : State) (m : Mem) (b sl : Nat) : List Byte :=
  let played := barPrograms m b
  let lists := (List.range (sec m 4).count).map (fun f => if f ∈ played then steerEntries s m b sl f else [])
  let index := lists.foldl (fun (acc : Nat × List Byte) l =>
    (acc.1 + l.length, acc.2 ++ leBytes 4 acc.1 ++ leBytes 2 l.length ++ [0, 0])) (1 + lists.length, [])
  leBytes 4 lists.length ++ [0, 0, 0, 0] ++ index.2 ++ lists.flatten.flatMap (leBytes 8)

/-- Does a slot's STEER table fit its HDM's STEER_CAP (R193)? -/
def steerFits (s : State) (m : Mem) (b sl : Nat) : Bool :=
  match s.head b sl with
  | none => false
  | some h => decide ((steerTable s m b sl).length ≤ 4096 * h.steerCap)

/-- Send one table load: kind 0 SLOT_PARAMS, 1 TRIM, 2 STEER of a Caldera bank. -/
def sendLoad (b sl kind bank : Nat) (s : State) : State :=
  let q := (s.slotDesc b sl).q
  let bytes := match kind with
    | 0 => slotParams s b sl (s.fine b sl) (s.slot b sl).energy
    | 1 => trimTable s b sl
    | _ => steerTable s (s.bank bank).image b sl
  s.sendBlocks b (loadBlks q kind bank bytes)

/-- Compute and hold the first energy record of a slot, WARM_N starting at 0 (R213, R214). -/
def armRecord (b sl : Nat) (s : State) : State :=
  let (s, e) := loadRecord (s.tabNum 7 b) b sl s
  s.withSlot b sl { s.slot b sl with energy := e }

/-- R189: the credit counter of a slot is set to G. -/
def fillCredit (b sl : Nat) (s : State) : State :=
  match s.head b sl with
  | none => s
  | some h => s.withSlot b sl { s.slot b sl with credit := h.g }

end Sys2Proof.Machine
end

