-- ==== Sys2Proof/Machine/Link.lean ====
section
/-! DEFINITION. Machine/Link.lean: lane groups of the head link: power states, block lock, spare lanes, credits and their
audit, HEAD_SCAN with ENUM and head memories (R155, R165, R178, R189, R197 to R203, R340, R450). -/

namespace Sys2Proof.Machine

open Sys2Proof

/-! ## Group states (R202, R203) -/

/-- The downstream of a group wakes to L0. -/
def wakeDown (g : Nat) (s : State) : State :=
  let x := s.group g
  if x.down = .l0 then s else s.withGroup g { x with down := .l0, wokeFrom := x.down, wokeAt := s.clk.elapsed }

/-- A POWER block (R202): DIR 0 down, 1 up; STATE 0 L0, 1 LS, 2 LOFF. -/
def powerBlk (dir state : Nat) : Blk := ctrlBlk 0x69 31 false (dir + 2 * state)

/-- The downstream of a group goes to LS by a POWER block. -/
def sleepDown (g : Nat) (s : State) : State :=
  if (s.group g).down = .l0 then
    let s := s.sendBlocks g [powerBlk 0 1]
    s.withGroup g { s.group g with down := .ls }
  else s

/-- A group of a bar of the press description as R203 has it in IDLE: its upstream is asked for L0, and its downstream sleeps in LS. -/
def idleGroup (g : Nat) (s : State) : State :=
  if (s.group g).up = .l0 ∧ (s.group g).down ≠ .loff then sleepDown g s
  else
    let s := (wakeDown g s).sendBlocks g [powerBlk 1 0, powerBlk 0 1]
    s.withGroup g { s.group g with down := .ls, up := .l0 }

/-- A group goes off in both directions, both asked for while the downstream is awake. -/
def offGroup (g : Nat) (s : State) : State :=
  if (s.group g).down = .loff ∧ (s.group g).up = .loff ∧ (s.group g).locked = false then s
  else
    let s := (wakeDown g s).sendBlocks g [powerBlk 1 2, powerBlk 0 2]
    s.withGroup g { s.group g with down := .loff, up := .loff, locked := false, goodRun := 0, window := [] }

def sleepGroups (gs : List Nat) (s : State) : State := gs.foldl (fun s g => sleepDown g s) s

/-! ## Block lock (R178) and upstream blocks -/

/-- One sync header of U0: 64 consecutive valid headers gain lock; 16 invalid ones within 64 lose it. An invalid header
is an upstream block error. -/
def lockHeader (g : Nat) (valid : Bool) (s : State) : State :=
  let x := s.group g
  let s := if valid then s else s.count (barCounter g 15)
  if x.locked then
    let w := x.window ++ [valid]
    if 16 ≤ w.count false then s.withGroup g { x with locked := false, goodRun := 0, window := [] }
    else s.withGroup g { x with window := if w.length = 64 then [] else w }
  else
    let n := if valid then x.goodRun + 1 else 0
    if n = 64 then s.withGroup g { x with locked := true, goodRun := 0, window := [] }
    else s.withGroup g { x with goodRun := n }

/-- The payload of a received block is descrambled. In lock, a control block of a reserved type is a block error, and is ignored; one of a type of
R179 acts in its own row. -/
def takePayload (g : Nat) (bs : List Bool) (s : State) : State :=
  let x := s.group g
  let d := descramble x.descr (bs.drop 2)
  let s := s.withGroup g { x with descr := d.2 }
  if x.locked && decide (bs.take 2 = syncHeader true) && typeReserved (bitsNat d.1) then s.count (barCounter g 15) else s

/-- U0 under test carries the raw pattern, which the checker compares (R204). -/
def checkBits (g : Nat) (bs : List Bool) (s : State) : State :=
  let x := s.group g
  let c := bs.foldl (Checker.take x.prbsPattern) { seen := x.u0Seen, reg := x.u0Reg, errors := x.u0Errors }
  s.withGroup g { x with u0Seen := c.seen, u0Reg := c.reg, u0Errors := c.errors }

/-- 66 bits of U0. -/
def takeWord (g : Nat) (s : State) (w : Word66) : State :=
  let bs := bitList 66 w.toNat
  if bit (s.group g).prbsLanes 5 then checkBits g bs s
  else takePayload g bs (lockHeader g (headerValid (bit w.toNat 0) (bit w.toNat 1)) s)

/-- UPSTREAM_BLOCK_LOCK (R178, R179, R204): bits of U0 arrive, 66 at a time, at the boundaries of blocks where it carries blocks. -/
def execUpstreamBlockLock (group : Nat) (words : List Word66) (t : Nat) (s : State) : Result :=
  .next (if 7 < group then s.at t else words.foldl (takeWord group) (s.at t))

/-- An upstream control block is traced (R452). -/
def State.traceUp (s : State) (u : Up) (type body : Nat) : State :=
  s.traceRec 4 u.group (leBytes 8 (ctrlPayload type u.slot false body))

/-! ## Credits (R189, R450) -/

def grantOf (s : State) (b sl : Nat) : Nat :=
  match s.head b sl with
  | none => 0
  | some h => h.g

/-- Credits returned to a slot; a count above G is held at G and logged. -/
def addCredit (b sl n : Nat) (s : State) : State :=
  let x := s.slot b sl
  if grantOf s b sl < x.credit + n then
    (State.count (s.withSlot b sl { x with credit := grantOf s b sl }) 5).report 0x2002 (logKey (some b) (some sl) none none) 0 []
  else s.withSlot b sl { x with credit := x.credit + n }

/-- CREDIT (R189). -/
def execCredit (u : Up) (count due : Nat) (s : State) : Result :=
  let s := s.at u.t
  .next (if s.fitted u.group u.slot then
      addCredit u.group u.slot (count % 16) (s.traceUp u 0xA5 (count % 16 + 16 * (due % 65536)))
    else s)

/-- The audit of one slot: its counter must equal G. -/
def auditSlot (b : Nat) (s : State) (sl : Nat) : State :=
  let x := s.slot b sl
  if x.credit = grantOf s b sl then s
  else (s.report 0x200C (logKey (some b) (some sl) none none) 0 (leBytes 4 x.credit)).withSlot b sl
    { x with credit := grantOf s b sl }

/-- CREDIT_AUDIT (R450): 100 µs after the last PAGE_DONE of a run. -/
def execCreditAudit (t : Nat) (s : State) : Result :=
  let s := s.at t
  match s.link.creditAuditAt with
  | none => .next s
  | some a =>
    if s.clk.elapsed < a then .next s
    else
      let s := s.withLink { s.link with creditAuditAt := none }
      .next (s.scheduledBars.foldl (fun s b => (s.fittedSlots b).foldl (auditSlot b) s) s)

/-! ## Spare lanes (R198, R199) -/

/-- The LANE block of a switch (R198). -/
def laneBlk (w : LaneSwitch) : Blk := ctrlBlk 0x66 31 false (w.lane + 4 * bitNat w.toDs + 8 * (w.tick % 65536))

/-- Eight block times are 64 PIPE cycles of 0.8 ns. -/
def blockTimes (n : Nat) : Time := n * 64 * nsT / 10

/-- Block time 2 of the running frame still lies ahead. -/
def reserveAhead (s : State) : Bool := decide (s.base < s.web.tickTime + blockTimes 2)

/-- Announce a spare-lane switch for the frame of a tick; with the line clock stopped it acts 64 block times after its LANE block. While the
clock runs, the LANE block leaves in the reserve of every frame before that tick: in this one too where its reserve lies ahead. -/
def announceFor (g lane : Nat) (toDs : Bool) (tick : Nat) (s : State) : State :=
  let w : LaneSwitch := { lane := lane, toDs := toDs, tick := tick, since := s.clk.elapsed }
  let s := if !s.web.running ∨ reserveAhead s then s.sendBlocks g [laneBlk w] else s
  s.withGroup g { s.group g with switch := some w }

/-- Announce a switch of the device's own making: at least two frames' reserves hold its LANE block (R198). -/
def announceSwitch (g lane : Nat) (toDs : Bool) (s : State) : State :=
  announceFor g lane toDs (if s.web.running then s.web.webPos + (if reserveAhead s then 2 else 3) else 0) s

/-- DS substitutes for a lane, or is about to. -/
def dsTaken (x : Group) : Option Nat :=
  match x.switch with
  | some w => if w.toDs then some w.lane else x.dsLane
  | none => x.dsLane

/-- An HDM has lost block lock on a lane (R199). The switch is announced for the second frame after the ALERT, in the reserves that R199 leaves
before it (DEDUCED, log 91). Another ALERT for the lane that DS carries already asks for nothing more. -/
def loseLane (g lane : Nat) (s : State) : State :=
  let x := s.group g
  let lost := (s.count (barCounter g 11)).report 0x2004 (logKey (some g) none none none) 0 []
  if 3 < lane then lost
  else match dsTaken x with
    | some l => if l = lane then s else lost
    | none =>
      let s := (s.count (barCounter g 10)).report 0x2003 (logKey (some g) none (some lane) none) 0 []
      announceFor g lane true (if s.web.running then s.web.webPos + 2 else 0) (s.withGroup g { s.group g with failedLane := some lane })

/-- The announced switch takes effect at block time 8 of the frame of its tick, and with the line clock stopped 64 block times after its LANE
block (R198). -/
def switchDue (s : State) (w : LaneSwitch) : Bool :=
  if s.web.running then decide (w.tick < s.web.webPos) || (decide (w.tick = s.web.webPos) && decide (s.web.tickTime + blockTimes 8 ≤ s.base))
  else decide (w.since + blockTimes 64 ≤ s.clk.elapsed)

/-! ## HEAD_SCAN (R155, R165, R197, R340) -/

/-- Bars that a scan of a mask uses: those of the press description. -/
def scanBars (s : State) (mask : Nat) : List Nat :=
  match s.press with
  | none => []
  | some p => (maskList mask 8).filter (bit p.barMask)

/-- Lanes of one of the groups are under a PRBS test (R342). -/
def prbsActive (s : State) (mask : Nat) : Bool := (maskList mask 8).any (fun g => decide ((s.group g).prbsLanes ≠ 0))

/-- What HEAD_SCAN begins with. -/
def scanBegin (h : Hdr) (mask dest : Nat) (s : State) : State :=
  if s.press.isNone then s.finishLong h.ring h.tag (refuse stWrongState)
  else if prbsActive s mask ∨ s.link.scan.isSome ∨ s.link.survey.isSome ∨ s.thermal.op.isSome then
    s.finishLong h.ring h.tag (refuse stBusy)
  else
    let bars := scanBars s mask
    let s := bars.foldl (fun s g =>
      let s := (wakeDown g s).sendBlocks g [cmdBlk 0x01 0 0]
      s.withGroup g { s.group g with enumAt := some s.clk.elapsed }) s
    let op : ScanOp := { ring := h.ring, tag := h.tag, barMask := mask, dest := dest, chain := [], words := [],
                         done := [], silent := [] }
    s.withLink { s.link with scan := some op }

/-- HEAD_SCAN (R340): wakes the groups and enumerates their chains. -/
def execHeadScan (h : Hdr) (barMask dest : Nat) (s : State) : Result :=
  .next (hostLong (.headScan (unstarted h) barMask dest) h (cmdOf 0x0031 0) (scanBegin h barMask dest) s)

def ScanOp.found (o : ScanOp) (g q : Nat) : Option Nat := tget (fun _ => none) o.chain (24 * g + q)
def ScanOp.isDone (o : ScanOp) (g q : Nat) : Bool := tget (fun _ => false) o.done (24 * g + q)
def ScanOp.isSilent (o : ScanOp) (g : Nat) : Bool := tget (fun _ => false) o.silent g

/-- Fitted slots that the scan has handled: their group is silent, or its chain is known and holds no HDM for them or one that is read. -/
def handledSlots (s : State) (o : ScanOp) : Nat :=
  ((scanBars s o.barMask).map (fun b => ((s.fittedSlots b).filter (fun sl =>
    o.isSilent b || ((s.group b).enumAt.isNone && ((o.found b (s.slotDesc b sl).q).isNone || o.isDone b (s.slotDesc b sl).q)))).length)).foldl
    (· + ·) 0

/-- PROGRESS of the scan counts slots handled (R340); within a RUN_REJOIN (R380) it is half of the way to ARMED, and the loads are the
other half (DESIGN CHOICE, log 55). -/
def scanProgress (s : State) : State :=
  match s.link.scan with
  | none => s
  | some o =>
    let want := (scanBars s o.barMask).foldl (fun n b => n + (s.fittedSlots b).length) 0
    let share := if s.boot.rejoin.isSome then 5000 else 10000
    s.progressTo o.ring o.tag (min share (share * handledSlots s o / max want 1))

/-- The ACK of ENUM (R197): VALUE holds q, G, STEER_CAP, PACK and LAST. The last HDM ends the enumeration, and every head
memory is read. -/
def enumAck (g value : Nat) (s : State) : State :=
  match s.link.scan with
  | none => s
  | some o =>
    if (s.group g).enumAt.isNone then s
    else
      let q := bits value 0 5
      let o := { o with chain := tput (fun _ => none) o.chain (24 * g + q) (some value) }
      let s := s.withLink { s.link with scan := some o }
      if bit value 24 then
        let s := s.withGroup g { s.group g with enumAt := none }
        scanProgress (s.sendBlocks g (((List.range 24).filter (fun q => (o.found g q).isSome)).map (fun q => cmdBlk 0x02 q (255 * 2 ^ 16))))
      else s

/-- The ACK of HMEM_READ of the HDM at chain position q. -/
def hmemAck (g q : Nat) (s : State) : State :=
  match s.link.scan with
  | none => s
  | some o =>
    if (o.found g q).isNone then s
    else
      let o := { o with done := tput (fun _ => false) o.done (24 * g + q) true }
      scanProgress (s.withLink { s.link with scan := some o })

/-- HMEM (R197): one word of a head memory. During a scan the sender is known by its chain position (log 35). -/
def execHmem (u : Up) (word : Nat) (data : Word32) (s : State) : Result :=
  let s := (s.at u.t).traceUp u 0xD2 (word % 65536 + 65536 * data.toNat)
  match s.link.scan with
  | none => .next s
  | some o =>
    let k := 24 * u.group + u.slot
    if (o.found u.group u.slot).isNone then .next s
    else
      let ws := tput (fun _ => 0) (tget (fun _ => []) o.words k) word data
      .next (s.withLink { s.link with scan := some { o with words := tput (fun _ => []) o.words k ws } })

/-- The answer of a group to the scan is complete. -/
def groupScanned (s : State) (o : ScanOp) (g : Nat) : Bool :=
  o.isSilent g || ((s.group g).enumAt.isNone &&
    (List.range 24).all (fun q => (o.found g q).isNone || o.isDone g q))

/-- The head memory of the HDM at chain position q. -/
def scannedMem (o : ScanOp) (g q : Nat) : HeadMem := Config.headMemory (tget (fun _ => []) o.words (24 * g + q))

/-- The head found for a fitted slot, with A(s) and F(s) of R155. -/
def scannedHead (s : State) (o : ScanOp) (b sl : Nat) : Option Head :=
  let d := s.slotDesc b sl
  match s.press with
  | none => none
  | some p =>
    if o.isSilent b then none
    else match o.found b d.q with
      | none => none
      | some v =>
        let mem := scannedMem o b d.q
        let bar := p.bar b
        let key := scannedMem o b (p.slot b bar.keySlot).q
        some { q := d.q, g := bits v 5 5, steerCap := bits v 10 12, pack := bits v 22 2, last := bit v 24, mem := mem,
               aComputed := bar.aKey + 256 * d.d + mem.mOff - key.mOff,
               fComputed := (bar.fKey : Int) + d.g + roundDiv (mem.gOff - key.gOff) 256 }

/-- R150, R155, R220: is a head reported as unsupported? -/
def unsupportedHead (h : Head) : Bool :=
  decide (h.mem.rowOffset ≠ 0 ∨ h.aComputed < 0 ∨ ¬ (warnAt h.mem < limitAt h.mem ∧ limitAt h.mem < absAt h.mem))

/-! ### Nozzle words (R165) -/

/-- Write a nozzle word of one bank of a bar. -/
def putWord (b bank off w : Nat) (s : State) : State :=
  let t := s.table 5 b
  s.withTable 5 b (t.withBank bank (mwrite (tableDefault 5) (t.bank bank) off (leBytes 2 w)))

/-- The history of a head as HEAD_SCAN leaves it: defects of its maker's list are DEAD, unless host software set the
nozzle's state. -/
def addDefects (m : HeadMem) (t : Tab Nat) : Tab Nat :=
  m.defects.foldl (fun t d =>
    let e := 5120 * d.1 + d.2
    if bits (tget (fun _ => 0x1800) t e) 4 3 = 4 then t
    else tput (fun _ => 0x1800) t e (nozzleWord 2 0 0 0 1)) t

/-- Restore the state of every nozzle of a slot into both banks from its head's history (R165), which holds GOOD, CAP 3 and SOURCE RESET
of a nozzle that has had no other. -/
def restoreStates (b sl : Nat) (m : HeadMem) (s : State) : State :=
  let t := addDefects m (s.healthOf m.serial)
  let s := s.withHealth m.serial t
  let places := [0, 1].flatMap (fun row => (List.range m.n).map (fun j => (row, j)))
  places.foldl (fun s x =>
    let off := wordOff sl x.1 x.2
    let word (bank : Nat) : Nat := (s.table 5 b).num 5 bank off 2
    let hp := tget (fun _ => 0x1800) t (5120 * x.1 + x.2)
    let changed := healthPart (s.tabShadow 5 b off 2) ≠ hp
    let s := putWord b 1 off (withHealth (word 1) hp) (putWord b 0 off (withHealth (word 0) hp) s)
    if changed then notePlan b sl x.1 x.2 s else s) s

/-! ### The end of a scan -/

/-- A head whose memory states another slot than the one in which it was found (R174, R340). What head memory states is free (log 36). -/
def misplaced (sl : Nat) (h : Head) : Bool := h.mem.place.any (fun p => decide (p ≠ sl))

/-- One record of the report of HEAD_SCAN. -/
def scanRecord (sl : Nat) (h : Option Head) : List Byte :=
  match h with
  | none => List.replicate 32 0
  | some h => padTo 32 (leBytes 1 (1 + 2 * bitNat (misplaced sl h) + 4 * bitNat (unsupportedHead h)) ++ leBytes 1 h.q ++ leBytes 1 h.g ++ leBytes 1 h.pack
      ++ leBytes 2 h.mem.n ++ leBytes 1 h.mem.rank ++ [0] ++ leBytes 8 h.mem.serial ++ leInt 4 h.aComputed
      ++ leInt 4 h.fComputed ++ leBytes 2 h.steerCap)

/-- Take in what the scan found of one slot. -/
def takeHead (o : ScanOp) (b : Nat) (s : State) (sl : Nat) : State :=
  let h := scannedHead s o b sl
  let s := s.withSlot b sl { s.slot b sl with head := h }
  match h with
  | none => s
  | some h => restoreStates b sl h.mem s

/-- The counts found, missing, misplaced, unsupported and extra. -/
def scanCounts (s : State) (o : ScanOp) : List Byte :=
  let slots := (scanBars s o.barMask).flatMap (fun b => (s.fittedSlots b).map (fun sl => (sl, scannedHead s o b sl)))
  let found := slots.filterMap (fun x => x.2.map (fun h => (x.1, h)))
  let extra := ((scanBars s o.barMask).flatMap (fun b => (List.range 24).filter (fun q => (o.found b q).isSome
    && !(s.fittedSlots b).any (fun sl => decide ((s.slotDesc b sl).q = q))))).length
  leBytes 2 found.length ++ leBytes 2 (slots.length - found.length) ++ leBytes 2 (found.filter (fun x => misplaced x.1 x.2)).length
    ++ leBytes 2 (found.filter (fun x => unsupportedHead x.2)).length ++ leBytes 2 extra

/-- What HEAD_SCAN_DONE does when every group has answered. -/
def scanFinish (o : ScanOp) (s : State) : State :=
  let bars := scanBars s o.barMask
  let counts := scanCounts s o
  let s := bars.foldl (fun s b => (s.fittedSlots b).foldl (takeHead o b) s) s
  let report := (List.range 192).flatMap (fun k =>
    scanRecord (k % 24) (if k / 24 ∈ bars ∧ s.fitted (k / 24) (k % 24) then s.head (k / 24) (k % 24) else none))
  let s := if o.dest = 0 then s else s.dmaWrite o.dest report
  let s := s.withLink { s.link with scan := none }
  (sleepGroups bars s).finishLong o.ring o.tag (answer stOk counts)

/-- HEAD_SCAN_DONE (R340). -/
def execHeadScanDone (o : OpRef) (s : State) : Result :=
  .next (withOp o 0x0031 (fun s =>
    match s.link.scan with
    | none => s
    | some x => if (scanBars s x.barMask).all (groupScanned s x) then scanFinish x s else s) s)

end Sys2Proof.Machine
end

