-- ==== Sys2Proof/Machine/Nozzle.lean ====
section
/-! DEFINITION. Machine/Nozzle.lean: nozzle states and what changes them (R164 to R166, R168), withdrawal (R167, R222), the
resistance survey (R215 to R219), wear harvest and balance (R170, R172). -/

namespace Sys2Proof.Machine

open Sys2Proof

/-! ## A bar's NOZZLE bank -/

/-- A field of the shadow NOZZLE bank of a bar. -/
def State.nozShadow (s : State) (b off w : Nat) : Nat := s.tabShadow 5 b off w

/-- PLAN_AUTO and WEAR_BALANCE of the bank in force. -/
def planAuto (s : State) (b : Nat) : Bool := bit (s.tabNum 5 b 5 1) 1
def wearBalance (s : State) (b : Nat) : Bool := bit (s.tabNum 5 b 5 1) 0

def orderDesc (s : State) (b sl : Nat) : Bool :=
  match s.head b sl with
  | none => false
  | some h => h.mem.orderDesc

/-- The nozzle that prints column x of a slot, and the column that nozzle j prints (R150), from the slot's first. -/
def nozzleOf (n : Nat) (desc : Bool) (x : Nat) : Nat := if desc then n - 1 - x else x

def shadowWord (s : State) (b sl row j : Nat) : Nat := s.nozShadow b (wordOff sl row j) 2

def wordState (w : Nat) : Nat := bits w 13 3
def wordCap (w : Nat) : Nat := bits w 11 2
def wordGive (w : Nat) : Nat := bits w 9 2
def wordBoost (w : Nat) : Nat := bits w 7 2
def wordSource (w : Nat) : Nat := bits w 4 3

/-- DEAD or MASKED. -/
def wordFailed (w : Nat) : Bool := decide (wordState w = 2 ∨ wordState w = 3)

/-- Write one word of the shadow bank. -/
def setWord (b sl row j w : Nat) (s : State) : State :=
  putWord b (s.table 5 b).shadow (wordOff sl row j) w s

/-- A nozzle takes STATE, CAP and SOURCE in the shadow bank and in the history. -/
def setNozzle (b sl row j state cap source : Nat) (s : State) : State :=
  let hp := nozzleWord state cap 0 0 source
  setHealth b sl row j hp (setWord b sl row j (withHealth (shadowWord s b sl row j) hp) s)

/-! ## The planner (R164) -/

/-- The word of column x of a slot and row in the shadow bank; `none` outside the slot. -/
def colWord (s : State) (b sl row : Nat) (x : Int) : Option Nat :=
  let n := s.nozzles b sl
  if 0 ≤ x ∧ x < n then some (shadowWord s b sl row (nozzleOf n (orderDesc s b sl) x.toNat)) else none

def colGood (s : State) (b sl row : Nat) (x : Int) : Bool :=
  match colWord s b sl row x with
  | none => false
  | some w => decide (wordState w = 0)

def colFailed (s : State) (b sl row : Nat) (x : Int) : Bool :=
  match colWord s b sl row x with
  | none => false
  | some w => wordFailed w

/-- The other slot of the device that shares a zone with column x of a slot, with the column counted from its first. -/
def zoneOther (s : State) (b sl x : Nat) : Option (Nat × Nat) :=
  let first (k : Nat) : Nat := s.nozShadow b (32 + 32 * k) 4
  let col := first sl + x
  (s.fittedSlots b).findSome? (fun o =>
    if o ≠ sl ∧ (s.nozShadow b (42 + 32 * sl) 1 = o ∨ s.nozShadow b (42 + 32 * o) 1 = sl)
        ∧ first o ≤ col ∧ col < first o + s.nozzles b o then some (o, col - first o) else none)

/-- R161 substitutes the failed nozzle: the other head's nozzle for the same lines is not failed. Row A fires the even due
ticks of either head, so the other head's row differs with the parity of the coarse offsets. -/
def substituted (s : State) (b sl row x : Nat) : Bool :=
  match zoneOther s b sl x with
  | none => false
  | some (o, y) => !colFailed s b o ((row + s.coarse b sl + s.coarse b o) % 2) y

/-- Toward the GOOD neighbours: ALTERNATE for both. -/
def giveGood (left right : Bool) : Nat := if left && right then 3 else if left then 1 else if right then 2 else 0

/-- GIVE of column x of a row by the recipes. -/
def planGive (s : State) (b sl row x : Nat) : Nat :=
  let f (d : Int) : Bool := colFailed s b sl row ((x : Int) + d)
  let g (d : Int) : Bool := colGood s b sl row ((x : Int) + d)
  match colWord s b sl row x with
  | none => 0
  | some w =>
    if wordState w = 1 then giveGood (g (-1)) (g 1)
    else if !wordFailed w || substituted s b sl row x then 0
    else if f (-1) && f 1 then 0
    else if f (-1) then (if g 1 then 2 else 0)
    else if f 1 then (if g (-1) then 1 else 0)
    else giveGood (g (-1)) (g 1)

/-- BOOST of column x of a row: 1 when its partner in the other row has failed, it has not, and no substitution serves the column. -/
def planBoost (s : State) (b sl row x : Nat) : Nat :=
  if colFailed s b sl (1 - row) x && !colFailed s b sl row x && !substituted s b sl (1 - row) x then 1 else 0

/-- Change GIVE and BOOST of column x of a row. -/
def planCol (b sl row x : Nat) (f : Nat → Nat × Nat) (s : State) : State :=
  match colWord s b sl row x with
  | none => s
  | some w =>
    let g := f w
    let w' := nozzleWord (wordState w) (wordCap w) g.1 g.2 (wordSource w)
    if w' = w then s else setWord b sl row (nozzleOf (s.nozzles b sl) (orderDesc s b sl) x) w' s

/-- GIVE of a neighbour of a nozzle whose state has changed: that of a nozzle that can give a deficit follows the recipes. -/
def planNeighbour (b sl row x : Nat) (s : State) : State :=
  planCol b sl row x (fun w => (if wordState w = 0 then wordGive w else planGive s b sl row x, wordBoost w)) s

/-- The words of column x of a row, whose nozzle's state has changed, of its two neighbours in the row and of its partner, planned by the
recipes of R164; no other word changes. -/
def planAround (b sl row x : Nat) (s : State) : State :=
  let s := planCol b sl row x (fun _ => (planGive s b sl row x, planBoost s b sl row x)) s
  let s := planCol b sl (1 - row) x (fun w => (wordGive w, planBoost s b sl (1 - row) x)) s
  let s := if x = 0 then s else planNeighbour b sl row (x - 1) s
  planNeighbour b sl row (x + 1) s

/-- Slot, row and column of a nozzle-word offset. -/
def wordPlace (s : State) (b off : Nat) : Nat × Nat × Nat :=
  let i := (off - 66336) / 2
  let sl := i / 10240
  (sl, i % 10240 / 5120, nozzleOf (s.nozzles b sl) (orderDesc s b sl) (i % 5120))

/-- Failed columns whose neighbours in the row have both failed, and which no other head serves: logged as UNCOVERED, once for each run of
them that a change of column x touches. -/
def logUncovered (b : Nat) (s : State) (p : Nat × Nat × Nat) : State :=
  let (sl, row, x) := p
  let inner (y : Int) : Bool := colFailed s b sl row y && colFailed s b sl row (y - 1) && colFailed s b sl row (y + 1)
    && !substituted s b sl row y.toNat
  match ([(x : Int) - 1, x, x + 1].filter inner).head? with
  | none => s
  | some y => s.report 0x2009 (logKey (some b) (some sl) none none) 0 (leBytes 1 row ++ leBytes 4 y.toNat)

/-- Runs of failed columns, by slot and row, of which only the first changed column is kept. -/
def firstOfRuns : List (Nat × Nat × Nat) → List (Nat × Nat × Nat)
  | [] => []
  | p :: l => match firstOfRuns l with
    | q :: r => if q.1 = p.1 ∧ q.2.1 = p.2.1 ∧ q.2.2 = p.2.2 + 1 then p :: r else p :: q :: r
    | [] => [p]

/-- The planner meets the nozzles (slot, row, column) whose states have changed. -/
def planAll (b : Nat) (places : List (Nat × Nat × Nat)) (s : State) : State :=
  (firstOfRuns places).foldl (logUncovered b) (places.foldl (fun s p => planAround b p.1 p.2.1 p.2.2 s) s)

/-- The firmware commits a class of a bar (R80, R164): at once in IDLE and ARMED, in RUN for the first boundary whose window
is open, unless the class is locked. -/
def firmwareCommit (cls b : Nat) (s : State) : State :=
  match s.dev with
  | .run =>
    if isLocked s cls b then s
    else match effectiveBoundary s 0 with
      | none => s
      | some (x, late) =>
        let s := s.withRun { s.run with commits := s.run.commits ++
          [{ classes := 2 ^ cls, barMask := 2 ^ b, boundary := x.pos, closed := false, keep := true }] }
        if late then (s.count 29).report 0x1004 (logKey none none none none) 0 (leBytes 8 x.pos) else s
  | .idle => if (imageBad s cls b).isSome then s else commitNow (cls, b) s
  | .armed => if (imageBad s cls b).isSome then s else commitNow (cls, b) s
  | _ => s

/-! ## Fine delays of REG_MEASURE (R282) -/

/-- A(s) of a slot once the key alignment has become A_key - δA. -/
def shiftedA (s : State) (b sl : Nat) (dA : Int) : Int := 256 * s.coarse b sl + s.fine b sl - dA

/-- No slot's c or h changes. -/
def shiftFits (s : State) (b : Nat) (dA : Int) : Bool :=
  (s.fittedSlots b).all (fun sl =>
    let a := shiftedA s b sl dA
    decide (0 ≤ a ∧ a / 256 = s.coarse b sl) && decide (trailTicks (a % 256).toNat (s.rowSpacing b sl) = s.held b sl))

/-- New fine delays of a bar go into the shadow bank and are committed. -/
def applyShift (b : Nat) (dA : Int) (s : State) : State :=
  let s := (s.fittedSlots b).foldl (fun s sl =>
    let t := s.table 6 b
    s.withTable 6 b (t.withBank t.shadow (tput (tableDefault 6) (t.bank t.shadow) (2 * sl) (BitVec.ofNat 8 (shiftedA s b sl dA % 256).toNat)))) s
  firmwareCommit 6 b s

/-- Can the firmware write and commit FINE_DELAY of a bar now? In RUN a boundary with an open window is needed. -/
def shiftNow (s : State) (b : Nat) : Bool :=
  !isLocked s 6 b && (decide (s.dev = .idle) || (decide (s.dev = .run) && (effectiveBoundary s 0).isSome))

/-- A measured shift is applied at once where it can be, and else at the next commit that can be made (DESIGN CHOICE, log 93). -/
def takeShift (s : State) (x : Nat × Int) : State :=
  if shiftNow s x.1 then applyShift x.1 x.2 s else s.withKeep { s.keep with shifts := s.keep.shifts ++ [x] }

/-- The shifts that wait are tried again; one that a new press description has overtaken goes. -/
def settleShifts (s : State) : State :=
  if s.keep.shifts = [] then s
  else (s.keep.shifts.filter (fun x => shiftFits s x.1 x.2)).foldl takeShift (s.withKeep { s.keep with shifts := [] })

def nozzleDiffers (s : State) (b : Nat) : Bool :=
  let t := s.table 5 b
  decide (t.bank t.live ≠ t.bank t.shadow)

/-- Bring the shadow bank's word of a nozzle up to its history, where a state was found while the class was locked. -/
def syncWord (b : Nat) (s : State) (p : Nat × Nat × Nat) : State :=
  match s.head b p.1 with
  | none => s
  | some h =>
    let hp := tget (fun _ => 0x1800) (s.healthOf h.mem.serial) (5120 * p.2.1 + p.2.2)
    let w := shadowWord s b p.1 p.2.1 p.2.2
    if healthPart w = hp then s else setWord b p.1 p.2.1 p.2.2 (withHealth w hp) s

/-- A commit of NOZZLE by the firmware waits for its boundary. -/
def commitWaits (s : State) (b : Nat) : Bool := s.run.commits.any (fun c => c.keep && bit c.classes 5 && bit c.barMask b)

/-- NOZZLE_PLAN (R164): the state changes that the planner has still to meet are planned in the shadow bank and committed. With PLAN_AUTO
clear, the firmware writes nothing. -/
def execNozzlePlan (bar t : Nat) (s : State) : Result :=
  let s := s.at t
  let mine := (s.link.toPlan.filter (fun p => decide (p.1 = bar))).map (·.2)
  let met := s.withLink { s.link with toPlan := s.link.toPlan.filter (fun p => decide (p.1 ≠ bar)) }
  if 7 < bar then .next s
  else if !planAuto s bar then .next met
  else if isLocked s 5 bar then .next s
  else
    let s := mine.foldl (syncWord bar) met
    let s := planAll bar (mine.map (fun p => (p.1, p.2.1, nozzleOf (s.nozzles bar p.1) (orderDesc s bar p.1) p.2.2))) s
    .next (if nozzleDiffers s bar && !commitWaits s bar then firmwareCommit 5 bar s else s)

/-! ## Findings (R164, R165) -/

/-- A survey or ladder result gives a nozzle a state: it is only logged with PLAN_AUTO clear, and for a state that host software has set;
else the history takes it, and the shadow bank unless it is locked. R440 has no code for the log, which is kept beside the event log (DESIGN
CHOICE, log 88). -/
def takeFinding (b sl row j hp : Nat) (s : State) : State :=
  if !planAuto s b ∨ wordSource (shadowWord s b sl row j) = 4 then
    s.withLink { s.link with results := s.link.results ++ [(b, sl, row, j, hp)] }
  else
    let s := notePlan b sl row j (setHealth b sl row j hp s)
    if isLocked s 5 b then s else setWord b sl row j (withHealth (shadowWord s b sl row j) hp) s

/-! ## NOZZLE_MASK (R166) -/

def maskBody (bar slot row op first count cap : Nat) (s : State) : State × Answer :=
  if 7 < bar ∨ 23 < slot ∨ 2 < row ∨ 2 < op ∨ count = 0 ∨ 5120 < count ∨ (op = 2 ∧ 2 < cap)
      ∨ s.nozzles bar slot < first + count then (s, refuse stBadParam)
  else if isLocked s 5 bar then (s, refuse stBusy)
  else
    let rows := if row = 2 then [0, 1] else [row]
    let target : Nat × Nat := match op with
      | 0 => (3, 0)
      | 1 => (0, 3)
      | _ => (1, cap)
    let js := (List.range count).map (fun i => first + i)
    let before := s
    let s := rows.foldl (fun s q => js.foldl (fun s j => setNozzle bar slot q j target.1 target.2 4 s) s) s
    let n := s.nozzles bar slot
    let s := if planAuto s bar then
        planAll bar (rows.flatMap (fun q => js.map (fun j => (slot, q, nozzleOf n (orderDesc s bar slot) j)))) s else s
    let near := (List.range (count + 2)).map (fun i => first + i - 1)
    let changed := ([0, 1].flatMap (fun q => (distinct near).filter (fun j => decide (j < n)
      && decide (shadowWord before bar slot q j ≠ shadowWord s bar slot q j)))).length
    (s, answer stOk (leBytes 4 changed))

/-- NOZZLE_MASK with OP MASK, UNMASK or WEAK (R166). -/
def execNozzleMask (h : Hdr) (bar slot row op first count cap : Nat) (s : State) : Result :=
  .next (hostCmd (.nozzleMask (unstarted h) bar slot row op first count cap) h (cmdOf 0x0081 0)
    (maskBody bar slot row op first count cap) s)

/-! ## RESTORE_SLOT (R168, R224) -/

/-- The withdrawal ends with the next NOZZLE commit of the bar. -/
def markRestore (b sl : Nat) (s : State) : State :=
  match (s.slot b sl).withdrawn with
  | none => s
  | some w => s.withSlot b sl { s.slot b sl with withdrawn := some { w with restore := true }, limitSeen := false }

/-- The answer of an accepted RESTORE_SLOT: no word changed. -/
def restoreOk : Answer := answer stOk (leBytes 4 0)

def restoreStart (h : Hdr) (bar slot : Nat) (orphan : Bool) (s : State) : State × Option Answer :=
  if 7 < bar ∨ 23 < slot ∨ !s.fitted bar slot then (s, some (refuse stBadParam))
  else if isLocked s 5 bar then (s, some (refuse stBusy))
  else if (s.slot bar slot).withdrawn.isNone then (s, some restoreOk)
  else
    let s := s.sendBlocks bar [cmdBlk 0x06 (s.slotDesc bar slot).q 0]
    (s.addWait orphan h (cmdOf 0x0081 3) (.restoreTelem bar slot), none)

/-- RESTORE_SLOT (R168): a withdrawn head is judged by the TELEM that answers TELEM_NOW. -/
def execRestoreSlot (h : Hdr) (bar slot : Nat) (s : State) : Result :=
  .next (hostWait (.restoreSlot (unstarted h) bar slot) h (cmdOf 0x0081 3) (restoreStart h bar slot) s)

/-- The waiting RESTORE_SLOT of a slot. -/
def restoreWait (s : State) (k : WaitKind) : Option Wait := s.host.waits.find? (fun w => decide (w.kind = k))

/-- The TELEM that RESTORE_SLOT waits for has come. -/
def restoreTelem (b sl : Nat) (hot : Bool) (s : State) : State :=
  match restoreWait s (.restoreTelem b sl) with
  | none => s
  | some w =>
    if hot then (s.endWait w (refuse stWrongState)).settle w.ring
    else if (s.slot b sl).tabsHeld then
      let s := s.withHost { s.host with waits := s.host.waits.map (fun x =>
        if x = w then { w with kind := .restoreClear b sl } else x) }
      s.sendBlocks b [cmdBlk 0x05 (s.slotDesc b sl).q 0]
    else ((markRestore b sl s).endWait w restoreOk).settle w.ring

/-- The ACK of TABS_CLEAR (R224): a cleared cut lets RESTORE_SLOT end; REFUSED ends it with WRONG_STATE. -/
def tabsAck (b sl status : Nat) (s : State) : State :=
  let s := if status = 0 then s.withSlot b sl { s.slot b sl with tabsHeld := false } else s
  match restoreWait s (.restoreClear b sl) with
  | none => s
  | some w =>
    if status = 0 then ((markRestore b sl s).endWait w restoreOk).settle w.ring
    else (s.endWait w (refuse stWrongState)).settle w.ring

/-- TELEM_NOW_TIMEOUT (R168): no TELEM within 1 ms. -/
def execTelemNowTimeout (bar slot t : Nat) (s : State) : Result :=
  let s := s.at t
  match restoreWait s (.restoreTelem bar slot) with
  | none => .next s
  | some w =>
    if s.clk.elapsed < w.since + msT then .next s else .next ((s.endWait w (refuse stTimeout)).settle w.ring)

/-! ## Withdrawal (R167, R222) -/

/-- Slots of the bar that share a zone with a slot in the bank in force. -/
def zoneNeighbours (s : State) (b sl : Nat) : List Nat :=
  let joins (k o : Nat) : Bool := decide (s.tabNum 5 b (42 + 32 * k) 1 = o ∧ s.tabNum 5 b (44 + 32 * k) 2 ≠ 0)
  (s.fittedSlots b).filter (fun o => decide (o ≠ sl) && (joins sl o || joins o sl))

/-- Lines whose zone positions are not fired: max(0, c(b, s) - c(b, s′)) over the neighbours. -/
def withdrawGap (s : State) (b sl : Nat) : Nat :=
  maxOver (fun o => s.coarse b sl - s.coarse b o) (zoneNeighbours s b sl)

/-- The device-edge zones of a slot that nobody takes over: bit 0 the left, bit 1 the right. -/
def uncoveredEdges (s : State) (b sl : Nat) : Nat :=
  let first (k : Nat) : Nat := s.tabNum 5 b (32 + 32 * k) 4
  let last (k : Nat) : Nat := first k + s.nozzles b k
  bitNat (decide (s.tabNum 5 b 6 2 ≠ 0) && (s.fittedSlots b).all (fun o => decide (first sl ≤ first o)))
    + 2 * bitNat (decide (s.tabNum 5 b 8 2 ≠ 0) && (s.fittedSlots b).all (fun o => decide (last o ≤ last sl)))

/-- Cause of a withdrawal that the device holds at the latest tick, if any. -/
def withdrawCause (s : State) (b sl : Nat) : Option Nat :=
  let x := s.slot b sl
  let standing := match x.withdrawn with
    | none => false
    | some w => w.ends.isNone && !w.restore
  if standing then none
  else if x.limitSeen then some 0
  else if x.tabsHeld then some 1
  else if telemLost s x then some 2
  else none

/-- The decision tick of a slot (R222). A slot whose restoring commit has not come yet stays withdrawn from its first decision on; one that
the commit has ended is withdrawn anew beside it, for pages from its boundary on. -/
def decideSlot (b : Nat) (s : State) (sl : Nat) : State :=
  match withdrawCause s b sl with
  | none => s
  | some c =>
    let x := s.slot b sl
    let temp := match x.telem with
      | none => 0
      | some t => t.temp
    let old := x.withdrawn.filter (fun w => w.ends.isNone)
    let td := match old with
      | some w => min w.td s.web.webPos
      | none => s.web.webPos
    let s := s.withSlot b sl { x with
      withdrawn := some { td := td, cause := c, restore := false, ends := none }, limitSeen := false,
      gone := if old.isSome then x.gone else x.withdrawals }
    let s := (s.raise 6).count (barCounter b 5)
    s.report 0x2006 (logKey (some b) (some sl) none none) 0 (leBytes 1 c ++ leInt 2 temp ++ leBytes 8 (s.web.webPos + 3)
      ++ leBytes 4 (withdrawGap s b sl) ++ leBytes 1 (uncoveredEdges s b sl))

/-- The bars that play: those scheduled in the active image, and in the image of a page that has still to end (R90). -/
def playingBars (s : State) : List Nat :=
  distinct (s.scheduledBars ++ s.run.pages.flatMap (fun p => maskList (imgBarMask (s.bank p.bank).image) 8))

/-- Decide withdrawals of every fitted slot of the bars that play at a tick. -/
def decideWithdrawals (s : State) : State :=
  (playingBars s).foldl (fun s b => (s.fittedSlots b).foldl (decideSlot b) s) s

/-! ## The survey (R215 to R219) -/

def State.withSurvey (s : State) (o : Option SurveyOp) : State := s.withLink { s.link with survey := o }

def surveyBegin (h : Hdr) (mask rows slotMask tmax : Nat) (s : State) : State :=
  if rows = 0 ∨ 3 < rows ∨ 2 ^ 24 ≤ slotMask then s.finishLong h.ring h.tag (refuse stBadParam)
  else if s.press.isNone ∨ (s.firstUnread mask).isSome then s.finishLong h.ring h.tag (refuse stWrongState)
  else if prbsActive s mask ∨ s.link.survey.isSome ∨ s.link.scan.isSome ∨ s.thermal.op.isSome then
    s.finishLong h.ring h.tag (refuse stBusy)
  else
    let bars := scanBars s mask
    let slots := bars.flatMap (fun b => ((s.fittedSlots b).filter (bit slotMask)).map (slotIx b))
    let s := bars.foldl (fun s g => wakeDown g s) s
    let s := slots.foldl (fun s k => s.sendBlocks (k / 24) [cmdBlk 0x06 (s.slotDesc (k / 24) (k % 24)).q 0]) s
    s.withSurvey (some { ring := h.ring, tag := h.tag, rows := rows, tmax := if tmax = 0 then 400 else tmax,
                         slots := slots, checked := [], measuring := false, discarded := false, dropped := [], lost := 0 })

/-- NOZZLE_SURVEY (R215, R216). -/
def execNozzleSurvey (h : Hdr) (barMask rows slotMask tmax : Nat) (s : State) : Result :=
  .next (hostLong (.nozzleSurvey (unstarted h) barMask rows slotMask tmax) h (cmdOf 0x0080 0)
    (surveyBegin h barMask rows slotMask tmax) s)

/-- The survey ends: the groups sleep again. -/
def surveyClose (o : SurveyOp) (a : Answer) (s : State) : State :=
  let s := s.withSurvey none
  let s := o.slots.foldl (fun s k => s.withSlot (k / 24) (k % 24) { s.slot (k / 24) (k % 24) with survey := none }) s
  (sleepGroups (distinct (o.slots.map (· / 24))) s).finishLong o.ring o.tag a

/-- The TELEM that the survey reads before any measurement. -/
def surveyTelem (b sl : Nat) (temp : Int) (s : State) : State :=
  match s.link.survey with
  | none => s
  | some o =>
    let k := slotIx b sl
    if o.measuring ∨ k ∉ o.slots ∨ k ∈ o.checked then s
    else if (o.tmax : Int) < temp then surveyClose o (answer stWrongState (leBytes 1 b ++ leBytes 1 sl)) s
    else
      let o := { o with checked := o.checked ++ [k] }
      if o.checked.length < o.slots.length then s.withSurvey (some o)
      else
        let s := s.withSurvey (some { o with measuring := true })
        o.slots.foldl (fun s k =>
          let b := k / 24
          let sl := k % 24
          let v : SlotSurvey := { startAt := s.clk.elapsed, results := [], finished := false }
          let s := s.withSlot b sl { s.slot b sl with survey := some v }
          s.sendBlocks b [cmdBlk 0x03 (s.slotDesc b sl).q (o.rows + 2 ^ 15 * (s.nozzles b sl - 1))]) s

/-- The survey of one slot is discarded (R219). -/
def surveyDiscard (b sl : Nat) (s : State) : State :=
  match s.link.survey with
  | none => s
  | some o =>
    let n := match (s.slot b sl).survey with
      | none => 0
      | some v => v.results.length
    let s := s.withSurvey (some { o with dropped := o.dropped ++ [slotIx b sl], lost := o.lost + n, discarded := true })
    (s.withSlot b sl { s.slot b sl with survey := none }).report 0x200B (logKey (some b) (some sl) none none) 0 []

/-- SURVEY_SLOT_TIMEOUT (R219): 1 s without the slot's end. -/
def execSurveySlotTimeout (bar slot t : Nat) (s : State) : Result :=
  let s := s.at t
  match (s.slot bar slot).survey with
  | none => .next s
  | some v => .next (if !v.finished ∧ v.startAt + secT ≤ s.clk.elapsed then surveyDiscard bar slot s else s)

/-- Classes of R217: 0 in range, 1 OPEN, 2 SHORT, 3 DRIFT. -/
def surveyClass (rNom res : Nat) : Nat :=
  if res = 0xFFFFF ∨ 120 * rNom < 100 * res then 1
  else if 100 * res < 75 * rNom then 2
  else if 8 * rNom < 100 * (res - rNom) ∨ 8 * rNom < 100 * (rNom - res) then 3
  else 0

/-- RF of R217. -/
def surveyRf (rNom res : Nat) : Nat :=
  if surveyClass rNom res = 1 ∨ surveyClass rNom res = 2 then 2048
  else min 4095 (max 1024 ((2048 * res + rNom / 2) / rNom))

/-- SURVEY (R217): one heater of a slot that is being measured. -/
def execSurvey (u : Up) (nozzle row res : Nat) (s : State) : Result :=
  let s := (s.at u.t).traceUp u 0xCC (nozzle % 8192 + 8192 * (row % 2) + 16384 * (res % 2 ^ 20))
  let x := s.slot u.group u.slot
  match s.link.survey, x.survey with
  | some o, some v =>
    let s := s.withSlot u.group u.slot { x with survey := some { v with results := v.results ++ [(nozzle, row, res)] } }
    let asked := o.slots.foldl (fun n k => n + countBits o.rows 2 * s.nozzles (k / 24) (k % 24)) 0
    let have_ := o.lost + o.slots.foldl (fun n k => n + match (s.slot (k / 24) (k % 24)).survey with
      | none => 0
      | some v => v.results.length) 0
    .next (s.progressTo o.ring o.tag (min 10000 (10000 * have_ / max asked 1)))
  | _, _ => .next s

/-- The ACK of SURVEY: OK completes the slot, REFUSED discards it. -/
def surveyAck (b sl status : Nat) (s : State) : State :=
  match (s.slot b sl).survey with
  | none => s
  | some v => if status = 0 then s.withSlot b sl { s.slot b sl with survey := some { v with finished := true } }
    else surveyDiscard b sl s

/-- The state that a survey result gives a nozzle whose history part is `hp` (R165, R218): DEAD for OPEN and SHORT, back to GOOD for one
that an earlier survey found dead. A result that would change a state of SOURCE HOST is logged by `takeFinding`; states of other sources stay
as they are. -/
def surveyState (hp cls : Nat) : Option Nat :=
  let src := wordSource hp
  if cls = 1 ∨ cls = 2 then
    if (src = 0 ∨ src = 2 ∨ src = 4) ∧ hp ≠ nozzleWord 2 0 0 0 2 then some (nozzleWord 2 0 0 0 2) else none
  else if wordState hp = 2 ∧ src = 2 then some (nozzleWord 0 3 0 0 2)
  else none

/-- Store one result: RF, and the nozzle's state; the NOZZLE class is written only with PLAN_AUTO (R164). -/
def storeResult (b sl : Nat) (m : HeadMem) (s : State) (r : Nat × Nat × Nat) : State :=
  let e := 5120 * r.2.1 + r.1
  let rf := tput (fun _ => 2048) (tget (fun _ => []) s.link.rf m.serial) e (surveyRf m.rNom r.2.2)
  let s := s.withLink { s.link with rf := tput (fun _ => []) s.link.rf m.serial rf }
  let hp := tget (fun _ => 0x1800) (s.healthOf m.serial) e
  match surveyState hp (surveyClass m.rNom r.2.2) with
  | none => s
  | some v => takeFinding b sl r.2.1 r.1 v s

/-- Store the results of the slots that completed, and count them. -/
def surveyStore (o : SurveyOp) (s : State) : State × List Byte :=
  let all := o.slots.filterMap (fun k =>
    match (s.slot (k / 24) (k % 24)).survey, s.head (k / 24) (k % 24) with
    | some v, some h => if v.finished then some (k, h.mem, v.results) else none
    | _, _ => none)
  let s := all.foldl (fun s x => x.2.2.foldl (storeResult (x.1 / 24) (x.1 % 24) x.2.1) s) s
  let classes := all.flatMap (fun x => x.2.2.map (fun r => surveyClass x.2.1.rNom r.2.2))
  (s, leBytes 4 classes.length ++ leBytes 4 (classes.count 1) ++ leBytes 4 (classes.count 2) ++ leBytes 4 (classes.count 3))

/-- NOZZLE_SURVEY_DONE (R219): every slot has completed or been discarded. -/
def execNozzleSurveyDone (o : OpRef) (s : State) : Result :=
  .next (withOp o 0x0080 (fun s =>
    match s.link.survey with
    | none => s
    | some v =>
      let ended := v.slots.all (fun k => decide (k ∈ v.dropped) || match (s.slot (k / 24) (k % 24)).survey with
        | none => false
        | some x => x.finished)
      if (v.measuring ∨ v.slots = []) ∧ ended then
        let r := surveyStore v s
        surveyClose v (answer (if v.discarded then stTimeout else stOk) r.2) r.1
      else s) s)

/-- ABORT of a survey (R219): SURVEY_STOP to every HDM still measuring; completed slots keep their results. -/
def surveyAbort (v : SurveyOp) (s : State) : State :=
  let s := v.slots.foldl (fun s k => match (s.slot (k / 24) (k % 24)).survey with
    | none => s
    | some x => if x.finished then s else s.sendBlocks (k / 24) [cmdBlk 0x04 (s.slotDesc (k / 24) (k % 24)).q 0]) s
  let r := surveyStore v s
  surveyClose v (answer stAborted r.2) r.1

/-! ## Wear (R169, R170, R172) -/

/-- Every counter is exchanged with 0 and added to its total. -/
def harvest (p : PrintPath) (now : Time) : PrintPath :=
  { p with wearTotals := p.wear.foldl (fun t e => nput t e.1 (sat 8 (nget t e.1 + e.2))) p.wearTotals, wear := [],
           lastHarvest := now }

/-- Total of a nozzle of a bar. -/
def wearTotal (s : State) (b sl row j : Nat) : Nat := nget s.path.wearTotals (wearIx b (10240 * sl + 5120 * row + j))

/-- The summed totals of the nozzles of a slot in columns x0 to x0 + w - 1 of the slot, both rows. -/
def zoneWear (s : State) (b sl x0 w : Nat) : Nat :=
  (List.range w).foldl (fun n i => n + [0, 1].foldl (fun n q =>
    n + wearTotal s b sl q (nozzleOf (s.nozzles b sl) (orderDesc s b sl) (x0 + i))) 0) 0

/-- Balance the zone at the right end of a slot: BIAS moves by one column, within a quarter of the width. -/
def balanceZone (b : Nat) (s : State) (sl : Nat) : State :=
  let nx := s.nozShadow b (42 + 32 * sl) 1
  let w := s.nozShadow b (44 + 32 * sl) 2
  if nx = 0xFF ∨ w = 0 then s
  else
    let bias := signed 2 (s.nozShadow b (46 + 32 * sl) 2)
    let left := zoneWear s b sl (s.nozzles b sl - w) w
    let right := zoneWear s b nx 0 w
    let lim : Int := (w / 4 : Nat)
    let v := if 11 * right < 10 * left then clampInt (-lim) lim (bias - 1)
      else if 11 * left < 10 * right then clampInt (-lim) lim (bias + 1) else bias
    if v = bias then s
    else
      let t := s.table 5 b
      s.withTable 5 b (t.withBank t.shadow (mwrite (tableDefault 5) (t.bank t.shadow) (46 + 32 * sl) (leInt 2 v)))

/-- More than 10 % apart; within 5 %. -/
def apart (a b : Nat) : Bool := decide (11 * min a b < 10 * max a b)
def near (a b : Nat) : Bool := decide (20 * max a b ≤ 21 * min a b)

/-- Balance GIVE and the partner's BOOST of one failed nozzle. -/
def balanceNozzle (b : Nat) (s : State) (p : Nat × Nat × Nat) : State :=
  let (sl, row, x) := p
  let n := s.nozzles b sl
  let noz (y : Nat) : Nat := nozzleOf n (orderDesc s b sl) y
  let w := shadowWord s b sl row (noz x)
  if !wordFailed w ∨ n ≤ x then s
  else
    let l := wearTotal s b sl row (noz (x - 1))
    let r := wearTotal s b sl row (noz (x + 1))
    let both := decide (0 < x ∧ x + 1 < n) && colGood s b sl row ((x : Int) - 1) && colGood s b sl row ((x : Int) + 1)
    let give := if wordGive w = 3 && apart l r then (if l < r then 1 else 2)
      else if both && decide (wordGive w = 1 ∨ wordGive w = 2) && near l r then 3 else wordGive w
    let s := if give = wordGive w then s
      else setWord b sl row (noz x) (nozzleWord (wordState w) (wordCap w) give (wordBoost w) (wordSource w)) s
    let pw := shadowWord s b sl (1 - row) (noz x)
    let t := 2 * wearTotal s b sl (1 - row) (noz x)
    let boost := if wordBoost pw = 1 && decide (11 * (l + r) < 10 * t) then 0
      else if wordBoost pw = 0 && decide (20 * t ≤ 21 * (l + r)) then planBoost s b sl (1 - row) x else wordBoost pw
    if boost = wordBoost pw then s
    else setWord b sl (1 - row) (noz x) (nozzleWord (wordState pw) (wordCap pw) (wordGive pw) boost (wordSource pw)) s

def balanceBar (s : State) (b : Nat) : State :=
  if !(planAuto s b && wearBalance s b) ∨ isLocked s 5 b then s
  else
    let places := (((s.table 5 b).bank (s.table 5 b).shadow).filter (fun e => decide (66336 ≤ e.1))).map
      (fun e => wordPlace s b e.1)
    let s := (s.fittedSlots b).foldl (balanceZone b) s
    let s := (distinct places).foldl (balanceNozzle b) s
    if nozzleDiffers s b then firmwareCommit 5 b s else s

/-- WEAR_HARVEST (R170, R172). It writes every wear counter, which clears their markers (R303). -/
def execWearHarvest (t : Nat) (s : State) : Result :=
  let s := s.at t
  let s := meetTotals (wearBase s) wearBytes (s.share (spanSubs s (wearBase s) wearBytes))
  let s := s.withDram { s.dram with sramPoison := s.dram.sramPoison.filter (fun w => match sramUse w with
    | .wear _ => false
    | _ => true) }
  .next ((List.range 8).foldl balanceBar (s.withPath (harvest s.path s.clk.elapsed)))

end Sys2Proof.Machine
end

