-- ==== Sys2Proof/Machine/Calib.lean ====
section
/-! DEFINITION. Machine/Calib.lean: the calibration targets and how one is measured, accepted or given up (R200, R413 to R422). -/

namespace Sys2Proof.Machine

open Sys2Proof

/-! ## Targets (R413, R423) -/

def State.target (s : State) (c : Nat) : CalTarget := tget (fun _ => CalTarget.reset) s.thermal.targets c

def State.withTarget (s : State) (c : Nat) (x : CalTarget) : State :=
  s.withThermal { s.thermal with targets := tput (fun _ => CalTarget.reset) s.thermal.targets c x }

def State.loop (s : State) (g : Nat) : Option LoopCal := tget (fun _ => none) s.thermal.loops g

def State.withLoop (s : State) (g : Nat) (x : Option LoopCal) : State :=
  s.withThermal { s.thermal with loops := tput (fun _ => none) s.thermal.loops g x }

/-- What a target code names. -/
inductive Tgt where
  | deskew (g l : Nat) | duty (g l : Nat) | sampler (g : Nat) | fine (g : Nat) | onDie (i : Nat) | remote (i : Nat)
  | tout (k : Nat) | none
deriving DecidableEq, Repr

def tgtOf (c : Nat) : Tgt :=
  if c < 64 then
    (if c % 8 < 5 then .deskew (c / 8) (c % 8) else if c % 8 = 5 then .duty (c / 8) 5 else if c % 8 = 6 then .sampler (c / 8)
      else .fine (c / 8))
  else if c < 88 then .onDie (c - 64)
  else if c < 92 then .remote (c - 88)
  else if c < 100 then .tout (c - 92)
  else if 128 ≤ c ∧ c < 192 ∧ c % 8 < 5 then .duty ((c - 128) / 8) (c % 8)
  else .none

/-- The group of a target, and whether the target is measured by sweeping 64 settings. -/
def Tgt.group : Tgt → Option Nat
  | .deskew g _ => some g
  | .duty g _ => some g
  | .sampler g => some g
  | .fine g => some g
  | _ => Option.none

def Tgt.swept : Tgt → Bool
  | .deskew _ _ => true
  | .sampler _ => true
  | _ => false

/-- Every target, in the order in which targets begin: in a group D0, D1, D2, D3, DS (R416). -/
def calCodes : List Nat :=
  List.range 100 ++ (List.range 64).filterMap (fun k => if k % 8 < 5 then some (128 + k) else none)

/-- The code under which a target is reported. -/
def reportCode (c : Nat) : Nat := if 128 ≤ c then c - 128 else c

/-! ## Temperatures (R426) -/

def State.sensor (s : State) (i : Nat) : Sensor := tget (fun _ => Sensor.reset) s.thermal.sensors i

def State.withSensor (s : State) (i : Nat) (x : Sensor) : State :=
  s.withThermal { s.thermal with sensors := tput (fun _ => Sensor.reset) s.thermal.sensors i x }

/-- The middle of three readings. -/
def middle (a b c : Int) : Int := max (min a b) (min (max a b) c)

/-- The median of a cluster. -/
def median (s : State) (k : Nat) : Int :=
  middle (s.sensor (3 * k)).reading (s.sensor (3 * k + 1)).reading (s.sensor (3 * k + 2)).reading

def clusterOf (c : Nat) : Nat :=
  match tgtOf c with
  | .onDie i => i / 3
  | .remote _ => 0
  | .tout _ => 3
  | t => match t.group with
    | some g => if g < 4 then 3 else 4
    | none => 0

/-- ΔT in 0.1 °C (R414, R424). -/
def deltaT (s : State) : Nat := if s.thermal.deltaT = 0 then 80 else s.thermal.deltaT

/-! ## When a target may run (R415, R416, R420) -/

/-- Named by the CAL_RUN in progress. -/
def named (s : State) (c : Nat) : Bool :=
  match s.thermal.op with
  | none => false
  | some o => decide (c ∈ o.todo)

/-- To be calibrated: named, or pending and neither held for its retry nor given up. -/
def wanted (s : State) (c : Nat) : Bool :=
  let x := s.target c
  !x.running && (named s c || (x.pending && x.retryAt.isNone && x.gaveUp.isNone))

/-- A survey or a PRBS test holds the group. -/
def groupHeld (s : State) (g : Nat) : Bool :=
  decide ((s.group g).prbsLanes ≠ 0) || (match s.link.survey with
    | none => false
    | some o => o.slots.any (fun k => decide (k / 24 = g)))

/-- The opportunity of R415. -/
def mayBegin (s : State) (c : Nat) : Bool :=
  match tgtOf c with
  | .deskew g l => decide ((s.group g).down = .l0) && !groupHeld s g && (s.loop g).isNone && (s.group g).switch.isNone
      && (List.range l).all (fun i => !wanted s (8 * g + i) && !(s.target (8 * g + i)).running)
  | .sampler g => decide ((s.group g).down = .l0 ∧ (s.group g).up = .l0) && !groupHeld s g
  | .duty g _ => !groupHeld s g
  | .fine g => !groupHeld s g
  | .none => false
  | _ => true

/-- R420: is the assumed state there at the start? -/
def stateThere (s : State) (c : Nat) : Bool :=
  let steady := decide (Pll.time ∉ s.boot.pllLost)
  match tgtOf c with
  | .deskew g _ => (List.range 24).any (fun sl => match s.head g sl with
      | none => false
      | some h => decide (h.q = 0)) && (s.group g).dsLane.isNone
  | .sampler g => (s.group g).locked
  | .duty _ _ => steady
  | .fine _ => steady
  | .tout _ => steady
  | .remote i => !(s.sensor (24 + i)).broken
  | _ => true

/-- What R420 has unchanged, or nearly so, over a measurement: the cluster median, the reading, the steps of the time base. -/
def calState (s : State) (c : Nat) : Int :=
  match tgtOf c with
  | .onDie i => median s (i / 3)
  | .remote i => (s.sensor (24 + i)).reading
  | .duty _ _ => s.clk.steps
  | .fine _ => s.clk.steps
  | .tout _ => s.clk.steps
  | _ => 0

/-- The assumed state has not been lost since the measurement began: a temperature has changed by less than 0.2 °C, and no step come. -/
def stateKept (s : State) (c : Nat) : Bool :=
  let d := (calState s c - (s.target c).startState).natAbs
  match tgtOf c with
  | .onDie _ => decide (d < 2)
  | .remote _ => decide (d < 2) && stateThere s c
  | .deskew _ _ => true
  | _ => decide (d = 0) && stateThere s c

/-- Where the setting of a delay line or duty code stands (R419): one tap per 256 block times from `was`, and while the line clock runs no step
falls in block times 0 to 7 of a frame, the one due there coming after them. -/
def CalTarget.inForce (s : State) (x : CalTarget) : Int :=
  let span := s.clk.elapsed - x.movedAt
  let tick := s.clk.elapsed - (s.base - s.web.tickTime)
  let n := span / blockTimes 256
  let last := x.movedAt + n * blockTimes 256
  let held := s.web.running && decide (n ≠ 0 ∧ tick ≤ last ∧ s.clk.elapsed < tick + blockTimes 8)
  let n := if held then n - 1 else n
  let gap := x.value - x.was
  if gap.natAbs ≤ n then x.value else if 0 ≤ gap then x.was + n else x.was - n

/-- A target whose setting moves tap by tap outside a training loop. -/
def Tgt.stepped : Tgt → Bool
  | .duty _ _ => true
  | .fine _ => true
  | .tout _ => true
  | _ => false

/-! ## Outcomes (R417, R418, R421, R423) -/

/-- Outcomes in the order of the counts of RESULT, with their status codes. -/
inductive CalOut where
  | ok | disagree | implausible | abort
deriving DecidableEq, Repr

def CalOut.index : CalOut → Nat
  | .ok => 0
  | .disagree => 1
  | .implausible => 2
  | .abort => 3

def CalOut.ofIndex (i : Nat) : CalOut := if i = 0 then .ok else if i = 1 then .disagree else if i = 2 then .implausible else .abort

def CalOut.status : CalOut → Nat
  | .ok => stOk
  | .disagree => stCalDisagree
  | .implausible => stCalImplausible
  | .abort => stCalState

def CalOut.accepted : CalOut → Bool
  | .ok => true
  | .disagree => true
  | _ => false

/-- A failed run of a target that no CAL_RUN names: retried 10 s later, and given up after the third in a row (R421). -/
def failTriggered (c : Nat) (x : CalTarget) (s : State) : State :=
  if x.failures + 1 < 3 then
    s.withTarget c { x with failures := x.failures + 1, retryAt := some (s.clk.elapsed + 10 * secT) }
  else
    (s.withTarget c { x with failures := 3, gaveUp := some (median s (clusterOf c)), retryAt := none }).report 0x700A
      (logKey none none none none) 0 (leBytes 2 (reportCode c))

/-- An outcome counts in the CAL_RUN that names the target. -/
def CalOp.take (o : CalOp) (c : Nat) (out : CalOut) : CalOp :=
  { o with todo := o.todo.erase c, counts := nput o.counts out.index (nget o.counts out.index + 1),
           firstBad := if o.firstBad = 0xFFFF ∧ out ≠ .ok then reportCode c else o.firstBad }

/-- The run of a target ends. -/
def endTarget (c : Nat) (out : CalOut) (m2 : Int) (s : State) : State :=
  let x := s.target c
  let m1 := x.m1.getD 0
  let mean := if (m1 + m2) % 2 = 0 then (m1 + m2) / 2 else if m1 < m2 then (m1 + m2 + 1) / 2 else (m1 + m2) / 2
  let value := match out with
    | .ok => mean
    | .disagree => m2
    | _ => x.value
  let slice := if tgtOf c = .sampler (c / 8) ∧ out.accepted then (x.slice + 1) % 3 else x.slice
  let y : CalTarget := { x with value := value, was := if (tgtOf c).stepped then x.inForce s else value, movedAt := s.clk.elapsed, running := false, m1 := none, setting := 0, spanStart := none, spanBest := none,
                                noSpan := false, slice := slice }
  let byName := named s c
  let s := if out.accepted then
      s.withTarget c { y with reference := some (median s (clusterOf c)), pending := false, failures := 0, gaveUp := none, retryAt := none }
    else if byName then s.withTarget c y
    else failTriggered c y s
  let s := s.traceRec 10 (Config.traceUnit 10) (leBytes 1 (reportCode c) ++ leBytes 1 out.index ++ leBytes 2 x.setting)
  let s := if out = .ok then s
    else (s.raise 11).report 0x7009 (logKey none none none none) 0
      (leBytes 2 (reportCode c) ++ leBytes 2 out.status ++ leInt 4 m1 ++ leInt 4 m2 ++ leInt 4 value)
  match s.thermal.op with
  | some o =>
    if byName then
      let o := o.take c out
      (s.withThermal { s.thermal with op := some o }).progressTo o.ring o.tag
        (10000 * (o.total - o.todo.length) / max 1 o.total)
    else s
  | none => s

/-- The plausibility limits of R418 for m2, with the length of the second sweep's span. -/
def plausible (s : State) (c : Nat) (m2 : Int) (span : Nat) : Bool :=
  let d := (m2 - (s.target c).value).natAbs
  match tgtOf c with
  | .deskew _ _ => decide (16 ≤ span ∧ d ≤ 8)
  | .sampler _ => decide (16 ≤ span ∧ d ≤ 8)
  | .duty _ _ => decide (d ≤ 4)
  | .fine _ => decide (d ≤ 16)
  | .tout _ => decide (d ≤ 16)
  | .remote _ => decide (d ≤ 20)
  | .onDie i =>
    let k := 3 * (i / 3)
    let others := ((List.range 3).map (fun j => k + j)).filter (fun j => j != i)
    let sum := others.foldl (fun n j => n + (s.sensor j).reading) 0
    decide (d ≤ 20 ∧ (2 * ((s.sensor i).reading + m2 - (s.target c).value) - sum).natAbs ≤ 60)
  | .none => false

/-- The agreement that R417 asks for: 2 taps, or 0.3 °C. -/
def agreeWithin (c : Nat) : Nat :=
  match tgtOf c with
  | .onDie _ => 3
  | .remote _ => 3
  | _ => 2

/-- The outcome of two measurements; a sweep without an error-free setting is implausible. -/
def outcomeOf (s : State) (c : Nat) (m1 m2 : Int) (span : Nat) (noSpan : Bool) : CalOut :=
  if noSpan then .implausible
  else if (m1 - m2).natAbs ≤ agreeWithin c then .ok
  else if plausible s c m2 span then .disagree
  else .implausible

/-! ## The training loop (R200) -/

/-- A CAL block to chain position q. -/
def calBlk (op lane mask pattern up q : Nat) : Blk :=
  ctrlBlk 0x78 q true (op + 2 ^ 8 * (lane % 8) + 2 ^ 16 * (mask % 32) + 2 ^ 21 * pattern + 2 ^ 22 * up)

/-- A lane carries the raw pattern from a start that the manual does not state, but not all zeros; or blocks again. -/
def startGen (g lane pattern : Nat) (s : State) : State :=
  let (r, s) := s.draw (2 ^ (prbsTaps pattern).1 - 1)
  s.withGroup g { s.group g with gens := tput (fun _ => 0) (s.group g).gens lane (r + 1) }

def stopGen (g lane : Nat) (s : State) : State := s.withGroup g { s.group g with gens := tput (fun _ => 0) (s.group g).gens lane 0 }

/-- The next `n` bits of a lane that carries a raw pattern: PRBS31 in a training loop (R200), the pattern of the test else (R204). -/
def laneBits (s : State) (g lane n : Nat) : List Bool :=
  let x := s.group g
  prbsBits (if (s.loop g).isSome then 0 else x.prbsPattern) n (nget x.gens lane)

/-- LOOP_ENTER goes to HDM 0. -/
def sendEnter (g : Nat) (x : LoopCal) (s : State) : State :=
  (s.sendBlocks g [calBlk 1 x.lane 0 0 0 0]).withLoop g (some { x with phase := .entering, since := s.clk.elapsed })

/-- LOOP_EXIT goes to HDM 0, and the lane carries IDLE blocks. -/
def sendExit (g : Nat) (x : LoopCal) (s : State) : State :=
  ((stopGen g x.lane s).sendBlocks g [calBlk 3 x.lane 0 0 0 0]).withLoop g (some { x with phase := .exiting, since := s.clk.elapsed })

/-- The loop of a group ends early: CAL_ABORT_STATE, and LOOP_EXIT where LOOP_ENTER has been sent. -/
def abortLoop (g : Nat) (s : State) : State :=
  match s.loop g with
  | none => s
  | some x =>
    let c := 8 * g + x.lane
    let s := if (s.target c).running then endTarget c .abort 0 s else s
    let x := { x with result := none }
    let s := s.withLoop g (some x)
    match x.phase with
    | .toDs => s.withLoop g (some { x with phase := .returning })
    | .entering => sendExit g x s
    | .sweeping => sendExit g x s
    | _ => s

/-- The answer of LOOP_EXIT lets a run that has measured end with its outcome. -/
def confirmLoop (g : Nat) (x : LoopCal) (s : State) : State :=
  let c := 8 * g + x.lane
  match x.result with
  | some (i, m) =>
    let s := if (s.target c).running then endTarget c (.ofIndex i) m s else s
    s.withLoop g ((s.loop g).map (fun y => { y with result := none }))
  | none => s

/-- Lane L is to return from DS, or, for DS itself, the loop is over. -/
def returnLane (g : Nat) (x : LoopCal) (s : State) : State :=
  if x.lane < 4 then announceSwitch g x.lane false (s.withLoop g (some { x with phase := .returning }))
  else s.withLoop g none

/-! ## Beginning -/

/-- A target begins; one whose assumed state is absent ends with CAL_ABORT_STATE. -/
def beginTarget (c : Nat) (s : State) : State :=
  if !stateThere s c then endTarget c .abort 0 s
  else
    let s := s.withTarget c { s.target c with running := true, m1 := none, startState := calState s c, setting := 0, spanStart := none, spanBest := none, noSpan := false }
    match tgtOf c with
    | .deskew g l =>
      let x : LoopCal := { lane := l, phase := .toDs, since := s.clk.elapsed, lost := none, sleep := false, result := none }
      if l < 4 then announceSwitch g l true (s.withLoop g (some x)) else sendEnter g x s
    | _ => s

/-- Every wanted target whose opportunity has come begins. -/
def beginWanted (s : State) : State :=
  calCodes.foldl (fun s c => if wanted s c && mayBegin s c then beginTarget c s else s) s

/-! ## Measuring -/

/-- The longer of two spans; the earlier of equals. -/
def betterSpan (a : Option (Nat × Nat)) (b : Nat × Nat) : Option (Nat × Nat) :=
  match a with
  | none => some b
  | some a => if a.2 < b.2 then some b else some a

/-- One setting of a sweep has been tried. -/
def sweepStep (x : CalTarget) (errors : Int) : CalTarget :=
  let start := if errors = 0 then some (x.spanStart.getD x.setting) else none
  let closed := match x.spanStart, start with
    | some b, none => betterSpan x.spanBest (b, x.setting - b)
    | _, some b => if x.setting = 63 then betterSpan x.spanBest (b, 64 - b) else x.spanBest
    | none, none => x.spanBest
  { x with setting := x.setting + 1, spanStart := start, spanBest := closed }

/-- The centre of a span. -/
def centre (p : Nat × Nat) : Int := (2 * p.1 + p.2 - 1) / 2

/-- A measurement of a target has ended. What a training loop has measured is put in force once LOOP_EXIT is answered (R200). -/
def measured (c : Nat) (m : Int) (span : Nat) (none_ : Bool) (s : State) : State :=
  let x := s.target c
  match x.m1 with
  | none => s.withTarget c { x with m1 := some m, startState := calState s c, setting := 0, spanStart := none, spanBest := none, noSpan := none_ }
  | some m1 =>
    let out := outcomeOf s c m1 m span (x.noSpan || none_)
    match tgtOf c, s.loop (c / 8) with
    | .deskew g _, some l => sendExit g { l with result := some (out.index, m) } s
    | _, _ => endTarget c out m s

/-- A dwell or a measurement interval of a target ends. -/
def measureStep (c : Nat) (value : Int) (stateOk : Bool) (s : State) : State :=
  let x := s.target c
  let sweeping := match tgtOf c with
    | .deskew g l => (match s.loop g with
      | some y => decide (y.lane = l ∧ y.phase = .sweeping)
      | none => false)
    | _ => true
  if !x.running ∨ !sweeping then s
  else if !stateOk ∨ !stateKept s c then
    (match tgtOf c with
    | .deskew g _ => abortLoop g s
    | _ => endTarget c .abort 0 s)
  else if (tgtOf c).swept then
    let s := match tgtOf c, s.loop (c / 8) with
      | .deskew g l, some y => (s.sendBlocks g [calBlk 2 l 0 0 0 0]).withLoop g (some { y with since := s.clk.elapsed })
      | _, _ => s
    let y := sweepStep x value
    let s := s.withTarget c y
    if y.setting < 64 then s
    else match y.spanBest with
      | some p => measured c (centre p) p.2 false s
      | none => measured c 0 0 true s
  else measured c value 0 false s

/-- The calibrations of some groups are over: none runs, none is wanted, and every lane is back. -/
def groupsQuiet (s : State) (gs : List Nat) : Bool :=
  gs.all (fun g => (s.loop g).isNone) && calCodes.all (fun c => match (tgtOf c).group with
    | some g => !(decide (g ∈ gs)) || (!(s.target c).running && !wanted s c)
    | none => true)

end Sys2Proof.Machine
end

