-- ==== Sys2Proof/Machine/Arm.lean ====
section
/-! DEFINITION. Machine/Arm.lean: table loads and what waits for them: RUN_ARM (R68, R69), COMMIT (R76 to R81, R228), and the ACK
and time-out of a load (R191). -/

namespace Sys2Proof.Machine

open Sys2Proof

/-! ## Loads -/

/-- The fine delay and energy bank that a load carries: those of the shadow where a COMMIT names the class. -/
def loadFine (s : State) (classes b sl : Nat) : Nat := if bit classes 6 then s.tabShadow 6 b (2 * sl) 1 else s.fine b sl
def loadEnergy (s : State) (classes b : Nat) : Nat → Nat → Nat := if bit classes 7 then s.tabShadow 7 b else s.tabNum 7 b

/-- Send one load of a slot. SLOT_PARAMS carries the record computed from the newest TELEM (R213). -/
def sendSlotLoad (classes : Nat) (s : State) (p : Nat × Nat) : State :=
  let b := p.1 / 24
  let sl := p.1 % 24
  if p.2 = 0 then
    let (s, e) := loadRecord (loadEnergy s classes b) b sl s
    let s := s.withSlot b sl { s.slot b sl with energy := e }
    s.sendBlocks b (loadBlks (s.slotDesc b sl).q 0 0 (slotParams s b sl (loadFine s classes b sl) e))
  else sendLoad b sl p.2 s.run.active s

/-- Begin the loads of a command. -/
def beginLoads (ring tag opcode classes : Nat) (loads : List (Nat × Nat)) (woken : List Nat) (s : State) : State :=
  let s := loads.foldl (sendSlotLoad classes) s
  let op : LoadOp := { ring := ring, tag := tag, opcode := opcode, classes := classes, outstanding := loads, loaded := 0,
                       waiting := false, since := s.clk.elapsed, woken := woken }
  s.withLink { s.link with load := some op }

def State.endLoads (s : State) : State := s.withLink { s.link with load := none }

/-- The three loads of RUN_ARM for every fitted slot of some bars (R193). -/
def slotLoads (s : State) (bars : List Nat) : List (Nat × Nat) :=
  bars.flatMap (fun b => (s.fittedSlots b).flatMap (fun sl => [0, 1, 2].map (fun k => (slotIx b sl, k))))

/-! ## Groups that nothing needs (R203) -/

/-- A group is to leave L0: a lane calibration in progress ends first, and the group sleeps when its lane is back (R422). -/
def leaveL0 (g : Nat) (s : State) : State :=
  let s := abortLoop g s
  match s.loop g with
  | none => sleepDown g s
  | some x => s.withLoop g (some { x with sleep := true })

/-- Something keeps a group in L0: a bar that plays or that a pending activation adds, or a command that uses the group. -/
def groupNeeded (s : State) (g : Nat) : Bool :=
  (decide (s.dev ∈ [.armed, .run, .drain, .fault])
      && decide (g ∈ playingBars s ∨ (s.run.activation.isSome ∧ bit (imgBarMask (s.bank (1 - s.run.active)).image) g)))
    || s.link.load.any (fun o => decide (g ∈ o.woken) || o.outstanding.any (fun p => decide (p.1 / 24 = g)))
    || s.link.scan.any (fun o => decide (g ∈ scanBars s o.barMask)) || s.link.survey.any (fun o => o.slots.any (fun k => decide (k / 24 = g)))
    || decide ((s.group g).prbsLanes ≠ 0) || s.thermal.op.any (fun o => decide (g ∈ o.woken))

/-- Groups that nothing keeps in L0 leave it. -/
def restGroups (s : State) : State :=
  ((List.range 8).filter (fun g => decide ((s.group g).down = .l0) && !groupNeeded s g)).foldl (fun s g => leaveL0 g s) s

/-! ## COMMIT (R76 to R81, R228) -/

/-- The HDM loads a commit in ARMED needs (R81): SLOT_PARAMS of every fitted slot of the named scheduled bars. -/
def commitLoads (s : State) (classes mask : Nat) : List (Nat × Nat) :=
  if bit classes 6 || bit classes 7 then
    ((maskList mask 8).filter (fun b => decide (b ∈ s.scheduledBars))).flatMap
      (fun b => (s.fittedSlots b).map (fun sl => (slotIx b sl, 0)))
  else []

/-- The result of COMMIT (R76). -/
def commitResult (boundary index : Nat) (late : Bool) : List Byte :=
  leBytes 8 boundary ++ leBytes 4 index ++ leBytes 2 (bitNat late)

/-- COMMIT with classes in IDLE and ARMED (R81). -/
def commitIdle (h : Hdr) (c : CmdInfo) (classes mask : Nat) (orphan : Bool) (s : State) : State × Option Answer :=
  let pairs := commitPairs classes mask
  match contentCheck s pairs none with
  | some log => (log s, some (refuse stBadParam))
  | none =>
    let loads := if s.dev = .armed then commitLoads s classes mask else []
    if loads = [] then (commitAll pairs s, some (answer stOk (commitResult 0 0 false)))
    else if s.link.load.isSome then (s, some (refuse stBusy))
    else
      let s := beginLoads h.ring h.tag 0x68 classes loads [] s
      (s.addWait orphan h c (.commit classes mask), none)

/-- COMMIT in RUN (R77, R78): a pending commit for its effective boundary. With BOUNDARY 0 and no further boundary whose window opens
before the run ends it answers BAD_PARAM, as does a gate release; the manual names no answer for that (DESIGN CHOICE, log 85). -/
def commitRun (classes mask boundary : Nat) (s : State) : State × Option Answer :=
  let pairs := commitPairs classes mask
  match effectiveBoundary s boundary with
  | none => (s, some (refuse stBadParam))
  | some (b, late) =>
    if pairs.any (fun p => isLocked s p.1 p.2) then (s, some (refuse stBusy))
    else match contentCheck s pairs (some b.pos) with
      | some log => (log s, some (refuse stBadParam))
      | none =>
        let s := s.withRun { s.run with commits := s.run.commits ++
          [{ classes := classes, barMask := mask, boundary := b.pos, closed := false, keep := false }] }
        let s := if late then (s.count 29).report 0x1004 (logKey none none none none) 0 (leBytes 8 b.pos) else s
        (s, some (answer stOk (commitResult b.pos b.index late)))

/-- COMMIT with some class named (R76 to R81). -/
def commitBody (h : Hdr) (c : CmdInfo) (classes mask boundary : Nat) (orphan : Bool) (s : State) : State × Option Answer :=
  if 1024 ≤ classes then (s, some (refuse stBadParam))
  else if bit classes 1 ∧ (maskList mask 8).any (keepOwns s) then (s, some (refuse stWrongState))
  else if (bit classes 5 || bit classes 7) ∧ (s.press.isNone ∨ (s.firstUnread mask).isSome) then
    (s, some (refuse stWrongState))
  else if bit classes 6 ∧ regHolds s then (s, some (refuse stBusy))
  else if s.dev = .run then commitRun classes mask boundary s
  else commitIdle h c classes mask orphan s

/-- A gate release (R228). -/
def releaseBody (mask boundary : Nat) (s : State) : State × Answer :=
  if s.dev = .run then
    match effectiveBoundary s boundary with
    | none => (s, refuse stBadParam)
    | some (b, late) =>
      let s := s.withRun { s.run with commits := s.run.commits ++
        [{ classes := 0, barMask := mask, boundary := b.pos, closed := false, keep := false }] }
      let s := if late then (s.count 29).report 0x1004 (logKey none none none none) 0 (leBytes 8 b.pos) else s
      (s, answer stOk (commitResult b.pos b.index late))
  else (releaseBars none mask s, answer stOk (commitResult 0 0 false))

def cmdCommit : CmdInfo := cmdOf 0x0068 0

/-- COMMIT (R76). With no class named it is a gate release (R228). -/
def execCommit (h : Hdr) (classes barMask boundary : Nat) (s : State) : Result :=
  .next (hostWait (.commit (unstarted h) classes barMask boundary) h cmdCommit
    (fun o s => if classes = 0 then ((releaseBody barMask boundary s).1, some (releaseBody barMask boundary s).2)
      else commitBody h cmdCommit classes barMask boundary o s) s)

/-- A COMMIT whose CLASSES field is 0 (R228). -/
def execGateRelease (h : Hdr) (barMask boundary : Nat) (s : State) : Result :=
  .next (hostCmd (.gateRelease (unstarted h) barMask boundary) h cmdCommit (releaseBody barMask boundary) s)

/-- The COMMIT that waits for loads. -/
def commitWait (s : State) : Option Wait :=
  s.host.waits.find? (fun w => match w.kind with
    | .commit _ _ => true
    | _ => false)

/-- Every HDM has confirmed: the COMMIT takes effect and replies, and those HDMs hold the tables in force (R81). -/
def commitLoaded (s : State) : State :=
  match commitWait s with
  | none => s
  | some w =>
    match w.kind with
    | .commit classes mask =>
      let held := (commitLoads s classes mask).map (·.1)
      let s := s.withRun { s.run with hdmStale := s.run.hdmStale.filter (fun x => decide (x ∉ held)) }
      ((commitAll (commitPairs classes mask) s).endWait w (answer stOk (commitResult 0 0 false))).settle w.ring
    | _ => s

/-- An HDM has not confirmed (R81): nothing is committed, and HDMs that had confirmed are loaded with the values in force. Those that
have not confirmed are held to have other tables, until a later COMMIT loads them or RUN_ARM. -/
def commitTimeout (o : LoadOp) (b sl : Nat) (s : State) : State :=
  match commitWait s with
  | none => s
  | some w =>
    match w.kind with
    | .commit classes mask =>
      let again := (commitLoads s classes mask).filter (fun p => decide (p ∉ o.outstanding))
      let s := again.foldl (sendSlotLoad 0) s
      let s := s.withRun { s.run with hdmStale := distinct (s.run.hdmStale ++ o.outstanding.map (·.1)) }
      (s.endWait w (answer stTimeout (leBytes 1 b ++ leBytes 1 sl))).settle w.ring
    | _ => s

/-! ## RUN_ARM (R68, R69) -/

/-- The first fitted slot of some bars with a property. -/
def firstSlot (s : State) (bars : List Nat) (p : Nat → Nat → Bool) : Option (Nat × Nat) :=
  bars.findSome? (fun b => ((s.fittedSlots b).find? (p b)).map (fun sl => (b, sl)))

/-- R153, R193: a slot whose HDM grants too few credits, or whose STEER table of an image does not fit. -/
def slotShort (s : State) (m : Mem) (b sl : Nat) : Bool :=
  decide (grantOf s b sl < 4 + s.held b sl / 2) || !steerFits s m b sl

/-- What the checks of RUN_ARM answer when one fails. -/
def armCheck (s : State) (seq policy lead : Nat) : Option Answer :=
  let m := s.activeImage
  let bars := s.scheduledBars
  if 2 < policy ∨ lead < 64 then some (refuse stBadParam)
  else if !(s.bank s.run.active).checked ∨ s.press.isNone then some (refuse stWrongState)
  else if seqCount m ≤ seq ∨ policyRefused s policy lead then some (refuse stBadParam)
  else if s.link.survey.isSome ∨ s.link.scan.isSome ∨ s.link.load.isSome ∨ prbsActive s (imgBarMask m) then some (refuse stBusy)
  else match firstSlot s bars (fun b sl => (s.head b sl).isNone) with
    | some (b, sl) => some (answer stNoResource (leBytes 1 b ++ leBytes 1 sl))
    | none => match firstSlot s bars (slotShort s m) with
      | some (b, sl) => some (answer stNoResource (leBytes 1 b ++ leBytes 1 sl))
      | none => none

/-- Send TABS_CLEAR to a slot whose cut has not been cleared (R224). -/
def clearCuts (b : Nat) (s : State) (sl : Nat) : State :=
  if (s.slot b sl).tabsHeld then s.sendBlocks b [cmdBlk 0x05 (s.slotDesc b sl).q 0] else s

/-- The same for every slot of a bar that is not scheduled, whose group wakes for it. -/
def clearOther (s : State) (b : Nat) : State :=
  if (s.fittedSlots b).any (fun sl => (s.slot b sl).tabsHeld) then
    sleepDown b ((s.fittedSlots b).foldl (clearCuts b) (wakeDown b s))
  else s

/-- Steps 3 and 4: the groups wake, their pending calibrations are made (R415), and every HDM is loaded. -/
def armLoads (ring tag opcode : Nat) (s : State) : State :=
  let bars := s.scheduledBars
  let s := bars.foldl (fun s g => wakeDown g s) s
  let s := ((List.range 8).filter (fun b => decide (b ∉ bars))).foldl clearOther s
  let s := beginWanted (bars.foldl (fun s b => (s.fittedSlots b).foldl (clearCuts b) s) s)
  if groupsQuiet s bars then beginLoads ring tag opcode 0 (slotLoads s bars) bars s
  else
    let op : LoadOp := { ring := ring, tag := tag, opcode := opcode, classes := 0, outstanding := slotLoads s bars, loaded := 0,
                         waiting := true, since := s.clk.elapsed, woken := bars }
    s.withLink { s.link with load := some op }

/-- Loads that waited for the pending calibrations of their groups begin when the last has ended (R415). -/
def resumeLoads (s : State) : State :=
  match s.link.load with
  | none => s
  | some o => if o.waiting && groupsQuiet s o.woken then beginLoads o.ring o.tag o.opcode 0 o.outstanding o.woken s else s

def armBegin (h : Hdr) (job seq policy first lead : Nat) (s : State) : State :=
  match armCheck s seq policy lead with
  | some a => s.finishLong h.ring h.tag a
  | none =>
    let motion := match s.press with
      | none => Motion.reset
      | some p => p.motion
    let s := s.withWeb { s.web with motion := motion }
    let s := s.withRun { s.run with jobId := job, seqEntry := seq, firstPage := first, armPolicy := policy, armLead := lead }
    armLoads h.ring h.tag 0x60 s

/-- RUN_ARM (R68, R69). -/
def execRunArm (h : Hdr) (jobId seqEntry policy firstPage fenceLead : Nat) (s : State) : Result :=
  .next (hostLong (.runArm (unstarted h) jobId seqEntry policy firstPage fenceLead) h (cmdOf 0x0060 0)
    (armBegin h jobId seqEntry policy firstPage fenceLead) s)

/-- R224: a withdrawal ends where TEMP reads below T_LIMIT; a slot that stays withdrawn is logged, and is withdrawn for every line of the
run that follows. Of a slot that is not withdrawn, a TELEM at its limit is held as long as none below it has come (DEDUCED, log 89). -/
def armWithdrawal (b : Nat) (s : State) (sl : Nat) : State :=
  let x := s.slot b sl
  let temp := x.telem.map (·.temp)
  let limit := match x.head with
    | none => 0
    | some h => limitAt h.mem
  let below := match temp with
    | none => false
    | some t => decide (t < limit)
  let hot := x.limitSeen && !(below && !(x.telem.any (fun t => bit t.flags 1)))
  match x.withdrawn with
  | none => s.withSlot b sl { x with gone := [], limitSeen := hot }
  | some w =>
    if below then s.withSlot b sl { x with withdrawn := none, gone := [], limitSeen := false }
    else (s.withSlot b sl { x with withdrawn := some { w with td := 0, ends := none }, gone := [] }).report 0x2006
      (logKey (some b) (some sl) none none) 0 (leBytes 1 w.cause ++ leInt 2 (temp.getD 0))

/-- The slots of a scheduled bar as RUN_ARM leaves them: credits at G (R189). -/
def armBar (s : State) (b : Nat) : State := (s.fittedSlots b).foldl (fun s sl => fillCredit b sl s) s

/-- What RUN_ARM does to every bar: withdrawals end or are logged, the release boundary is 0 and the latch clear (R224, R227, R229). -/
def armAny (s : State) (b : Nat) : State :=
  let s := (s.fittedSlots b).foldl (armWithdrawal b) s
  s.withBar b { s.bar b with releaseBoundary := 0, latch := false }

/-- Commit locks and pending copies end: the copies are completed at once. -/
def finishCopies (s : State) : State :=
  let s := s.run.copies.foldl (fun s c => (commitPairs c.classes c.barMask).foldl (fun s p => copyTable p s) s) s
  s.withRun { s.run with copies := [], locks := [] }

/-- FENCE_POLICY and FENCE_LEAD of RUN_ARM go into the RUN_POLICY bank in force (log 24). -/
def writePolicy (policy lead : Nat) (s : State) : State :=
  let t := s.table 9 0
  s.withTable 9 0 (t.withBank t.live (mwrite (tableDefault 9) (t.bank t.live) 0 (leBytes 1 policy ++ [0] ++ leBytes 2 lead)))

/-- Steps 5 and 6, and the entry of ARMED: latches clear, and set again where an input is open (R227). -/
def armEnter (s : State) : State :=
  let s := writePolicy s.run.armPolicy s.run.armLead (finishCopies s)
  let s := s.withRun { s.run with
    ready := [], commits := [], pages := [], activation := none, stop := .none, startArmed := false, startMark := none,
    hdmStale := [], oldBankBusy := false, pageIndex := s.run.firstPage }
  let s := s.scheduledBars.foldl armBar s
  let s := (List.range 8).foldl armAny s
  (s.enter .armed).faultOnPoison

/-- RUN_ARM_DONE (R69): every load is confirmed. -/
def execRunArmDone (o : OpRef) (s : State) : Result :=
  .next (withOp o 0x0060 (fun s =>
    match s.link.load with
    | none => s
    | some l =>
      if l.opcode = 0x60 ∧ l.outstanding = [] then
        (armEnter s.endLoads).finishLong o.ring o.tag
          (answer stOk (leBytes 8 (imgId s.activeImage) ++ leBytes 2 (l.loaded / 3)))
      else s) s)

/-- The RUN_REJOIN in progress ends with an answer. -/
def endRejoin (a : Answer) (s : State) : State :=
  match s.boot.rejoin with
  | none => s
  | some o => (s.withBoot { s.boot with rejoin := none }).finishLong o.ring o.tag a

/-- RUN_ARM ends without success: the groups return to LS (R69, R332). -/
def armAbandon (l : LoadOp) (s : State) : State :=
  let s := s.endLoads
  sleepGroups (l.woken.filter (fun g => !groupNeeded s g)) s

end Sys2Proof.Machine
end

