-- ==== Sys2Proof/Machine/SchedCheck.lean ====
section
/-! DEFINITION. Machine/SchedCheck.lean: the checks of the loader on a schedule image (R27 to R59, R62, R494). Each check answers
the first failure it finds. Instants inside a frame are counted in 1/10,000 DRAM clock, in which a slot, a PIPE cycle and a
nanosecond are whole numbers; instants on the timeline of several frames in 1/65,536 of that. -/

namespace Sys2Proof.Machine

open Sys2Proof

/-- What the result of a failed check names (R61). -/
structure Fail where
  check : Nat
  status : Nat
  sect : Nat
  record : Nat
  cue : Nat
  value : Nat
deriving DecidableEq, Repr

def Fail.toBytes (f : Fail) : List Byte :=
  leBytes 2 f.check ++ leBytes 1 f.sect ++ [0] ++ leBytes 4 f.record ++ leBytes 4 f.cue ++ leBytes 4 f.value

/-- A failure unless a condition holds. -/
def need (ok : Bool) (f : Fail) : Option Fail := if ok then none else some f

def orFail (a b : Option Fail) : Option Fail :=
  match a with
  | some f => some f
  | none => b

/-- The first failure of a list of checks. -/
def firstOf (l : List (Option Fail)) : Option Fail := l.findSome? id

/-- Elements with their places. -/
def placed {α : Type} (l : List α) : List (Nat × α) := List.zip (List.range l.length) l

/-! ## Units of time -/

def slotU : Nat := 80000
def clockU : Nat := 10000
def cycleU (m : Mem) : Nat := 4 * rateMts (imgRate m)
def nsU (m : Mem) : Nat := 5 * rateMts (imgRate m)

/-- S: slots per frame per sub-channel (R27). -/
def frameSlots (m : Mem) : Nat := (imgLMin m - 2) * cycleU m / slotU

/-- Issue time of a cue in PIPE cycles (R54). -/
def issueAt (m : Mem) (c : Cue) : Int :=
  if c.kind = 1 then (ceilDiv (c.time * slotU) (cycleU m) : Int) - 64 else c.time

/-- Slots of a RUN cue (R30). -/
def Cue.slots (c : Cue) : List Nat := (List.range c.bursts).map (fun i => c.time + i * c.stride)

def Cue.lastSlot (c : Cue) : Nat := c.time + (c.bursts - 1) * c.stride

/-! ## Checks 1 to 4 (made by SCHED_LOAD) -/

/-- Check 1 to 4 on the bytes that arrived: the status of the first that fails (R62). -/
def loadCheck (m : Mem) (bytes : List Byte) : Option Nat :=
  if imgMagic m ≠ 0x43414C44 ∨ imgFormat m ≠ 1 ∨ imgContract m ≠ 3 then some stContract
  else if imgLength m ≠ bytes.length then some stBadLength
  else if 2097152 < imgLength m then some stNoResource
  else if imgCrc m ≠ crc32c (overlay bytes 12 [0, 0, 0, 0]) then some stContract
  else none

/-! ## Checks 5 to 7 -/

/-- The least and the greatest coarse offset of a bar's fitted slots (R44). -/
def coarseMin (s : State) (b : Nat) : Nat :=
  match (s.fittedSlots b).map (s.coarse b) with
  | [] => 0
  | x :: l => l.foldl min x

def coarseMax (s : State) (b : Nat) : Nat := maxOver (s.coarse b) (s.fittedSlots b)

/-- The page programs and bars of an image. -/
def ppBarPairs (m : Mem) : List (Nat × Nat) := (List.range (ppCount m)).flatMap (fun p => (ppBars m p).map (fun b => (p, b)))

def check5 (s : State) (m : Mem) : Option Fail :=
  let f (sect record value : Nat) : Fail :=
    { check := 5, status := stContract, sect := sect, record := record, cue := 0, value := value }
  match s.press with
  | none => some (f 0 0 (imgPressDigest m % 2 ^ 32))
  | some p => firstOf
    [need (decide (imgPressDigest m = p.digest)) (f 0 0 (imgPressDigest m % 2 ^ 32)),
     need ((maskList (imgBarMask m) 8).all (bit p.barMask)) (f 0 0 (imgBarMask m)),
     (ppBarPairs m).findSome? (fun x =>
       need (decide (ppCFirst m x.1 x.2 = coarseMin s x.2 ∧ ppCSpan m x.1 x.2 + coarseMin s x.2 = coarseMax s x.2))
         (f 5 x.1 (ppCFirst m x.1 x.2)))]

def check6 (s : State) (m : Mem) : Option Fail :=
  let f (value : Nat) : Fail := { check := 6, status := stContract, sect := 0, record := 0, cue := 0, value := value }
  let c := s.dram.cfg
  firstOf ([need (decide (imgRate m = c.rate)) (f (imgRate m)), need (decide (imgRanks m = rankCount c.config)) (f (imgRanks m))]
    ++ (List.range 14).map (fun i => need (decide (imgTiming m i = nth 0 c.timing i)) (f (imgTiming m i))))

def check7 (m : Mem) : Option Fail :=
  need (decide (546133334 ≤ imgPMin m ∧ imgPMin m ≤ imgPMax m ∧ imgPMax m ≤ 13107200000 ∧ imgLMin m = pipeCycles (imgPMin m)))
    { check := 7, status := stContract, sect := 0, record := 0, cue := 0, value := imgLMin m }

/-! ## Check 8: form of the image (R48 to R57) -/

def fail8 (sect record cue value : Nat) : Fail :=
  { check := 8, status := stContract, sect := sect, record := record, cue := cue, value := value }

/-- `n` bytes from `o` on are 0. -/
def zeros (m : Mem) (o n : Nat) : Bool := decide (imgN m o n = 0)

/-- Do two spans meet? -/
def meet (a b : Sec) : Bool := decide (a.off < b.off + b.len ∧ b.off < a.off + a.len)

/-- LENGTH of a section of a kind agrees with its COUNT (R49). -/
def sizeOk (kind : Nat) (x : Sec) : Bool :=
  match kind with
  | 1 => decide (x.count = 1 ∧ x.len = 320)
  | 2 => decide (x.len = 16384 + 16 * x.count)
  | 3 => decide (x.len = 16 * x.count)
  | 7 => decide (1 ≤ x.count ∧ x.len = 8 * x.count)
  | _ => decide (4 * x.count ≤ x.len)

/-- The offset table of a section: multiples of 8 beyond the table, strictly ascending, inside the section. -/
def offsetsOk (m : Mem) (kind : Nat) : Bool :=
  let x := sec m kind
  let off (i : Nat) : Nat := imgN m (x.off + 4 * i) 4
  (List.range x.count).all (fun i => decide (off i % 8 = 0 ∧ 4 * x.count ≤ off i ∧ off i ≤ x.len)
    && (decide (i = 0) || decide (off (i - 1) < off i)))

def sectionsOk (m : Mem) : Option Fail :=
  let es := (List.range 8).map (secEntry m)
  firstOf
    [need (zeros m 55 9 && zeros m 92 4 && zeros m 112 16) (fail8 0 0 0 0),
     (placed es).findSome? (fun e => need (decide (1 ≤ e.2.1 ∧ e.2.1 ≤ 8 ∧ (es.map (·.1)).count e.2.1 = 1
       ∧ 256 ≤ e.2.2.off ∧ e.2.2.off + e.2.2.len ≤ imgLength m) && sizeOk e.2.1 e.2.2
       && (placed es).all (fun d => d.1 == e.1 || !meet d.2.2 e.2.2)) (fail8 e.2.1 0 0 e.2.2.len)),
     [4, 5, 6, 8].findSome? (fun k => need (offsetsOk m k) (fail8 k 0 0 0)),
     need (decide ((sec m 8).count = (sec m 5).count)) (fail8 8 0 0 (sec m 8).count)]

/-- Owner codes 0 to 8 (R31). -/
def ownersOk (m : Mem) : Option Fail :=
  (List.range 640).findSome? (fun i => need (decide (nibble m (sec m 1).off i ≤ 8)) (fail8 1 0 0 (nibble m (sec m 1).off i)))

def storePlanOk (m : Mem) : Option Fail :=
  let o := (sec m 2).off
  orFail
    ((List.range 4096).findSome? (fun i => need (zeros m (o + 4 * i + 1) 1 && decide (imgN m (o + 4 * i + 2) 2 ≤ 431
      ∧ (imgN m (o + 4 * i) 1 = 0xFF ∨ imgN m (o + 4 * i) 1 < poolCount m))) (fail8 2 i 0 (imgN m (o + 4 * i) 4))))
    ((List.range (poolCount m)).findSome? (fun i => need (zeros m (o + 16384 + 16 * i + 14) 2
      && decide ((pool m i).bar < 8 ∧ (pool m i).layer < 2)) (fail8 2 i 0 0)))

def windowsOk (m : Mem) : Option Fail :=
  (List.range (windowCount m)).findSome? (fun i =>
    let x := window m i
    need (decide ((x.kind = 1 ∨ x.kind = 2) ∧ x.refreshes ≤ 6 ∧ 1 ≤ x.period) && zeros m ((sec m 3).off + 16 * i + 14) 2)
      (fail8 3 i 0 x.kind))

/-- The encoding of one cue word (R52). -/
def cueOk (c : Cue) : Bool :=
  match c.kind with
  | 1 => decide (c.part ≤ 2 ∧ (c.layer = 1 ∨ c.part = 0) ∧ c.args % 32 = 0)
  | 2 => decide (c.args % 2 ^ 13 = 0)
  | 3 => decide (1 ≤ c.units ∧ c.units ≤ 6912 ∧ c.args % 16 = 0)
  | 4 => decide (1 ≤ c.units ∧ c.units ≤ 6912 ∧ c.args % 16 = 0)
  | 5 => decide (c.slot ≤ 23 ∧ c.args % 2 ^ 25 = 0)
  | 6 => decide (c.slot ≤ 23 ∧ c.args % 2 ^ 9 = 0)
  | 7 => decide (c.slot ≤ 23 ∧ c.args % 2 ^ 25 = 0)
  | _ => false

/-- Bars whose step list in some page program names a frame program. -/
def barsOf (m : Mem) (f : Nat) : List Nat := (List.range 8).filter (fun b => decide (f ∈ barPrograms m b))

/-- One frame program: legal encodings, contexts in use, ascending issue times, END inside the record and nothing after. -/
def frameOk (m : Mem) (f : Nat) : Option Fail :=
  let cues := frameCues m f
  let stop := recStart m 4 f + 8 * cues.length
  orFail
    ((placed cues).findSome? (fun x =>
      need (cueOk x.2 && (x.2.kind != 1 || (barsOf m f).all (fun b => ctxUsed m b x.2.layer x.2.context))
        && (x.1 == 0 || decide (issueAt m (nth x.2 cues (x.1 - 1)) ≤ issueAt m x.2)))
        (fail8 4 f x.1 (nth 0 (frameCueWords m f) x.1 % 2 ^ 32))))
    (need (decide (stop + 8 ≤ recEnd m 4 f) && zeros m stop (recEnd m 4 f - stop)) (fail8 4 f cues.length 0))

/-- One page program (R55). -/
def pageProgOk (m : Mem) (p : Nat) : Option Fail :=
  let o := recStart m 5 p
  let size := recEnd m 5 p - o
  let named (b : Nat) : Bool := bit (ppMask m p) b
  firstOf
    [need (decide (72 ≤ size) && zeros m (o + 5) 3) (fail8 5 p 0 0),
     need ((maskList (ppMask m p) 8).all (bit (imgBarMask m))) (fail8 5 p 0 (ppMask m p)),
     (List.range 8).findSome? (fun b => need (named b || (zeros m (o + 8 + 4 * b) 4 && zeros m (o + 40 + 4 * b) 4)) (fail8 5 p 0 b)),
     (ppBars m p).findSome? (fun b =>
       let at_ := ppStepOff m p b
       let steps := ppSteps m p b
       orFail (need (decide (at_ % 8 = 0 ∧ 72 ≤ at_ ∧ at_ + 8 * steps.length + 8 ≤ size)
           && zeros m (o + at_ + 8 * steps.length + 2) 6) (fail8 5 p 0 at_))
         ((placed steps).findSome? (fun x => need (decide (x.2.1 < (sec m 4).count) && zeros m (o + at_ + 8 * x.1 + 2) 2)
           (fail8 5 p 0 x.2.1))))]

/-- One gap program (R57). -/
def gapProgOk (m : Mem) (g : Nat) : Option Fail :=
  let o := recStart m 6 g
  let n := gpSrCount m g
  need (decide (8 + 16 * n ≤ recEnd m 6 g - o) && zeros m (o + 6) 2
    && (List.range n).all (fun i => zeros m (o + 9 + 16 * i) 3 && zeros m (o + 20 + 16 * i) 4 && decide ((gpSr m g i).1 < 16)))
    (fail8 6 g 0 n)

def sequenceOk (m : Mem) : Option Fail :=
  (List.range (seqCount m)).findSome? (fun i =>
    let e := seqEntry m i
    need (decide (e.1 < ppCount m ∧ e.2.1 < gpCount m ∧ (e.2.2 ≠ 0 ∨ i + 1 = seqCount m))) (fail8 7 i 0 e.1))

def budgetOk (m : Mem) : Option Fail :=
  (List.range (sec m 8).count).findSome? (fun p =>
    need (decide (16 * budgetCount m p ≤ recEnd m 8 p - recStart m 8 p)) (fail8 8 p 0 (budgetCount m p)))

def check8 (m : Mem) : Option Fail :=
  firstOf [sectionsOk m, ownersOk m, storePlanOk m, windowsOk m, (List.range (sec m 4).count).findSome? (frameOk m),
    (List.range (ppCount m)).findSome? (pageProgOk m), (List.range (gpCount m)).findSome? (gapProgOk m), sequenceOk m, budgetOk m]

/-! ## Check 9: the store plan (R50, R98, R290) -/

def check9 (s : State) (m : Mem) : Option Fail :=
  let cfg := s.dram.cfg.config
  let map := s.dram.cfg.map
  let pools := placed ((List.range (poolCount m)).map (pool m))
  let f (status i v : Nat) : Fail := { check := 9, status := status, sect := 2, record := i, cue := 0, value := v }
  firstOf
    [pools.findSome? (fun p => need (p.2.installed cfg map) (f stCapacity p.1 p.2.row)),
     pools.findSome? (fun p => need (decide (groupOwner m p.2.subch p.2.rank p.2.bg = p.2.bar)) (f stConflict p.1 p.2.bg)),
     s.store.areas.findSome? (fun a => (List.range a.units).findSome? (fun u =>
       (unitPages cfg map (a.handle + u)).findSome? (fun x =>
         pools.findSome? (fun p => need (!p.2.holds x) (f stConflict p.1 x.row)))))]

/-! ## The timeline: which frame programs play at which tick (R55, R56, R58) -/

/-- A page program laid at a web position. -/
structure Lay where
  m : Mem
  pp : Nat
  start : Nat

/-- A bar's play of a frame program at a tick: its frame index and its frame program. -/
structure Shot where
  bar : Nat
  m : Mem
  pp : Nat
  fi : Int
  f : Nat

/-- Web position of the timeline's first page. -/
def layStart : Nat := 131072

/-- Repeats of a sequence entry on the timeline: beyond these, with coarse offsets of at most 131,070 lines, plays repeat. -/
def layRepeats (m : Mem) (e : Nat × Nat × Nat) : Nat :=
  let k := 131080 / max 1 (ppLen m e.1 + gpLen m e.2.1) + 2
  if e.2.2 = 0 then k else min e.2.2 k

/-- Lay the repeats of one sequence entry from `at_` on. -/
def layEntry (m : Mem) (e : Nat × Nat × Nat) (at_ : Nat) : Nat × List Lay :=
  let step := ppLen m e.1 + gpLen m e.2.1
  let n := layRepeats m e
  (at_ + n * step, (List.range n).map (fun i => { m := m, pp := e.1, start := at_ + i * step }))

/-- The pages of an image's sequence. -/
def laySequence (m : Mem) : List Lay :=
  ((List.range (seqCount m)).foldl (fun (acc : Nat × List Lay) i =>
    let r := layEntry m (seqEntry m i) acc.1
    (r.1, acc.2 ++ r.2)) (layStart, [])).2

/-- FOLLOW: an old page program laid before the first page of the new image, with the new image's first gap between. -/
def layFollow (old m : Mem) (q : Nat) : List Lay :=
  let e := seqEntry m 0
  [{ m := old, pp := q, start := layStart }, { m := m, pp := e.1, start := layStart + ppLen old q + gpLen m e.2.1 }]

/-- What plays at tick w. -/
def shotsAt (lays : List Lay) (w : Nat) : List Shot :=
  lays.flatMap (fun l => (ppBars l.m l.pp).filterMap (fun b => (framePlayed l.m l.pp b l.start w).map (fun f =>
    { bar := b, m := l.m, pp := l.pp, fi := frameIndex l.m l.pp b l.start w, f := f })))

/-- The ticks at which something of a timeline may play. -/
def layTicks (lays : List Lay) : List Nat :=
  (List.range (maxOver (fun l => l.start + ppLen l.m l.pp + 131080) lays)).filter (fun w => shotsAt lays w |>.isEmpty |> not)

/-! ## Checks 10 and 11: runs (R29 to R32, R37) -/

/-- Image lines of page program p that bar b plays a frame program on, with a cue's LEAD: the plays whose line exists. -/
def linesOf (m : Mem) (p b f : Nat) (lead : Int) : List Nat :=
  (List.range (stepTotal (ppSteps m p b))).filterMap (fun (i : Nat) =>
    let n : Int := (i : Int) - 5 + lead
    if stepAt (ppSteps m p b) i = some f ∧ 0 ≤ n ∧ n < ppLen m p then some n.toNat else none)

/-- Tile row and row group of an image line of a bar. -/
def groupOf (m : Mem) (p b n : Nat) : Nat × Nat := (n / alongDiv m p b / 64, n / alongDiv m p b / 8 % 8)

/-- The rows of its frame that a run may read for one line: all it reserves, and of a base tile what lies within the group's count (R45,
R46, R53). -/
def runRows (m : Mem) (p b n : Nat) (c : Cue) : List Nat :=
  let g := groupOf m p b n
  let rows (base : Nat) (l : List Nat) : List Nat := l.map (fun i => (base + i) / 64)
  let all := (List.range c.bursts).map (fun i => c.first + i)
  if c.part = 1 then rows 256 all
  else if c.part = 2 then rows (288 + 4 * g.2) all
  else if c.layer = 1 then rows (32 * g.2) all
  else
    let x := budget m p b c.context g.1 g.2
    rows x.1 (all.filter (fun i => decide (i < x.2)))

/-- Does a window hold a slot of a sub-channel? -/
def Window.covers (x : Window) (h k : Nat) : Bool := bit x.subchMask h && decide (x.first ≤ k ∧ k < x.first + x.slots)

def windowsOf (m : Mem) : List Window := (List.range (windowCount m)).map (window m)

/-- The run cues of every bar and page program: page program, bar, frame program, place and cue. -/
def runsOf (m : Mem) : List (Nat × Nat × Nat × Nat × Cue) :=
  (ppBarPairs m).flatMap (fun x => (distinct ((ppSteps m x.1 x.2).map (·.1))).flatMap (fun f =>
    ((placed (frameCues m f)).filter (fun c => c.2.kind == 1)).map (fun c => (x.1, x.2, f, c.1, c.2))))

def fail10 (f i v : Nat) : Fail := { check := 10, status := stConflict, sect := 4, record := f, cue := i, value := v }

def check10 (m : Mem) : Option Fail :=
  (runsOf m).findSome? (fun x =>
    let (p, b, f, i, c) := x
    let q := pool m (ctxPool m b c.layer c.context)
    let fl (v : Nat) : Fail := fail10 f i v
    firstOf
      [c.slots.findSome? (fun k => need (decide (k < frameSlots m ∧ wheelOwner m q.subch k = b)
         && !(windowsOf m).any (fun w => w.covers q.subch k)) (fl k)),
       need (decide (groupOwner m q.subch q.rank q.bg = b)) (fl q.bg),
       (linesOf m p b f c.lead).findSome? (fun n =>
         let rows := runRows m p b n c
         need (rows.all (fun r => decide (some r = rows.head?))) (fl n))])

/-- A run on the timeline: its place, its activate and its reads. -/
structure RunAt where
  f : Nat
  cue : Nat
  q : Pool
  frame : Nat
  act : Nat
  actSlot : Nat
  reads : List Nat

def RunAt.last (r : RunAt) : Nat := r.reads.foldl max 0

/-- The run cues that play at tick w, with times at the proved period of image m. -/
def runsAt (m : Mem) (lays : List Lay) (w : Nat) : List RunAt :=
  (shotsAt lays w).flatMap (fun x => ((placed (frameCues x.m x.f)).filter (fun c => c.2.kind == 1)).map (fun c =>
    let at_ (k : Nat) : Nat := w * imgPMin m * nsU m + 65536 * slotU * k
    let lead := ceilDiv (imgTiming m 1 * clockU) slotU
    { f := x.f, cue := c.1, q := pool x.m (ctxPool x.m x.bar c.2.layer c.2.context), frame := w,
      act := at_ (c.2.time) - 65536 * slotU * lead, actSlot := c.2.time - lead, reads := c.2.slots.map at_ }))

def apartBy (a b d : Nat) : Bool := decide (a + d ≤ b ∨ b + d ≤ a)

/-- The constraints of R32 between two runs on one sub-channel. -/
def pairOk (m : Mem) (x y : RunAt) : Bool :=
  let t (i : Nat) : Nat := 65536 * clockU * imgTiming m i
  if x.q.subch ≠ y.q.subch then true
  else if x.q.rank ≠ y.q.rank then x.reads.all (fun r => decide (r ∉ y.reads))
  else
    let sameGroup := decide (x.q.bg = y.q.bg)
    let sameBank := sameGroup && decide (x.q.bank = y.q.bank)
    let closed := if x.act ≤ y.act then decide (x.last + t 10 + t 2 ≤ y.act) else decide (y.last + t 10 + t 2 ≤ x.act)
    (!sameBank || (apartBy x.act y.act (t 4) && closed))
      && apartBy x.act y.act (if sameGroup then t 6 else t 5)
      && !(decide (x.frame = y.frame ∧ x.actSlot = y.actSlot))
      && x.reads.all (fun r => y.reads.all (fun k => apartBy r k (if sameGroup then t 9 else t 8)))

/-- R32 within one run: its reads keep tCCD_L, and its activate follows the issue by 12.8 ns. -/
def runOk (m : Mem) (c : Cue) : Bool :=
  let lead := ceilDiv (imgTiming m 1 * clockU) slotU
  (decide (c.bursts = 1) || decide (imgTiming m 9 * clockU ≤ c.stride * slotU))
    && decide ((issueAt m c + 16) * (cycleU m : Int) ≤ ((c.time : Int) - lead) * slotU)

/-- At most four activates of a rank within any tFAW. -/
def fawOk (m : Mem) (runs : List RunAt) (x : RunAt) : Bool :=
  decide ((runs.filter (fun y => decide (y.q.subch = x.q.subch ∧ y.q.rank = x.q.rank ∧ x.act ≤ y.act
    ∧ y.act < x.act + 65536 * clockU * imgTiming m 7))).length ≤ 4)

/-- A run beside a device window of its rank: nothing of its bank activity falls into the window, and its last read before
the window leaves tRTP (R32, R37). -/
def windowApart (m : Mem) (x : Window) (q : Pool) (c : Cue) : Bool :=
  let lead := ceilDiv (imgTiming m 1 * clockU) slotU
  !(bit x.subchMask q.subch && (decide (x.kind = 2) || bit x.rankMask q.rank))
    || ((decide (c.time < x.first + lead) || decide (x.first + x.slots + lead ≤ c.time))
        && (decide (x.first ≤ c.lastSlot) || decide (c.lastSlot * slotU + imgTiming m 10 * clockU ≤ x.first * slotU))
        && (decide (c.lastSlot < x.first) || decide (x.first + x.slots ≤ c.time)))

def fail11 (f i v : Nat) : Fail := { check := 11, status := stConflict, sect := 4, record := f, cue := i, value := v }

/-- Timing between runs on one timeline: runs of one tick, and of a tick and the next. -/
def timelineOk (m : Mem) (lays : List Lay) : Option Fail :=
  (layTicks lays).findSome? (fun w =>
    let now := runsAt m lays w
    let both := now ++ runsAt m lays (w + 1)
    (placed now).findSome? (fun x => orFail
      (need (fawOk m both x.2) (fail11 x.2.f x.2.cue x.2.actSlot))
      ((both.drop (x.1 + 1)).findSome? (fun y => need (pairOk m x.2 y) (fail11 y.f y.cue y.actSlot)))))

/-- The run cues of a tail that still plays from the first tick of the new image on: frame program, place, cue and pool (R61). -/
def tailRuns (l : Lay) (from_ : Nat) : List (Nat × Nat × Cue × Pool) :=
  (ppBars l.m l.pp).flatMap (fun b =>
    (distinct (((placed ((ppSteps l.m l.pp b).flatMap (fun st => List.replicate st.2 st.1))).filter (fun x =>
      decide (from_ + 5 ≤ l.start + ppCFirst l.m l.pp b + x.1))).map (·.2))).flatMap (fun f =>
        ((placed (frameCues l.m f)).filter (fun c => c.2.kind == 1)).map (fun c =>
          (f, c.1, c.2, pool l.m (ctxPool l.m b c.2.layer c.2.context)))))

/-- With FOLLOW, a timeline whose first page is the old image's: the runs of its tail keep clear of the new image's device windows, which
apply from the boundary on (R37, R61). Check 10 tests their slots, check 11 their bank timing. -/
def tailClear (m : Mem) (ok : Window → Pool → Cue → Bool) (fl : Nat → Nat → Nat → Fail) : List Lay → Option Fail
  | old :: new :: _ => (tailRuns old new.start).findSome? (fun x =>
      need ((windowsOf m).all (fun w => ok w x.2.2.2 x.2.2.1)) (fl x.1 x.2.1 x.2.2.1.time))
  | _ => none

def check10Follow (m : Mem) (follow : List (List Lay)) : Option Fail :=
  follow.findSome? (tailClear m (fun w q c => c.slots.all (fun k => !w.covers q.subch k)) fail10)

def check11 (m : Mem) (lines follow : List (List Lay)) : Option Fail :=
  orFail
    ((runsOf m).findSome? (fun x =>
      let (_, b, f, i, c) := x
      let q := pool m (ctxPool m b c.layer c.context)
      need (runOk m c && (windowsOf m).all (fun w => windowApart m w q c)) (fail11 f i c.time)))
    (orFail (follow.findSome? (tailClear m (windowApart m) fail11)) (lines.findSome? (timelineOk m)))

/-! ## Checks 12 and 13: units and deadlines (R27, R39 to R43, R53, R54) -/

/-- PIPE cycles for which a cue occupies its unit. -/
def Cue.cycles (s : State) (b : Nat) (c : Cue) : Nat :=
  match c.kind with
  | 2 => 32 * c.contexts.length
  | 3 => c.units
  | 4 => c.units
  | 5 => ceilDiv (s.nozzles b c.slot) 16
  | 6 => 8 * ceilDiv c.blocks 4
  | 7 => 8
  | _ => 0

/-- The unit a cue occupies; SEND and ENERGY share the lane group. -/
def Cue.unitOf (c : Cue) : Nat := if c.kind = 7 then 6 else c.kind

/-- The cues other than RUN that bar b plays at a tick, with frame program and place. -/
def unitCues (shots : List Shot) (b : Nat) : List (Nat × Nat × Cue) :=
  (shots.filter (fun x => x.bar == b)).flatMap (fun x => ((placed (frameCues x.m x.f)).filter (fun c => c.2.kind != 1)).map
    (fun c => (x.f, c.1, c.2)))

def fail12 (f i v : Nat) : Fail := { check := 12, status := stConflict, sect := 4, record := f, cue := i, value := v }

/-- No two cues of one unit overlap in a tick. -/
def unitsApart (s : State) (b : Nat) (cues : List (Nat × Nat × Cue)) : Option Fail :=
  (placed cues).findSome? (fun x => (cues.drop (x.1 + 1)).findSome? (fun y =>
    let c := x.2.2.2
    let d := y.2.2
    need (decide (c.unitOf ≠ d.unitOf) || decide (c.time + c.cycles s b ≤ d.time ∨ d.time + d.cycles s b ≤ c.time))
      (fail12 y.1 y.2.1 d.time)))

/-- SEND and ENERGY begin at a block time outside the link reserve (R39, R40). -/
def linkTimeOk (c : Cue) : Bool := decide (c.kind < 6) || decide (c.time % 8 = 0 ∧ 64 ≤ c.time)

def cuesOfBar (m : Mem) : List (Nat × Nat × Nat × Cue) :=
  (List.range 8).flatMap (fun b => (distinct (barPrograms m b)).flatMap (fun f =>
    (placed (frameCues m f)).map (fun c => (b, f, c.1, c.2))))

def check12 (s : State) (m : Mem) (lines : List (List Lay)) : Option Fail :=
  orFail
    ((cuesOfBar m).findSome? (fun x => need (linkTimeOk x.2.2.2) (fail12 x.2.1 x.2.2.1 x.2.2.2.time)))
    (lines.findSome? (fun lays => (layTicks lays).findSome? (fun w =>
      (List.range 8).findSome? (fun b => unitsApart s b (unitCues (shotsAt lays w) b)))))

/-- The offset at which a cue's results are complete. -/
def resultAt (s : State) (m : Mem) (b : Nat) (c : Cue) : Nat :=
  let e := c.time + c.cycles s b - 1
  match c.kind with
  | 1 => ceilDiv (c.lastSlot * slotU + imgTiming m 0 * clockU + 30 * nsU m) (cycleU m)
  | 2 => e + 20
  | 3 => e + 24
  | 4 => e + 12
  | 5 => e + 28
  | _ => e + 40

/-- The greatest offset at which the occupancy of a line's last block may end (R41). -/
def linkDeadline (m : Mem) (b : Nat) : Int := (imgLMin m : Int) - 2 - 40 - ceilDiv (imgFlight m b) 800 - 256

/-- d(s) of R44. -/
def slotDelay (s : State) (b sl : Nat) : Nat := s.coarse b sl - coarseMin s b

/-- A SEND that carries the last block of its slot line. -/
def carriesLast (s : State) (b : Nat) (c : Cue) : Bool :=
  decide (c.kind = 6 ∧ blocksOf (s.nozzles b c.slot) ≤ c.block + c.blocks)

def linkSlack (s : State) (m : Mem) (b : Nat) (c : Cue) : Int := linkDeadline m b - ((c.time + c.cycles s b - 1 : Nat) : Int)

def fail13 (f i v : Nat) : Fail := { check := 13, status := stDeadline, sect := 4, record := f, cue := i, value := v }

/-- Columns of a fitted slot: from F(s) on, N of them. -/
def slotColumns (s : State) (b sl : Nat) : Nat × Nat := ((s.slotDesc b sl).f, s.nozzles b sl)

/-- Does a 16-column unit hold a column of a slot? -/
def unitInSlot (s : State) (b sl u : Nat) : Bool :=
  let x := slotColumns s b sl
  decide (x.1 < 16 * u + 16 ∧ 16 * u < x.1 + x.2)

/-- Does a TONE or SCREEN cue cover a column of a slot? -/
def Cue.meets (c : Cue) (s : State) (b sl : Nat) : Bool :=
  let x := slotColumns s b sl
  decide (x.1 < 16 * (c.unit + c.units) ∧ 16 * c.unit < x.1 + x.2)

/-- The orders of R43 between the cues of one shot. -/
def orderOk (s : State) (x : Shot) : Option Fail :=
  let cues := frameCues x.m x.f
  let line (c : Cue) : Int := x.fi + c.lead
  let inPage (c : Cue) : Bool := decide (0 ≤ line c ∧ line c < ppLen x.m x.pp)
  let g (c : Cue) : Nat × Nat := groupOf x.m x.pp x.bar (line c).toNat
  (placed cues).findSome? (fun d =>
    if d.2.kind = 2 ∧ inPage d.2 then
      need ((cues.filter (fun r => decide (r.kind = 1 ∧ r.layer = d.2.layer ∧ r.context ∈ d.2.contexts) && inPage r
        && decide (g r = g d.2))).all (fun r =>
          decide (r.lastSlot * slotU + imgTiming x.m 0 * clockU + 30 * nsU x.m ≤ d.2.time * cycleU x.m)))
        (fail13 x.f d.1 d.2.time)
    else if d.2.kind = 5 then
      need ((cues.filter (fun r => decide (r.kind = 4 ∧ r.lead = d.2.lead) && r.meets s x.bar d.2.slot)).all (fun r =>
        decide (resultAt s x.m x.bar r ≤ d.2.time))) (fail13 x.f d.1 d.2.time)
    else none)

/-- The frames of each page program and bar, as shots: one for each tick its play lasts. -/
def playShots (m : Mem) (p b : Nat) : List Shot :=
  (placed ((ppSteps m p b).flatMap (fun st => List.replicate st.2 st.1))).map (fun x =>
    { bar := b, m := m, pp := p, fi := (x.1 : Int) - 5, f := x.2 })

def check13 (s : State) (m : Mem) : Option Fail :=
  orFail
    ((cuesOfBar m).findSome? (fun x =>
      let (b, f, i, c) := x
      need (decide (0 ≤ issueAt m c ∧ issueAt m c ≤ (imgLMin m : Int) - 3 ∧ resultAt s m b c + 2 ≤ imgLMin m)
        && (!carriesLast s b c || (decide (c.lead + (slotDelay s b c.slot : Int) = 1) && decide (0 ≤ linkSlack s m b c))))
        (fail13 f i c.time)))
    ((ppBarPairs m).findSome? (fun x => (playShots m x.1 x.2).findSome? (orderOk s)))

/-! ## Check 14: each piece of work exactly once (R42, R44, R55, R56) -/

def missing (sect record cue value : Nat) : Fail :=
  { check := 14, status := stDeadline, sect := sect, record := record, cue := cue, value := value }

def duplicate (sect record cue value : Nat) : Fail := { missing sect record cue value with status := stConflict }

/-- Exactly `want` of something. -/
def exactly (got want sect record cue value : Nat) : Option Fail :=
  if got < want then some (missing sect record cue value)
  else if want < got then some (duplicate sect record cue value) else none

/-- Does a context hold contone of a slot: does its tile column meet the slot's columns (R44, R85)? The image does not state for which
ACROSS it is laid out (R133), so a tile column counts at either (log 85). -/
def ctxMeets (s : State) (m : Mem) (b layer c sl : Nat) : Bool :=
  let x := slotColumns s b sl
  let col := ctxTileCol m b layer c
  ctxUsed m b layer c && [256, 512].any (fun w => decide (x.1 < w * col + w ∧ w * col < x.1 + x.2))

/-- Is a cue surplus work: its LEAD serves no fitted slot that it covers (R44)? -/
def surplus (s : State) (m : Mem) (b : Nat) (c : Cue) : Bool :=
  let lead (j : Int) (sl : Nat) : Bool := decide (c.lead = j - (slotDelay s b sl : Int))
  match c.kind with
  | 1 => !(s.fittedSlots b).any (fun sl => lead 5 sl && ctxMeets s m b c.layer c.context sl)
  | 2 => !(s.fittedSlots b).any (fun sl => lead 5 sl && c.contexts.any (fun x => ctxMeets s m b c.layer x sl))
  | 3 => !(s.fittedSlots b).any (fun sl => lead 4 sl && c.meets s b sl)
  | 4 => !(s.fittedSlots b).any (fun sl => lead 3 sl && c.meets s b sl)
  | 5 => !(s.fitted b c.slot && lead 3 c.slot)
  | 6 => !(s.fitted b c.slot && (lead 1 c.slot || lead 2 c.slot))
  | 7 => !(s.fitted b c.slot && (lead 1 c.slot || lead 2 c.slot))
  | _ => false

/-- The frame program of a bar's play at frame index `fi` of a page program, as its cues of a kind and LEAD. -/
def cuesAt (m : Mem) (p b kind : Nat) (fi lead : Int) : List Cue :=
  if fi + 5 < 0 then []
  else match stepAt (ppSteps m p b) (fi + 5).toNat with
    | none => []
    | some f => (frameCues m f).filter (fun c => decide (c.kind = kind ∧ c.lead = lead))

/-- Delays of the fitted slots of a bar, each once. -/
def delaysOf (s : State) (b : Nat) : List Nat := distinct ((s.fittedSlots b).map (slotDelay s b))

/-- Units that the columns of a bar may lie in. -/
def barUnits (s : State) (b : Nat) : Nat := maxOver (fun sl => ceilDiv ((slotColumns s b sl).1 + (slotColumns s b sl).2) 16) (s.fittedSlots b)

/-- TONE (j = 4) and SCREEN (j = 3) of one line for the slots with delay d: each unit once for each of them. -/
def passesOk (s : State) (m : Mem) (p b kind : Nat) (j : Int) (n d : Nat) : Option Fail :=
  let cues := cuesAt m p b kind (n + d - j) (j - d)
  (List.range (max (barUnits s b) (maxOver (fun c => c.unit + c.units) cues))).findSome? (fun u =>
    exactly (cues.filter (fun c => decide (c.unit ≤ u ∧ u < c.unit + c.units))).length
      ((s.fittedSlots b).filter (fun sl => decide (slotDelay s b sl = d) && unitInSlot s b sl u)).length 5 p kind n)

/-- Delays of the fitted slots whose columns a context holds (R44). -/
def ctxDelays (s : State) (m : Mem) (b layer c : Nat) : List Nat :=
  distinct (((s.fittedSlots b).filter (ctxMeets s m b layer c)).map (slotDelay s b))

/-- DECODE of one line: in the frame of one of the slots that a context in use serves, once at the first line of the contone row, and never
at another line of it. -/
def decodesOk (s : State) (m : Mem) (p b n : Nat) : Option Fail :=
  [0, 1].findSome? (fun layer => (ctxList m b layer).findSome? (fun c =>
    let got := (ctxDelays s m b layer c).foldl (fun k (d : Nat) => k + ((cuesAt m p b 2 (n + d - 5) (5 - d)).filter
      (fun x => decide (x.layer = layer ∧ c ∈ x.contexts))).length) 0
    exactly got (if n % alongDiv m p b = 0 then 1 else 0) 5 p 2 n))

/-- MAP, SEND and ENERGY of one slot line. -/
def slotLineOk (s : State) (m : Mem) (p b n sl : Nat) : Option Fail :=
  let d := slotDelay s b sl
  let of (kind : Nat) (j : Int) : List Cue := (cuesAt m p b kind (n + d - j) (j - d)).filter (fun c => c.slot == sl)
  let sends := of 6 2 ++ of 6 1
  let blocks := blocksOf (s.nozzles b sl)
  firstOf
    [exactly (of 5 3).length 1 5 p 5 n,
     (List.range (max blocks (maxOver (fun c => c.block + c.blocks) sends))).findSome? (fun k =>
       exactly (sends.filter (fun c => decide (c.block ≤ k ∧ k < c.block + c.blocks))).length (if k < blocks then 1 else 0) 5 p 6 n),
     exactly (of 7 2 ++ of 7 1).length (if n % 64 = 0 then 1 else 0) 5 p 7 n]

def coverageOk (s : State) (m : Mem) (p b : Nat) : Option Fail :=
  (List.range (ppLen m p)).findSome? (fun n => firstOf
    [decodesOk s m p b n,
     (delaysOf s b).findSome? (fun d => orFail (passesOk s m p b 3 4 n d) (passesOk s m p b 4 3 n d)),
     (s.fittedSlots b).findSome? (slotLineOk s m p b n)])

/-- The pages and gaps that follow each other in the sequence keep R56. -/
def overlapOk (m : Mem) : Option Fail :=
  (List.range (seqCount m)).findSome? (fun i =>
    let e := seqEntry m i
    (ppBars m e.1).findSome? (fun b =>
      need (decide (ppCSpan m e.1 b + 5 ≤ ppLen m e.1 + gpLen m e.2.1)) (duplicate 7 i 0 (ppLen m e.1 + gpLen m e.2.1))))

def check14 (s : State) (m : Mem) : Option Fail :=
  firstOf
    [(cuesOfBar m).findSome? (fun x => need (!surplus s m x.1 x.2.2.2) (duplicate 4 x.2.1 x.2.2.1 0)),
     (ppBarPairs m).findSome? (fun x =>
       exactly (stepTotal (ppSteps m x.1 x.2)) (ppLen m x.1 + ppCSpan m x.1 x.2 + 4) 5 x.1 0 (stepTotal (ppSteps m x.1 x.2))),
     overlapOk m,
     (ppBarPairs m).findSome? (fun x => coverageOk s m x.1 x.2)]

/-! ## Check 15: capacities (R34, R46, R59) -/

def fail15 (sect record cue value : Nat) : Fail :=
  { check := 15, status := stCapacity, sect := sect, record := record, cue := cue, value := value }

/-- Does bar b play frame program f so that a cue with a LEAD acts on image line k? -/
def actsOn (m : Mem) (p b f : Nat) (lead : Int) (k : Nat) : Bool :=
  let i : Int := (k : Int) + 5 - lead
  decide (0 ≤ i ∧ stepAt (ppSteps m p b) i.toNat = some f)

/-- Bursts of one part of a context's tile that the RUN cues acting on image line k reserve. -/
def reservedBursts (m : Mem) (p b layer c part k : Nat) : List Nat :=
  (runsOf m).flatMap (fun x =>
    let (p', b', f, _, r) := x
    if p' = p ∧ b' = b ∧ r.layer = layer ∧ r.context = c ∧ r.part = part ∧ actsOn m p b f r.lead k then
      (List.range r.bursts).map (fun i => r.first + i) else [])

/-- Parts and burst counts that a row group must have reserved: the budget of a base group, the whole reservation of a variable
one (R46). -/
def wantedBursts (m : Mem) (p b layer c row g : Nat) : List (Nat × Nat) :=
  if layer = 0 then [(0, (budget m p b c row g).2)] else if g = 0 then [(1, 1), (0, 32), (2, 4)] else [(0, 32), (2, 4)]

/-- Every row group that a page reaches is reserved in the frame that fetches it, that of its first line (R20). -/
def reservationOk (m : Mem) (p b : Nat) : Option Fail :=
  [0, 1].findSome? (fun layer => (ctxList m b layer).findSome? (fun c => (List.range (tileRows m p b)).findSome? (fun row =>
    (List.range 8).findSome? (fun g =>
      let k := (64 * row + 8 * g) * alongDiv m p b
      if ppLen m p ≤ k then none
      else (wantedBursts m p b layer c row g).findSome? (fun w =>
        need (decide (w.2 = 0) || (let got := reservedBursts m p b layer c w.1 k
          (List.range w.2).all (fun i => decide (i ∈ got)))) (fail15 8 p c w.2))))))

/-- The sums of occupancy of a bar's units in a tick are at most L_min - 2. -/
def sumsOk (s : State) (m : Mem) (lays : List Lay) (w b : Nat) : Option Fail :=
  let cues := unitCues (shotsAt lays w) b
  [2, 3, 4, 5, 6].findSome? (fun u =>
    let n := (cues.filter (fun c => decide (c.2.2.unitOf = u))).foldl (fun n c => n + c.2.2.cycles s b) 0
    need (decide (n + 2 ≤ imgLMin m)) (fail15 4 ((cues.head?.map (·.1)).getD 0) u n))

/-- Slots of a sub-channel that are the dynamic share's own (R34). -/
def dynamicSlots (m : Mem) (h : Nat) : Nat :=
  ((List.range (frameSlots m)).filter (fun k => decide (wheelOwner m h k = 8) && !(windowsOf m).any (fun w => w.covers h k))).length

def check15 (s : State) (m : Mem) (lines : List (List Lay)) : Option Fail :=
  firstOf
    [(ppBarPairs m).findSome? (fun x => reservationOk m x.1 x.2),
     lines.findSome? (fun lays => (layTicks lays).findSome? (fun w => (List.range 8).findSome? (sumsOk s m lays w))),
     (List.range 8).findSome? (fun h => need (decide (frameSlots m ≤ 5 * dynamicSlots m h)) (fail15 1 h 0 (dynamicSlots m h)))]

/-! ## Check 16: refresh, windows and self-refresh (R35 to R38, R494) -/

def fail16 (sect record value : Nat) : Fail :=
  { check := 16, status := stRefresh, sect := sect, record := record, cue := 0, value := value }

/-- Windows whose masks name a rank of a sub-channel, or for RETRAIN its channel, with their records. -/
def rankWindows (m : Mem) (h r : Nat) : List (Nat × Window) :=
  (placed (windowsOf m)).filter (fun x => if x.2.kind = 2 then bit x.2.subchMask (h / 2 * 2) || bit x.2.subchMask (h / 2 * 2 + 1)
    else bit x.2.subchMask h && bit x.2.rankMask r)

/-- The joint cycle of a rank in frames. -/
def jointCycle (m : Mem) (h r : Nat) : Nat := (rankWindows m h r).foldl (fun n x => Nat.lcm n x.2.period) 1

/-- A window into a list of windows in slot order. -/
def insertWindow (x : Nat × Window) : List (Nat × Window) → List (Nat × Window)
  | [] => [x]
  | y :: l => if x.2.first ≤ y.2.first then x :: y :: l else y :: insertWindow x l

/-- The windows of a rank that apply in the frame at web position w, in slot order. -/
def windowsIn (m : Mem) (h r w : Nat) : List (Nat × Window) :=
  ((rankWindows m h r).filter (fun x => x.2.applies w)).foldr insertWindow []

/-- A rank's debt in 1/65,536 of 1/10,000 DRAM clock, where one refresh is `one`, at an instant of the cycle; `most` is the
greatest so far. -/
structure Debt where
  debt : Nat
  at_ : Nat
  most : Nat

/-- Debt accrues to an instant. -/
def Debt.upTo (d : Debt) (t : Nat) : Debt :=
  let x := d.debt + (t - d.at_)
  { debt := x, at_ := max d.at_ t, most := max d.most x }

/-- Refreshes issued at a window: what is owed, rounded up, up to the count (R35). -/
def issued (debt one count : Nat) : Nat := min (ceilDiv debt one) count

/-- A frame of the cycle at period p. -/
def debtFrame (m : Mem) (h r p w : Nat) (d : Debt) : Debt :=
  let one := 65536 * clockU * imgTiming m 12
  let start := w * p * nsU m
  (windowsIn m h r w).foldl (fun d x =>
    let d := d.upTo (start + 65536 * slotU * x.2.first)
    if x.2.kind = 1 then { d with debt := d.debt - one * issued d.debt one x.2.refreshes } else d) d

/-- One joint cycle from a debt at its beginning: the debt at its end and the greatest on the way. -/
def debtCycle (m : Mem) (h r p start : Nat) : Debt :=
  let n := jointCycle m h r
  ((List.range n).foldl (fun d w => debtFrame m h r p w d) { debt := start, at_ := 0, most := start }).upTo (n * p * nsU m)

/-- Repeat the cycle until the debt at its beginning no longer grows or the limit of 8 is passed. -/
def debtSteady (m : Mem) (h r p : Nat) : Nat → Nat → Debt
  | 0, start => debtCycle m h r p start
  | n + 1, start =>
    let d := debtCycle m h r p start
    if d.debt ≤ start ∨ 8 * (65536 * clockU * imgTiming m 12) < d.most then d else debtSteady m h r p n d.debt

def debtOf (m : Mem) (h r p : Nat) : Debt := debtSteady m h r p (8 * 65536 * clockU * imgTiming m 12 + 1) 0

/-- Debt at the beginning of each frame of the cycle. -/
def debtsAtTicks (m : Mem) (h r p : Nat) : List Nat :=
  let start := (debtOf m h r p).debt
  ((List.range (jointCycle m h r)).foldl (fun (acc : Debt × List Nat) w =>
    let d := acc.1.upTo (w * p * nsU m)
    (debtFrame m h r p w d, acc.2 ++ [d.debt])) ({ debt := start, at_ := 0, most := start }, [])).2

/-- Starts of the RETRAIN windows of a channel over one joint cycle, from P_MAX. -/
def retrainStarts (m : Mem) (c : Nat) : List Nat :=
  (List.range (jointCycle m (2 * c) 0)).flatMap (fun w => ((windowsIn m (2 * c) 0 w).filter (fun x => x.2.kind == 2)).map
    (fun x => w * imgPMax m * nsU m + 65536 * slotU * x.2.first))

/-- RETRAIN of a channel comes at least once per 100 ms (R36). -/
def retrainOk (m : Mem) (c : Nat) : Bool :=
  let l := retrainStarts m c
  let cycle := jointCycle m (2 * c) 0 * imgPMax m * nsU m
  match l with
  | [] => false
  | x :: rest => (List.zip l (rest ++ [x + cycle])).all (fun y => decide (y.2 - y.1 ≤ 100000000 * 65536 * nsU m))

/-- Length and count of one window, and the channel of a RETRAIN window (R27, R35, R36). -/
def windowOk (m : Mem) (x : Window) : Bool :=
  decide (1 ≤ x.slots ∧ x.first + x.slots ≤ frameSlots m ∧ x.slots * slotU ≤ 1000 * nsU m)
    && (if x.kind = 1 then decide ((x.refreshes * imgTiming m 11 + imgTiming m 2) * clockU ≤ x.slots * slotU)
        else decide (x.subchMask ∈ [3, 12, 48, 192]))

/-- Gaps with SR windows on a timeline: first tick of the gap and gap program. -/
def srGaps (m : Mem) : List (Nat × Nat) :=
  ((List.range (seqCount m)).foldl (fun (acc : Nat × List (Nat × Nat)) i =>
    let e := seqEntry m i
    let step := ppLen m e.1 + gpLen m e.2.1
    let n := layRepeats m e
    (acc.1 + n * step, acc.2 ++ (if gpSrCount m e.2.1 = 0 then []
      else (List.range n).map (fun k => (acc.1 + k * step + ppLen m e.1, e.2.1))))) (layStart, [])).2

/-- Runs of a tick on the channels of a mask. -/
def runsOnChannels (lays : List Lay) (w mask : Nat) : List Nat :=
  (shotsAt lays w).flatMap (fun x => ((frameCues x.m x.f).filter (fun c => decide (c.kind = 1)
    && bit mask ((pool x.m (ctxPool x.m x.bar c.layer c.context)).subch / 2))).map (·.time))

/-- One SR window of a gap that begins at web position g (R38, R57). -/
def srOk (m : Mem) (lays : List Lay) (g gap i : Nat) : Bool :=
  let (mask, entry, exit) := gpSr m gap i
  decide (entry + 2 ≤ exit ∧ exit ≤ gpLen m gap)
    && (List.range (exit - entry)).all (fun k => (runsOnChannels lays (g + entry + k) mask).isEmpty)
    && (runsOnChannels lays (g + exit) mask).all (fun k =>
      decide (imgTiming m 13 * clockU + 20 * nsU m ≤ k * slotU))
    && (maskList mask 4).all (fun c => [2 * c, 2 * c + 1].all (fun h => (List.range (imgRanks m)).all (fun r =>
      [imgPMin m, imgPMax m].all (fun p => (debtsAtTicks m h r p).all (fun d => decide (d < 65536 * clockU * imgTiming m 12))))))

def ranksOf (m : Mem) : List (Nat × Nat) := (List.range 8).flatMap (fun h => (List.range (imgRanks m)).map (fun r => (h, r)))

/-- The record of the window with the longest period on a rank. -/
def longestWindow (m : Mem) (h r : Nat) : Nat :=
  ((rankWindows m h r).foldl (fun (acc : Nat × Nat) x => if acc.1 < x.2.period then (x.2.period, x.1) else acc) (0, 0)).2

def check16 (m : Mem) : Option Fail :=
  firstOf
    [(placed (windowsOf m)).findSome? (fun x => need (windowOk m x.2) (fail16 3 x.1 x.2.slots)),
     (ranksOf m).findSome? (fun x => need (decide (jointCycle m x.1 x.2 ≤ 1048576))
       (fail16 3 (longestWindow m x.1 x.2) (sat 4 (jointCycle m x.1 x.2)))),
     (ranksOf m).findSome? (fun x => [imgPMin m, imgPMax m].findSome? (fun p =>
       let d := (debtOf m x.1 x.2 p).most
       need (decide (d ≤ 8 * (65536 * clockU * imgTiming m 12))) (fail16 3 (longestWindow m x.1 x.2) (d / (65536 * clockU * max 1 (imgTiming m 12)))))),
     (List.range 4).findSome? (fun c => need (retrainOk m c) (fail16 3 c (retrainStarts m c).length)),
     (srGaps m).findSome? (fun g => (List.range (gpSrCount m g.2)).findSome? (fun i =>
       need (srOk m (laySequence m) g.1 g.2 i) (fail16 6 g.2 i)))]

/-- With FOLLOW, the tail of the old image's page against the SR windows of the gap that follows the new image's first page (R38, R61);
those of the gap before it are the old image's own. -/
def check16Follow (m : Mem) (follow : List (List Lay)) : Option Fail :=
  follow.findSome? (fun lays => match lays with
    | _ :: new :: _ =>
      let gap := (seqEntry m 0).2.1
      (List.range (gpSrCount m gap)).findSome? (fun i =>
        need (srOk m lays (new.start + ppLen m new.pp) gap i) (fail16 6 gap i))
    | _ => none)

/-! ## SCHED_CHECK as a whole (R61) -/

/-- The timelines to check: the image's own sequence, and with FOLLOW each page program of the active image before its head. -/
def follows (m : Mem) (old : Option Mem) : List (List Lay) :=
  match old with
  | none => []
  | some o => (List.range (ppCount o)).map (layFollow o m)

def timelines (m : Mem) (old : Option Mem) : List (List Lay) := laySequence m :: follows m old

/-- Checks 5 to 16 in order. -/
def schedFailure (s : State) (m : Mem) (old : Option Mem) : Option Fail :=
  let lines := timelines m old
  let tails := follows m old
  firstOf [check5 s m, check6 s m, check7 m, check8 m, check9 s m, check10 m, check10Follow m tails, check11 m lines tails,
    check12 s m lines, check13 s m, check14 s m, check15 s m lines, check16 m, check16Follow m tails]

def minOver (l : List Nat) (top : Nat) : Nat := l.foldl min top

/-- The result of a check without failure. The dynamic share and the debt are rounded to the nearest unit. -/
def schedResult (s : State) (m : Mem) : List Byte :=
  let share := minOver ((List.range 8).map (fun h => roundDivNat (dynamicSlots m h * 10000) (max 1 (frameSlots m)))) 10000
  let slack := minOver (((cuesOfBar m).filter (fun x => carriesLast s x.1 x.2.2.2)).map (fun x =>
    (linkSlack s m x.1 x.2.2.2).toNat)) 0xFFFFFFFF
  let debt := maxOver (fun x => max (debtOf m x.1 x.2 (imgPMin m)).most (debtOf m x.1 x.2 (imgPMax m)).most) (ranksOf m)
  leBytes 8 (imgId m) ++ leBytes 2 share ++ leBytes 4 slack
    ++ leBytes 2 (roundDivNat (16 * debt) (max 1 (65536 * clockU * imgTiming m 12)))

end Sys2Proof.Machine
end

