-- ==== Sys2Proof/Machine/Sched.lean ====
section
/-! DEFINITION. Machine/Sched.lean: SCHED_LOAD, SCHED_CHECK and SCHED_ACTIVATE (R60 to R65, R89, R193). -/

namespace Sys2Proof.Machine

open Sys2Proof

/-- The bank that is loaded and checked. -/
def State.spare (s : State) : Nat := 1 - s.run.active

def State.withSchedOp (s : State) (o : Option SchedOp) : State := s.withRun { s.run with schedOp := o }

/-! ## SCHED_LOAD (R60) -/

/-- BUSY while a check or a load runs on the bank and while its last image still plays. A SCHED_ACTIVATE that is accepted and waits for
its boundary holds the bank as well, which R60 does not say: DESIGN CHOICE (log 85). -/
def loadBegin (h : Hdr) (addr length : Nat) (s : State) : State :=
  if s.run.schedOp.isSome ∨ s.run.oldBankBusy ∨ s.run.activation.isSome then s.finishLong h.ring h.tag (refuse stBusy)
  else
    let k := s.bank s.spare
    let s := s.withBank s.spare { k with loaded := false, checked := false }
    let x : SchedOp := { ring := h.ring, tag := h.tag, check := false, addr := addr, length := length, follow := false
                         wasLoaded := k.loaded, wasChecked := k.checked }
    s.withSchedOp (some x)

/-- SCHED_LOAD (R60): any write into a bank clears its checked state. -/
def execSchedLoad (h : Hdr) (addr length : Nat) (s : State) : Result :=
  .next (hostLong (.schedLoad (unstarted h) addr length) h (cmdOf 0x0040 0) (loadBegin h addr length) s)

/-- The image has arrived: checks 1 to 4. A bank holds 2,097,152 bytes, and what a longer transfer brings beyond them is not kept. -/
def loadFinish (o : SchedOp) (s : State) : State :=
  let s := s.withSchedOp none
  match s.dmaBad o.addr o.length with
  | some a => (s.dmaFault a).finishLong o.ring o.tag (refuse stDataUe)
  | none =>
    let bytes := s.dmaRead o.addr o.length
    let m := mwrite zeroByte [] 0 (bytes.take 2097152)
    let bad := loadCheck m bytes
    let s := s.withBank s.spare { Bank.reset with image := m, length := min o.length 2097152, loaded := bad.isNone }
    s.finishLong o.ring o.tag (refuse (bad.getD stOk))

/-- SCHED_LOAD_DONE (R60, R62). -/
def execSchedLoadDone (o : OpRef) (s : State) : Result :=
  .next (withOp o 0x0040 (fun s =>
    match s.run.schedOp with
    | some x => if x.check then s else loadFinish x s
    | none => s) s)

/-! ## SCHED_CHECK (R61) -/

/-- A tail of the image that this bank held before, which may still play, does not keep a check from starting: R60 has BUSY for
SCHED_LOAD alone, and R61 none (DESIGN CHOICE, log 85). -/
def checkBegin (h : Hdr) (flags : Nat) (s : State) : State :=
  if 2 ≤ flags then s.finishLong h.ring h.tag (refuse stBadParam)
  else if s.run.schedOp.isSome then s.finishLong h.ring h.tag (refuse stBusy)
  else if !(s.bank s.spare).loaded then s.finishLong h.ring h.tag (refuse stWrongState)
  else match s.firstUnread (imgBarMask (s.bank s.spare).image) with
    | some (b, sl) => s.finishLong h.ring h.tag (answer stWrongState (leBytes 1 b ++ leBytes 1 sl))
    | none =>
      let x : SchedOp := { ring := h.ring, tag := h.tag, check := true, addr := 0, length := 0, follow := bit flags 0
                           wasLoaded := true, wasChecked := false }
      s.withSchedOp (some x)

/-- SCHED_CHECK (R61). -/
def execSchedCheck (h : Hdr) (flags : Nat) (s : State) : Result :=
  .next (hostLong (.schedCheck (unstarted h) flags) h (cmdOf 0x0041 0) (checkBegin h flags) s)

/-- N of every fitted slot of an image's bars, by slot index. -/
def slotCounts (s : State) (m : Mem) : Tab Nat :=
  (maskList (imgBarMask m) 8).foldl (fun t b => (s.fittedSlots b).foldl (fun t sl => nput t (slotIx b sl) (s.nozzles b sl)) t) []

def pressDigest (s : State) : Nat :=
  match s.press with
  | none => 0
  | some p => p.digest

/-- Checks 5 to 16 have run. -/
def checkFinish (o : SchedOp) (s : State) : State :=
  let s := s.withSchedOp none
  let x := s.bank s.spare
  match schedFailure s x.image (if o.follow then some s.activeImage else none) with
  | some f => (s.withBank s.spare { x with checked := false }).finishLong o.ring o.tag (answer f.status f.toBytes)
  | none =>
    let s := s.withBank s.spare { x with checked := true, follow := o.follow,
                                         pressDigest := pressDigest s, slotN := slotCounts s x.image }
    s.finishLong o.ring o.tag (answer stOk (schedResult s x.image))

/-- SCHED_CHECK_DONE (R61). -/
def execSchedCheckDone (o : OpRef) (s : State) : Result :=
  .next (withOp o 0x0041 (fun s =>
    match s.run.schedOp with
    | some x => if x.check then checkFinish x s else s
    | none => s) s)

/-! ## SCHED_ACTIVATE (R63, R64, R89, R193) -/

/-- R63: may the inactive bank be activated? A slot for which HEAD_SCAN has found no HDM since has no N that differs; in RUN the check was
made with FOLLOW against the image that is active now (an activation clears that mark of the bank it leaves). -/
def mayActivate (s : State) : Bool :=
  let x := s.bank s.spare
  x.checked && s.press.isSome && decide (x.pressDigest = pressDigest s)
    && (maskList (imgBarMask x.image) 8).all (fun b => (s.fittedSlots b).all (fun sl =>
      (s.head b sl).isNone || decide (nget x.slotN (slotIx b sl) = s.nozzles b sl)))
    && (decide (s.dev ≠ .run) || x.follow)

/-- Bars that the new image schedules and the active image does not. -/
def addedBars (s : State) : List Nat :=
  (maskList (imgBarMask (s.bank s.spare).image) 8).filter (fun b => decide (b ∉ s.scheduledBars))

/-- The loads before an activation: STEER of every slot of the new image, SLOT_PARAMS and TRIM of the added bars. -/
def activateLoads (s : State) : List (Nat × Nat) :=
  (maskList (imgBarMask (s.bank s.spare).image) 8).flatMap (fun b => (s.fittedSlots b).flatMap (fun sl =>
    (if b ∈ addedBars s then [(slotIx b sl, 0), (slotIx b sl, 1)] else []) ++ [(slotIx b sl, 2)]))

/-- Send one of them: STEER of the inactive bank, or as for RUN_ARM. -/
def sendActivateLoad (s : State) (p : Nat × Nat) : State :=
  if p.2 = 2 then sendLoad (p.1 / 24) (p.1 % 24) 2 s.spare s else sendSlotLoad 0 s p

/-- The periods of two images have none in common. -/
def noCommonPeriod (a b : Mem) : Bool := decide (min (imgPMax a) (imgPMax b) < max (imgPMin a) (imgPMin b))

/-- The other bank becomes active. The image that was active is no longer one that follows the active image. -/
def State.swapBanks (s : State) : State :=
  let k := s.run.active
  let s := s.withBank k { s.bank k with follow := false }
  s.withRun { s.run with active := 1 - k }

/-- The reply that ends SCHED_ACTIVATE: in IDLE and ARMED the bank becomes active, in RUN at the effective boundary. With BOUNDARY 0 and
no further boundary in the run it answers BAD_PARAM, as COMMIT does (DESIGN CHOICE, log 85). Positions at or after the boundary that were
fixed as the active image's are placed by the new image instead (R90). -/
def activateNow (job first boundary : Nat) (s : State) : State × Answer :=
  if s.dev = .idle ∨ s.dev = .armed then ((restGroups s.swapBanks).faultOnPoison, refuse stOk)
  else if s.dev ≠ .run then (s, refuse stWrongState)
  else match effectiveBoundary s boundary with
    | none => (s, refuse stBadParam)
    | some (b, late) =>
      (s.withRun { s.run with activation := some { jobId := job, first := first, boundary := b.pos },
                              pages := s.run.pages.filter (fun p => p.placed || decide (p.start < b.pos)) },
       answer stOk (leBytes 8 b.pos ++ leBytes 2 (bitNat late)))

def slotMissing (s : State) : Option (Nat × Nat) :=
  firstSlot s (addedBars s) (fun b sl => (s.head b sl).isNone)

def steerShort (s : State) : Option (Nat × Nat) :=
  firstSlot s (maskList (imgBarMask (s.bank s.spare).image) 8) (fun b sl => !steerFits s (s.bank s.spare).image b sl)

def activateStart (h : Hdr) (job first boundary : Nat) (orphan : Bool) (s : State) : State × Option Answer :=
  if !mayActivate s then (s, some (refuse stWrongState))
  else if s.dev = .idle then ((activateNow job first boundary s).1, some (activateNow job first boundary s).2)
  else if s.dev = .run ∧ noCommonPeriod s.activeImage (s.bank s.spare).image then (s, some (refuse stBadParam))
  else if s.link.load.isSome ∨ s.run.activation.isSome then (s, some (refuse stBusy))
  else match (slotMissing s).orElse (fun _ => steerShort s) with
    | some (b, sl) => (s, some (answer stNoResource (leBytes 1 b ++ leBytes 1 sl)))
    | none =>
      let woken := (addedBars s).filter (fun g => decide ((s.group g).down ≠ .l0))
      let s := woken.foldl (fun s g => wakeDown g s) s
      let loads := activateLoads s
      let s := loads.foldl sendActivateLoad s
      let op : LoadOp := { ring := h.ring, tag := h.tag, opcode := 0x42, classes := 0, outstanding := loads, loaded := 0,
                           waiting := false, since := s.clk.elapsed, woken := woken }
      ((s.withLink { s.link with load := some op }).addWait orphan h (cmdOf 0x0042 0) (.activate job first boundary), none)

/-- SCHED_ACTIVATE (R63, R64, R89, R193). -/
def execSchedActivate (h : Hdr) (jobId first boundary : Nat) (s : State) : Result :=
  .next (hostWait (.schedActivate (unstarted h) jobId first boundary) h (cmdOf 0x0042 0)
    (activateStart h jobId first boundary) s)

/-- The SCHED_ACTIVATE that waits for loads. -/
def activateWait (s : State) : Option Wait :=
  s.host.waits.find? (fun w => match w.kind with
    | .activate _ _ _ => true
    | _ => false)

/-- Credits at G, WARM_N 0 and release boundary 0 for an added bar; its gate latch follows R227 from now on. -/
def prepareBar (s : State) (b : Nat) : State :=
  let s := (s.fittedSlots b).foldl (fun s sl =>
    let s := fillCredit b sl s
    s.withSlot b sl { s.slot b sl with energy := { (s.slot b sl).energy with warmN := 0 } }) s
  s.withBar b { s.bar b with releaseBoundary := 0 }

/-- Every load of SCHED_ACTIVATE is confirmed. -/
def activateLoaded (s : State) : State :=
  match activateWait s with
  | none => s
  | some w =>
    match w.kind with
    | .activate job first boundary =>
      let s := ((addedBars s).foldl prepareBar s).settleGates
      let r := activateNow job first boundary s
      ((r.1).endWait w r.2).settle w.ring
    | _ => s

/-- A load of SCHED_ACTIVATE was not confirmed: nothing is activated, and the groups it woke return to LS (R64). -/
def activateTimeout (o : LoadOp) (b sl : Nat) (s : State) : State :=
  match activateWait s with
  | none => s
  | some w => ((sleepGroups o.woken s).endWait w (answer stTimeout (leBytes 1 b ++ leBytes 1 sl))).settle w.ring

end Sys2Proof.Machine
end

