-- ==== Sys2Proof/Machine/Motion.lean ====
section
/-! DEFINITION. Machine/Motion.lean: encoders, speed windows and drift trim, period updates, registration marks, position
sources, TOUT outputs and line-match comparators (R92, R94, R230 to R247, R397 to R399). -/

namespace Sys2Proof.Machine

open Sys2Proof

/-! ## Periods (R92, R230, R231) -/

/-- The range of periods in force: that of the active image, and from the window close of a pending activation until the
old bank is inactive the part both images have in common (R92). -/
def periodRange (s : State) : Nat × Nat :=
  let m := s.activeImage
  let o := (s.bank s.spare).image
  let both := s.run.oldBankBusy || (match s.run.activation with
    | some a => !windowOpen s a.boundary
    | none => false)
  if both then (max (imgPMin m) (imgPMin o), min (imgPMax m) (imgPMax o)) else (imgPMin m, imgPMax m)

def clampPeriod (s : State) (p : Nat) : Nat := clampNat (periodRange s).1 (periodRange s).2 p

/-- What late updates add to the period of the frame that begins at tick n (R247). -/
def lateSum (s : State) (n : Nat) : Int :=
  ((s.web.late.filter (fun x => decide (x.1 ≤ n ∧ n < x.1 + 256))).map (fun x => x.2)).foldl (· + ·) 0

/-- The period of the frame that begins at the latest tick: the nominal one with those additions, within the range. -/
def framedPeriod (s : State) : Nat :=
  if lateSum s s.web.webPos = 0 then s.web.nominal
  else clampPeriod s ((s.web.nominal : Int) + lateSum s s.web.webPos).toNat

/-- The period of the frame that begins at the latest tick changes, in the record of frames too. -/
def State.reframe (s : State) : State :=
  s.withWeb { s.web with period := framedPeriod s, history := s.web.history.map (fun x =>
    if x.1 = s.web.webPos then (x.1, x.2.1, framedPeriod s) else x) }

/-- A new period is in force from the latest tick on. -/
def setPeriod (p : Nat) (s : State) : State :=
  ((s.withWeb { s.web with nominal := p }).reframe).traceRec 6 (Config.traceUnit 6) (leBytes 8 p)

/-- The frame of time-base instant t: its tick, the instant of that tick and its period. -/
def frameAt (s : State) (t : Nat) : Option (Nat × Nat × Nat) := s.web.history.find? (fun x => decide (x.2.1 ≤ t))

/-- The line-clock phase times 256 has gone past a position at time-base instant t (R242). -/
def phasePast (s : State) (pos : Int) (t : Nat) : Bool :=
  let p := max 1 s.web.period
  decide (pos * p < (256 * s.web.webPos * p + 256 * (t - s.web.tickTime) : Nat))

/-- The line-clock phase at time-base instant t, in 1/256 line: 256 (n + (t - t_n) / P_n), rounded down (R242). -/
def phaseAt (s : State) (t : Nat) : Nat := 256 * s.web.webPos + 256 * (t - s.web.tickTime) / max 1 s.web.period

/-! ## Position sources and TOUT outputs (R242, R243, R397 to R399) -/

def State.tout (s : State) (k : Nat) : Tout := tget (fun _ => Tout.reset) s.web.touts k

def State.withTout (s : State) (k : Nat) (x : Tout) : State :=
  s.withWeb { s.web with touts := tput (fun _ => Tout.reset) s.web.touts k x }

/-- KIND, MATCH and D of position source j, from the REGISTRATION bank in force. -/
def sourceRecord (s : State) (j : Nat) : Nat × Nat × Int :=
  let o := 32 + 16 * j
  (s.tabNum 8 0 o 1, s.tabNum 8 0 (o + 1) 1, signed 4 (s.tabNum 8 0 (o + 4) 4))

/-- An output takes a position of the source it is bound to; one that the phase has passed already is not sent (R242). -/
def boundPulse (j : Nat) (pos : Int) (s : State) (k : Nat) : State :=
  let x := s.tout k
  if x.prog.mode ≠ 3 ∨ x.prog.source ≠ j then s
  else if phasePast s pos s.base then s.count 18
  else s.withTout k { x with pending := x.pending ++ [pos] }

/-- Every source of a kind (and for MATCH of a comparator) produces a position from web position `w`. -/
def produce (kind : Nat) (comparator : Option Nat) (w : Nat) (s : State) : State :=
  (List.range 8).foldl (fun s j =>
    let (k, m, d) := sourceRecord s j
    if k = kind ∧ (comparator = none ∨ comparator = some m) then
      let pos : Int := if kind = 4 then (256 * w : Nat) else (256 * w : Nat) + d
      (List.range 8).foldl (boundPulse j pos) s
    else s) s

/-- Pulses still pending when the line clock stops are discarded and logged (R242). -/
def discardPulses (s : State) : State :=
  (List.range 8).foldl (fun s k =>
    let x := s.tout k
    if x.pending = [] then s
    else (s.withTout k { x with pending := [] }).report 0x3007 (logKey none none none none) k (leBytes 4 x.pending.length)) s

/-- The first instant of a program at or after `t` in the time base; 0 for none, as where a ONCE program that waited has missed its start. -/
def firstInstant (p : ToutProg) (t : Nat) : Nat :=
  match p.mode with
  | 1 => if t ≤ p.start then p.start else 0
  | 2 => if t ≤ p.start then p.start else p.start + ceilDiv (t - p.start) (max 1 p.period) * p.period
  | _ => 0

/-- A program takes effect. -/
def installTout (k : Nat) (p : ToutProg) (s : State) : State :=
  s.withTout k { prog := p, waiting := none, active := false, endsAt := 0,
                 nextPulse := firstInstant p (max p.earliest s.base), pending := [] }

def toutBody (output mode flags source width startSec startNs period : Nat) (s : State) : State × Answer :=
  let start := startSec * secT + startNs * nsT
  if 7 < output ∨ 3 < mode ∨ 2 ≤ flags ∨ (mode = 3 ∧ 7 < source)
      ∨ (mode ≠ 0 ∧ (width % 2 ≠ 0 ∨ width < 4 ∨ 1000000000 < width))
      ∨ ((mode = 1 ∨ mode = 2) ∧ 999999999 < startNs)
      ∨ (mode = 2 ∧ (period < 100 * nsT ∨ 1000 * secT < period ∨ period ≤ width * nsT))
      ∨ (mode = 1 ∧ start < s.base + 10 * usT) then (s, refuse stBadParam)
  else if (mode = 1 ∨ mode = 2) ∧ !s.clk.taiValid then (s, refuse stWrongState)
  else
    let p : ToutProg := { mode := mode, activeLow := bit flags 0, source := source, width := width, start := start,
                          period := period, earliest := s.base + 10 * usT }
    let x := s.tout output
    (if x.active then s.withTout output { x with waiting := some p } else installTout output p s, refuse stOk)

/-- TOUT_PROGRAM (R397 to R399). -/
def execToutProgram (h : Hdr) (output mode flags source width startSec startNs period : Nat) (s : State) : Result :=
  .next (hostCmd (.toutProgram (unstarted h) output mode flags source width startSec startNs period) h (cmdOf 0x00D1 0)
    (toutBody output mode flags source width startSec startNs period) s)

/-- Raise the output until its width has passed. -/
def pulse (k : Nat) (x : Tout) (s : State) : State :=
  s.withTout k { x with active := true, endsAt := s.clk.elapsed + x.prog.width * nsT }

/-- TOUT_PULSE (R242, R398): an instant of the output's program, or a pending position, has been reached. -/
def execToutPulse (output t : Nat) (s : State) : Result :=
  let s := s.at t
  let x := s.tout output
  match x.prog.mode with
  | 1 => .next (if x.nextPulse ≠ 0 ∧ x.nextPulse ≤ s.base then pulse output { x with nextPulse := 0 } s else s)
  | 2 => .next (if x.nextPulse ≤ s.base then pulse output { x with nextPulse := x.nextPulse + x.prog.period } s else s)
  | 3 =>
    match x.pending.find? (fun p => decide (p ≤ (phaseAt s s.base : Int))) with
    | some p => .next (if s.web.running then pulse output { x with pending := x.pending.erase p } s else s)
    | none => .next s
  | _ => .next s

/-- TOUT_PULSE_END (R398, R399): the width has passed; a waiting program takes effect. -/
def execToutPulseEnd (output t : Nat) (s : State) : Result :=
  let s := s.at t
  let x := s.tout output
  if !x.active ∨ s.clk.elapsed < x.endsAt then .next s
  else match x.waiting with
    | some p => .next (installTout output p s)
    | none => .next (s.withTout output { x with active := false })

/-! ## Line-match comparators (R244) -/

/-- Does a comparator match at the latest tick? -/
def comparatorDue (s : State) (k : Nat) : Bool :=
  let c := s.comparator k
  s.web.running && decide (c.mode ≠ 0 ∧ c.w = s.web.webPos)

/-- LINE_MATCH (R244): several matches at one tick raise one event, with the last of them. -/
def execLineMatch (comparator : Nat) (s : State) : Result :=
  if 7 < comparator ∨ !comparatorDue s comparator then .next s
  else
    let c := s.comparator comparator
    let s := s.withHost { s.host with matchStatus := s.host.matchStatus ||| BitVec.ofNat 8 (2 ^ comparator) }
    let s := s.withComparator comparator { c with w := if c.mode = 2 then c.w + c.period else 0 }
    let s := produce 3 (some comparator) s.web.webPos s
    .next (if (List.range 8).any (comparatorDue s) then s else s.raise 1)

/-! ## Encoders (R233, R234) -/

def State.encoder (s : State) (e : Nat) : Encoder := tget (fun _ => Encoder.reset) s.web.encoders e

def State.withEncoder (s : State) (e : Nat) (x : Encoder) : State :=
  s.withWeb { s.web with encoders := tput (fun _ => Encoder.reset) s.web.encoders e x }

/-- A new window: no edges yet. -/
def Encoder.fresh (x : Encoder) : Encoder := { x with count := 0, edges := 0, firstAt := 0, lastAt := 0, bad := false }

/-- A new window begins for both encoders. -/
def Web.freshEncoders (w : Web) : Tab Encoder :=
  w.encoders.foldl (fun t e => tput (fun _ => Encoder.reset) t e.1 e.2.fresh) w.encoders

/-- Time stamps have steps of 2 ns. -/
def encoderStamp (t : Time) : Time := t / (2 * nsT) * (2 * nsT)

/-- One count edge with its time stamp. -/
def Encoder.edge (x : Encoder) (up : Bool) (stamp : Time) : Encoder :=
  if x.edges = 0 then { x with edges := 1, count := 0, firstAt := stamp, lastAt := stamp, lastEdge := some stamp }
  else { x with edges := x.edges + 1, count := x.count + (if up then 1 else -1), lastAt := stamp, lastEdge := some stamp }

/-- The count goes up where A leads B (log 86): with A and B equal before the edge, an edge of A counts up; with A and B different, one
of B. DIR inverts it. -/
def Encoder.countsUp (x : Encoder) (a : Bool) (invert : Bool) : Bool := ((x.levelA == x.levelB) == (a != x.levelA)) != invert

/-- Less than 40 ns since the count edge before: a count rate above 25 MHz. -/
def Encoder.overrate (x : Encoder) (stamp : Time) : Bool :=
  match x.lastEdge with
  | none => false
  | some t => decide (stamp < t + 40 * nsT)

/-- A and B of an encoder take new levels, accepted by the filter, at a time stamp. -/
def encoderLevels (enc : Nat) (a b : Bool) (stamp : Time) (s : State) : State :=
  let x := s.encoder enc
  let y := { x with levelA := a, levelB := b }
  if x.levelA = a ∧ x.levelB = b then s
  else if x.levelA ≠ a ∧ x.levelB ≠ b then (s.withEncoder enc { y with bad := true }).count (10 + enc)
  else
    let z := y.edge (x.countsUp a (bit s.web.motion.dir enc)) stamp
    if x.overrate stamp then (s.withEncoder enc { z with bad := true }).count (12 + enc) else s.withEncoder enc z

/-- ENC_FILTER of the motion record in force. -/
def encoderFilter (s : State) : Time := 2 * nsT * s.web.motion.encFilter

/-- ENCODER_INDEX (R233): a Z edge, held for the filter time, increments a 32-bit index counter. -/
def execEncoderIndex (enc : Nat) (held t : Time) (s : State) : Result :=
  let f := encoderFilter s
  if held < f ∨ 1 < enc then .next (s.at t)
  else
    let s := s.at (t + f)
    .next (s.withCounters (nput s.counters (14 + enc) ((s.counter (14 + enc) + 1) % 2 ^ 32)))

/-- The speed of an encoder over the window, as web length over time (2^-16 nm over 2^-16 ns). -/
def Encoder.speed (x : Encoder) (len : Nat) : Int × Nat :=
  if x.edges < 2 ∨ x.lastAt = x.firstAt then (0, 1) else (x.count * len, x.lastAt - x.firstAt)

/-- Two speeds differ by more than CHECK_TOL (0.01 %). -/
def speedsDiffer (tol : Nat) (a b : Int × Nat) : Bool :=
  decide (((a.1 * b.2 - b.1 * a.2).natAbs : Int) * 10000 > tol * ((a.1 * b.2).natAbs : Int))

/-- The speed that a window gives, none when it is invalid; ENC_DISAGREE is logged. -/
def windowSpeed (s : State) : State × Option (Int × Nat) :=
  let m := s.web.motion
  let e0 := s.encoder 0
  let e1 := s.encoder 1
  let v0 := e0.speed m.countLen0
  let v1 := e1.speed m.countLen1
  match m.encSel with
  | 0 => (s, if e0.bad then none else some v0)
  | 1 => (s, if e1.bad then none else some v1)
  | _ =>
    if e0.bad ∨ e1.bad then (s, none)
    else if speedsDiffer (if m.checkTol = 0 then 50 else m.checkTol) v0 v1 then
      (s.report 0x3003 (logKey none none none none) 0 [], none)
    else (s, some v0)

/-! ## Drift trim (R235) -/

/-- A rational rounded half up. -/
def halfUp (num den : Nat) : Nat := (2 * num + den) / (2 * den)

/-- p_enc of a speed. -/
def pEncOf (pitch : Nat) (v : Int × Nat) : PEnc := if v.1 ≤ 0 then .unbounded else .value (pitch * v.2) v.1.toNat

/-- p_new of R235: every bound is rounded as p_new is. -/
def trimPeriod (s : State) (pe : PEnc) : Nat :=
  let p := s.web.nominal
  let p0 := s.run.p0
  let horizon := s.tabNum 8 0 8 4
  let up := halfUp (20001 * p) 20000
  let req := match pe with
    | .value num den =>
      let k : Int := (256 * horizon : Nat) + (if s.web.regActive then s.web.eps.getD 0 else 0)
      halfUp (num * k.toNat) (den * (256 * max 1 horizon))
    | _ => up
  let x := clampNat (halfUp (19999 * p) 20000) up req
  clampPeriod s (clampNat (halfUp (98 * p0) 100) (halfUp (102 * p0) 100) x)

/-- The lead issues a period update and will apply it itself (R246). -/
def issueUpdate (p : Nat) (s : State) : State :=
  let u : PeriodUpdate := { seq := (s.web.lastUpdateSeq + 1) % 65536, period := p, pEnc := s.web.pEnc,
                            effective := s.web.webPos + max 2 (ceilDiv (4 * msT) (max 1 s.web.nominal)) }
  let s := s.withWeb { s.web with lastUpdateSeq := u.seq, updates := s.web.updates ++ [u] }
  s.withNet { s.net with lead := { s.net.lead with leadUpdate := some u } }

/-- The device trims the line clock itself: TRIM is ENCODER, and it is solo or the lead (R235, R245). -/
def trims (s : State) : Bool := decide (s.web.motion.trim = 1 ∧ (s.net.lead.role = .solo ∨ s.net.lead.role = .lead))

/-- The handoff announced comes before the lead's next heartbeat: it issues no update any more (R409). -/
def handoffNear (s : State) : Bool :=
  match s.net.lead.handoff, s.press with
  | some h, some p =>
    let o := 250 * usT * p.index
    decide (s.web.tickTime + (h.boundary - s.web.webPos) * s.web.period < ((s.base - o) / msT + 1) * msT + o)
  | _, _ => false

/-- A window ends and the next begins. The latest ε is used in one window only. -/
def endWindow (s : State) : State :=
  let (s, v) := windowSpeed s
  let s := s.withWeb { s.web with encoders := s.web.freshEncoders, windowStart := s.web.windowStart + 100 * msT }
  match v with
  | none => s.withWeb { s.web with eps := none }
  | some v =>
    if !trims s then s.withWeb { s.web with eps := none }
    else
      let s := s.withWeb { s.web with pEnc := pEncOf s.web.motion.linePitch v }
      let p := trimPeriod s s.web.pEnc
      let s := s.withWeb { s.web with eps := none }
      if p = s.web.nominal ∨ (s.net.lead.role = .lead ∧ handoffNear s) then s
      else if s.net.lead.role = .lead then issueUpdate p s
      else s.withWeb { s.web with trims := s.web.trims ++ [(s.web.webPos + 2, p)] }

/-- The open window has lasted 100 ms at time-base instant t. -/
def windowOver (s : State) (t : Nat) : Bool := s.web.running && decide (s.web.windowStart + 100 * msT ≤ t)

/-- Windows that are over at time-base instant t end, at most n of them. -/
def endWindows (t : Nat) : Nat → State → State
  | 0, s => s
  | n + 1, s => if windowOver s t then endWindows t n (endWindow s) else s

/-- SPEED_WINDOW_END (R234, R235): 100 ms of a window have passed. -/
def execSpeedWindowEnd (t : Time) (s : State) : Result :=
  let s := s.at t
  .next (if windowOver s s.base then endWindow s else s)

/-- ENCODER_COUNT (R233): A and B of an encoder take levels at `t` and hold them for `held`. Levels that hold for the filter time are
accepted, with the time stamp of the transition (log 86); an edge belongs to the window in which that lies. -/
def execEncoderCount (enc : Nat) (a b : Bool) (held t : Time) (s : State) : Result :=
  let f := encoderFilter s
  if held < f ∨ 1 < enc then .next (s.at t)
  else
    let s := s.at (t + f)
    let now := s.clk.baseAt t
    let s := endWindows now ((now - s.web.windowStart) / (100 * msT)) s
    .next (encoderLevels enc a b (encoderStamp t) s)

/-- Period updates whose position has come apply, held within the range (R94, R246, R247). -/
def applyUpdates (s : State) : State :=
  match (s.web.updates.filter (fun u => decide (u.effective ≤ s.web.webPos))).getLast? with
  | none => s
  | some u =>
    let s := s.withWeb { s.web with pEnc := u.pEnc, updates := s.web.updates.filter (fun u => decide (s.web.webPos < u.effective)) }
    setPeriod (clampPeriod s u.period) s

/-- PERIOD_UPDATE_EFFECTIVE (R94, R246, R247). -/
def execPeriodUpdateEffective (s : State) : Result := .next (if s.web.running then applyUpdates s else s)

/-! ## Registration marks (R238 to R241) -/

/-- Mark the page that begins at `start` for the DEFECT source, once (R237, R240, R243). -/
def markDefect (start : Nat) (s : State) : State :=
  if start ∈ s.run.defects then s else produce 2 none start (s.withRun { s.run with defects := s.run.defects ++ [start] })

/-- Does this device register pages: solo or lead, with the line clock running? -/
def registers (s : State) : Bool := s.web.running && decide (s.net.lead.role = .solo ∨ s.net.lead.role = .lead)

/-- W_exp of a page (R240). -/
def markExpected (s : State) (p : PagePos) : Int := (256 * p.start : Nat) + signed 4 (s.tabNum 8 0 4 4)

/-- Half-width of the capture in 1/256 line. -/
def captureWidth (s : State) : Int := (256 * s.tabNum 8 0 2 2 : Nat)

/-- The capture of a page is still open: no mark of it has come, none has been found missing, and its end lies ahead. -/
def markOpen (s : State) (p : PagePos) : Bool :=
  decide (s.tabNum 8 0 0 1 ≠ 0xFF) && decide (p.start ∉ s.run.marked)
    && decide ((256 * s.web.webPos : Nat) < markExpected s p + captureWidth s)

/-- The page whose mark an edge at W_m is: one already fixed, or one that follows. -/
def markedPage (s : State) (wm : Int) : Option PagePos :=
  findPage s ((wm + captureWidth s - signed 4 (s.tabNum 8 0 4 4)) / 256).toNat
    (fun p => decide (p.start ∉ s.run.marked) && decide ((wm - markExpected s p).natAbs ≤ (captureWidth s).natAbs))
    (fun p => decide (wm + captureWidth s < markExpected s p))

/-- The mark of a page has been seen, or found missing. -/
def State.noteMarked (s : State) (start : Nat) : State := s.withRun { s.run with marked := s.run.marked ++ [start] }

/-- An edge of the registration input at W_m. -/
def registerEdge (wm : Int) (s : State) : State :=
  match markedPage s wm with
  | none => s.count 16
  | some page =>
    let e := wm - markExpected s page
    let s := s.noteMarked page.start
    let s := s.withWeb { s.web with eps := some e, regActive := true }
    let s := s.report 0x3006 (logKey none none none none) 0 (leInt 4 e ++ leBytes 4 page.pageIndex)
    let tol := s.tabNum 8 0 12 4
    if tol ≠ 0 ∧ (tol : Int) < (e.natAbs : Int) then markDefect page.start s else s

/-- A RUN_START AT_MARK waits for this edge: T_run lies 1 ms after its time stamp (R71). -/
def startAtMark (input tm : Nat) (s : State) : State :=
  if s.dev = .armed ∧ s.run.startMark = some input then
    s.withRun { s.run with startMark := none, startArmed := true, tRun := tm + msT }
  else s

/-- MARK_FILTER of the motion record in force. -/
def markFilterTime (s : State) : Time := 2 * nsT * (if s.web.motion.markFilter = 0 then 25 else s.web.motion.markFilter)

/-- W_m of an edge at time-base instant t_m (R238). -/
def markPosition (s : State) (tm : Nat) : Option Nat :=
  if !s.web.running then none
  else (frameAt s tm).map (fun x => 256 * x.1 + (256 * (tm - x.2.1) + max 1 x.2.2 / 2) / max 1 x.2.2)

/-- An accepted edge of a mark input is converted and kept; of the set input and polarity it registers a page. -/
def takeMark (input : Nat) (level : Bool) (wm : Nat) (s : State) : State :=
  let s := s.withWeb { s.web with marks := nput s.web.marks input wm }
  if registers s && decide (s.tabNum 8 0 0 1 = input) && (level == decide (s.tabNum 8 0 1 1 = 0)) then registerEdge wm s else s

/-- MARK_EDGE (R71, R238 to R241, R245): a mark input takes a level at `t` and holds it for `held`. A level that holds for the filter time
is accepted, with the time stamp of the transition to 1 ns. -/
def execMarkEdge (input : Nat) (level : Bool) (held t : Time) (s : State) : Result :=
  let f := markFilterTime s
  if held < f then .next (s.at t)
  else
    let s := s.at (t + f)
    let tm := s.clk.baseAt t / nsT * nsT
    let s := startAtMark input tm s
    .next (match markPosition s tm with
      | none => s
      | some wm => takeMark input level wm s)

/-- The position that begins at `start`: one already fixed, or one that follows. -/
def State.posAt (s : State) (start : Nat) : Option PagePos :=
  findPage s start (fun p => decide (p.start = start)) (fun p => decide (start < p.start))

/-- MARK_MISSING (R240, R241): the capture of a page has passed without its mark. -/
def execMarkMissing (start : Nat) (s : State) : Result :=
  match s.posAt start with
  | none => .next s
  | some p =>
    if registers s && decide (s.tabNum 8 0 0 1 ≠ 0xFF) && decide (start ∉ s.run.marked)
        && decide (markExpected s p + captureWidth s ≤ (256 * s.web.webPos : Nat)) then
      let s := (s.noteMarked start).count 17
      .next (s.withWeb { s.web with regActive := false })
    else .next s

end Sys2Proof.Machine
end

