-- ==== Sys2Proof/Machine/Snapshot.lean ====
section
/-! DEFINITION. Machine/Snapshot.lean: COUNTER_SNAPSHOT (R451). -/

namespace Sys2Proof.Machine

open Sys2Proof

/-- The header and the counters, as they stand now; `atTick` says that the latch is taken at a tick. -/
def snapshotBytes (s : State) (first count : Nat) (atTick : Bool) : List Byte :=
  padTo 32 (leBytes 8 (taiSec s.base) ++ leBytes 4 (taiNs s.base) ++ leBytes 1 (bitNat atTick) ++ [0, 0, 0] ++ leBytes 8 s.web.webPos
    ++ leBytes 2 first ++ leBytes 2 count)
  ++ (List.range count).flatMap (fun i => leBytes 8 (s.counter (first + i)))

/-- The counters are latched and written. -/
def takeSnapshot (first count dest : Nat) (atTick : Bool) (s : State) : State × Answer :=
  (s.dmaWrite dest (snapshotBytes s first count atTick), refuse (if s.host.linkUp then stOk else stDataUe))

def snapshotBody (h : Hdr) (c : CmdInfo) (first count mode dest : Nat) (orphan : Bool) (s : State) : State × Option Answer :=
  if 1023 < first ∨ count = 0 ∨ 1024 < first + count ∨ 1 < mode then (s, some (refuse stBadParam))
  else if mode = 1 ∧ s.web.running then (s.addWait orphan h c (.snapshot first count dest), none)
  else ((takeSnapshot first count dest false s).1, some (takeSnapshot first count dest false s).2)

/-- COUNTER_SNAPSHOT (R451): NEXT_TICK waits for the next tick while the line clock runs. -/
def execCounterSnapshot (h : Hdr) (first count mode dest : Nat) (s : State) : Result :=
  .next (hostWait (.counterSnapshot (unstarted h) first count mode dest) h (cmdOf 0x00F1 0)
    (snapshotBody h (cmdOf 0x00F1 0) first count mode dest) s)

/-- A snapshot that waits is taken. -/
def endSnapshot (atTick : Bool) (s : State) (w : Wait) : State :=
  match w.kind with
  | .snapshot first count dest =>
    let (s, a) := takeSnapshot first count dest atTick s
    (s.endWait w a).settle w.ring
  | _ => s

/-- The tick, or the end of the line clock, that the waiting snapshots wait for. -/
def endSnapshots (atTick : Bool) (s : State) : State := s.host.waits.foldl (endSnapshot atTick) s

end Sys2Proof.Machine
end

