-- ==== Sys2Proof/Machine/Stop.lean ====
section
/-! DEFINITION. Machine/Stop.lean: page records, how a run ends and IDLE is entered, RUN_STOP (R67, R75, R81, R93, R95, R96,
R412). -/

namespace Sys2Proof.Machine

open Sys2Proof

/-! ## The page record (R75) -/

def pageRecord (p : PagePos) : List Byte :=
  leBytes 4 p.jobId ++ leBytes 4 p.pageIndex ++ leBytes 8 p.start ++ leBytes 4 p.length ++ leBytes 4 p.underrunLines
    ++ leBytes 2 p.flags ++ leBytes 2 p.seqEntry ++ leBytes 4 (if p.blank then 0 else p.descriptor.getD 0)

/-- Records of the pages that the end of the run finds before their PAGE_DONE: with TRUNCATED where lines are left unfired, which a blank
position has none of. A page whose PAGE_DONE tick has passed in FAULT carries the mark already if one of its lines was lost (R75). -/
def truncatePages (s : State) : State :=
  (s.run.pages.filter (fun p => p.placed && !p.done)).foldl (fun s p =>
    s.plumeEmit 1 (pageRecord (if p.blank ∨ p.doneAt s ≤ s.web.webPos then p else p.flag 3))) s

/-! ## Entry to IDLE (R81, R93, R96) -/

/-- A commit still pending at the entry to IDLE takes effect. One whose window has closed is in force already. -/
def settleCommit (s : State) (c : PendingCommit) : State :=
  if c.classes = 0 then releaseBars none c.barMask s
  else if c.closed then s
  else commitAll (commitPairs c.classes c.barMask) s

/-- Outside a run every table is read from its committed bank whatever the web position. -/
def settleTables (s : State) : State :=
  s.withTables { s.tables with classes := s.tables.classes.foldl (fun t e =>
    tput (fun _ => TableSt.reset) t e.1 { e.2 with since := 0 }) s.tables.classes }

/-- The print path holds nothing of the run any more. -/
def clearPath (p : PrintPath) : PrintPath :=
  { p with contexts := [], inflight := [], lines := [], staging := [], issued := [] }

/-- The motion unit with its line clock stopped: comparators are OFF (R244), and no period change waits. -/
def stopClock (s : State) : State :=
  let s := endSnapshots false (discardPulses s)
  s.withWeb { s.web with running := false, stoppedAt := if s.web.running then s.base else s.web.stoppedAt, comparators := [], updates := [], trims := [], late := [],
                         encoders := s.web.freshEncoders, eps := none, regActive := false }

/-- The samples of an open keeping interval are discarded; a step that has not reached its boundary has taken effect with its commit. -/
def restKeep (s : State) : State :=
  s.withKeep { s.keep with bars := s.keep.bars.foldl (fun t e => tput (fun _ => KeepBar.reset) t e.1
    { e.2 with intervalStart := none, acc := [], stepAt := none, ownedUntil := none, computed := none }) s.keep.bars }

/-- The device enters IDLE from ARMED, DRAIN or FAULT: the line clock stands, groups go to LS, pending commits and the pending
activation take effect. -/
def enterIdle (s : State) : State :=
  let s := stopClock s
  let s := s.withPath (clearPath s.path)
  let s := ((List.range 8).filter (fun g => decide ((s.group g).down = .l0))).foldl (fun s g => leaveL0 g s) s
  let s := (s.withFault .none).enter .idle
  let commits := s.run.commits
  let act := s.run.activation
  let s := settleTables (finishCopies s)
  let s := s.withRun { s.run with
    commits := [], pages := [], activation := none, stop := .none, startArmed := false, startMark := none, oldBankBusy := false,
    rejoinAt := none, marked := [], defects := [] }
  let s := restKeep (commits.foldl settleCommit s)
  let s := s.withNet { s.net with lead := { s.net.lead with stopAt := none, stopNow := false, stopReq := none, startRec := false } }
  settleShifts (endRejoin (refuse stAborted) (if act.isSome then s.swapBanks else s))

/-! ## The end of DRAIN (R96) -/

/-- The boundary at which the run is to end. -/
def stopBoundary (s : State) : Option Nat :=
  match s.run.stop with
  | .atBoundary b => some b
  | _ => none

/-- Every page that begins before the end of the run is done. -/
def drainOver (s : State) : Bool :=
  match stopBoundary s with
  | none => false
  | some b => decide (s.dev = .drain) && s.run.pages.all (fun p => p.done || decide (b ≤ p.start))
      && (match nextPos s with
        | none => true
        | some p => decide (b ≤ p.start))

/-- DRAIN ends: the line clock stops, IDLE is entered, and the credits are audited 100 µs later (R450). -/
def endDrain (s : State) : State :=
  let s := enterIdle s
  s.withLink { s.link with creditAuditAt := some (s.clk.elapsed + 100 * usT) }

def drainCheck (s : State) : State := if drainOver s then endDrain s else s

/-! ## Stopping (R95, R412) -/

/-- The time-base instant of tick n at the period in force. -/
def tickAt (s : State) (n : Nat) : Nat := s.web.tickTime + (n - s.web.webPos) * s.web.period

/-- On the lead of a press a boundary must lie so that its tick B - 5 is at least 10 ms ahead (R412). -/
def stopAhead (s : State) (b : Nat) : Bool :=
  decide (s.net.lead.role ≠ .lead) || decide (5 ≤ b ∧ s.base + 10 * msT ≤ tickAt s (b - 5))

/-- May the run end at the boundary that begins this position? -/
def stopsBefore (s : State) (p : PagePos) : Bool := decide (s.web.webPos < p.beginsPlay s) && stopAhead s p.start

/-- The first boundary whose page has not yet begun play on any bar, or the one after the last page. -/
def endOfPage (s : State) : Nat :=
  match findPage s (s.web.webPos + 5000000) (stopsBefore s) (fun _ => false) with
  | some p => p.start
  | none =>
    match findPage s (s.web.webPos + 5000000) (fun p => (following s p).isNone) (fun _ => false) with
    | some p => p.endPos
    | none => s.run.leadIn

/-- A boundary whose page has not begun play; where no page begins at it, it must lie ahead. -/
def boundaryFree (s : State) (b : Nat) : Bool :=
  let found := findBoundary s (b - s.web.webPos + 1) (fun x => decide (x.pos = b)) (fun x => decide (b ≤ x.pos))
  found.isSome && stopAhead s b
    && (match findPage s (b - s.web.webPos + 1) (fun p => decide (p.start = b)) (fun p => decide (b ≤ p.start)) with
      | none => decide (s.web.webPos < b)
      | some p => decide (s.web.webPos < p.beginsPlay s))

/-- The page at a boundary that has passed does not begin: its index is not consumed (R95). -/
def unplace (b : Nat) (s : State) : State :=
  match s.run.pages.find? (fun p => p.placed && decide (b ≤ p.start)) with
  | none => s
  | some p => s.withRun { s.run with pageIndex := p.pageIndex }

/-- The run will end at boundary b: no position from there on begins. -/
def stopAtBoundary (b : Nat) (s : State) : State :=
  let s := unplace b s
  let s := s.withRun { s.run with stop := .atBoundary b, pages := s.run.pages.filter (fun p => decide (p.start < b)) }
  let s := s.withNet { s.net with lead := { s.net.lead with stopAt := if s.net.lead.role = .lead then some b else s.net.lead.stopAt } }
  if s.dev = .run then s.enter .drain else s

/-- NOW: run enable falls from the next tick on; the line clock stops five ticks later, in FAULT at the next tick. -/
def stopNow (s : State) : State :=
  let last := s.web.webPos + (if s.dev = .fault then 1 else 6)
  let s := s.withRun { s.run with stop := .now last }
  let s := s.withNet { s.net with lead := { s.net.lead with stopNow := decide (s.net.lead.role = .lead) } }
  let s := if s.dev = .run then s.enter .drain else s
  if s.web.running then s else enterIdle s

/-- An end that comes before the one that stands. -/
def earlierEnd (s : State) (b : Nat) : Bool :=
  match s.run.stop with
  | .none => true
  | .atBoundary x => decide (b < x)
  | .now _ => false

def stopBody (mode boundary : Nat) (s : State) : State × Answer :=
  if 2 < mode then (s, refuse stBadParam)
  else if s.dev = .armed then (enterIdle s, answer stOk (leBytes 8 0))
  else if s.dev = .fault then
    if s.fault = .fatal then (s, refuse stWrongState) else (stopNow s, answer stOk (leBytes 8 (s.web.webPos + 1)))
  else if mode = 2 then (stopNow s, answer stOk (leBytes 8 (s.web.webPos + 1)))
  else if s.net.lead.role = .follower then (s, refuse stWrongState)
  else
    let b := if mode = 0 then endOfPage s else boundary
    if (mode = 1 ∧ !boundaryFree s b) ∨ !earlierEnd s b then (s, refuse stBadParam)
    else (stopAtBoundary b s, answer stOk (leBytes 8 b))

/-- RUN_STOP (R95, R412). -/
def execRunStop (h : Hdr) (mode boundary : Nat) (s : State) : Result :=
  .next (hostCmd (.runStop (unstarted h) mode boundary) h (cmdOf 0x0062 0) (stopBody mode boundary) s)

/-- LINE_CLOCK_STOP_NOW (R95): the last tick of a run stopped with NOW has come. -/
def execLineClockStopNow (s : State) : Result :=
  match s.run.stop with
  | .now last => .next (if s.web.running ∧ last ≤ s.web.webPos then enterIdle (truncatePages s) else s)
  | _ => .next s

/-! ## The speed policy's stop (R237) -/

/-- The gate latch of every scheduled bar sets. -/
def blankBars (s : State) : State :=
  (s.scheduledBars.foldl (fun s b => s.withBar b { s.bar b with latch := true }) s).settleGates

/-- DRAIN as for RUN_STOP with END_OF_PAGE. -/
def stopRequest (s : State) : State :=
  if s.dev = .run ∨ s.dev = .drain then
    let b := endOfPage s
    if earlierEnd s b then stopAtBoundary b s else s
  else s

end Sys2Proof.Machine
end

