-- ==== Sys2Proof/Machine/Tile.lean ====
section
/-! DEFINITION. Machine/Tile.lean: the Crafin tile format (R101, R111 to R119): headers, row groups, tokens, and the CRC of a
decoded tile. -/

namespace Sys2Proof.Machine

open Sys2Proof

/-- Status code of a decoder error (R328). -/
def Conceal.status : Conceal → Nat
  | .absent => 0
  | .poisoned => stDataUe
  | .illegal => stIllegalCode
  | .distance => stDistance
  | .length => stLength

/-- Cause code of UNDERRUN (R441). -/
def Conceal.code : Conceal → Nat
  | .absent => 0
  | .poisoned => 1
  | .illegal => 2
  | .distance => 3
  | .length => 4

/-! ## Header (R111, R118); `h` are its 32 bytes -/

def tileFlags (h : List Byte) : Nat := field h 2 1
def tileRaw (h : List Byte) : Bool := bit (tileFlags h) 0
def tileEmpty (h : List Byte) : Bool := bit (tileFlags h) 1
def tileCover (h : List Byte) : Nat := bits (tileFlags h) 2 2
def tileLength (h : List Byte) : Nat := field h 8 4
def tileCrc (h : List Byte) : Nat := field h 28 4

/-- OFFSET[g], and the end of group g's tokens (R112). -/
def groupStart (h : List Byte) (g : Nat) : Nat := field h (12 + 2 * g) 2
def groupEnd (h : List Byte) (g : Nat) : Nat := if g < 7 then groupStart h (g + 1) else tileLength h

/-- The first check of R118 that a header fails. -/
def headerError (h : List Byte) : Option Conceal :=
  let offs := (List.range 8).map (groupStart h)
  if field h 0 2 ≠ 0x4643 ∨ 16 ≤ tileFlags h ∨ field h 3 1 ≠ 0 ∨ tileCover h = 3 then some .illegal
  else if tileEmpty h ∧ (tileLength h ≠ 0 ∨ offs.any (fun o => decide (o ≠ 0)) ∨ tileCover h ≠ 0 ∨ tileRaw h) then some .illegal
  else if field h 4 2 ≠ 256 ∨ field h 6 2 ≠ 64 then some .length
  else if tileEmpty h then none
  else if 16384 < tileLength h ∨ groupStart h 0 ≠ 0
      ∨ (List.range 8).any (fun g => decide (groupEnd h g ≤ groupStart h g ∨ groupStart h g + 2048 < groupEnd h g)) then some .length
  else if tileRaw h ∧ (tileLength h ≠ 16384 ∨ (List.range 8).any (fun g => decide (groupStart h g ≠ 2048 * g))) then some .length
  else none

/-- The burst span of group g of a base tile within its frame (R46): first burst and count; 0 for an EMPTY tile. -/
def groupSpan (h : List Byte) (g : Nat) : Nat × Nat :=
  if tileEmpty h then (0, 0)
  else
    let s := if g = 0 then 0 else 32 + groupStart h g
    let e := 32 + groupEnd h g
    (s / 64, (e - 1) / 64 - s / 64 + 1)

/-! ## Tokens (R115, R116, R119) -/

/-- What decoding a group gives: the bytes produced, and the error, with the stream offset of the failing token. -/
structure GroupOut where
  out : List Byte
  err : Option (Conceal × Nat)
deriving DecidableEq, Repr

/-- `n` bytes copied from `d` bytes back, byte by byte. -/
def copyBack (d : Nat) : Nat → List Byte → List Byte
  | 0, out => out
  | n + 1, out => copyBack d n (out ++ [nth 0 out (out.length - d)])

/-- Bytes of the row that is being produced still to come. -/
def rowRoom (out : List Byte) : Nat := if 2048 ≤ out.length then 0 else 256 - out.length % 256

/-- Decode a group's tokens from stream offset `o` on. -/
def decodeTokens : Nat → Nat → List Byte → List Byte → GroupOut
  | 0, o, _, out => { out := out, err := some (.length, o) }
  | n + 1, o, bytes, out =>
    let fail (e : Conceal) : GroupOut := { out := out, err := some (e, o) }
    match bytes with
    | [] => fail .length
    | b :: rest =>
      let b := b.toNat
      if b < 0x40 then
        if rowRoom out < b + 1 ∨ rest.length < b + 1 then fail .length
        else decodeTokens n (o + b + 2) (rest.drop (b + 1)) (out ++ rest.take (b + 1))
      else if b < 0x50 then
        match rest with
        | [] => fail .length
        | d :: rest =>
          let d := 256 * (b - 0x40) + d.toNat + 1
          if out.length < d then fail .distance
          else match rest with
            | [] => fail .length
            | m :: rest =>
              if rowRoom out < m.toNat + 4 then fail .length
              else decodeTokens n (o + 3) rest (copyBack d (m.toNat + 4) out)
      else if b = 0x50 then
        match rest with
        | m :: v :: rest =>
          if rowRoom out < m.toNat + 3 then fail .length
          else decodeTokens n (o + 3) rest (out ++ List.replicate (m.toNat + 3) v)
        | _ => fail .length
      else if b = 0x51 then
        if out.length < 256 then fail .distance
        else match rest with
          | [] => fail .length
          | m :: rest =>
            if rowRoom out < m.toNat + 1 then fail .length
            else decodeTokens n (o + 2) rest (copyBack 256 (m.toNat + 1) out)
      else if b = 0xFF then
        if out.length = 2048 ∧ rest = [] then { out := out, err := none } else fail .length
      else fail .illegal

/-- Decode one row group; `o` is the stream offset at which it begins. -/
def decodeGroup (raw : Bool) (o : Nat) (bytes : List Byte) : GroupOut :=
  if raw then { out := bytes.take 2048, err := if bytes.length < 2048 then some (.length, o) else none }
  else decodeTokens (bytes.length + 1) o bytes []

/-- The row of the group in which a failing token starts. -/
def GroupOut.row (g : GroupOut) : Nat := min 7 (g.out.length / 256)

/-- Rows that stand as decoded: all eight, or those before the failing one. -/
def GroupOut.rows (g : GroupOut) : List (List Byte) :=
  (List.range (if g.err.isSome then g.row else 8)).map (fun r => (g.out.drop (256 * r)).take 256)

/-! ## Whole tiles -/

/-- A decoded tile, or its first error with the row and the stream offset of the failing token. -/
structure TileOut where
  pixels : List Byte
  err : Option (Conceal × Nat × Nat)
deriving DecidableEq, Repr

/-- Decode a tile from its header and the bytes of each group. -/
def decodeTile (h : List Byte) (group : Nat → List Byte) : TileOut :=
  match headerError h with
  | some e => { pixels := [], err := some (e, 0, 0) }
  | none =>
    if tileEmpty h then { pixels := List.replicate 16384 0, err := none }
    else
      let gs := (List.range 8).map (fun g => decodeGroup (tileRaw h) (groupStart h g) (group g))
      match (placed gs).find? (fun x => x.2.err.isSome) with
      | some x => { pixels := gs.flatMap (·.out), err := x.2.err.map (fun e => (e.1, 8 * x.1 + x.2.row, e.2)) }
      | none => { pixels := gs.flatMap (·.out), err := none }

/-- CRC-32C of the decoded pixels, and of the mask for COVER_MASK (R114). -/
def contentCrc (h : List Byte) (pixels mask : List Byte) : Nat := crc32c (pixels ++ if tileCover h = 2 then mask else [])

/-- Bytes of group g in the packed form (R108). -/
def packedGroup (bytes : List Byte) (g : Nat) : List Byte :=
  let h := bytes.take 32
  ((bytes.drop 32).drop (groupStart h g)).take (groupEnd h g - groupStart h g)

end Sys2Proof.Machine
end

