-- ==== Sys2Proof/Machine/Store.lean ====
section
/-! DEFINITION. Machine/Store.lean: the image store: allocation, page descriptors and tile lists, STORE_WRITE, STORE_FREE and
PAGE_READY (R47, R82, R98 to R110, R290). -/

namespace Sys2Proof.Machine

open Sys2Proof

/-- The allocation maps go into the checkpoint (R377). -/
def mirrorMaps (s : State) : State :=
  s.withBoot { s.boot with checkpoint := { s.boot.checkpoint with mapFrames := s.store.frames, mapAreas := s.store.areas } }

/-! ## STORE_ALLOC (R106) -/

/-- Do two store frames share a row page? -/
def framesMeet (a b : Nat) : Bool :=
  let x := handlePage a
  let y := handlePage b
  decide (x.subch = y.subch ∧ x.rank = y.rank ∧ x.bg = y.bg ∧ x.bank = y.bank ∧ x.row < y.row + 5 ∧ y.row < x.row + 5)

/-- The free frames of a pool, lowest row first. -/
def freeFrames (s : State) (p : Pool) : List Nat :=
  ((List.range p.frames).map p.handle).filter (fun h => !s.store.frames.any (framesMeet h))

def Area.holds (a : Area) (u : Nat) : Bool := decide (a.handle ≤ u ∧ u < a.handle + a.units)

def unitFree (s : State) (u : Nat) : Bool := heapUnit s u && !s.store.areas.any (fun a => a.holds u)

/-- Units of the heap and the reserved region lie below this one. -/
def heapEnd (s : State) : Nat := reservedBase s.dram.cfg.config / 4096

/-- The first unit of the lowest run of `n` free units, from unit u on with `run` free units just before it. -/
def fitFrom (s : State) (n : Nat) : Nat → Nat → Nat → Option Nat
  | 0, _, _ => none
  | k + 1, u, run =>
    if unitFree s u then (if run + 1 = n then some (u - run) else fitFrom s n k (u + 1) (run + 1))
    else fitFrom s n k (u + 1) 0

/-- The pool of a context of a bank, when frames can be allocated in it. -/
def contextPool (s : State) (bank bar layer context : Nat) : Option Pool :=
  let k := if bank = 0 then s.run.active else s.spare
  let m := (s.bank k).image
  if !(s.bank k).loaded ∨ 7 < bar ∨ 1 < layer ∨ 255 < context ∨ !ctxUsed m bar layer context then none
  else
    let p := pool m (ctxPool m bar layer context)
    if p.installed s.dram.cfg.config s.dram.cfg.map then some p else none

def allocFrames (bank bar layer context count dest : Nat) (s : State) : State × Answer :=
  if 1 < bank ∨ count = 0 ∨ 65536 < count ∨ dest % 4 ≠ 0 then (s, refuse stBadParam)
  else match contextPool s bank bar layer context with
    | none => (s, refuse stBadParam)
    | some p =>
      let free := freeFrames s p
      if free.length < count then (s, answer stNoResource (leBytes 4 free.length))
      else
        let got := free.take count
        let s := mirrorMaps (s.withStore { s.store with frames := s.store.frames ++ got })
        (s.dmaWrite dest (got.flatMap (leBytes 4)), answer stOk (leBytes 4 count))

def allocArea (count : Nat) (s : State) : State × Answer :=
  if count = 0 ∨ 268435456 < count then (s, refuse stBadParam)
  else
    let n := ceilDiv count 4096
    match fitFrom s n (heapEnd s) 0 0 with
    | none => (s, answer stNoResource (leBytes 4 ((List.range (heapEnd s)).filter (unitFree s)).length))
    | some u =>
      let s := s.withStore { s.store with areas := s.store.areas ++ [{ handle := u, units := n, bytes := 4096 * n }] }
      (mirrorMaps s, answer stOk (leBytes 4 u))

def allocBody (kind bank bar layer context count dest : Nat) (s : State) : State × Answer :=
  if kind = 0 then allocFrames bank bar layer context count dest s
  else if kind = 1 then allocArea count s
  else (s, refuse stBadParam)

/-- STORE_ALLOC (R106): frames and areas are taken lowest first (DESIGN CHOICE). -/
def execStoreAlloc (h : Hdr) (kind bank bar layer context count dest : Nat) (s : State) : Result :=
  .next (hostCmd (.storeAlloc (unstarted h) kind bank bar layer context count dest) h (cmdOf 0x0050 0)
    (allocBody kind bank bar layer context count dest) s)

/-! ## Descriptors and tile lists (R103, R104) -/

def State.area (s : State) (handle : Nat) : Option Area := s.store.areas.find? (fun a => decide (a.handle = handle))

/-- A field of a descriptor in DRAM. -/
def descField (s : State) (d o w : Nat) : Nat := leNat (s.devRead (4096 * d + o) w)

/-- A layer entry. -/
structure LayerEntry where
  list : Nat
  rows : Nat
  firstCol : Nat
  cols : Nat
deriving DecidableEq, Repr

def layerEntry (s : State) (d bar layer : Nat) : LayerEntry :=
  let o := 16 + 16 * (2 * bar + layer)
  { list := descField s d o 4, rows := descField s d (o + 4) 4, firstCol := descField s d (o + 8) 2,
    cols := descField s d (o + 10) 2 }

/-- Device address of the list entry of a tile row and column. -/
def entryAddr (e : LayerEntry) (row col : Nat) : Nat := 4096 * e.list + 4 * (row * e.cols + (col - e.firstCol))

/-- What a tile list gives for a tile. -/
inductive TileRef where
  | empty | absent | frame (h : Nat)
deriving DecidableEq, Repr

/-- The tile of a row and column as its list stands; a poisoned entry counts as ABSENT (R304). -/
def listedTile (s : State) (e : LayerEntry) (row col : Nat) : TileRef :=
  if e.list = 0xFFFFFFFF ∨ col < e.firstCol ∨ e.firstCol + e.cols ≤ col then .empty
  else if s.devPoisoned (entryAddr e row col) 4 then .absent
  else
    let v := leNat (s.devRead (entryAddr e row col) 4)
    if v = 0xFFFFFFFE then .empty else if v = 0xFFFFFFFF then .absent else .frame v

/-- The handles a layer entry's list names. -/
def listHandles (s : State) (e : LayerEntry) : List Nat :=
  if e.list = 0xFFFFFFFF then []
  else (List.range (e.rows * e.cols)).filterMap (fun i =>
    match listedTile s e (i / max 1 e.cols) (e.firstCol + i % max 1 e.cols) with
    | .frame h => some h
    | _ => none)

def layersOf : List (Nat × Nat) := (List.range 8).flatMap (fun b => [(b, 0), (b, 1)])

/-- Every frame that a descriptor names. -/
def descHandles (s : State) (d : Nat) : List Nat := layersOf.flatMap (fun x => listHandles s (layerEntry s d x.1 x.2))

/-- Descriptors bound to pages that are not done: of the ready queue and of positions fixed, in a run (R105). -/
def boundDescs (s : State) : List Nat :=
  if s.dev ∈ [.armed, .run, .drain, .fault] then
    s.run.ready.map (·.descriptor) ++ (s.run.pages.filter (fun p => !p.done)).filterMap (·.descriptor)
  else []

/-- Is an area a bound descriptor, or a tile list that one names? -/
def areaLocked (s : State) (u : Nat) : Bool :=
  (boundDescs s).any (fun d => decide (d = u) || layersOf.any (fun x => decide ((layerEntry s d x.1 x.2).list = u)))

/-- Is a frame named by a descriptor resolved at a fence, before that page's PAGE_DONE (R83, R109)? -/
def frameBusy (s : State) (h : Nat) : Bool :=
  s.run.pages.any (fun p => p.resolved && !p.done && !p.blank && (match p.descriptor with
    | none => false
    | some d => decide (h ∈ descHandles s d)))

/-! ## STORE_WRITE (R107 to R109) -/

/-- The layer of the pool that holds a frame: of the active image first. -/
def frameLayer (s : State) (h : Nat) : Option Nat :=
  let of (k : Nat) : List Pool :=
    if (s.bank k).loaded then (List.range (poolCount (s.bank k).image)).map (pool (s.bank k).image) else []
  ((of s.run.active ++ of s.spare).find? (fun p => p.owns h)).map (·.layer)

/-- Write whole bursts of a store frame; their poison is cleared, and bytes beyond those given are 0. -/
def frameWrite (h o : Nat) (bs : List Byte) (s : State) : State :=
  let n := ceilDiv bs.length 64
  let cfg := s.dram.cfg.config
  let s := s.withDramMem ((List.zip (List.range (64 * n)) (padTo (64 * n) bs)).foldl (fun m x =>
    tput zeroByte m (framePhys cfg h (o + x.1)) x.2) s.store.dram)
  s.withPoison (clearBursts s.store.poison ((List.range n).map (fun i => burstOf (framePhys cfg h (o + 64 * i)))))

/-- Place a tile in packed form in a frame of a layer (R45, R108). -/
def placeTile (h layer : Nat) (bytes : List Byte) (s : State) : State :=
  if layer = 0 then frameWrite h 0 bytes s
  else
    let hd := bytes.take 32
    let s := (List.range 8).foldl (fun s g => frameWrite h (2048 * g) (packedGroup bytes g) s) s
    let s := frameWrite h 16384 hd s
    if tileCover hd = 2 then frameWrite h 18432 (bytes.drop (32 + tileLength hd)) s else s

/-- Bursts of a store frame. -/
def frameBursts (s : State) (h : Nat) : List Nat :=
  (List.range 320).map (fun i => burstOf (framePhys s.dram.cfg.config h (64 * i)))

/-- Byte offset of a frame's stored header. -/
def headerAt (layer : Nat) : Nat := if layer = 0 then 0 else 16384

/-- What the rules of a tile write answer when one fails. -/
def tileWriteCheck (s : State) (repair : Bool) (h layer : Nat) (bytes : List Byte) : Option Nat :=
  let hd := bytes.take 32
  if !repair ∧ frameBusy s h then some stBusy
  else if repair ∧ !(frameBursts s h).any (fun b => decide (b ∈ s.store.poison)) then some stWrongState
  else match headerError hd with
    | some e => some e.status
    | none =>
      if bytes.length ≠ 32 + tileLength hd + (if tileCover hd = 2 then 2048 else 0) then some stLength
      else if layer = 0 ∧ tileCover hd ≠ 0 then some stIllegalCode
      else if repair ∧ !s.burstPoisoned (framePhys s.dram.cfg.config h (headerAt layer))
          ∧ field (s.frameRead h (headerAt layer) 32) 28 4 ≠ tileCrc hd then some stBadParam
      else none

/-- A frame that lies in no pool of a loaded image has no layer to place a tile by, and answers BAD_PARAM. A write to an area covers whole
bursts too: what its last burst holds beyond LENGTH becomes 0. The manual says neither (DESIGN CHOICE, log 85). -/
def writeBody (target flags handle source length offset : Nat) (s : State) : State × Answer :=
  if 1 < target ∨ 1 < flags ∨ source % 64 ≠ 0 ∨ (target = 1 ∧ flags ≠ 0) then (s, refuse stBadParam)
  else if target = 0 then
    if length < 32 ∨ 18464 < length ∨ offset ≠ 0 ∨ handle ∉ s.store.frames then (s, refuse stBadParam)
    else match frameLayer s handle, s.dmaBad source length with
      | none, _ => (s, refuse stBadParam)
      | some _, some a => (s.dmaFault a, refuse stDataUe)
      | some layer, none =>
        let bytes := s.dmaRead source length
        match tileWriteCheck s (flags = 1) handle layer bytes with
        | some st => (s, refuse st)
        | none => (placeTile handle layer bytes (s.share [(handlePage handle).subch]), refuse stOk)
  else match s.area handle with
    | none => (s, refuse stBadParam)
    | some a =>
      if length = 0 ∨ offset % 64 ≠ 0 ∨ a.bytes < offset + length then (s, refuse stBadParam)
      else if areaLocked s handle then (s, refuse stBusy)
      else match s.dmaBad source length with
        | some x => (s.dmaFault x, refuse stDataUe)
        | none =>
          let n := ceilDiv length 64
          let at_ := 4096 * handle + offset
          let s := (s.share (spanSubs s at_ (64 * n))).devWrite at_ (padTo (64 * n) (s.dmaRead source length))
          (s.withPoison (clearBursts s.store.poison ((List.range n).map (fun i =>
            burstOf (physAddr s.dram.cfg.config s.dram.cfg.map (at_ + 64 * i))))), refuse stOk)

/-- STORE_WRITE (R107 to R109). -/
def execStoreWrite (h : Hdr) (target flags handle source length offset : Nat) (s : State) : Result :=
  .next (hostCmd (.storeWrite (unstarted h) target flags handle source length offset) h (cmdOf 0x0051 0)
    (writeBody target flags handle source length offset) s)

/-! ## STORE_FREE (R110) -/

def freeBody (kind handle : Nat) (s : State) : State × Answer :=
  if kind = 0 then
    if handle ∉ s.store.frames then (s, refuse stBadParam)
    else if frameBusy s handle then (s, refuse stBusy)
    else (mirrorMaps (s.withStore { s.store with frames := s.store.frames.erase handle }), refuse stOk)
  else if kind = 1 then
    match s.area handle with
    | none => (s, refuse stBadParam)
    | some a =>
      if areaLocked s handle then (s, refuse stBusy)
      else (mirrorMaps (s.withStore { s.store with areas := s.store.areas.erase a }), refuse stOk)
  else (s, refuse stBadParam)

/-- STORE_FREE (R110). -/
def execStoreFree (h : Hdr) (kind handle : Nat) (s : State) : Result :=
  .next (hostCmd (.storeFree (unstarted h) kind handle) h (cmdOf 0x0052 0) (freeBody kind handle) s)

/-! ## PAGE_READY (R47, R82, R105) -/

/-- Positions of a job that have not been resolved at a fence, as spans of page indices: bank, page program, first index and
number of pages (0: without end). The walk follows the sequence entry by entry. -/
def spansFrom (s : State) (k : Nat) : Nat → Nat → Nat → Nat → List (Nat × Nat × Nat × Nat)
  | 0, _, _, _ => []
  | n + 1, e, used, index =>
    let m := (s.bank k).image
    if seqCount m ≤ e then []
    else
      let x := seqEntry m e
      if x.2.2 = 0 then [(k, x.1, index, 0)]
      else (k, x.1, index, x.2.2 - used) :: spansFrom s k n (e + 1) 0 (index + (x.2.2 - used))

/-- The spans of a job still to be resolved: of the running job, or of an activation that waits. -/
def jobSpans (s : State) (job : Nat) : List (Nat × Nat × Nat × Nat) :=
  let open_ := (s.run.pages.filter (fun p => !p.resolved && decide (p.jobId = job))).map (fun p => (p.bank, p.pageProg, p.pageIndex, 1))
  let next := match nextPos s with
    | some p => if p.jobId = job then spansFrom s p.bank (seqCount (s.bank p.bank).image) p.seqEntry p.repeatNo p.pageIndex else []
    | none => []
  let later := match s.run.activation with
    | some a => if a.jobId = job then spansFrom s s.spare (seqCount (s.bank s.spare).image) 0 0 a.first else []
    | none => []
  open_ ++ next ++ later

/-- The first page index of the running job that is not resolved. -/
def firstOpen (s : State) : Nat :=
  match s.run.pages.find? (fun p => !p.resolved && decide (p.jobId = s.run.jobId)) with
  | some p => p.pageIndex
  | none => match nextPos s, s.run.pages.getLast? with
    | some p, _ => p.pageIndex
    | none, some p => p.nextIndex
    | none, none => s.run.firstPage

/-- A range of page indices holds an index. -/
def indexIn (first count i : Nat) : Bool := decide (first ≤ i) && (decide (count = 0xFFFFFFFF) || decide (i < first + count))

/-- A page of the range has passed its fence: of the running job those from FIRST_PAGE up to the first that has not, and of any job those
resolved at a fence (a slipped index has moved on). -/
def rangePassed (s : State) (job first count : Nat) : Bool :=
  (decide (job = s.run.jobId ∧ max first s.run.firstPage < firstOpen s) && indexIn first count (max first s.run.firstPage))
    || s.run.pages.any (fun p => p.resolved && !p.flagged 2 && decide (p.jobId = job) && indexIn first count p.pageIndex)

/-- The header of a descriptor and the reserved bytes of its layer entries (R103, R105). -/
def descriptorSound (s : State) (d : Nat) : Bool :=
  decide (descField s d 0 4 = 0x46435044 ∧ descField s d 9 7 = 0)
    && layersOf.all (fun x => decide (descField s d (16 + 16 * (2 * x.1 + x.2) + 12) 4 = 0))

/-- R105 for one page program of a bank. -/
def descriptorFits (s : State) (d k p : Nat) : Bool :=
  let m := (s.bank k).image
  decide (descField s d 4 4 = ppLen m p ∧ descField s d 8 1 = ppMask m p)
    && (ppBars m p).all (fun b =>
      let base := layerEntry s d b 0
      let var := layerEntry s d b 1
      decide (base.rows = tileRows m p b ∧ var.rows = base.rows) && (decide (var.list = 0xFFFFFFFF) || hasVariable m b)
        && [0, 1].all (fun l => (ctxList m b l).all (fun c => (List.range base.rows).all (fun r =>
          match listedTile s (layerEntry s d b l) r (ctxTileCol m b l c) with
          | .frame h => (pool m (ctxPool m b l c)).owns h
          | _ => true))))

/-- R47: the first bar, context and tile row whose stored base tile does not have the spans of the budget table. Tiles that
cannot be read are not compared. -/
def budgetMiss (s : State) (d k p : Nat) : Option (Nat × Nat × Nat) :=
  let m := (s.bank k).image
  (ppBars m p).findSome? (fun b => (ctxList m b 0).findSome? (fun c => (List.range (tileRows m p b)).findSome? (fun r =>
    let want (g : Nat) : Nat × Nat := budget m p b c r g
    let ok := match listedTile s (layerEntry s d b 0) r (ctxTileCol m b 0 c) with
      | .empty => (List.range 8).all (fun g => decide ((want g).2 = 0))
      | .absent => true
      | .frame h =>
        if h ∉ s.store.frames ∨ s.burstPoisoned (framePhys s.dram.cfg.config h 0) then true
        else
          let hd := s.frameRead h 0 32
          (List.range 8).all (fun g => decide (if (groupSpan hd g).2 = 0 then (want g).2 = 0 else want g = groupSpan hd g))
    if ok then none else some (b, c, r))))

/-- The page programs that place pages of a range. -/
def rangePrograms (s : State) (job first count : Nat) : List (Nat × Nat) :=
  distinct (((jobSpans s job).filter (fun x => (decide (count = 0xFFFFFFFF) || decide (x.2.2.1 < first + count))
    && (decide (x.2.2.2 = 0) || decide (first < x.2.2.1 + x.2.2.2)))).map (fun x => (x.1, x.2.1)))

def jobKnown (s : State) (job : Nat) : Bool :=
  decide (job = s.run.jobId) || (match s.run.activation with
    | some a => decide (a.jobId = job)
    | none => false)

/-- The signature of a descriptor (R378): the CRC-32C of its 272 bytes and of every tile-list area it names, in layer-entry
order. -/
def descSignature (s : State) (d : Nat) : Nat :=
  crc32c (s.devRead (4096 * d) 272 ++ layersOf.flatMap (fun x =>
    match s.area (layerEntry s d x.1 x.2).list with
    | some a => s.devRead (4096 * a.handle) a.bytes
    | none => []))

/-- The ready queue goes into the checkpoint (R377). -/
def mirrorReady (s : State) : State :=
  s.withBoot { s.boot with checkpoint := { s.boot.checkpoint with ready := s.run.ready } }

def readyBody (job first count descriptor : Nat) (s : State) : State × Answer :=
  if count = 0 ∨ !jobKnown s job ∨ (s.area descriptor).isNone then (s, refuse stBadParam)
  else if rangePassed s job first count then (s, refuse stWrongState)
  else if 1024 ≤ s.run.ready.length then (s, refuse stNoResource)
  else
    let progs := rangePrograms s job first count
    if !descriptorSound s descriptor ∨ progs.any (fun x => !descriptorFits s descriptor x.1 x.2) then (s, refuse stBadParam)
    else match progs.findSome? (fun x => budgetMiss s descriptor x.1 x.2) with
      | some (b, c, r) => (s, answer stCapacity (leBytes 1 b ++ [0] ++ leBytes 2 c ++ leBytes 4 r))
      | none =>
        let r : Ready := { jobId := job, first := first, count := count, descriptor := descriptor,
                           signature := descSignature s descriptor }
        (mirrorReady (s.withRun { s.run with ready := s.run.ready ++ [r] }), refuse stOk)

/-- PAGE_READY (R47, R82, R105). -/
def execPageReady (h : Hdr) (jobId first count descriptor : Nat) (s : State) : Result :=
  .next (hostCmd (.pageReady (unstarted h) jobId first count descriptor) h (cmdOf 0x0053 0)
    (readyBody jobId first count descriptor) s)

/-- A page index that a span of positions still to be resolved holds. -/
def spanHolds (x : Nat × Nat × Nat × Nat) (i : Nat) : Bool :=
  decide (x.2.2.1 ≤ i) && (decide (x.2.2.2 = 0) || decide (i < x.2.2.1 + x.2.2.2))

/-- An entry of the ready queue still binds a page: one to be resolved lies in its range, and no later entry replaces it there. The least
such index begins a span or the range, or follows the range of another entry. -/
def stillBinds (s : State) (r : Ready) : Bool :=
  let spans := jobSpans s r.jobId
  (r.first :: spans.map (fun x => x.2.2.1) ++ s.run.ready.map (fun q => q.first + q.count)).any (fun i =>
    spans.any (fun x => spanHolds x i) && decide (readyFor s r.jobId i = some r))

/-- Entries of the ready queue that bind no page any more leave it; pages resolved hold their descriptors themselves (R105). -/
def pruneReady (s : State) : State := s.withRun { s.run with ready := s.run.ready.filter (stillBinds s) }

end Sys2Proof.Machine
end

