-- ==== Sys2Proof/Machine/Feed.lean ====
section
/-! DEFINITION. Machine/Feed.lean: the feed history of colour keeping (R268, R269): accumulators of the feed blocks, what disturbs
them, and the feed ring. -/

namespace Sys2Proof.Machine

open Sys2Proof

/-- UNIF_TOL in force for a bar (R283). -/
def unifTol (s : State) (b : Nat) : Nat :=
  let t := (tget (fun _ => KeepBar.reset) s.keep.bars b).record.unifTol
  if t = 0 then 256 else t

/-- The 16 bits of a feed entry (R269). -/
def feedEntry (tol : Nat) (a : FeedAcc) : Nat :=
  (if a.count = 0 then 0 else a.sum / a.count % 4096) + 4096 * bitNat a.disturbed + 8192 * bitNat a.ramp
    + 16384 * bitNat (decide (16 * tol < a.greatest - a.least))

def accGet (t : Tab FeedAcc) (k : Nat) : FeedAcc := tget (fun _ => FeedAcc.reset) t k
def accPut (t : Tab FeedAcc) (k : Nat) (a : FeedAcc) : Tab FeedAcc := tput (fun _ => FeedAcc.reset) t k a

/-- The slot of the feed ring that holds a block. -/
def fedSlot (s : State) (page block : Nat) : Option (Nat × FeedBlock) :=
  s.keep.feed.findSome? (fun e => match e.2 with
    | some f => if f.page = page ∧ f.block = block then some (e.1, f) else none
    | none => none)

/-- Change an open block; one that is not open yet is opened. -/
def updOpen (page block : Nat) (f : FeedOpen → FeedOpen) (s : State) : State :=
  let is (o : FeedOpen) : Bool := decide (o.page = page ∧ o.block = block)
  let l := s.keep.feedOpen
  let l := if l.any is then l else l ++ [{ page := page, block := block, bars := 0, accs := [] }]
  s.withKeep { s.keep with feedOpen := l.map (fun o => if is o then f o else o) }

/-- A 16-column unit of a line adds to its zone: `sum` of the T of its columns. -/
def feedUnit (b page line unit sum : Nat) (ramp : Bool) (s : State) : State :=
  let k := 432 * b + unit / 16
  updOpen page (line / 64) (fun o =>
    let a := accGet o.accs k
    let a : FeedAcc := { sum := a.sum + sum, count := a.count + 16, least := if a.count = 0 then sum else min a.least sum,
                         greatest := max a.greatest sum, disturbed := a.disturbed, ramp := a.ramp || ramp }
    { o with accs := accPut o.accs k a }) s

/-- Where a slot of the feed ring stands in the reserved DRAM (R289), and the entry of 432 × bar + zone in it. -/
def feedAddr (s : State) (slot : Nat) : Nat := reservedBase s.dram.cfg.config + 7168 * slot
def feedEntryAddr (s : State) (slot k : Nat) : Nat := feedAddr s slot + 64 + 2 * k

/-- An entry as it stands in the ring. -/
def ringEntry (s : State) (slot k : Nat) : Nat := leNat (s.devRead (feedEntryAddr s slot k) 2)

/-- An entry as the firmware reads it: that of a block with a poisoned burst counts as DISTURBED (R304). -/
def FeedBlock.entry (f : FeedBlock) (s : State) (k : Nat) : Nat :=
  if s.devPoisoned (feedAddr s f.slot) 7168 then setBit (ringEntry s f.slot k) 12 true else ringEntry s f.slot k

/-- Some line of a block was disturbed in some zones of a bar (R269): a block still open, or one in the ring already. -/
def disturbBlock (b page block : Nat) (zones : List Nat) (s : State) : State :=
  match fedSlot s page block with
  | some (i, _) =>
    let s := s.share (spanSubs s (feedEntryAddr s i (432 * b)) 864)
    zones.foldl (fun s z =>
      s.devWrite (feedEntryAddr s i (432 * b + z)) (leBytes 2 (setBit (ringEntry s i (432 * b + z)) 12 true))) s
  | none => updOpen page block (fun o =>
      { o with accs := zones.foldl (fun t z => accPut t (432 * b + z) { accGet t (432 * b + z) with disturbed := true }) o.accs }) s

/-- Zones of a span of columns, and of a slot of the bank in force. -/
def zonesOfCols (first n : Nat) : List Nat :=
  if n = 0 then [] else (List.range ((first + n - 1) / 256 + 1)).filter (fun z => decide (first / 256 ≤ z))

def zonesOfSlot (s : State) (b sl : Nat) : List Nat := zonesOfCols (s.tabNum 5 b (32 + 32 * sl) 4) (s.nozzles b sl)

/-- Image line `line` of the page that begins at `page` was disturbed on a slot. -/
def disturbLine (b sl page line : Nat) (s : State) : State := disturbBlock b page (line / 64) (zonesOfSlot s b sl) s

/-- Slot lines due from tick `lo` up to before tick `hi` were disturbed on a slot. -/
def disturbTicks (b sl lo hi : Nat) (s : State) : State :=
  let c := s.coarse b sl
  (s.run.pages.filter (fun p => p.placed)).foldl (fun s p =>
    let blocks := distinct (((List.range (hi - lo)).map (fun i => lo + i)).filterMap (fun t =>
      if p.start + c ≤ t ∧ t < p.start + c + p.length then some ((t - p.start - c) / 64) else none))
    blocks.foldl (fun s k => disturbBlock b p.start k (zonesOfSlot s b sl) s) s) s

/-- The zone gain TO in force for a page, and the sum of the column gains of the zone's 256 columns; `k` is 432 × bar + zone. -/
def zoneGain (s : State) (page k : Nat) : Nat := s.tabNumFor 1 (k / 432) page (16 + 2 * (k % 432)) 2
def zoneColumns (s : State) (page k : Nat) : Nat :=
  ((List.range 256).map (fun i => s.tabNumFor 2 (k / 432) page (2 * (256 * (k % 432) + i)) 2)).foldl (· + ·) 0

/-- The 7,168 bytes of a slot (R269). The widths of the header's fields but p are the model's (DESIGN CHOICE, log 92). -/
def feedSlotBytes (s : State) (f : FeedBlock) (o : FeedOpen) : List Byte :=
  leBytes 4 f.jobId ++ leBytes 4 f.pageIndex ++ leBytes 8 f.page ++ leBytes 4 f.block ++ leBytes 4 f.lines ++ leBytes 1 f.barMask
    ++ List.replicate 39 0 ++ (List.range 3456).flatMap (fun k => leBytes 2 (feedEntry (unifTol s (k / 432)) (accGet o.accs k)))
    ++ List.replicate 192 0

/-- A slot is written through the dynamic share: whole bursts, with fresh check bits (R269, R303). -/
def writeSlotBytes (slot : Nat) (bs : List Byte) (s : State) : State :=
  let a := feedAddr s slot
  let s := (s.share (spanSubs s a 7168)).devWrite a bs
  let bursts := (List.range 112).map (fun i => burstOf (physAddr s.dram.cfg.config s.dram.cfg.map (a + 64 * i)))
  s.withPoison (clearBursts s.store.poison bursts)

/-- The block of a page goes into the next slot of the feed ring. -/
def writeFeed (p : PagePos) (o : FeedOpen) (s : State) : State :=
  let f : FeedBlock := { slot := s.keep.feedNext, jobId := p.jobId, pageIndex := p.pageIndex, page := p.start, block := o.block,
                         lines := min 64 (p.length - 64 * o.block), barMask := ppMask (s.bank p.bank).image p.pageProg,
                         pattern := if p.patterned then p.descriptor else none,
                         gains := o.accs.foldl (fun t e => tput (fun _ => 0x8000) t e.1 (zoneGain s p.start e.1)) [],
                         columns := o.accs.foldl (fun t e => tput (fun _ => 0x800000) t e.1 (zoneColumns s p.start e.1)) [] }
  let s := writeSlotBytes f.slot (feedSlotBytes s f o) s
  s.withKeep { s.keep with
    feedOpen := s.keep.feedOpen.filter (fun x => !decide (x.page = o.page ∧ x.block = o.block))
    feed := tput (fun _ => none) s.keep.feed s.keep.feedNext (some f)
    feedNext := (s.keep.feedNext + 1) % 16384 }

/-- Bar b has been toned to the end of an image line. When that was a block's last line on the last bar of the page, the block is
written. -/
def feedLineDone (b page line : Nat) (s : State) : State :=
  match s.pageAt page with
  | none => s
  | some p =>
    if line % 64 ≠ 63 ∧ line + 1 ≠ p.length then s
    else
      let s := updOpen page (line / 64) (fun o => { o with bars := setBit o.bars b true }) s
      match s.keep.feedOpen.find? (fun o => decide (o.page = page ∧ o.block = line / 64)) with
      | none => s
      | some o => if (ppBars (s.bank p.bank).image p.pageProg).all (bit o.bars) then writeFeed p o s else s

/-- A run begins with an empty feed history: web positions start again at 0. What the cameras saw of registration pages before can no
longer be told from what they see now (DESIGN CHOICE, log 93). -/
def clearFeed (s : State) : State :=
  s.withKeep { s.keep with
    feedOpen := [], feed := [], feedNext := 0,
    reg := s.keep.reg.map (fun o => { o with seen := o.seen.map (fun r => { r with rows := false }) }) }

end Sys2Proof.Machine
end

