-- ==== Sys2Proof/Machine/Run.lean ====
section
/-! DEFINITION. Machine/Run.lean: the start of a run, its ticks, fences, page and gap boundaries and PAGE_DONE (R66, R67, R70 to
R75, R79, R83 to R91, R93, R230, R231, R236, R237, R411). -/

namespace Sys2Proof.Machine

open Sys2Proof

/-- 12 bytes of an instant: TAI seconds and nanoseconds. -/
def taiBytes (t : Nat) : List Byte := leBytes 8 (taiSec t) ++ leBytes 4 (taiNs t)

/-! ## The run record (R379) -/

/-- P_ENC of the run record and of a period update: p_enc to the nearest 2^-16 ns. What the field holds with no p_enc in force,
or with one that has no upper bound, is a free value. -/
def pEncField (s : State) : Nat × State :=
  match s.web.pEnc with
  | .value num den => (roundDivNat num (max 1 den), s)
  | _ => s.draw (2 ^ 64)

/-- The run record of the page position that begins at the boundary `p.start`, whose tick has the time-base instant `tick`. -/
def runRecord (s : State) (p : PagePos) (tick period pEnc : Nat) : List Byte :=
  let body := leBytes 4 0x44524352 ++ leBytes 2 1 ++ leBytes 1 (bitNat (s.dev = .run) + 2 * bitNat (s.dev = .drain))
    ++ leBytes 1 s.fencePolicy ++ leBytes 8 (imgId (s.bank p.bank).image) ++ leBytes 4 p.jobId ++ leBytes 4 p.pageIndex
    ++ leBytes 2 p.seqEntry ++ leBytes 2 s.fenceLead ++ leBytes 4 p.repeatNo ++ leBytes 8 p.start ++ leBytes 8 (taiSec tick)
    ++ leBytes 4 (taiNs tick) ++ leBytes 2 (taiFrac tick) ++ [0, 0] ++ leBytes 8 period ++ leBytes 8 pEnc
    ++ leInt 4 (s.web.eps.getD 0) ++ List.replicate 16 0
  body ++ leBytes 4 (crc32c body)

/-- The run record goes into the checkpoint (R377). -/
def saveRecord (p : PagePos) (tick period : Nat) (s : State) : State :=
  let (pEnc, s) := pEncField s
  s.withBoot { s.boot with checkpoint := { s.boot.checkpoint with runRecord := some (runRecord s p tick period pEnc) } }

/-! ## Tick markers and steering (R180 to R183) -/

/-- The frame programs that a bar plays in the frame of tick w, with their Caldera banks. -/
def playedFrames (s : State) (b w : Nat) : List (Nat × Nat) :=
  (s.run.pages.filter (fun p => p.resolved && !p.blank)).filterMap (fun p =>
    (framePlayed (s.bank p.bank).image p.pageProg b p.start w).map (fun f => (f, p.bank)))

/-- The body of a PROG block for the frame of tick w. -/
def progBody (s : State) (b w : Nat) : Nat :=
  match playedFrames s b w with
  | [] => 0xFFFFF + 2 ^ 20 * 0xFFFFF
  | [x] => x.1 + 2 ^ 20 * 0xFFFFF + 2 ^ 40 * x.2
  | x :: y :: _ => x.1 + 2 ^ 20 * y.1 + 2 ^ 40 * x.2 + 2 ^ 41 * y.2

/-- The body of the MARK block of the latest tick: M is the device's own measure, 396 to 527. -/
def markBody (s : State) : Nat :=
  396 + Config.markM s.draws % 132 + 2 ^ 11 * (s.web.webPos % 65536) + 2 ^ 27 * bitNat (runEnabled s)

/-- The PROG payload of the frame of tick w. -/
def progPayload (s : State) (w g : Nat) : Nat := ctrlPayload 0x33 31 false (progBody s g w)
def wordBlk (v : Nat) : Blk := { ctrl := true, payload := BitVec.ofNat 64 v }

/-- The PROG block of the frame of tick w leaves on a group before the first tick of a run (R183). -/
def sendProg (w : Nat) (s : State) (g : Nat) : State :=
  let v := progPayload s w g
  let s := s.withGroup g { s.group g with prog := some (BitVec.ofNat 64 v) }
  s.sendBlocks g [wordBlk v]

/-- The LANE block of an announced switch in the reserve of a frame before its tick (R198). -/
def announceBlks (s : State) (g : Nat) : List Blk :=
  match (s.group g).switch with
  | none => []
  | some w => if s.web.webPos < w.tick then [laneBlk w] else []

/-- The MARK block of the latest tick and the PROG block of the next frame leave on every lane of a group, and the announcement of a switch in
the reserve (R180, R198). -/
def sendMark (s : State) (g : Nat) : State :=
  let m := ctrlPayload 0x2D 31 false (markBody s)
  let s := s.withDraws (s.draws + 1)
  let p := progPayload s (s.web.webPos + 1) g
  let s := s.withGroup g { s.group g with mark := some (BitVec.ofNat 64 m), prog := some (BitVec.ofNat 64 p) }
  let s := s.sendFrame g true [(0, List.replicate 4 (wordBlk m)), (1, List.replicate 4 (wordBlk p))]
  let s := [wordBlk m, wordBlk p].foldl (traceSent g) s
  let sent := (s.group g).sent
  match announceBlks s g with
  | [] => s
  | l =>
    let s := s.sendBlocks g l
    s.withGroup g { s.group g with sent := sent ++ (s.group g).sent }

/-- Groups of bars that play whose downstream is awake. -/
def markedGroups (s : State) : List Nat :=
  (playingBars s).filter (fun g => decide ((s.group g).down = .l0 ∧ (s.group g).readyAt ≤ s.clk.elapsed))

def sendMarks (s : State) : State := (markedGroups s).foldl sendMark s

/-- A run's first frame is described before its first tick (R183): its first page alone may be played in it. -/
def sendFirstProgs (s : State) : State :=
  let pages := s.run.pages
  let s := s.withRun { s.run with pages := [{ firstPos s with resolved := true }] }
  let s := (markedGroups s).foldl (sendProg 0) s
  s.withRun { s.run with pages := pages }

/-! ## RUN_START (R70, R71) -/

def startBody (mode mark leadIn sec ns period : Nat) (s : State) : State × Answer :=
  let m := s.activeImage
  let p := if period = 0 then imgPMin m else period
  let at_ := if mode = 0 then s.base + msT else sec * secT + ns * nsT
  if 1 < s.devices ∧ s.net.lead.role ≠ .lead then (s, refuse stWrongState)
  else if 2 < mode ∨ (mode = 2 ∧ 3 < mark) ∨ leadIn < 5 ∨ 16777215 < leadIn ∨ (mode = 1 ∧ (999999999 < ns ∨ at_ < s.base + msT))
      ∨ p < imgPMin m ∨ imgPMax m < p then (s, refuse stBadParam)
  else if s.run.hdmStale ≠ [] ∨ s.run.startArmed ∨ s.run.rejoinAt.isSome ∨ s.run.startMark.isSome ∨ (readyFor s s.run.jobId s.run.firstPage).isNone then
    (s, refuse stWrongState)
  else
    let s := s.withRun { s.run with leadIn := leadIn, p0 := p, tRun := if mode = 2 then 0 else at_,
                                    startArmed := decide (mode ≠ 2), startMark := if mode = 2 then some mark else none }
    let s := s.withNet { s.net with lead := { s.net.lead with startRec := decide (s.net.lead.role = .lead) } }
    let s := saveRecord (firstPos s) (s.run.tRun + leadIn * p) p s
    (sendFirstProgs s, answer stOk (taiBytes s.run.tRun))

/-- RUN_START (R70, R71, R411). With AT_MARK the result holds 0 in place of the instant that is not known yet. -/
def execRunStart (h : Hdr) (mode mark leadIn sec ns period : Nat) (s : State) : Result :=
  .next (hostCmd (.runStart (unstarted h) mode mark leadIn sec ns period) h (cmdOf 0x0061 0)
    (startBody mode mark leadIn sec ns period) s)

/-! ## Tick 0 -/

/-- The elapsed time at which the time base reads `t`, no earlier than now: the difference, corrected for the slew and the DCO's rate until
it is below 2^-16 ns. -/
def Clk.whenBase (c : Clk) (t : Nat) : Time :=
  max c.elapsed ((List.range 8).foldl (fun e _ => e + t - c.baseAt e) c.elapsed)

/-- The step happens when the time base reads `t`. -/
def State.atBase (s : State) (t : Nat) : State := s.at (s.clk.whenBase t)

/-- Bind a page's descriptor: a fence that is met. Handles that are free now read as ABSENT (R110). -/
def resolvePage (s : State) (d : Nat) (p : PagePos) : PagePos :=
  { p with resolved := true, descriptor := some d, patterned := s.keep.decls.any (fun x => decide (x.descriptor = d)),
           absent := (descHandles s d).filter (fun h => decide (h ∉ s.store.frames)) }

/-- The motion unit at tick 0 of a run. Period updates that the lead has already sent stay (R247). -/
def startWeb (w : Web) (tRun p0 : Nat) : Web :=
  { w with running := true, ticked := true, webPos := 0, tickTime := tRun, period := p0, nominal := p0, pEnc := .unset,
           late := [], windowStart := tRun, trims := [], encoders := w.freshEncoders, lengthErr := 0,
           warned := false, limited := false, eps := none, regActive := false, marks := [], history := [(0, tRun, p0)] }

/-- Telemetry of a slot counts as measured while the clock stood. -/
def restTelem (x : Slot) : Slot :=
  let rest (t : Option Telem) : Option Telem := t.map (fun t => { t with tick := 0, since := 0 })
  { x with telem := rest x.telem, telem2 := rest x.telem2, vsupHeld := false }

def restSlots (s : State) : State :=
  s.withLink { s.link with slots := s.link.slots.foldl (fun t e => tput (fun _ => Slot.reset) t e.1 (restTelem e.2)) s.link.slots }

/-- Keeping intervals begin at the first tick of RUN (R275), with no samples. -/
def startIntervals (s : State) : State :=
  s.withKeep { s.keep with bars := s.keep.bars.foldl (fun t e => tput (fun _ => KeepBar.reset) t e.1
    { e.2 with intervalStart := if e.2.enabled then some s.web.webPos else none, acc := [], lastStep := 0, computed := none }) s.keep.bars }

/-- The first tick of a device: 0, but for a follower that learns of the start after T_run its next tick under R230, counted with P_0
(R411). -/
def firstTick (s : State) : Nat :=
  if s.net.lead.role = .follower then ceilDiv (s.base - s.run.tRun) (max 1 s.run.p0) else 0

/-- The line clock starts with web position `n` at its instant, and RUN is entered. The first page is ready (R71), and its descriptor
is resolved at its fence like that of any other page (R83). -/
def beginRun (n : Nat) (s : State) : State :=
  let t := s.run.tRun + n * s.run.p0
  let s := s.withWeb { startWeb s.web s.run.tRun s.run.p0 with webPos := n, tickTime := t, history := [(n, t, s.run.p0)] }
  let settled : Ramp := { page := 0, lines := 0, start := [], k0 := 4096 }
  let s := s.withTables { s.tables with latches := [], zoneCommits := [],
                                        ramps := (List.range 8).foldl (fun t b => tput (fun _ => []) t b [settled]) [] }
  let s := s.withHost { s.host with plume := { s.host.plume with summed := none } }
  let s := clearFeed (restSlots (State.freshDram (s.withPath (clearPath s.path))))
  let s := s.withRun { s.run with startArmed := false, startMark := none, stop := .none, pages := [firstPos s], activation := none,
                                  oldBankBusy := false, pagePlaced := 0xFFFFFFFF, marked := [], defects := [] }
  sendMarks (settleShifts (startIntervals (decideWithdrawals ((setPeriod s.run.p0 s).enter .run))))

/-- T_RUN_TICK (R67, R71, R230, R411): the tick at T_run, or the first tick after it of a follower told late. -/
def execTRunTick (s : State) : Result :=
  let n := firstTick s
  if s.dev = .armed ∧ s.run.startArmed then .next (beginRun n (s.atBase (s.run.tRun + n * s.run.p0))) else .next s

/-! ## Ticks (R73, R230, R231, R236, R237) -/

/-- A page boundary of the run lies at web position n: LEAD_IN, or the end of a position. -/
def isBoundary (s : State) (n : Nat) : Bool := decide (n = s.run.leadIn) || s.run.pages.any (fun p => decide (p.endPos = n))

/-- What R236 adds to E for a frame of period p, in 2^-8 nm: a numerator and a denominator. -/
def lengthGrowth (pitch p : Nat) : PEnc → Int × Nat
  | .unset => (0, 1)
  | .unbounded => (-(pitch : Int), 256)
  | .value num den => ((pitch : Int) * ((p * den : Nat) - (num : Int)), num * 256)

/-- An exact growth is added as it is; of any other, a free draw says which of the two nearest values E takes. -/
def grow (x : Int × Nat) (s : State) : State :=
  let low := x.1 / x.2
  if x.1 % x.2 = 0 then s.withWeb { s.web with lengthErr := s.web.lengthErr + low }
  else
    let (up, s) := s.draw 2
    s.withWeb { s.web with lengthErr := s.web.lengthErr + low + up }

/-- E after the frame that has ended. With TRIM OFF on a solo device it stays 0. -/
def addLength (s : State) (p : Nat) : State :=
  if isBoundary s s.web.webPos then s.withWeb { s.web with lengthErr := 0, warned := false, limited := false }
  else if s.web.motion.trim = 0 ∧ s.net.lead.role = .solo then s
  else grow (lengthGrowth s.web.motion.linePitch p s.web.pEnc) s

/-- The page position being printed: the latest placed. -/
def currentPage (s : State) : Option PagePos := (s.run.pages.filter (fun p => p.placed)).getLast?

def errLimit (m : Motion) : Nat := (if m.errLimit = 0 then 500 else m.errLimit) * 256000

/-- The sign of E (0 overspeed, 1 underspeed), E in nm, and the web position. -/
def speedFields (s : State) : List Byte :=
  leBytes 1 (bitNat (s.web.lengthErr < 0)) ++ leInt 4 (s.web.lengthErr / 256) ++ leBytes 8 s.web.webPos

/-- What SPEED_POLICY does at the tick at which E reaches its limit. -/
def applySpeedPolicy (s : State) : State :=
  let s := match currentPage s with
    | some p => markDefect p.start s
    | none => s
  match s.web.motion.speedPolicy with
  | 1 => blankBars s
  | 2 => stopRequest (produce 4 none s.web.webPos (blankBars s))
  | _ => s

/-- R237 at a tick. -/
def checkSpeed (s : State) : State :=
  let e := s.web.lengthErr.natAbs
  let s := if !s.web.warned ∧ 12800000 < e then
      ((s.withWeb { s.web with warned := true }).raise 4).report 0x3001 (logKey none none none none) 0 (speedFields s)
    else s
  if !s.web.limited ∧ errLimit s.web.motion ≤ e then
    applySpeedPolicy (((s.withWeb { s.web with limited := true }).raise 4).report 0x3002 (logKey none none none none) 0 (speedFields s))
  else s

/-- The period of the frame that the new tick begins: a trim whose tick has come, and the additions of a late update
(R235, R247). -/
def framePeriod (s : State) : State :=
  let due := s.web.trims.filter (fun x => decide (x.1 ≤ s.web.webPos))
  let s := s.withWeb { s.web with trims := s.web.trims.filter (fun x => decide (s.web.webPos < x.1)) }
  let s := s.withWeb { s.web with late := s.web.late.filter (fun x => decide (s.web.webPos < x.1 + 256)) }
  let s := match due.getLast? with
    | some x => setPeriod (clampPeriod s x.2) s
    | none => s
  s.reframe

/-- The fire instant of a slot line due at tick t, in 1/165 of 2^-16 ns of the time base, in which a unit interval is 2^20 (R22, R152,
R182). -/
def fireInstant (s : State) (p : PagePos) (b sl t : Nat) : Option Nat :=
  let f := s.fineFor b sl p.start
  let trail := firesTrail ((s.head b sl).any (fun h => h.mem.leadRowB)) t
  let h := if trail then trailTicks f (s.rowSpacing b sl) else 0
  let r := if trail then trailRest f (s.rowSpacing b sl) else f
  (s.web.history.find? (fun x => decide (x.1 = t + h))).map (fun x => 165 * x.2.1 + 2 ^ 20 * (4096 + delayUi r x.2.2))

/-- A fire instant is gated (R226): it is later than a falling edge of FIRE_EN minus 1 UI, and FIRE_EN has not risen before it, or has
risen for later pages only. -/
def instantGated (s : State) (b start x : Nat) : Bool :=
  let bar := s.bar b
  let after (fell : Time) : Bool := decide (165 * fell < x + 2 ^ 20)
  (!bar.fireEn && after bar.fellAt)
    || bar.lows.any (fun l => after l.1 && (decide (x < 165 * l.2) || decide (start < bar.releaseBoundary)))

/-- Lines of a slot, by their due ticks, whose fire instants lie in the frame that the latest tick ends, and were gated. -/
def gatedLines (s : State) (p : PagePos) (b sl : Nat) : List Nat :=
  let w := s.web.webPos
  let first := p.start + s.coarse b sl
  let h := s.held b sl
  let began := match s.web.history.find? (fun x => decide (x.1 + 1 = w)) with
    | some x => x.2.1
    | none => 0
  (distinct ([1, 2, 3, 4].flatMap (fun i => [w - i, w - h - i]))).filter (fun t => decide (first ≤ t ∧ t < first + p.length)
    && (match fireInstant s p b sl t with
      | some x => decide (165 * began ≤ x ∧ x < 165 * s.web.tickTime) && instantGated s b p.start x
      | none => false))

/-- A gated line is counted and marks its page, and what it was to feed is disturbed; run enable deasserted, RUN_STOP NOW or FAULT has cut
the page short (R75, R226). -/
def noteGated (p : PagePos) (b sl t : Nat) (s : State) : State :=
  let cut := !runEnabled s
  disturbLine b sl p.start (t - p.start - s.coarse b sl)
    ((s.count (barCounter b 3)).updPage p.start (fun p => if cut then (p.flag 5).flag 3 else p.flag 5))

/-- Lines of a page that have been gated. -/
def gatePage (s : State) (p : PagePos) : State :=
  if p.blank then s
  else (ppBars (s.bank p.bank).image p.pageProg).foldl (fun s b =>
    (s.fittedSlots b).foldl (fun s sl => (gatedLines s p b sl).foldl (fun s t => noteGated p b sl t s) s) s) s

/-- A new frame: no cue of it has issued yet, and the print path drops what it no longer needs: slot lines past their due tick, and lines
that every slot has mapped. -/
def cleanPath (s : State) : State :=
  s.withPath { s.path with
    issued := []
    staging := s.path.staging.filter (fun l => decide (s.web.webPos ≤ l.due))
    lines := s.path.lines.filter (fun l => decide (s.web.webPos ≤ l.page + l.line + coarseMax s l.bar)) }

/-- The frame that has begun is remembered for the camera lines of R253, which reach back at most 1 ms. -/
def noteFrame (s : State) : State :=
  s.withWeb { s.web with history := ((s.web.webPos, s.web.tickTime, s.web.period) :: s.web.history).take 256 }

/-- A tick: web position, time, E, the period of the new frame. A period update of the frame that ends has been applied. -/
def advance (s : State) : State :=
  let s := applyUpdates s
  let p := s.web.period
  let s := s.atBase (s.web.tickTime + p)
  let s := s.withWeb { s.web with webPos := s.web.webPos + 1, tickTime := s.web.tickTime + p }
  noteFrame (checkSpeed (framePeriod (addLength s p)))

/-- LINE_CLOCK_TICK (R73, R230, R231): the next tick, `pipe` PIPE cycles after the one before. -/
def execLineClockTick (pipe : Nat) (s : State) : Result :=
  if !s.web.running then .next s
  else
    let s := endSnapshots true (advance s)
    let s := if pipe + 2 < imgLMin s.activeImage ∧ s.dev ≠ .fault then
        (s.report 0x100A (logKey none none none none) 0 []).enterFault .shortFrame
      else s
    let s := s.settleGates
    let s := s.run.pages.foldl gatePage s
    .next (drainCheck (sendMarks (cleanPath (decideWithdrawals s))))

/-! ## Fences (R83, R84, R412) -/

/-- The position a fence is of: one already fixed, or the next. -/
def fencePos (s : State) (start : Nat) : Option PagePos :=
  match s.pageAt start with
  | some p => some p
  | none => match nextPos s with
    | some p => if p.start = start then some p else none
    | none => none

/-- Put a position among those fixed. -/
def fixPage (p : PagePos) (s : State) : State :=
  if (s.pageAt p.start).isSome then s.updPage p.start (fun _ => p) else s.withRun { s.run with pages := s.run.pages ++ [p] }

/-- The latest descriptor resolved for the same page program of the same bank (log 29). -/
def lastDescriptor (s : State) (p : PagePos) : Option Nat :=
  ((s.run.pages.filter (fun q => q.resolved && decide (q.bank = p.bank ∧ q.pageProg = p.pageProg) && q.descriptor.isSome)).getLast?.map
    (fun q => q.descriptor)).join

/-- The policy applied to a missed fence: SLIP becomes STOP where the next position has a different page program. At the last position of
the sequence, which has no next one, SLIP stays SLIP (DESIGN CHOICE, log 85). -/
def appliedPolicy (s : State) (p : PagePos) : Nat :=
  if s.fencePolicy = 0 then
    match following s p with
    | some q => if q.pageProg = p.pageProg ∧ q.bank = p.bank then 0 else 2
    | none => 0
  else s.fencePolicy

/-- A follower asks the lead to end the run at a boundary (R412). -/
def requestStop (b : Nat) (s : State) : State :=
  s.withNet { s.net with lead := { s.net.lead with stopReq := some (match s.net.lead.stopReq with
    | some x => min x b
    | none => b) } }

/-- Nothing begins at the latest boundary, or what it has placed is taken back: the run ends there (R83, R91, R95). -/
def runEnds (s : State) : State :=
  let s := s.withRun { s.run with stop := match s.run.stop with
    | .none => .atBoundary s.web.webPos
    | x => x }
  let s := if s.dev = .run then s.enter .drain else s
  match s.run.pages.getLast? with
  | none => s
  | some p => saveRecord { p with start := p.endPos, pageIndex := p.nextIndex, repeatNo := p.repeatNo + 1 } s.web.tickTime s.web.period s

/-- The fence of a position is missed. -/
def missFence (p : PagePos) (s : State) : State :=
  let pol := appliedPolicy s p
  let s := ((s.count 2).raise 5).report 0x1002 (logKey none none none none) 0
    (leBytes 4 p.jobId ++ leBytes 4 p.pageIndex ++ leBytes 8 p.start ++ leBytes 1 pol)
  let p := p.flag 0
  match pol with
  | 0 =>
    let q := { p.flag 2 with resolved := true, blank := true }
    let s := fixPage q s
    if p.placed then s.withRun { s.run with pageIndex := q.nextIndex } else s
  | 1 =>
    let d := lastDescriptor s p
    let q := match d with
      | some d => resolvePage s d p
      | none => p
    fixPage { q.flag 1 with resolved := true, baseOnly := true, descriptor := d } s
  | _ =>
    if s.net.lead.role = .follower then
      requestStop p.start (fixPage { p.flag 3 with resolved := true, blank := true } s)
    else
      let s := s.withRun { s.run with stop := .atBoundary p.start }
      let s := s.withNet { s.net with lead := { s.net.lead with
        stopAt := if s.net.lead.role = .lead then some p.start else s.net.lead.stopAt } }
      let s := s.withRun { s.run with pages := s.run.pages.filter (fun q => (q.placed && !p.placed) || decide (q.start < p.start)) }
      if p.placed then runEnds s else s

/-- A follower that has asked for a stop leaves every position from there on blank (R412). -/
def afterRequest (s : State) (p : PagePos) : Bool :=
  match s.net.lead.stopReq with
  | some b => decide (b ≤ p.start)
  | none => false

/-- Resolve a position at its fence. A descriptor with a poisoned burst counts as not ready (R304). -/
def resolveFence (p : PagePos) (errs : List (Nat × ReadErr)) (s : State) : State :=
  if afterRequest s p then fixPage { (p.flag 0).flag 3 with resolved := true, blank := true } s
  else match readyFor s p.jobId p.pageIndex with
    | none => missFence p s
    | some r =>
      let met := meetBursts errs s
      if met.devPoisoned (4096 * r.descriptor) 272 then missFence p (if s.devPoisoned (4096 * r.descriptor) 272 then met.count 21 else met)
      else fixPage (resolvePage met r.descriptor p) met

/-- FENCE (R83, R304): the fence of the position that begins at `start`; `errs` are the bursts in which its reads met errors. -/
def execFence (start : Nat) (errs : List (Nat × ReadErr)) (s : State) : Result :=
  match fencePos s start with
  | none => .next s
  | some p =>
    if s.web.running ∧ (s.dev = .run ∨ s.dev = .drain) ∧ !p.resolved ∧ p.fence s ≤ s.web.webPos then
      .next (drainCheck (mirrorReady (resolveFence p errs s)))
    else .next s

/-! ## Page boundaries (R79, R90, R91, R93) -/

/-- Commits of a boundary: gate releases take effect and leave the list, and so do table commits, whose bank has been chosen. -/
def takeCommits (b : Nat) (s : State) : State :=
  let due := s.run.commits.filter (fun c => decide (c.boundary = b))
  let s := s.withRun { s.run with commits := s.run.commits.filter (fun c => decide (c.boundary ≠ b)) }
  due.foldl (fun s c => if c.classes = 0 then releaseBars (some b) c.barMask s else s) s

/-- The run ends at boundary b, or before. -/
def endsBy (s : State) (b : Nat) : Bool :=
  match s.run.stop with
  | .none => false
  | .atBoundary x => decide (x ≤ b)
  | .now _ => true

/-- The activation moves to the next page boundary; without one it waits for IDLE (R93). -/
def deferActivation (a : Activation) (b : Nat) (s : State) : State :=
  let m := (s.bank s.spare).image
  let s := s.report 0x1005 (logKey none none none none) 0 (leBytes 8 s.web.period ++ leBytes 8 (imgPMin m) ++ leBytes 8 (imgPMax m))
  let s := s.withRun { s.run with activation := none, pages := s.run.pages.filter (fun p => p.placed || decide (p.start < b)) }
  s.withRun { s.run with activation := some { a with boundary := match nextPos s with
    | some p => p.endPos
    | none => 0 } }

/-- The new image becomes active at boundary b and places its first page there (R90). -/
def applyActivation (a : Activation) (b : Nat) (s : State) : State :=
  let k := s.spare
  let pages := s.run.pages.filter (fun p => decide (p.start < b ∨ p.bank = k))
  let s := (s.withRun { s.run with activation := none, jobId := a.jobId, firstPage := a.first, pages := pages,
                                   oldBankBusy := pages.any (fun p => !p.done && decide (p.bank ≠ k)) }).swapBanks.faultOnPoison
  if (s.pageAt b).isSome then s else fixPage (makePos s k 0 0 b a.first a.jobId) s

/-- The activation at a boundary: put off to the next one while the period lies outside the new image's range (R93). Where the run ends
there it takes effect in IDLE. -/
def takeActivation (b : Nat) (s : State) : State :=
  match s.run.activation with
  | none => s
  | some a =>
    if a.boundary ≠ b ∨ endsBy s b then s
    else
      let m := (s.bank s.spare).image
      if s.web.period < imgPMin m ∨ imgPMax m < s.web.period then deferActivation a b s else applyActivation a b s

/-- A field of the bank that a page uses as the print path reads it: a fixed value where its word is poisoned (R149, R158). -/
def State.liveNum (s : State) (cls bar start off w fixed : Nat) : Nat :=
  let t := s.table cls bar
  let k := t.bankFor start
  if t.poisoned k off w then fixed else t.num cls k off w

/-- RAMP of ZONE_GAIN for a page: from the latch once the stage has begun the page or a later one. -/
def rampMode (s : State) (b page : Nat) : Nat :=
  match (s.latch 1 b).page with
  | none => s.liveNum 1 b page 0 2 0
  | some q => if page ≤ q then s.headerNum 1 b page 0 2 else s.liveNum 1 b page 0 2 0

/-- The zone gain that a ramp gives zone z at ramp position k (R139). -/
def rampGain (s : State) (b : Nat) (r : Ramp) (z k : Nat) : Nat :=
  let target := s.liveNum 1 b r.page (16 + 2 * z) 2 0x8000
  let start := tget (fun _ => 0x8000) r.start z
  if rampMode s b r.page = 0 then target
  else ((start : Int) + ((target : Int) - start) * (min k 4096 : Nat) / 4096).toNat

/-- The ramp position that the ramp of a page has come to at the page that begins at `start`: one step for each image line between. -/
def rampReached (s : State) (r : Ramp) (start : Nat) : Nat :=
  (s.run.pages.filter (fun q => decide (r.page < q.start ∧ q.start < start))).foldl (fun n q => n + q.length) (r.k0 + r.lines)

/-- The ramp of a bar over the page that begins at `start`, after the ramps `old`: it goes on from the page before, or a ZONE_GAIN commit
that takes effect here starts a new one from the gains reached (R139 to R141). -/
def nextRamp (s : State) (b start : Nat) (old : List Ramp) : Ramp :=
  let lines := match s.pageAt start with
    | some p => p.length
    | none => 0
  match old.getLast? with
  | none => { page := start, lines := lines, start := [], k0 := 4096 }
  | some r =>
    let k := rampReached s r start
    if (tget (fun _ => []) s.tables.zoneCommits b).any (fun x => decide (r.page < x ∧ x ≤ start)) then
      { page := start, lines := lines, k0 := 0,
        start := (List.range 432).foldl (fun m z => tput (fun _ => 0x8000) m z (rampGain s b r z k)) [] }
    else { r with page := start, lines := lines, k0 := min 4096 k }

def barRamps (s : State) (b : Nat) : List Ramp := tget (fun _ => []) s.tables.ramps b

/-- The ramp of a page: as pushed at its boundary, or, where the stage begins the page before that boundary, as it will be. -/
def pageRamp (s : State) (b start : Nat) : Ramp :=
  match (barRamps s b).find? (fun r => decide (r.page = start)) with
  | some r => r
  | none => nextRamp s b start (barRamps s b)

/-- A ramp is kept while its page is printing, and the latest of a bar in any case. -/
def rampsLeft (s : State) (old : List Ramp) : List Ramp :=
  old.filter (fun r => decide (old.getLast? = some r) || s.run.pages.any (fun p => !p.done && decide (p.start = r.page)))

/-- A boundary brings its ramp; where the stage holds it already, the lines of its page. -/
def pushRamp (start : Nat) (s : State) (b : Nat) : State :=
  let old := barRamps s b
  let new := nextRamp s b start old
  let ramps := if old.any (fun r => decide (start ≤ r.page)) then old.map (fun r => if r.page = start then { r with lines := new.lines } else r)
    else rampsLeft s old ++ [new]
  s.withTables { s.tables with ramps := tput (fun _ => []) s.tables.ramps b ramps }

/-- Before a copy overwrites the old ZONE_GAIN bank, the stage takes the gains that its ramp has reached (R139, R140). -/
def holdRamp (boundary : Nat) (p : Nat × Nat) (s : State) : State := if p.1 = 1 then pushRamp boundary s p.2 else s

/-- TABLE_COPY_DONE (R79): the oldest copy that has begun ends, and its locks are released. -/
def execTableCopyDone (t : Time) (s : State) : Result :=
  let s := s.at t
  match s.run.copies.find? (fun c => c.begun) with
  | none => .next s
  | some c =>
    let pairs := commitPairs c.classes c.barMask
    let s := pairs.foldl (fun s p => copyTable p (holdRamp c.boundary p s)) s
    .next (settleShifts
      (s.withRun { s.run with copies := s.run.copies.erase c, locks := s.run.locks.filter (fun p => decide (p ∉ pairs)) }))

/-- The position that begins at the boundary is placed. -/
def placePage (p : PagePos) (s : State) : State :=
  let s := fixPage { p with placed := true } s
  s.withRun { s.run with pageIndex := p.nextIndex, pagePlaced := p.pageIndex, seqEntry := p.seqEntry }

/-- The position that begins at the latest tick, if any. Its fence may lie at a later tick (R83). -/
def beginPos (s : State) : Option PagePos :=
  match s.pageAt s.web.webPos with
  | some p => some p
  | none => match nextPos s with
    | some p => if p.start = s.web.webPos then some p else none
    | none => none

/-- The keep-step record of a bar (R276). -/
def keepRecordBytes (b boundary : Nat) (k : KeepBar) : List Byte :=
  leBytes 8 boundary ++ leBytes 1 b ++ [0] ++ leBytes 2 k.stepped ++ leBytes 2 k.held ++ leBytes 2 k.atRange ++ leBytes 2 k.inBand
    ++ leInt 2 k.maxStep ++ leBytes 4 k.samples ++ leBytes 4 k.intervals ++ [0, 0, 0, 0]

def State.keepBar (s : State) (b : Nat) : KeepBar := tget (fun _ => KeepBar.reset) s.keep.bars b

def State.withKeepBar (s : State) (b : Nat) (x : KeepBar) : State :=
  s.withKeep { s.keep with bars := tput (fun _ => KeepBar.reset) s.keep.bars b x }

/-- The boundary `b` of a keeping step: the step takes effect, and ZONE_GAIN of a bar whose keeping has been disabled returns to
host software (R276, R283). -/
def keepStepBar (b : Nat) (s : State) (bar : Nat) : State :=
  let k := s.keepBar bar
  if k.stepAt = some b then
    (s.plumeEmit 2 (keepRecordBytes bar b k)).withKeepBar bar { k with stepAt := none, ownedUntil := none, lastStep := b }
  else s

/-- Keeping steps take effect at a boundary (R276). -/
def keepSteps (b : Nat) (s : State) : State :=
  let bars := (List.range 8).filter (fun i => decide ((s.keepBar i).stepAt = some b))
  if bars = [] then s else bars.foldl (keepStepBar b) (s.raise 13)

/-- A follower whose placement differs from the lead's entry for the boundary logs PAGE_MISMATCH and asks for a stop there
(R412). -/
def checkPlacement (p : PagePos) (s : State) : State :=
  match s.net.lead.leadPending.find? (fun e => decide (e.1 = p.start)) with
  | none => s
  | some e =>
    if s.net.lead.role ≠ .follower ∨ (e.2.1 = p.pageIndex ∧ e.2.2 = p.seqEntry) then s
    else requestStop p.start (s.report 0x1009 (logKey none none none none) 0
      (leBytes 8 p.start ++ leBytes 4 p.pageIndex ++ leBytes 4 e.2.1))

/-- The lead shows START until the first page boundary (R411). -/
def startShown (s : State) : State := s.withNet { s.net with lead := { s.net.lead with startRec := false } }

/-- The position that begins at the latest tick is placed, its fence resolved if that has come, or the run ends there. -/
def beginPage (s : State) : State :=
  let b := s.web.webPos
  match (if endsBy s b then none else beginPos s) with
  | none => runEnds s
  | some p =>
    let s := if p.resolved then s else if p.fence s ≤ b then resolveFence p [] s else fixPage p s
    match s.pageAt p.start with
    | some q =>
      let s := placePage q ((maskList (imgBarMask (s.bank q.bank).image) 8).foldl (pushRamp q.start) s)
      checkPlacement q (saveRecord q s.web.tickTime s.web.period s)
    | none => runEnds s

/-- A boundary is crossed: commits, the activation and keeping steps take effect, and the next page begins (not where the new image's bank
brings a FAULT). -/
def crossBoundary (s : State) : State :=
  let b := s.web.webPos
  let s := keepSteps b (takeActivation b (takeCommits b (startShown s)))
  if s.dev = .fault then s else beginPage s

/-- A boundary lies at the latest tick and has not been crossed. -/
def boundaryDue (s : State) : Bool :=
  decide (s.dev = .run ∨ s.dev = .drain) && s.web.running && isBoundary s s.web.webPos
    && !(s.run.pages.any (fun p => p.placed && decide (p.start = s.web.webPos)))

/-- PAGE_BOUNDARY (R11, R74, R79, R90, R91, R95). -/
def execPageBoundary (s : State) : Result := .next (if boundaryDue s then drainCheck (crossBoundary s) else s)

/-! ## Gaps and PAGE_DONE (R74, R75, R79, R90) -/

/-- A position of the run in progress. In FAULT neither GAP_START nor PAGE_DONE is raised, which the manual does not say (DESIGN CHOICE,
log 85). -/
def runPage (s : State) (start : Nat) : Option PagePos :=
  if s.web.running ∧ (s.dev = .run ∨ s.dev = .drain) then
    s.run.pages.find? (fun p => p.placed && decide (p.start = start))
  else none

/-- GAP_START (R74): the gap of a page begins; a gap of 0 lines raises nothing. -/
def execGapStart (start : Nat) (s : State) : Result :=
  match runPage s start with
  | none => .next s
  | some p =>
    if p.gap = 0 ∨ p.gapRaised ∨ s.web.webPos < p.start + p.length then .next s
    else
      let s := s.updPage start (fun p => { p with gapRaised := true })
      .next (State.raise (s.withRun { s.run with gapStartPos := p.start + p.length, gapStartPage := p.pageIndex }) 0)

/-- A withdrawal touches a page: some line of it is due on the slot from T_w = T_d + 3 on (R222). -/
def withdrawTouches (s : State) (p : PagePos) : Bool :=
  (maskList (imgBarMask (s.bank p.bank).image) 8).any (fun b => (s.fittedSlots b).any (fun sl =>
    (s.slot b sl).withdrawals.any (fun w => w.holds p.start && decide (w.td + 3 < p.start + p.length + s.coarse b sl))))

/-- Withdrawals that a NOZZLE commit has ended go once every page before its boundary is done (R168). -/
def dropWithdrawn (s : State) : State :=
  let open_ (w : Withdrawn) : Bool := match w.ends with
    | none => true
    | some e => s.run.pages.any (fun p => !p.done && decide (p.start < e))
  (playingBars s).foldl (fun s b => (s.fittedSlots b).foldl (fun s sl =>
    let x := s.slot b sl
    s.withSlot b sl { x with withdrawn := x.withdrawn.filter open_, gone := x.gone.filter open_ }) s) s

/-- A page that is done is still needed: its end boundary lies ahead or at the latest tick, its mark may still come, or it is the last. -/
def stillNeeded (s : State) (q : PagePos) : Bool :=
  decide (s.web.webPos ≤ q.endPos) || markOpen s q || (s.run.pages.getLast?.any (fun l => decide (l.start = q.start)))

/-- Copies begin at the PAGE_DONE of the last page before their boundary (R79); the old bank becomes inactive at that of its last
page (R90). -/
def afterDone (p : PagePos) (s : State) : State :=
  let undone := s.run.pages.filter (fun q => !q.done)
  s.withRun { s.run with
    copies := s.run.copies.map (fun c => if p.start < c.boundary ∧ undone.all (fun q => decide (c.boundary ≤ q.start))
      ∧ c.boundary ≤ p.endPos then { c with begun := true } else c)
    oldBankBusy := s.run.oldBankBusy && undone.any (fun q => decide (q.bank ≠ s.run.active))
    pages := s.run.pages.filter (fun q => !q.done || stillNeeded s q),
    marked := s.run.marked.filter (fun x => decide (s.web.webPos ≤ x) || s.run.pages.any (fun q => decide (q.start = x)))
    defects := s.run.defects.filter (fun x => decide (s.web.webPos ≤ x) || s.run.pages.any (fun q => decide (q.start = x))) }

/-- What KEEP_TARGET CAPTURE and REG_MEASURE note when a page is done (R272, R281). -/
def keepPageDone (p : PagePos) (s : State) : State :=
  let s := match s.keep.capture with
    | none => s
    | some o =>
      if p.jobId ≠ o.jobId ∨ p.pageIndex < o.first ∨ o.first + o.count ≤ p.pageIndex ∨ p.blank then s
      else
        let s := if p.pageIndex + 1 = o.first + o.count then
            s.withKeep { s.keep with capture := some { o with lastDone := some s.clk.elapsed, lastEnd := p.start + p.length } }
          else s
        s.progressTo o.ring o.tag (10000 * (p.pageIndex + 1 - o.first) / max 1 o.count)
  match s.keep.reg, p.descriptor with
  | some o, some d => match s.keep.decls.find? (fun x => decide (x.descriptor = d ∧ x.kind = 1)) with
    | none => s
    | some x =>
      if p.patterned ∧ o.seen.length < o.rep then
        let seen := o.seen ++ [{ decl := x, start := p.start, length := p.length, rows := true }]
        (s.withKeep { s.keep with reg := some { o with seen := seen } }).progressTo o.ring o.tag (10000 * seen.length / max 1 o.rep)
      else s
  | _, _ => s

/-- PAGE_DONE (R74, R75): every slot has fired the page's last line. -/
def finishPage (p : PagePos) (s : State) : State :=
  let s := s.updPage p.start (fun p => { (if withdrawTouches s p then p.flag 6 else p) with done := true })
  let rec_ := (s.pageAt p.start).getD p
  let s := State.raise (s.withRun { s.run with pageDonePos := p.doneAt s, pageDonePage := p.pageIndex }) 2
  let s := s.plumeEmit 1 (pageRecord rec_)
  let s := produce 1 none p.endPos s
  restGroups (mirrorReady (dropWithdrawn (pruneReady (afterDone p (keepPageDone rec_ s)))))

/-- PAGE_DONE of the position that begins at `start`; DRAIN ends with that of the last (R96). -/
def execPageDone (start : Nat) (s : State) : Result :=
  match runPage s start with
  | none => .next s
  | some p => .next (if p.done ∨ s.web.webPos < p.doneAt s then s else drainCheck (finishPage p s))

end Sys2Proof.Machine
end

