-- ==== Sys2Proof/Machine/Upstream.lean ====
section
/-! DEFINITION. Machine/Upstream.lean: telemetry and alerts of the HDMs (R168, R194, R195, R213, R216, R221 to R223), and the summaries
of the Plume stream that gather them (R344, R345). -/

namespace Sys2Proof.Machine

open Sys2Proof

/-! ## Telemetry -/

/-- The measuring tick of a TELEM: the latest multiple of 64 whose bits [13:6] are SEQ; 0 while the line clock stands, and for a
SEQ that no tick of the run has (R194, R213). -/
def measuredAt (s : State) (seq : Nat) : Nat :=
  let k := s.web.webPos / 64
  let back := (k + 256 - seq % 256) % 256
  if s.web.running ∧ back ≤ k then 64 * (k - back) else 0

/-- A telemetry interval counts a flag once (R360): not again for a second TELEM of the same measuring tick that carries it. -/
def flagFresh (s : State) (x : Slot) (tick flags i : Nat) : Bool :=
  bit flags i && !(s.web.running && (match x.telem with
    | none => false
    | some t => decide (t.tick = tick) && bit t.flags i))

/-- HDR_ERR, LINE_REPEAT and ENERGY_ERR of a telemetry interval. -/
def countFlags (b sl tick flags : Nat) (s : State) : State :=
  let x := s.slot b sl
  let one (i : Nat) : Nat := bitNat (flagFresh s x tick flags i)
  let s := (s.countN (barCounter b 12) (one 5)).countN (barCounter b 13) (one 6)
  (s.countN (slotRepeatCounter b sl) (one 6)).countN (barCounter b 14) (one 7)

/-- HEAD_WARN and THERMAL, held until TEMP has read below T_WARN - 2.0 °C (R221). -/
def headWarn (b sl : Nat) (temp : Int) (s : State) : State :=
  let x := s.slot b sl
  match x.head with
  | none => s
  | some h =>
    if (warnAt h.mem : Int) ≤ temp then
      if x.warnHeld then s
      else ((s.withSlot b sl { x with warnHeld := true }).raise 8).report 0x2005 (logKey (some b) (some sl) none none) 0 (leInt 2 temp)
    else if temp < (warnAt h.mem : Int) - 20 then s.withSlot b sl { x with warnHeld := false }
    else s

/-- T_LIMIT is reached: TEMP or flag T_LIMIT (R222). -/
def overLimit (x : Slot) (temp : Int) (flags : Nat) : Bool :=
  bit flags 1 || (match x.head with
    | none => false
    | some h => decide ((limitAt h.mem : Int) ≤ temp))

/-- A TELEM is stored as the newest of its slot; the one that the running frame may still use is kept beside it (R212). -/
def storeTelem (b sl : Nat) (t : Telem) (s : State) : State :=
  let x := s.slot b sl
  let first := decide (x.seen = 0)
  s.withSlot b sl { x with
    telem2 := telemForFrame s x
    telem := some t
    limitSeen := x.limitSeen || overLimit x t.temp t.flags
    tempMax := if first then t.temp else max x.tempMax t.temp
    vsupMin := if first then t.vsup else min x.vsupMin t.vsup
    vsupMax := if first then t.vsup else max x.vsupMax t.vsup
    flagsOr := Nat.lor x.flagsOr t.flags
    seen := x.seen + 1 }

/-- The lines of a telemetry interval whose TELEM carries LINE_REPEAT or ENERGY_ERR disturb their feed blocks (R269). -/
def telemDisturb (b sl : Nat) (t : Telem) (s : State) : State :=
  if s.web.running && (bit t.flags 6 || bit t.flags 7) then disturbTicks b sl (t.tick - 64) t.tick s else s

/-- What a TELEM of a fitted slot does. -/
def takeTelem (b sl : Nat) (temp : Int) (vsup flags seq : Nat) (s : State) : State :=
  let tick := measuredAt s seq
  let t : Telem := { temp := temp, vsup := vsup, flags := flags, seq := seq, tick := tick,
                     since := if s.web.running then s.web.webPos + 1 else 0 }
  let s := storeTelem b sl t (countFlags b sl tick flags s)
  let s := telemDisturb b sl t (headWarn b sl temp s)
  surveyTelem b sl temp (restoreTelem b sl (overLimit (s.slot b sl) temp flags) s)

/-- TELEM (R194, R213, R221, R222). -/
def execTelem (u : Up) (temp : Int) (vsup flags seq : Nat) (s : State) : Result :=
  let s := s.at u.t
  .next (if s.fitted u.group u.slot then
      takeTelem u.group u.slot temp (vsup % 65536) (flags % 256) (seq % 256)
        (s.traceUp u 0xB4 (unsigned 2 temp + 2 ^ 16 * (vsup % 65536) + 2 ^ 32 * (flags % 256) + 2 ^ 40 * (seq % 256)))
    else s)

/-! ## Alerts -/

/-- ALERT T_ABS of a slot (R223): PARTIAL_LINE is logged, and counted when pulses had begun; the slot is withdrawn at the next
decision tick. -/
def takeCut (b sl due : Nat) (isPartial : Bool) (s : State) : State :=
  let s := if isPartial then (s.count 8).count (barCounter b 8) else s
  let s := s.report 0x2007 (logKey (some b) (some sl) none none) 0 (leBytes 2 due ++ leBytes 1 (bitNat isPartial))
  s.withSlot b sl { s.slot b sl with tabsHeld := true }

/-- ALERT_T_ABS (R223). -/
def execAlertTAbs (u : Up) (due : Nat) (isPartial : Bool) (s : State) : Result :=
  let s := s.at u.t
  .next (if s.fitted u.group u.slot then
      takeCut u.group u.slot (due % 65536) isPartial
        (s.traceUp u 0xC3 (1 + 2 ^ 11 * (due % 65536) + 2 ^ 27 * bitNat isPartial))
    else s)

/-! ## Summaries (R344, R345) -/

/-- A counter's growth since the summary before, within four bytes, with the value it is measured from moved on. -/
def State.sinceSnap (s : State) (i : Nat) : Nat := sat 4 (s.counter i - nget s.host.plume.snap i)

def State.snapOn (s : State) (i : Nat) : State :=
  s.withHost { s.host with plume := { s.host.plume with snap := nput s.host.plume.snap i (s.counter i) } }

/-- The fitted slots of a bar with a TELEM since the summary before. -/
def seenSlots (s : State) (b : Nat) : List Nat := (s.fittedSlots b).filter (fun sl => decide ((s.slot b sl).seen ≠ 0))

/-- The slot of a list with the highest TEMP; the lowest of several. -/
def hottest (s : State) (b : Nat) : List Nat → Option Nat
  | [] => none
  | sl :: l => match hottest s b l with
    | none => some sl
    | some o => if (s.slot b sl).tempMax < (s.slot b o).tempMax then some o else some sl

/-- The body of BAR_SUMMARY. With no TELEM since the summary before, its temperature, slot, supply and flag bytes are 0. -/
def barSummary (s : State) (b : Nat) : List Byte :=
  let l := seenSlots s b
  let hot := hottest s b l
  let temp : Int := match hot with
    | none => 0
    | some sl => (s.slot b sl).tempMax
  let vmin := match l with
    | [] => 0
    | sl :: r => r.foldl (fun m o => min m (s.slot b o).vsupMin) (s.slot b sl).vsupMin
  let withdrawn := maskOf ((s.fittedSlots b).filter (fun sl => (s.slot b sl).withdrawals.any (fun w => w.holds s.web.webPos)))
  leBytes 1 b ++ [0] ++ leInt 2 temp ++ leBytes 3 withdrawn ++ leBytes 1 (hot.getD 0) ++ leBytes 2 vmin
    ++ leBytes 2 (maxOver (fun sl => (s.slot b sl).vsupMax) l) ++ leBytes 1 (l.foldl (fun m sl => Nat.lor m (s.slot b sl).flagsOr) 0)
    ++ leBytes 1 (maxOver (fun sl => (s.slot b sl).warmMax) (s.fittedSlots b)) ++ [0, 0] ++ leBytes 4 (s.sinceSnap (barCounter b 1))
    ++ leBytes 4 (s.sinceSnap (barCounter b 4)) ++ leBytes 4 (s.sinceSnap (barCounter b 13)) ++ leBytes 4 (s.sinceSnap (barCounter b 3))

/-- The gathering of a slot starts anew. -/
def clearGather (b : Nat) (s : State) (sl : Nat) : State :=
  s.withSlot b sl { s.slot b sl with tempMax := 0, vsupMin := 0, vsupMax := 0, flagsOr := 0, warmMax := 0, seen := 0 }

def emitBar (s : State) (b : Nat) : State :=
  let s := s.plumeEmit 3 (barSummary s b)
  let s := (s.fittedSlots b).foldl (clearGather b) s
  [barCounter b 1, barCounter b 4, barCounter b 13, barCounter b 3].foldl (fun s i => s.snapOn i) s

/-- The counters of corrected errors: of DRAM and of SRAM (R360). -/
def correctedCounters : List Nat := [19, 20]

/-- DEVICE_SUMMARY: `junction` is T_J as last evaluated. -/
def emitDevice (s : State) : State :=
  let corrected := correctedCounters.foldl (fun n i => n + s.sinceSnap i) 0
  let body := leBytes 8 s.web.period ++ leInt 4 (s.web.lengthErr / 256) ++ leInt 2 s.thermal.tj ++ leBytes 1 s.dev.code
    ++ leBytes 1 (fireMask s) ++ leBytes 4 (sat 4 corrected)
  let s := correctedCounters.foldl (fun s i => s.snapOn i) (s.plumeEmit 4 body)
  s.withHost { s.host with plume := { s.host.plume with summaryAt := s.clk.elapsed } }

/-- PLUME_SUMMARY (R345): a tick at a multiple of PLUME_INTERVAL, once. -/
def execPlumeSummary (s : State) : Result :=
  let p := s.host.plume
  .next (if s.web.running ∧ p.enabled ∧ s.web.webPos % max 1 p.interval = 0 ∧ p.summed ≠ some s.web.webPos then
      emitDevice (s.scheduledBars.foldl emitBar (s.withHost { s.host with plume := { p with summed := some s.web.webPos } }))
    else s)

/-- IDLE_DEVICE_SUMMARY (R345): 100 ms after the summary before, with the line clock stopped. -/
def execIdleDeviceSummary (t : Nat) (s : State) : Result :=
  let s := s.at t
  .next (if !s.web.running ∧ s.host.plume.enabled ∧ s.host.plume.summaryAt + 100 * msT ≤ s.clk.elapsed then emitDevice s else s)

end Sys2Proof.Machine
end

