-- ==== Sys2Proof/Machine/Rejoin.lean ====
section
/-! DEFINITION. Machine/Rejoin.lean: RUN_REJOIN (R380 to R383). -/

namespace Sys2Proof.Machine

open Sys2Proof

/-! ## Failure -/

/-- A step fails: the device stays in IDLE with its groups back in LS (R381). -/
def rejoinFail (a : Answer) (s : State) : State :=
  let s := s.withLink { s.link with scan := none, load := none }
  endRejoin a (sleepGroups s.scheduledBars s)

/-! ## Steps 4 and 5: tables and loads -/

/-- The classes and bars of the active image. -/
def rejoinPairs (s : State) : List (Nat × Nat) :=
  (List.range 10).flatMap (fun c => if deviceWide c then [(c, 0)] else s.scheduledBars.map (fun b => (c, b)))

/-- The mirror of a class and bar has failed, and host software has not committed it since. -/
def mirrorFailed (s : State) (p : Nat × Nat) : Bool := decide (tableKey p.1 p.2 ∈ s.boot.checkpoint.mirrorBad)

/-- Both banks of a class and bar hold a content. -/
def restoreTable (m : Mem) (p : Nat × Nat) (s : State) : State :=
  s.withTable p.1 p.2 { s.table p.1 p.2 with bank0 := m, bank1 := m, since := 0, poison0 := [], poison1 := [], told0 := [], told1 := [] }

/-- A class and bar comes back from the table mirror; one never committed keeps its content. -/
def restoreMirror (s : State) (p : Nat × Nat) : State :=
  match tget (fun _ => none) s.boot.checkpoint.mirror (tableKey p.1 p.2) with
  | some m => restoreTable m p s
  | none => s

/-- The zone gains of a keeping commit that the mirror does not hold yet; every zone applies TO from the first line (R141). -/
def restoreGains (s : State) (b : Nat) : State :=
  let g := tget (fun _ => (0, [])) s.boot.checkpoint.zoneGains b
  let s := if g.1 = 0 then s else restoreTable g.2 (1, b) s
  s.withTables { s.tables with ramps := tput (fun _ => []) s.tables.ramps b [{ page := 0, lines := 0, start := [], k0 := 4096 }] }

/-- The tables are restored, and steps 3 to 5 of RUN_ARM begin. -/
def rejoinLoad (o : RejoinOp) (rec_ : List Byte) (s : State) : State :=
  match (rejoinPairs s).find? (mirrorFailed s) with
  | some p => rejoinFail (answer stWrongState (leBytes 1 p.2 ++ leBytes 1 p.1)) s
  | none =>
    let s := s.scheduledBars.foldl restoreGains ((rejoinPairs s).foldl restoreMirror s)
    let s := s.withRun { s.run with jobId := field rec_ 16 4, seqEntry := field rec_ 24 2, firstPage := field rec_ 20 4,
                                    armPolicy := field rec_ 7 1, armLead := field rec_ 26 2 }
    let motion := match s.press with
      | none => Motion.reset
      | some p => p.motion
    armLoads o.ring o.tag 0x63 (s.withWeb { s.web with motion := motion })

/-! ## Step 3: heads -/

/-- Every group has answered: a slot without its HDM ends the command. -/
def rejoinScanned (o : RejoinOp) (rec_ : List Byte) (x : ScanOp) (s : State) : State :=
  let bars := scanBars s x.barMask
  let s := bars.foldl (fun s b => (s.fittedSlots b).foldl (takeHead x b) s) s
  let s := s.withLink { s.link with scan := none }
  match firstSlot s bars (fun b sl => (s.head b sl).isNone) with
  | some (b, sl) => rejoinFail (answer stNoResource (leBytes 1 b ++ leBytes 1 sl)) s
  | none => rejoinLoad o rec_ s

/-- The scan of a RUN_REJOIN goes on when its groups have answered. -/
def rejoinAdvance (s : State) : State :=
  match s.boot.rejoin, s.link.scan with
  | some o, some x => match o.record with
    | some r => if x.ring = o.ring ∧ x.tag = o.tag ∧ (scanBars s x.barMask).all (groupScanned s x) then rejoinScanned o r x s else s
    | none => s
  | _, _ => s

/-- The groups of the active image wake, and their chains are enumerated. -/
def rejoinScan (o : RejoinOp) (s : State) : State :=
  let mask := imgBarMask s.activeImage
  let s := (scanBars s mask).foldl (fun s g =>
    let s := (wakeDown g s).sendBlocks g [cmdBlk 0x01 0 0]
    s.withGroup g { s.group g with enumAt := some s.clk.elapsed }) s
  let x : ScanOp := { ring := o.ring, tag := o.tag, barMask := mask, dest := 0, chain := [], words := [], done := [], silent := [] }
  rejoinAdvance (s.withLink { s.link with scan := some x })

/-! ## Steps 1 and 2: the record -/

def recordOk (r : List Byte) : Bool :=
  decide (r.length = 96 ∧ field r 0 4 = 0x44524352 ∧ field r 92 4 = crc32c (r.take 92))

/-- The checks of step 2. -/
def rejoinAllowed (s : State) (source : Nat) (r : List Byte) : Bool :=
  let k := s.bank s.run.active
  bit (field r 6 1) 0 && !bit (field r 6 1) 1 && k.checked && decide (field r 8 8 = imgId k.image)
    && (check5 s k.image).isNone && s.clk.taiValid
    && (decide (source ≠ 0) || decide (s.clk.source = .tracked0 ∨ s.clk.source = .tracked1))

/-- The record has been taken. -/
def rejoinRecord (o : RejoinOp) (r : List Byte) (s : State) : State :=
  if !recordOk r then rejoinFail (refuse stBadParam) s
  else if !rejoinAllowed s o.source r then rejoinFail (refuse stWrongState) s
  else
    let o := { o with record := some r }
    rejoinScan o (s.withBoot { s.boot with rejoin := some o })

/-- May the source be used in this press (R380)? -/
def sourceFits (s : State) (source : Nat) : Bool := if source = 0 then decide (1 < s.devices) else decide (s.devices = 1)

def rejoinBegin (h : Hdr) (source minPages record : Nat) (s : State) : State :=
  if 2 < source ∨ minPages = 1 ∨ 65535 < minPages then s.finishLong h.ring h.tag (refuse stBadParam)
  else if s.press.isNone ∨ !sourceFits s source then s.finishLong h.ring h.tag (refuse stWrongState)
  else if s.link.scan.isSome ∨ s.link.survey.isSome ∨ s.link.load.isSome ∨ s.thermal.op.isSome ∨ s.boot.rejoin.isSome
      ∨ prbsActive s (imgBarMask s.activeImage) then s.finishLong h.ring h.tag (refuse stBusy)
  else
    let o : RejoinOp := { ring := h.ring, tag := h.tag, source := source, minPages := if minPages = 0 then 2 else minPages,
                          record := none, skipped := 0, boundary := 0 }
    let s := s.withBoot { s.boot with rejoin := some o }
    match source with
    | 0 => s
    | 1 => (match s.dmaBad record 96 with
      | some a => rejoinFail (refuse stDataUe) (s.dmaFault a)
      | none => rejoinRecord o (s.dmaRead record 96) s)
    | _ => rejoinRecord o (s.boot.checkpoint.runRecord.getD []) s

/-- RUN_REJOIN (R380, R381). With LEAD the record is that of the lead's next heartbeat. -/
def execRunRejoin (h : Hdr) (source minPages record : Nat) (s : State) : Result :=
  .next (hostLong (.runRejoin (unstarted h) source minPages record) h (cmdOf 0x0063 0) (rejoinBegin h source minPages record) s)

/-- REJOIN_RECORD_TIMEOUT (R381): no heartbeat of the lead in 100 ms. -/
def execRejoinRecordTimeout (o : OpRef) (s : State) : Result :=
  .next (withOp o 0x0063 (fun s =>
    match s.boot.rejoin, s.longOp o.ring o.tag with
    | some x, some l =>
      if x.ring = o.ring ∧ x.tag = o.tag ∧ x.source = 0 ∧ x.record.isNone ∧ l.acceptedAt + 100 * msT ≤ s.clk.elapsed then
        rejoinFail (refuse stTimeout) s
      else s
    | _, _ => s) s)

/-! ## Step 6 (R382) -/

/-- The position that the record states. -/
def recordPos (s : State) (r : List Byte) : PagePos :=
  makePos s s.run.active (field r 24 2) (field r 28 4) (field r 32 8) (field r 20 4) (field r 16 4)

/-- The time-base instant of the boundary of the record. -/
def recordTime (r : List Byte) : Nat := field r 40 8 * secT + field r 48 4 * nsT + field r 52 2

/-- Walk the positions after `p`: the `left`-th whose tick lies later than `limit`, with the number of positions passed over. -/
def rejoinWalk (s : State) (b0 t0 period limit : Nat) : Nat → Nat → Nat → PagePos → Option (PagePos × Nat)
  | 0, _, _, _ => none
  | n + 1, left, passed, p =>
    match following s p with
    | none => none
    | some q =>
      if limit < t0 + (q.start - b0) * period then
        (if left ≤ 1 then some (q, passed) else rejoinWalk s b0 t0 period limit n (left - 1) (passed + 1) q)
      else rejoinWalk s b0 t0 period limit n left (passed + 1) q

/-- The rejoin boundary: its position, the positions skipped and the instant of its tick. -/
def rejoinChoice (s : State) (o : RejoinOp) (r : List Byte) : Option (PagePos × Nat × Nat) :=
  let b0 := field r 32 8
  let t0 := recordTime r
  let period := max 1 (field r 56 8)
  let limit := s.base + 2 * msT
  (rejoinWalk s b0 t0 period limit ((limit - t0) / period + o.minPages + 2) o.minPages 0 (recordPos s r)).map
    (fun x => (x.1, x.2, t0 + (x.1.start - b0) * period))

/-- ARMED is entered with the rejoin position as the first of the run. -/
def rejoinArm (o : RejoinOp) (r : List Byte) (p : PagePos) (skipped at_ : Nat) (s : State) : State :=
  let s := armEnter s.endLoads
  let s := (List.range 8).foldl (fun s b => s.withBar b { s.bar b with releaseBoundary := 0 }) s
  let s := s.withRun { s.run with leadIn := p.start, firstPage := p.pageIndex, pageIndex := p.pageIndex, seqEntry := p.seqEntry,
                                  p0 := field r 56 8, tRun := at_, pages := [p], rejoinAt := some (p.start, at_) }
  let s := s.withBoot { s.boot with rejoin := some { o with skipped := skipped, boundary := p.start } }
  let s := s.progressTo o.ring o.tag 10000
  if skipped = 0 then s
  else s.report 0x1008 (logKey none none none none) 0
    (leBytes 4 ((field r 20 4 + 1) % 2 ^ 32) ++ leBytes 4 ((p.pageIndex + 2 ^ 32 - 1) % 2 ^ 32))

/-- RUN_REJOIN_ARMED (R382): every load is confirmed; the rejoin boundary is chosen. -/
def execRunRejoinArmed (o : OpRef) (s : State) : Result :=
  .next (withOp o 0x0063 (fun s =>
    match s.boot.rejoin, s.link.load with
    | some x, some l => match x.record with
      | none => s
      | some r =>
        if x.ring = o.ring ∧ x.tag = o.tag ∧ l.opcode = 0x63 ∧ !l.waiting ∧ l.outstanding = [] then
          (match rejoinChoice s x r with
          | some (p, n, at_) => rejoinArm x r p n at_ s
          | none => rejoinFail (refuse stWrongState) s)
        else s
    | _, _ => s) s)

/-! ## The rejoin boundary (R382, R383) -/

/-- Drift trim resumes from P_ENC and registration from EPS on a solo device. -/
def resumeTrim (r : List Byte) (s : State) : State :=
  if s.net.lead.role ≠ .solo then s
  else s.withWeb { s.web with pEnc := if field r 64 8 = 0 then .unset else .value (field r 64 8) 1,
                              eps := some (fieldInt r 72 4), regActive := true }

/-- Some bar cannot fire lines of the page whose fetch frame lies before the boundary. -/
def rejoinCuts (s : State) (p : PagePos) : Bool :=
  let m := (s.bank p.bank).image
  (ppBars m p.pageProg).any (fun b => decide (ppCFirst m p.pageProg b < 5))

/-- The line clock restarts at the rejoin boundary, and its position is placed. -/
def rejoinRun (o : RejoinOp) (r : List Byte) (b at_ : Nat) (s : State) : State :=
  let w := startWeb s.web at_ (field r 56 8)
  let s := s.withWeb { w with webPos := b, history := [(b, at_, field r 56 8)], updates := w.updates.filter (fun u => decide (b ≤ u.effective)) }
  let s := resumeTrim r (s.withTables { s.tables with latches := [] })
  let s := clearFeed (restSlots (s.withPath (clearPath s.path)))
  let s := s.withRun { s.run with rejoinAt := none, stop := .none, activation := none, oldBankBusy := false, pagePlaced := 0xFFFFFFFF }
  let s := startIntervals ((setPeriod (field r 56 8) s).enter .run)
  let index := s.run.firstPage
  let s := crossBoundary s
  let s := sendMarks (match s.pageAt b with
    | some p => if rejoinCuts s p then s.updPage b (fun p => p.flag 3) else s
    | none => s)
  (s.withBoot { s.boot with rejoin := none }).finishLong o.ring o.tag
    (answer stOk (leBytes 8 b ++ leBytes 4 index ++ leBytes 4 o.skipped))

/-- REJOIN_BOUNDARY (R382): the time of the tick of the rejoin boundary has come. -/
def execRejoinBoundary (s : State) : Result :=
  match s.run.rejoinAt, s.boot.rejoin with
  | some (b, at_), some o => match o.record with
    | some r => if s.dev = .armed then .next ((rejoinRun o r b at_ (s.atBase at_)).settle o.ring) else .next s
    | none => .next s
  | _, _ => .next s

end Sys2Proof.Machine
end

