-- ==== Sys2Proof/Machine/Fatal.lean ====
section
/-! DEFINITION. Machine/Fatal.lean: what a fatal cause does before the reset it leads to (R97, R367, R447, R448). -/

namespace Sys2Proof.Machine

open Sys2Proof

/-- The entry code of a fatal cause (R440). -/
def FatalCause.code : FatalCause → Nat
  | .refreshOverrun => 0xF001
  | .fwDataUe => 0xF002
  | .clockLoss => 0xF003
  | .booksFatal => 0xF004

def entryBytes : Option LogEntry → List Byte
  | none => List.replicate 64 0
  | some e => padTo 64 e.toBytes

/-- The entry written `i` places before the next one. -/
def LogUnit.recent (l : LogUnit) (i : Nat) : Option LogEntry := l.held ((l.next + 2 ^ 32 - i) % 2 ^ 32)

/-- The fatal record (R448): `before` is the state in which the cause was met, `s` the state with the fatal entry written. -/
def fatalRecord (before s : State) : List Byte :=
  let body := entryBytes (s.log.recent 1) ++ entryBytes before.log.first
    ++ padTo 96 (s.boot.checkpoint.runRecord.getD []) ++ leBytes 1 before.dev.code ++ leBytes 1 before.net.lead.role.code
    ++ leBytes 1 s.fault.code ++ leBytes 1 before.log.queue.length ++ leBytes 4 s.log.overflow ++ leBytes 8 before.web.webPos
    ++ ((List.range 4).flatMap (fun i => entryBytes (before.log.recent (i + 1)))) ++ List.replicate 12 0
  body ++ leBytes 4 (crc32c body)

/-- A fatal cause is met (R367, R447): its entry is written at once, from ARMED, RUN and DRAIN the device enters FAULT, and the fatal
record is on its way to MRAM. Once a reset is on its way, a further cause changes nothing. -/
def State.fatal (s : State) (c : FatalCause) : State :=
  if s.boot.path ≠ .up ∧ s.boot.path ≠ .booting then s
  else
    let t := (s.report (FatalCause.code c) (logKey none none none none) 0 []).recordHead
    let t := if s.dev ∈ [.armed, .run, .drain] then t.enterFault .fatal else t
    t.withBoot { t.boot with path := .record, fatal := some c, fatalRec := fatalRecord s t, fatalAt := s.clk.elapsed }

end Sys2Proof.Machine
end

