-- ==== Sys2Proof/Machine/Dram.lean ====
section
/-! DEFINITION. Machine/Dram.lean: refresh, retraining and self-refresh, the dynamic share, error handling of DRAM and SRAM, repair and
scrubbing (R35 to R38, R291 to R312). -/

namespace Sys2Proof.Machine

open Sys2Proof

/-! ## Refresh (R35, R293, R294) -/

/-- Whole refreshes owed, a fraction counting as one. -/
def refreshesOwed (s : State) (h rank : Nat) : Nat := ceilDiv (debtNow s h rank) (max 1 (refreshUnit s.dram.cfg))

/-- A rank owes more than 8 refreshes (R294). -/
def overrun (s : State) (h rank : Nat) : Bool := decide (8 * refreshUnit s.dram.cfg < debtNow s h rank)

def anyOverrun (s : State) : Bool :=
  dramLive s && s.web.running && (List.range 8).any (fun h => s.ranks.any (fun r => overrun s h r))

/-- The device window of a record that applies in the frame of the latest tick and has not been served in it. -/
def openWindow (s : State) (record kind : Nat) : Option Window :=
  let m := s.activeImage
  let w := window m record
  if dramLive s ∧ s.web.running ∧ (s.bank s.run.active).loaded ∧ record < windowCount m ∧ w.kind = kind ∧ w.applies s.web.webPos
      ∧ nget s.dram.windowAt record ≠ s.web.webPos + 1 then some w
  else none

/-- A trace record of a device window (R452). -/
def traceWindow (kind mask first : Nat) (s : State) : State :=
  s.traceRec 9 (Config.traceUnit 9) (leBytes 1 kind ++ leBytes 1 mask ++ leBytes 4 first)

def serveWindow (record : Nat) (s : State) : State :=
  let w := window s.activeImage record
  traceWindow w.kind w.subchMask w.first (s.withDram { s.dram with windowAt := nput s.dram.windowAt record (s.web.webPos + 1) })

/-- The ranks a window names on channels that are awake. -/
def windowRanks (s : State) (w : Window) : List (Nat × Nat) :=
  (maskList w.subchMask 8).flatMap (fun h =>
    if (s.channel (h / 2)).sr = .awake then ((maskList w.rankMask 2).filter (fun r => decide (r ∈ s.ranks))).map (fun r => (h, r)) else [])

/-- Each rank named gets as many refreshes as it owes, up to the window's count. -/
def refreshWindow (w : Window) (s : State) : State :=
  (windowRanks s w).foldl (fun s x => payDebt x.1 x.2 (min (refreshesOwed s x.1 x.2) w.refreshes) s) s

/-- GEYSER_WINDOW (R35, R37, R38): the window of record `record` in the frame of the latest tick. -/
def execGeyserWindow (record : Nat) (s : State) : Result :=
  match openWindow s record 1 with
  | none => .next s
  | some w => .next (if anyOverrun s then s.fatal .refreshOverrun else refreshWindow w (serveWindow record s))

/-- IDLE_REFRESH (R293): outside a run, tREFI2 has passed for a rank. -/
def execIdleRefresh (subch rank t : Nat) (s : State) : Result :=
  let s := s.at t
  .next (if dramLive s ∧ !s.web.running ∧ subch < 8 ∧ rank ∈ s.ranks ∧ (s.channel (subch / 2)).sr = .awake
      ∧ refreshUnit s.dram.cfg ≤ debtNow s subch rank then payDebt subch rank 1 s
    else s)

/-! ## Retraining (R292, R293, R294) -/

/-- MR4 of a rank: a request for a rate above the one in force is logged when it appears, with channel and rank, and raises
THERMAL. -/
def readMr4 (mr4 : Nat) (s : State) (x : Nat × Nat) : State :=
  let k := rankIx x.1 x.2
  let ask := bit mr4 k
  let was := tget (fun _ => false) s.dram.hot k
  let s := payDebt x.1 x.2 0 s
  let s := s.withDram { s.dram with hot := tput (fun _ => false) s.dram.hot k ask }
  if ask && !was then
    (s.report 0x5004 (logKey none none (some x.1) none) 0 (leBytes 1 (x.1 / 2) ++ leBytes 1 x.2)).raise 8
  else s

/-- The read delay of a rank moves by at most one tap toward the value the oscillator count gives. -/
def moveTap (s : State) (x : Nat × Nat) : State :=
  let k := rankIx x.1 x.2
  let (n, s) := (s.draws, s.withDraws (s.draws + 1))
  let tap := tget (fun _ => 0) s.dram.taps k + clampInt (-1) 1 (Config.dqsStep k n)
  s.withDram { s.dram with taps := tput (fun _ => 0) s.dram.taps k tap }

/-- The contents of a RETRAIN window on one channel. -/
def retrain (mr4 c : Nat) (s : State) : State :=
  let all := [2 * c, 2 * c + 1].flatMap (fun h => s.ranks.map (fun r => (h, r)))
  let s := all.foldl (readMr4 mr4) s
  let s := all.foldl moveTap s
  s.withChannel c { s.channel c with lastRetrain := s.clk.elapsed, oscSince := s.clk.elapsed, zq := true }

/-- RETRAIN_WINDOW (R36, R37, R292). -/
def execRetrainWindow (record mr4 : Nat) (s : State) : Result :=
  match openWindow s record 2 with
  | none => .next s
  | some w =>
    let cs := (List.range 4).filter (fun c => bit w.subchMask (2 * c) && bit w.subchMask (2 * c + 1) && decide ((s.channel c).sr = .awake))
    .next (cs.foldl (fun s c => retrain mr4 c s) (serveWindow record s))

/-- IDLE_RETRAIN (R293): outside a run, 50 ms after the latest retraining of the channel. -/
def execIdleRetrain (channel mr4 t : Nat) (s : State) : Result :=
  let s := s.at t
  .next (if dramLive s ∧ !s.web.running ∧ channel < 4 ∧ (s.channel channel).sr = .awake
      ∧ (s.channel channel).lastRetrain + 50 * msT ≤ s.clk.elapsed then retrain mr4 channel s
    else s)

/-! ## Serving requests (R299, R304, R305) -/

/-- Bytes of a burst with the enabled ones replaced. -/
def mergeBytes : List Byte → List Byte → List Bool → List Byte
  | old :: os, d :: ds, e :: es => (if e then d else old) :: mergeBytes os ds es
  | os, _, _ => os

/-- A write of a burst: whole, with fresh check bits, or as read, merge and write (R305). -/
def writeBurst (addr : Nat) (data : List Byte) (enables : List Bool) (err : ReadErr) (s : State) : State :=
  let phys := physAddr s.dram.cfg.config s.dram.cfg.map addr
  let whole := decide (data.length = 64) && decide (enables.length = 64) && enables.all id
  if whole then (s.devWrite addr data).withPoison (clearBursts s.store.poison [burstOf phys])
  else
    let merged := mergeBytes (s.devRead addr 64) data enables
    let (t, good) := readBurst phys err s
    let t := if !good then t.count 23
      else if burstOutcome s phys (s.burstPoisoned phys) err = .corrected then t.count 22
      else t
    t.devWrite addr merged

def State.cam (s : State) (p : Nat) : CamPort := tget (fun _ => CamPort.reset) s.cams p

def State.withCam (s : State) (p : Nat) (x : CamPort) : State := s.withCams (tput (fun _ => CamPort.reset) s.cams p x)

/-- Change a frame of a port, by SEQ: the open one, or one that has closed and whose lines still wait. -/
def withFrame (port seq : Nat) (f : CamFrame → CamFrame) (s : State) : State :=
  let p := s.cam port
  let g (x : CamFrame) : CamFrame := if x.seq = seq then f x else x
  s.withCam port { p with frame := p.frame.map g, closing := p.closing.map g }

def frameFlag (port seq i : Nat) (s : State) : State := withFrame port seq (fun f => { f with flags := setBit f.flags i true }) s

/-- A camera port's staging queue meets a burst it cannot use: the line is dropped, counted and flagged as R265 has it (R304). It is the oldest
coding line that waits in the queue; where none waits, the next line that passes through it (DEDUCED, log 69). -/
def dropLine (port : Nat) (s : State) : State :=
  let p := s.cam port
  match p.staged with
  | [] => s.withCam port { p with lineLost := true }
  | (seq, i) :: l =>
    let waits := p.codeWait.map (fun j => if j.seq = seq then { j with rows := tput (fun _ => []) j.rows i [] } else j)
    let s := s.withCam port { p with staged := l, codeWait := waits }
    withFrame port seq (fun f => { f with coded := tput (fun _ => []) f.coded i [], flags := setBit f.flags 7 true }) (s.count (camCounter port 9))

/-- Firmware data cannot be read: fatal (R447), but in the table mirror, where the copy of that class and bar is marked invalid. -/
def loseFirmware (addr : Nat) (s : State) : State :=
  match Config.fwUse (addr - (reservedBase s.dram.cfg.config + 0x08B10000)) with
  | .mirror k => s.withBoot { s.boot with checkpoint := { s.boot.checkpoint with mirrorBad := distinct (k :: s.boot.checkpoint.mirrorBad) } }
  | .maps => State.fatal (s.withBoot { s.boot with checkpoint := { s.boot.checkpoint with mapBad := true } }) .fwDataUe
  | .other => s.fatal .fwDataUe

/-- What a class does with a burst it may not use (R304). The host's and the codec's commands answer for themselves. -/
def unusable (cls addr : Nat) (s : State) : State :=
  match cls with
  | 0 => dropLine 0 s
  | 1 => dropLine 1 s
  | 4 => if wearBase s ≤ addr ∧ addr < wearBase s + wearBytes then loseBurst s (addr / 64 * 64) else s
  | 5 => loseFirmware addr s
  | _ => s

/-- A request that is served. -/
def serveRequest (r : HeldReq) (s : State) : State :=
  let phys := physAddr s.dram.cfg.config s.dram.cfg.map r.addr
  if r.write then writeBurst r.addr r.data r.enables r.err s
  else
    let (s, good) := readBurst phys r.err s
    if good then s else unusable r.cls r.addr s

/-- A request reaches its channel (R297): it waits for the end of an SR window, and is otherwise served. A class without tokens has no request
accepted (R299). -/
def acceptRequest (r : HeldReq) (s : State) : State :=
  let h := subchOf s r.addr
  let c := h / 2
  if classTokens r.cls ≤ tokensHeld s h r.cls then s
  else
    let t := touchChannel s c
    if (s.channel c).sr = .windowSr then t.withChannel c { t.channel c with held := (t.channel c).held ++ [r] } else serveRequest r t

/-- Host software has no access to the reserved region but by commands and the trace window, which only read it (R289). -/
def mayReach (s : State) (cls addr : Nat) (write : Bool) : Bool := !(decide (cls = 2 ∧ reservedBase s.dram.cfg.config ≤ addr) && write)

/-- DYNAMIC_SHARE_REQUEST (R297 to R299, R304, R305): a request of one burst. -/
def execDynamicShareRequest (cls addr : Nat) (write : Bool) (data : List Byte) (enables : List Bool) (err : ReadErr) (t : Nat)
    (s : State) : Result :=
  let s := s.at t
  if !dramLive s ∨ 6 < cls then .next s
  else if dramCapacity s.dram.cfg.config ≤ addr then .fault .noSuchAddress
  else if !mayReach s cls addr write then .next s
  else .next (acceptRequest
    { cls := cls, addr := addr / 64 * 64, write := write, data := data, enables := enables, err := err } s)

/-! ## Self-refresh (R38, R296, R297) -/

/-- The ranks of a channel. -/
def channelRanks (s : State) (c : Nat) : List (Nat × Nat) := [2 * c, 2 * c + 1].flatMap (fun h => s.ranks.map (fun r => (h, r)))

/-- A channel enters self-refresh; its debts stand. -/
def sleepChannel (sr : SelfRefresh) (c : Nat) (s : State) : State :=
  let s := (channelRanks s c).foldl (fun s x => payDebt x.1 x.2 0 s) s
  s.withChannel c { s.channel c with sr := sr }

/-- The sub-channels of a channel mask. -/
def channelSubs (mask : Nat) : Nat := maskOf ((maskList mask 4).flatMap (fun c => [2 * c, 2 * c + 1]))

/-- SR_WINDOW_ENTRY (R38, R297): offset 0 of the entry frame of SR window `index` of the gap that begins at `gapStart`. -/
def execSrWindowEntry (gapStart index : Nat) (s : State) : Result :=
  match s.run.pages.find? (fun p => p.placed && decide (p.start + p.length = gapStart)) with
  | none => .next s
  | some p =>
    let m := (s.bank p.bank).image
    let w := gpSr m p.gapProg index
    if !s.web.running ∨ !dramLive s ∨ gpSrCount m p.gapProg ≤ index ∨ gapStart + w.2.1 ≠ s.web.webPos then .next s
    else .next ((maskList w.1 4).foldl (fun s c =>
      if (s.channel c).sr = .awake ∧ !(s.channel c).cancelled then sleepChannel .windowSr c s else s)
      (traceWindow 3 (channelSubs w.1) 0 s))

/-- The order in which a sub-channel's waiting requests are served (R299): camera classes in panic, the port of the context with
PRIORITY HIGH first, then the others by deficit round robin. -/
def roundRobin : Nat → List HeldReq → List HeldReq
  | 0, l => l
  | n + 1, l =>
    let round := (List.range 7).flatMap (fun k => (l.filter (fun r => decide (r.cls = k))).take (classWeight k))
    let rest := (List.range 7).flatMap (fun k => (l.filter (fun r => decide (r.cls = k))).drop (classWeight k))
    if rest = [] then round else round ++ roundRobin n rest

def camPanic (s : State) (port : Nat) : Bool :=
  match s.cams.find? (fun e => decide (e.1 = port)) with
  | none => false
  | some e => e.2.panic

def camHigh (s : State) (port : Nat) : Bool :=
  match s.cams.find? (fun e => decide (e.1 = port)) with
  | none => false
  | some e => match e.2.ctx with
    | none => false
    | some c => decide (c.priority = 0)

def servedOrder (s : State) (l : List HeldReq) : List HeldReq :=
  let ports := (if camHigh s 1 then [1, 0] else [0, 1]).filter (camPanic s)
  let urgent := ports.flatMap (fun k => l.filter (fun r => decide (r.cls = k)))
  urgent ++ roundRobin l.length (l.filter (fun r => decide (r.cls ∉ ports)))

/-- What waited on a channel, sub-channel by sub-channel: each has its own round robin (R299). -/
def servedChannel (s : State) (c : Nat) : List HeldReq :=
  [2 * c, 2 * c + 1].flatMap (fun h => servedOrder s ((s.channel c).held.filter (fun r => decide (subchOf s r.addr = h))))

/-- A channel leaves self-refresh, and what waited is served. -/
def wakeChannel (c : Nat) (s : State) : State :=
  let served := servedChannel s c
  let s := (channelRanks s c).foldl (fun s x =>
    s.withDram { s.dram with debtAt := nput s.dram.debtAt (rankIx x.1 x.2) s.clk.elapsed }) s
  let s := s.withChannel c { s.channel c with sr := .awake, held := [], cancelled := false }
  served.foldl (fun s r => serveRequest r s) s

/-- SR_WINDOW_EXIT (R38, R297): offset 0 of the exit frame. A window that the end of its run has cut short ends at once. -/
def execSrWindowExit (gapStart index : Nat) (s : State) : Result :=
  if !s.web.running then
    .next ((List.range 4).foldl (fun s c => if (s.channel c).sr = .windowSr then wakeChannel c s else s) s)
  else match s.run.pages.find? (fun p => p.placed && decide (p.start + p.length = gapStart)) with
    | none => .next s
    | some p =>
      let m := (s.bank p.bank).image
      let w := gpSr m p.gapProg index
      if gpSrCount m p.gapProg ≤ index ∨ s.web.webPos < gapStart + w.2.2 then .next s
      else .next ((maskList w.1 4).foldl (fun s c =>
        if (s.channel c).sr = .windowSr then wakeChannel c s else s.withChannel c { s.channel c with cancelled := false })
        (traceWindow 4 (channelSubs w.1) 0 s))

/-- SR_IDLE_ENTRY (R296): SR_IDLE has passed in IDLE without a request. -/
def execSrIdleEntry (channel t : Nat) (s : State) : Result :=
  let s := s.at t
  let idle := (if s.dram.cfg.srIdle = 0 then 100 else s.dram.cfg.srIdle) * msT
  .next (if s.dev = .idle ∧ dramLive s ∧ channel < 4 ∧ (s.channel channel).sr = .awake
      ∧ (s.channel channel).lastRequest + idle ≤ s.clk.elapsed then sleepChannel .idleSr channel s
    else s)

/-! ## What the scrubber finds in a store frame (R310) -/

/-- The frame that holds a burst, and the burst's number in it. -/
def frameOfBurst (s : State) (phys : Nat) : Option (Nat × Nat) :=
  let x := rowPageOf s.dram.cfg.config phys
  (s.store.frames.find? (fun h =>
    let p := handlePage h
    decide (p.subch = x.subch ∧ p.rank = x.rank ∧ p.bg = x.bg ∧ p.bank = x.bank ∧ p.row ≤ x.row ∧ x.row < p.row + 5))).map
    (fun h => (h, 64 * (x.row - (handlePage h).row) + phys % 4096 / 64))

/-- The first bar, layer, tile row and tile column at which a descriptor names a frame. -/
def siteOf (s : State) (d h : Nat) : Option (Nat × Nat × Nat × Nat) :=
  layersOf.findSome? (fun x =>
    let e := layerEntry s d x.1 x.2
    if e.list = 0xFFFFFFFF then none
    else (List.range (e.rows * e.cols)).findSome? (fun i =>
      let row := i / max 1 e.cols
      let col := e.firstCol + i % max 1 e.cols
      if listedTile s e row col = .frame h then some (x.1, x.2, row, col) else none))

/-- The row groups of a tile that read a burst of its frame, and the PART of the RUN cues that fetch it. -/
def burstGroups (m : Mem) (p b c layer row burst : Nat) : List Nat :=
  if layer = 0 then
    (List.range 8).filter (fun g => decide ((budget m p b c row g).1 ≤ burst ∧ burst < (budget m p b c row g).1 + (budget m p b c row g).2))
  else if burst < 256 then [burst / 32]
  else if burst = 256 then [0]
  else if 288 ≤ burst then [(burst - 288) / 4]
  else []

/-- The base burst of a RUN cue's run for a row group (R53). -/
def baseBurst (m : Mem) (p b c layer row part g : Nat) : Nat :=
  if part = 1 then 256 else if part = 2 then 288 + 4 * g else if layer = 1 then 32 * g else (budget m p b c row g).1

/-- The first frame at which a step list plays a RUN cue of a context that fetches a burst for a row group. -/
def fetchFrame (m : Mem) (p b c layer row burst g : Nat) : Nat → List (Nat × Nat) → Option Nat
  | _, [] => none
  | o, (f, r) :: rest =>
    let div := alongDiv m p b
    let lo : Int := ((64 * row + 8 * g) * div : Nat)
    let hi : Int := (min ((64 * row + 8 * g + 8) * div) (ppLen m p) : Nat)
    let at_ (q : Cue) : Option Nat :=
      let base := baseBurst m p b c layer row q.part g
      let j := max (o : Int) (lo + 5 - q.lead)
      if q.kind = 1 ∧ q.layer = layer ∧ q.context = c ∧ base + q.first ≤ burst ∧ burst < base + q.first + q.bursts
          ∧ j < ((o + r : Nat) : Int) ∧ j - 5 + q.lead < hi then some j.toNat else none
    match (frameCues m f).filterMap at_ with
    | [] => fetchFrame m p b c layer row burst g (o + r) rest
    | x :: l => some (l.foldl min x)

/-- The contexts of a bar and layer that play a tile column. -/
def columnContexts (m : Mem) (b layer col : Nat) : List Nat := (ctxList m b layer).filter (fun c => decide (ctxTileCol m b layer c = col))

/-- The first row group that reads the burst, and NEED for a page that begins at `start`. -/
def burstNeed (s : State) (p : PagePos) (site : Nat × Nat × Nat × Nat) (burst : Nat) : Nat × Nat :=
  let m := (s.bank p.bank).image
  let (b, layer, row, col) := site
  let pairs := (columnContexts m b layer col).flatMap (fun c => (burstGroups m p.pageProg b c layer row burst).map (fun g => (c, g)))
  let frames := pairs.filterMap (fun x => fetchFrame m p.pageProg b x.1 layer row burst x.2 0 (ppSteps m p.pageProg b))
  (match pairs.map (·.2) with
    | [] => 0xFF
    | g :: l => l.foldl min g,
   match frames with
    | [] => 2 ^ 64 - 1
    | f :: l => p.start + ppCFirst m p.pageProg b + l.foldl min f - 5)

def insertNat (n : Nat) : List Nat → List Nat
  | [] => [n]
  | a :: l => if n < a then n :: a :: l else if n = a then a :: l else a :: insertNat n l

/-- Ready page indices of a job from `low` on, as spans of indices whose latest entry is the same. -/
def readySpans (s : State) (job low : Nat) : List (Nat × Nat × Ready) :=
  let mine := s.run.ready.filter (fun r => decide (r.jobId = job))
  let cuts := (mine.flatMap (fun r => [r.first, if r.count = 0xFFFFFFFF then 2 ^ 32 else r.first + r.count])).foldl (fun l n =>
    insertNat (max low n) l) [low]
  (List.zip cuts (cuts.drop 1)).filterMap (fun x => (readyFor s job x.1).map (fun r => (x.1, x.2, r)))

/-- Pages that name a frame: those resolved and not done, then spans of ready ones, as (job, first index, number, site, position). -/
def pagesNaming (s : State) (h : Nat) : List (Nat × Nat × Nat × (Nat × Nat × Nat × Nat) × Option PagePos) :=
  let resolved := (s.run.pages.filter (fun p => p.resolved && !p.done && !p.blank && decide (h ∉ p.absent))).filterMap (fun p =>
    match p.descriptor with
    | none => none
    | some d => (siteOf s d h).map (fun x => (p.jobId, p.pageIndex, 1, x, some p)))
  let jobs := (s.run.jobId, firstOpen s) :: (match s.run.activation with
    | none => []
    | some a => [(a.jobId, a.first)])
  resolved ++ jobs.flatMap (fun j => (readySpans s j.1 j.2).filterMap (fun x =>
    (siteOf s x.2.2.descriptor h).map (fun y => (j.1, x.1, x.2.1 - x.1, y, none))))

/-- SCRUB_UE: the report whose entry holds the results of the tile-list search. -/
def reportScrub (h burst : Nat) (s : State) : State :=
  let ones (n : Nat) : List Byte := List.replicate n 0xFF
  match pagesNaming s h with
  | [] =>
    let site : Option Nat × Option Nat := match s.pools.find? (fun p => p.owns h) with
      | none => (none, none)
      | some p => (some p.bar, some p.layer)
    s.reportFollow 0x5002 (logKey site.1 none none site.2) h (leBytes 1 burst ++ ones 2 ++ ones 2 ++ ones 1 ++ ones 4 ++ ones 8 ++ leBytes 4 0)
  | x :: l =>
    let (job, index, n, site, pos) := x
    let place := match pos with
      | some p => some p
      | none => findPage s (index + 2) (fun p => decide (p.jobId = job ∧ p.pageIndex = index)) (fun _ => false)
    let need := match place with
      | some p => burstNeed s p site burst
      | none => (0xFF, 2 ^ 64 - 1)
    let total := l.foldl (fun k y => k + y.2.2.1) n
    s.reportFollow 0x5002 (logKey (some site.1) none none (some site.2.1)) h
      (leBytes 1 burst ++ leBytes 2 site.2.2.1 ++ leBytes 2 site.2.2.2 ++ leBytes 1 need.1 ++ leBytes 4 index ++ leBytes 8 need.2
        ++ leBytes 4 (sat 4 (total - 1)))

/-! ## Scrubbing (R308 to R312) -/

/-- The scrubber finds a fresh uncorrectable error in a DRAM burst. -/
def scrubbedUe (phys : Nat) (s : State) : State :=
  let s := dramUe phys s
  let addr := devAddr s.dram.cfg.config s.dram.cfg.map phys
  match frameOfBurst s phys with
  | some x => reportScrub x.1 x.2 s
  | none =>
    let s := reportUe phys s
    if reservedBase s.dram.cfg.config + 0x08B10000 ≤ addr then loseFirmware addr s else s

/-- The scrubber reads a burst. Its write-back is dropped, and counted, when a later write has superseded it. -/
def scrubBurst (phys : Nat) (err : ReadErr) (superseded : Bool) (s : State) : State :=
  match burstOutcome s phys (s.burstPoisoned phys) err with
  | .clean => s
  | .poison => s.count 21
  | .corrected => let s := dramCorrected phys s; if superseded then s.count 24 else s
  | .uncorrectable => let s := scrubbedUe phys s; if superseded then s.count 24 else markBurst phys s

/-- Firmware data in SRAM that cannot be read are fatal (R447). -/
def fatalWord (word : Nat) (s : State) : State := if sramUse word = .firmware then s.fatal .fwDataUe else s

/-- The scrubber reads an SRAM word. -/
def scrubWord (word : Nat) (err : ReadErr) (superseded : Bool) (s : State) : State :=
  match sramOutcome s word err with
  | .clean => s
  | .poison => s.count 21
  | .corrected => let s := sramCorrected word err s; if superseded then s.count 24 else s
  | .uncorrectable =>
    let s := sramUe word s
    fatalWord word (if superseded then s.count 24 else markWord word s)

/-- A SCRUB_RANGE works on a memory: the patrol of it pauses. -/
def rangeOn (s : State) (memory : Nat) : Bool :=
  match s.dram.scrub with
  | none => false
  | some o => decide (o.memory = memory)

/-- SCRUB_READ (R304, R308 to R310): the patrol scrubber reads the word its pass has come to; of DRAM through the SCRUB class. It pauses
while the thermal unit throttles and while a SCRUB_RANGE works on the memory. -/
def execScrubRead (memory addr : Nat) (err : ReadErr) (superseded : Bool) (t : Nat) (s : State) : Result :=
  let s := s.at t
  if s.thermal.throttle ∨ rangeOn s memory then .next s
  else if memory = 0 then
    if !dramLive s then .next s
    else if dramCapacity s.dram.cfg.config ≤ addr then .fault .noSuchAddress
    else if addr ≠ s.dram.scrubDram ∨ !shareOpen s 6 [subchOf s addr] then .next s
    else
      let s := scrubBurst (physAddr s.dram.cfg.config s.dram.cfg.map addr) err superseded (s.share [subchOf s addr])
      .next (s.withDram { s.dram with scrubDram := (addr + 64) % dramCapacity s.dram.cfg.config })
  else if memory = 1 then
    if sramBytes ≤ addr then .fault .noSuchAddress
    else if addr ≠ s.dram.scrubSram then .next s
    else
      let s := scrubWord addr err superseded s
      .next (s.withDram { s.dram with scrubSram := (addr + 16) % sramBytes })
  else .next s

/-! ## SCRUB_RANGE (R311, R312) -/

def scrubUnit (memory : Nat) : Nat := if memory = 0 then 64 else 16
def memoryBytes (s : State) (memory : Nat) : Nat := if memory = 0 then dramCapacity s.dram.cfg.config else sramBytes

def scrubBegin (h : Hdr) (memory start length dest : Nat) (s : State) : State :=
  let u := scrubUnit memory
  if 1 < memory ∨ start % u ≠ 0 ∨ length % u ≠ 0 ∨ length = 0 ∨ memoryBytes s memory < start + length ∨ dest % 64 ≠ 0 then
    s.finishLong h.ring h.tag (refuse stBadParam)
  else if s.dram.scrub.isSome then s.finishLong h.ring h.tag (refuse stBusy)
  else s.withDram { s.dram with
    scrub := some { ring := h.ring, tag := h.tag, memory := memory, start := start, length := length, dest := dest, checked := 0
                    corrected := 0, bad := [] } }

/-- SCRUB_RANGE RANGE (R311). -/
def execScrubRange (h : Hdr) (memory start length dest : Nat) (s : State) : Result :=
  .next (hostLong (.scrubRange (unstarted h) memory start length dest) h (cmdOf 0x00B0 0) (scrubBegin h memory start length dest) s)

/-- The SRAM words that hold the marker. -/
def markedSram (s : State) : List Nat :=
  s.dram.sramPoison
    ++ [0, 1].flatMap (fun k => (s.bank k).poison.map (fun x => bankBytes * k + x))
    ++ (List.range 10).flatMap (fun cls => (if deviceWide cls then [0] else List.range 8).flatMap (fun b => [0, 1].flatMap (fun k =>
        ((s.table cls b).poison k).map (tableAddress cls b k))))

/-- The words of a range with index from `a` to `b` - 1 that need a look, ascending: those with the marker and those in error. -/
def wordsToMeet (s : State) (o : ScrubOp) (found : List (Nat × ReadErr)) (a b : Nat) : List Nat :=
  let u := scrubUnit o.memory
  let addrs := if o.memory = 0 then s.store.poison.map (fun b => devAddr s.dram.cfg.config s.dram.cfg.map (64 * b)) else markedSram s
  let ixs := (addrs.filter (fun x => decide (o.start ≤ x))).map (fun x => (x - o.start) / u) ++ found.map (·.1)
  (ixs.filter (fun i => decide (a ≤ i ∧ i < b))).foldl (fun l i => insertNat i l) []

/-- The 160-byte summary. -/
def scrubSummary (checked corrected : Nat) (bad : List Nat) : List Byte :=
  leBytes 8 checked ++ leBytes 8 corrected ++ leBytes 8 bad.length ++ leBytes 4 (min 16 bad.length) ++ [0, 0, 0, 0]
    ++ padTo 128 ((bad.take 16).flatMap (leBytes 8))

/-- One word of the range is read. -/
def scrubAt (found : List (Nat × ReadErr)) (superseded : List Nat) (x : State × ScrubOp) (i : Nat) : State × ScrubOp :=
  let (s, o) := x
  let a := o.start + scrubUnit o.memory * i
  let phys := physAddr s.dram.cfg.config s.dram.cfg.map a
  let out := if o.memory = 0 then burstOutcome s phys (s.burstPoisoned phys) (errAt found i) else sramOutcome s a (errAt found i)
  let s := if o.memory = 0 then scrubBurst phys (errAt found i) (i ∈ superseded) s else scrubWord a (errAt found i) (i ∈ superseded) s
  (s, match out with
    | .clean => o
    | .corrected => { o with corrected := o.corrected + 1 }
    | _ => { o with bad := o.bad ++ [i] })

/-- The words of the range up to `b` are checked, through the SCRUB class in DRAM; the operation itself, as it then stands. -/
def scrubUpTo (o : ScrubOp) (b : Nat) (found : List (Nat × ReadErr)) (superseded : List Nat) (s : State) : State × ScrubOp :=
  let u := scrubUnit o.memory
  let s := if o.memory = 0 then s.share (spanSubs s (o.start + u * o.checked) (u * (b - o.checked))) else s
  let (s, o) := (wordsToMeet s o found o.checked b).foldl (scrubAt found superseded) (s, o)
  let o := { o with checked := b }
  (s.withDram { s.dram with scrub := some o }, o)

/-- The operation ends (R312). -/
def scrubEnd (o : ScrubOp) (status : Nat) (s : State) : State :=
  let addrs := o.bad.map (fun i => o.start + scrubUnit o.memory * i)
  let s := if o.dest = 0 then s else s.dmaWrite o.dest (scrubSummary o.checked o.corrected addrs)
  let s := s.withDram { s.dram with scrub := none }
  s.finishLong o.ring o.tag (answer status (leBytes 8 o.checked ++ leBytes 4 (sat 4 o.corrected) ++ leBytes 4 (sat 4 o.bad.length)))

/-- SCRUB_RANGE_DONE (R311, R312): the words up to PROGRESS, or all of the range, have been read. Throttling pauses the operation, and so
does an SR window that holds its channels. -/
def execScrubRangeDone (o : OpRef) (found : List (Nat × ReadErr)) (superseded : List Nat) (s : State) : Result :=
  .next (withStep o 0x00B0 (fun _ s =>
    match s.dram.scrub with
    | none => s
    | some x =>
      let u := scrubUnit x.memory
      let words := x.length / u
      let upto := match o.reach with
        | none => words
        | some p => max x.checked (min words (p * 2097152 / u))
      if x.ring ≠ o.ring ∨ x.tag ≠ o.tag ∨ s.thermal.throttle
          ∨ (x.memory = 0 ∧ !shareOpen s 6 (spanSubs s (x.start + u * x.checked) (u * (upto - x.checked)))) then s
      else
        let (s, y) := scrubUpTo x upto found superseded s
        let s := s.progressTo o.ring o.tag (u * min upto (words - 1) / 2097152)
        if upto = words then scrubEnd y stOk s else s) s)

/-- An ABORT of SCRUB_RANGE writes the summary of the part checked. -/
def scrubAbort (o : ScrubOp) (s : State) : State := scrubEnd o stAborted s

def patrolBody (period : Nat) (s : State) : State × Answer :=
  if period = 0 ∨ 168 < period then (s, refuse stBadParam)
  else (s.withDram { s.dram with passHours := period }, refuse stOk)

/-- SCRUB_RANGE PATROL (R311). -/
def execScrubRangePatrol (h : Hdr) (period : Nat) (s : State) : Result :=
  .next (hostCmd (.scrubRangePatrol (unstarted h) period) h (cmdOf 0x00B0 1) (patrolBody period) s)

end Sys2Proof.Machine
end

