-- ==== Sys2Proof/Machine/Package.lean ====
section
/-! DEFINITION. Machine/Package.lean: the package's balls, what the device drives on them, the supplies and their limits (R365, R385, R398,
R437, R454, R457 to R464, R466, R468, R471, R473, R474, R480, R481, R487). -/

namespace Sys2Proof.Machine

open Sys2Proof

/-! ## Balls (R458, R459) -/

/-- The letters of the ball rows: those left out are I, O, Q, R, S, X and Z. -/
def rowLetters : List String := ["A", "B", "C", "D", "E", "F", "G", "H", "J", "K", "L", "M", "N", "P", "T", "U", "V", "W", "Y"]

/-- The 54 ball rows in their order, A to BU. -/
def ballRows : List String := rowLetters ++ rowLetters.map (fun x => "A" ++ x) ++ (rowLetters.take 16).map (fun x => "B" ++ x)

/-- A ball carries a solder ball: every position of the 54 by 54 array but the four corners, counted from 0. -/
def populated (row column : Nat) : Bool := decide (row < 54 ∧ column < 54) && !(decide (row = 0 ∨ row = 53) && decide (column = 0 ∨ column = 53))

/-- The pairs of a lane group. -/
inductive LanePair where
  | d (k : Nat) | ds | ck | u0 | uck
deriving DecidableEq, Repr

/-- Signal row (0 to 2) and place in it of a pair. -/
def LanePair.place : LanePair → Nat × Nat
  | .d k => (0, k % 4)
  | .ds => (1, 0)
  | .ck => (1, 1)
  | .u0 => (2, 0)
  | .uck => (2, 1)

/-- The ball of the positive (or negative) line of a pair of group g: its row letters and its column. -/
def laneBall (g : Nat) (pair : LanePair) (negative : Bool) : String × Nat :=
  let rows := if g < 4 then ["A", "C", "E"] else ["BU", "BP", "BM"]
  (nth "" rows pair.place.1, 2 + 13 * (g % 4) + 3 * pair.place.2 + bitNat negative)

/-! ## Supplies (R464, R466, R468, R480) -/

/-- The rails in the order VDD_AON, VDD_CORE, VDD_SRAM, VDDA_PLL, VDDA_SD, VDDH_SD, VDDQ_DRAM, VDDIO_18, VDDIO_33: nominal voltage in mV. -/
def railMillivolts : List Nat := [800, 750, 800, 900, 900, 1200, 1100, 1800, 3300]

/-- Tolerance of each rail in percent, and its maximum current in mA. -/
def railPercent : List Nat := [5, 3, 3, 2, 3, 3, 3, 5, 5]
def railMilliamps : List Nat := [50, 60000, 6000, 300, 5000, 2000, 4000, 800, 200]

/-- A rail is within its tolerance. -/
def railInTolerance (rail millivolts : Nat) : Bool :=
  let n := nth 0 railMillivolts rail
  decide (rail < 9 ∧ (100 - nth 0 railPercent rail) * n ≤ 100 * millivolts ∧ 100 * millivolts ≤ (100 + nth 0 railPercent rail) * n)

/-- The step of the power-up order in which a rail is applied (R466). -/
def railStep (rail : Nat) : Nat := nth 0 [1, 3, 3, 4, 4, 5, 5, 2, 1] rail

/-- The absolute maximum of each rail in mV (R480). -/
def railAbsolute : List Nat := [950, 900, 950, 1050, 1050, 1400, 1300, 2100, 3800]

/-- An always-on cycle (R8): 1/32,768 s. -/
def alwaysOnCycle : Nat := secT / 32768

/-! ## What the device drives (R460) -/

/-- What an output carries: driven high or low, or not driven. -/
inductive Drive where
  | high | low | off
deriving DecidableEq, Repr

/-- Outputs whose level the rules give. -/
inductive Ball where
  | fireEn (b : Nat) | resetOutN | wdogOut | tout (k : Nat) | xspiResetN | dramResetN | txDis (path : Nat) | traceClk
deriving DecidableEq, Repr

def driven (b : Bool) : Drive := if b then .high else .low

/-- Any output of an undervoltage device is not driven, and pull-downs hold FIRE_EN and RESET_OUT_N low; a test instruction takes the
outputs from the device but holds those two low (R457, R463). -/
def State.drive (s : State) : Ball → Drive
  | .fireEn b => if s.boot.supplyBad then .off else if s.boot.path = .test then .low else driven (s.bar b).fireEn
  | .resetOutN => if s.boot.supplyBad then .off else if s.boot.path = .test then .low else driven s.boot.resetOutN
  | .wdogOut => if s.boot.supplyBad ∨ s.boot.path = .test then .off else driven s.boot.wdogOut
  | .tout k =>
    let x := tget (fun _ => Tout.reset) s.web.touts k
    if s.boot.supplyBad ∨ s.boot.path = .test then .off else driven (x.active != x.prog.activeLow)
  | .xspiResetN => if s.boot.supplyBad ∨ s.boot.path = .test then .off else driven s.boot.xspiResetN
  | .dramResetN => if s.boot.supplyBad ∨ s.boot.path = .test then .off else driven s.boot.dramResetN
  | .txDis path => if (tget (fun _ => NetPort.reset) s.net.ports path).mode = 0 then .off else .low
  | .traceClk => if s.boot.supplyBad ∨ s.boot.path = .test then .off else driven (bit s.trace.output 1)

/-! ## Signals (R460) -/

inductive Direction where
  | input | output | both | analogue
deriving DecidableEq, Repr

inductive Pull where
  | none | up | down
deriving DecidableEq, Repr

/-- A group of signals: its name, its balls, its direction and the internal pull of the most of its balls. -/
structure SignalGroup where
  name : String
  balls : Nat
  direction : Direction
  pull : Pull
deriving DecidableEq, Repr

/-- The signal groups; RESET_N, PERST_N, XSPI_CS_N, TMS and TDI have pulls of their own, as R460 lists them. -/
def signalGroups : List SignalGroup := [
  { name := "Head link, down", balls := 96, direction := .output, pull := .none },
  { name := "Head link, up", balls := 32, direction := .input, pull := .none },
  { name := "Fire enable", balls := 8, direction := .output, pull := .none },
  { name := "Head reset", balls := 1, direction := .output, pull := .none },
  { name := "Watchdog", balls := 1, direction := .output, pull := .none },
  { name := "Resets in", balls := 2, direction := .input, pull := .up },
  { name := "Protection", balls := 14, direction := .input, pull := .down },
  { name := "Motion", balls := 10, direction := .input, pull := .down },
  { name := "Time outputs", balls := 8, direction := .output, pull := .none },
  { name := "DRAM", balls := 632, direction := .both, pull := .none },
  { name := "PCI Express", balls := 35, direction := .both, pull := .none },
  { name := "Network", balls := 10, direction := .both, pull := .none },
  { name := "Cameras", balls := 20, direction := .input, pull := .none },
  { name := "Boot flash", balls := 12, direction := .both, pull := .none },
  { name := "Remote sensors", balls := 8, direction := .analogue, pull := .none },
  { name := "Trace", balls := 9, direction := .output, pull := .none },
  { name := "Test", balls := 5, direction := .both, pull := .none },
  { name := "Reference clocks", balls := 3, direction := .input, pull := .none },
  { name := "Straps", balls := 3, direction := .input, pull := .down },
  { name := "Reserved", balls := 16, direction := .analogue, pull := .none },
  { name := "Supplies and VSS", balls := 1987, direction := .analogue, pull := .none }]

/-! ## Straps and clocks (R461, R473, R474) -/

/-- The mode in which the flash starts, which a reset of it returns it to: single-lane by STRAP_FLASH 0, octal double data rate by 1. -/
inductive FlashMode where
  | single | octalDdr
deriving DecidableEq, Repr

def flashStart (s : State) : FlashMode := if bit s.boot.straps 0 then .octalDdr else .single

/-- The mode in which the boot ROM reads the flash: the switch to octal double data rate has been made. -/
def flashMode (s : State) : FlashMode := if s.boot.xspiResetN then .octalDdr else flashStart s

/-- REFCLK_TIME is a clipped sine, and no CMOS input, by STRAP_TCLK 1. -/
def clippedSine (s : State) : Bool := bit s.boot.straps 1

/-- Reference clocks in kHz: REFCLK_SYS, PCIE_REFCLK, REFCLK_TIME; TIME runs at 20 times the last. -/
def refclkKilohertz : List Nat := [100000, 100000, 25000]

/-! ## Operating range (R481) -/

/-- A junction temperature in 0.1 °C lies in the range in which every rule of the manual holds. -/
def operatingJunction (tj : Int) : Bool := decide (-400 ≤ tj ∧ tj ≤ 1050)

end Sys2Proof.Machine
end

