-- ==== Sys2Proof/Machine/Boot.lean ====
section
/-! DEFINITION. Machine/Boot.lean: resets, the boot, firmware packages and updates, PCI Express link-down and the test access port
(R25, R288, R291, R295, R306, R363 to R378, R384, R415, R435, R436, R447, R457, R467 to R475). -/

namespace Sys2Proof.Machine

open Sys2Proof

/-! ## The state a reset leaves (R364, R365) -/

/-- Of the calibration store a reset keeps the last accepted values. -/
def keptTarget (x : CalTarget) : CalTarget := { CalTarget.reset with value := x.value, was := x.value, reference := x.reference }

def keptTargets (t : Tab CalTarget) : Tab CalTarget := t.foldl (fun u e => tput (fun _ => CalTarget.reset) u e.1 (keptTarget e.2)) []

/-- Sensors go on converting; their episodes are forgotten, the exclusions kept. -/
def keptSensors (t : Tab Sensor) : Tab Sensor := t.foldl (fun u e => tput (fun _ => Sensor.reset) u e.1
  { e.2 with episode := false, inRangeSince := none, brokenSeq := none }) []

/-- The boot unit as steps 1 to 4 of the reset sequence leave it. -/
def resetBoot (b : BootUnit) (source : ResetSource) (warm : Bool) (path : PowerPath) (now : Time) : BootUnit :=
  { b with
    path := path, warm := warm, source := source, resetAt := now, resetReq := none, retained := false, maint := .none,
    fwVersion := 0, ucodeVersion := 0, fatal := none, fatalRec := [], fatalAt := 0, update := none, dataOp := none, commitOp := none,
    resetOutN := false, xspiResetN := false, dramResetN := warm, domains := 1, domainsReady := 1, coolSince := none,
    rejoin := none, wdogFed := (List.range 4).foldl (fun t c => nput t c now) [],
    wdogOut := decide (path ≠ .test ∧ (source = .watchdog ∨ source = .thermalRestart ∨ source = .fatal ∨ path = .shutdown ∨ path = .lockout)) }

/-- What the DRAM controller keeps: its configuration, the soft-repair list in MRAM, and, over a warm reset, DRAM in self-refresh. -/
def resetDram (d : Dram) (warm : Bool) : Dram :=
  { Dram.reset with
    cfg := d.cfg, trained := warm, repairs := d.repairs,
    channels := if warm then (List.range 4).map (fun c => (c, { Channel.reset with sr := .idleSr })) else [] }

/-- Steps 1 to 4 of R364: everything goes to its reset value but what MRAM, flash, PD0 and, over a warm reset, DRAM keep. -/
def resetState (s : State) (boot : BootUnit) : State :=
  { State.reset with
    pending := s.pending, draws := s.draws, boot := boot,
    clk := { Clk.reset with elapsed := s.clk.elapsed, offset := -(s.clk.elapsed : Int) }
    host := { HostIf.reset with mem := s.host.mem, badReads := s.host.badReads, perstLow := s.host.perstLow, messages := s.host.messages }
    log := { LogUnit.reset with fatalRecords := s.log.fatalRecords }
    trace := { Trace.reset with buffer := if boot.warm then s.trace.buffer else [] }
    store := if boot.warm then { Store.reset with dram := s.store.dram, poison := s.store.poison } else Store.reset
    path := { PrintPath.reset with wearTotals := if boot.warm then s.path.wearTotals else [], lastHarvest := s.clk.elapsed }
    link := { Link.reset with inputs := { s.link.inputs with thermalOk := decide (boot.path ≠ .shutdown ∧ boot.path ≠ .lockout) },
                              rf := s.link.rf, health := s.link.health }
    keep := { Keeping.reset with target := s.keep.target }
    dram := resetDram s.dram boot.warm
    thermal := { Thermal.reset with targets := keptTargets s.thermal.targets, sourceCfg := s.thermal.sourceCfg,
                                    deltaT := s.thermal.deltaT, remotes := s.thermal.remotes, sensors := keptSensors s.thermal.sensors } }

/-- A reset (R363, R364): run enable falls with the device state, and an edge of FIRE_EN is told like any other (R227) where the supplies and
clocks are not lost with it; warm when its source asks for it, RETAIN is set and DRAM holds anything. -/
def State.doReset (s : State) (source : ResetSource) (warm : Bool) (path : PowerPath) : State :=
  let s := if source = .porN then s else (s.withDev .boot).settleGates
  let keep := warm && s.dram.cfg.retain && s.dram.trained
  resetState s (resetBoot s.boot source keep path s.clk.elapsed)

/-! ## Reset sources (R363, R25, R366, R367, R467 to R469) -/

/-- POR_N (R467): low for 1 µs or more; a cold reset at once. -/
def execPorN (held t : Nat) (s : State) : Result :=
  let s := s.at t
  .next (if held < usT then s
    else
      let s := s.doReset .porN false .held
      s.withBoot { s.boot with porLow := true, jtag := 1 })

/-- A monitored rail is below its threshold (R464, R468): 90 % of nominal, and 0.70 V of VDD_AON. -/
def railLow (rail millivolts : Nat) : Bool :=
  decide (rail < 9 ∧ millivolts < (if rail = 0 then 700 else nth 0 railMillivolts rail * 9 / 10))

/-- SUPPLY_DROP (R468): a rail below its threshold for 2 µs or more acts as POR_N. -/
def execSupplyDrop (rail millivolts held t : Nat) (s : State) : Result :=
  let s := s.at t
  .next (if !railLow rail millivolts ∨ held < 2 * usT then s
    else
      let s := s.doReset .porN false .held
      s.withBoot { s.boot with supplyBad := true })

/-- RESET_N (R467, R469): accepted when it has stayed low for two always-on cycles; with POR_N low or a rail out the reset stays cold. -/
def execResetN (held t : Nat) (s : State) : Result :=
  let s := s.at t
  .next (if held < 2 * alwaysOnCycle then s
    else
      let s := if s.boot.porLow ∨ s.boot.supplyBad then s else s.doReset .resetN true .held
      s.withBoot { s.boot with resetLow := true })

/-- WATCHDOG_EXPIRY (R25, R363): one of the four cores has not fed the watchdog for 100 ms. `fed` is when it last did. -/
def execWatchdogExpiry (core fed t : Nat) (s : State) : Result :=
  let s := s.at t
  if 3 < core then .next s
  else
    let last := max fed (nget s.boot.wdogFed core)
    let s := s.withBoot { s.boot with wdogFed := nput s.boot.wdogFed core last }
    .next (if s.boot.path ∈ [.up, .booting, .record] ∧ last + 100 * msT ≤ s.clk.elapsed then s.doReset .watchdog true .booting else s)

/-- FATAL_ERROR (R367, R447). A refresh overrun is met when a rank owes more than 8 refreshes (R294). -/
def execFatalError (cause : FatalCause) (t : Nat) (s : State) : Result :=
  let s := s.at t
  .next (if cause = .refreshOverrun ∧ !anyOverrun s then s else s.fatal cause)

/-- The clock domains that a lost PLL leaves without a clock cannot put DRAM to sleep (R475). -/
def clocksGone (s : State) : Bool := decide (Pll.time ∈ s.boot.pllLost)

/-- FATAL_RECORD_WRITTEN (R367, R448): the record stands in MRAM, or 10 ms have passed without it; the reset follows. -/
def execFatalRecordWritten (complete : Bool) (t : Nat) (s : State) : Result :=
  let s := s.at t
  match s.boot.fatal with
  | none => .next s
  | some c =>
    if s.boot.path ≠ .record ∨ (!complete ∧ s.clk.elapsed < s.boot.fatalAt + 10 * msT) then .next s
    else
      let s := if complete then s.withLog { s.log with fatalRecords := (s.boot.fatalRec :: s.log.fatalRecords).take 16 }
        else s.withBoot { s.boot with recordLost := true }
      .next (s.doReset .fatal (decide (c ≠ .refreshOverrun) && !clocksGone s) .booting)

def resetBody (kind : Nat) (s : State) : State × Answer :=
  if 1 < kind then (s, refuse stBadParam) else (s.withBoot { s.boot with resetReq := some kind }, refuse stOk)

/-- DEVICE_RESET (R366): the reply is written, then the reset follows. -/
def execDeviceReset (h : Hdr) (kind : Nat) (s : State) : Result :=
  let s := hostCmd (.deviceReset (unstarted h) kind) h (cmdOf 0x0120 0) (resetBody kind) s
  .next (match s.boot.resetReq with
    | none => s
    | some k => s.doReset .deviceReset (decide (k = 0)) .booting)

/-- A PCI Express hot reset or link-down (R317, R350, R384). What its rings had fetched runs on, without replies. -/
def pcieDown (s : State) : State :=
  if !s.host.linkUp then s
  else
    let down (g : Ring) : Ring := { g with enabled := false, owed := 0, unsignalled := 0, fetched := [], orphans := g.orphans ++ g.fetched.filter (fun f =>
      match f with
      | .cmd _ => true
      | .bad _ _ _ => false) }
    let rings := s.host.rings.foldl (fun t e => tput (fun _ => Ring.reset) t e.1
      (if e.1 = 0 then { Ring.reset with orphans := (down e.2).orphans, last := e.2.last } else down e.2)) s.host.rings
    let s := s.withHost { s.host with
      linkUp := false, rings := rings, longOps := s.host.longOps.map (fun o => { o with orphan := true })
      waits := s.host.waits.map (fun w => { w with orphan := true }), msix := [], pba := 0
      plume := { s.host.plume with enabled := false } }
    s.withRegs { s.regs with scratch := 0, hotResets := sat 2 (s.regs.hotResets + 1) }

/-- CLOCK_LOSS (R447, R475): a PLL loses lock. A loss of the PCI Express clock takes only the link down. -/
def execClockLoss (pll : Pll) (t : Nat) (s : State) : Result :=
  let s := s.at t
  let s := s.withBoot { s.boot with pllLost := distinct (pll :: s.boot.pllLost) }
  .next (if pll = .pcie then pcieDown s else s.fatal .clockLoss)

/-- PERST_N (R472, R384): a link-down and nothing else. -/
def execPerstN (t : Nat) (s : State) : Result :=
  let s := pcieDown (s.at t)
  .next (s.withHost { s.host with perstLow := true })

/-- PCIE_HOT_RESET (R317, R350, R384). -/
def execPcieHotReset (t : Nat) (s : State) : Result := .next (pcieDown (s.at t))

/-- PCIE_LINK_UP (R472): the link trains; PERST_N is high again. -/
def execPcieLinkUp (t : Nat) (s : State) : Result :=
  let s := s.at t
  if s.boot.path ≠ .up ∧ s.boot.path ≠ .booting then .next s
  else
    let s := s.withBoot { s.boot with pllLost := s.boot.pllLost.filter (fun p => p ≠ .pcie) }
    .next (s.withHost { s.host with linkUp := true, perstLow := false })

/-- A command that waits for domains answers once all of them are ready (R436). -/
def endDomainWait (s : State) (w : Wait) : State :=
  match w.kind with
  | .domain mask result =>
    if (maskList mask 12).all (bit s.boot.domainsReady) then (s.endWait w (answer stOk result)).settle w.ring else s
  | _ => s

/-- POWER_DOMAIN_READY (R435, R436): a domain that has been switched on reaches full operation, and the commands that wait for it
proceed. -/
def execPowerDomainReady (domain t : Nat) (s : State) : Result :=
  let s := s.at t
  .next (if domain < 12 ∧ bit s.boot.domains domain then
      s.host.waits.foldl endDomainWait (s.withBoot { s.boot with domainsReady := setBit s.boot.domainsReady domain true })
    else s)

/-- The instruction that a value of the instruction register acts as: values without one act as BYPASS (R456). -/
def jtagInstruction (v : Nat) : Nat := if 1 ≤ v ∧ v ≤ 7 then v else 0xFF

/-- The identification that IDCODE shifts out: 0xV824_0A37, V being the silicon revision (R456). -/
def idcode : Nat := 0x08240A37 + 2 ^ 28 * (Config.deviceRev % 16)

/-- JTAG_INSTRUCTION_LOAD (R456, R457): EXTEST, EXTEST_PULSE, EXTEST_TRAIN, CLAMP and HIGHZ first take the device through steps 1 to 4 of
a cold reset; it stays in reset until POR_N or RESET_N. -/
def execJtagInstructionLoad (instruction t : Nat) (s : State) : Result :=
  let s := s.at t
  let i := jtagInstruction (instruction % 256)
  let s := if 3 ≤ i ∧ i ≤ 7 then s.doReset s.boot.source false .test else s
  .next (s.withBoot { s.boot with jtag := i })

/-! ## Flash, boot configuration, packages (R368 to R372) -/

/-- Flash that nothing has written reads as erased. -/
def flashByte : Nat → Byte := fun _ => 0xFF

def flashRead (s : State) (a n : Nat) : List Byte := mread flashByte s.boot.flash a n
def flashN (s : State) (a w : Nat) : Nat := leNat (flashRead s a w)
def flashWrite (a : Nat) (bs : List Byte) (s : State) : State := s.withBoot { s.boot with flash := mwrite flashByte s.boot.flash a bs }

/-- Is a boot configuration record valid (R369)? -/
def recordValid (r : List Byte) : Bool :=
  decide (field r 0 4 = 0x47464342 ∧ field r 4 2 = 1 ∧ field r 6 1 ≤ 3 ∧ field r 7 1 ≤ 8 ∧ field r 8 1 ≤ 2 ∧ field r 9 1 ≤ 1
      ∧ field r 10 1 ≤ 1 ∧ field r 11 1 = 0 ∧ field r 12 4 ≤ 10000 ∧ field r 60 4 = crc32c (r.take 60))
    && ((r.drop 20).take 40).all (fun b => b == 0)

def recordSerial (r : List Byte) : Nat := field r 16 4

def copyAt (s : State) (k : Nat) : List Byte := flashRead s (4096 * k) 64

/-- The copy that counts: the valid one with the higher SERIAL. -/
def liveCopy (s : State) : Option Nat :=
  match recordValid (copyAt s 0), recordValid (copyAt s 1) with
  | true, true => some (if recordSerial (copyAt s 0) < recordSerial (copyAt s 1) then 1 else 0)
  | true, false => some 0
  | false, true => some 1
  | false, false => none

/-- The trained configuration in force: under HOT tREFI2, entry 12 of the timing values, is half the data-sheet value (R294). -/
def hotConfig (c : DramConfig) : DramConfig :=
  if c.hot then { c with timing := c.timing.take 12 ++ ((c.timing.drop 12).take 1).map (fun t => t / 2) ++ c.timing.drop 13 } else c

/-- What a record configures; the timing values are those that training confirmed, tREFI2 for a case up to 85 °C. -/
def recordConfig (r : List Byte) (timing : List Nat) : DramConfig :=
  { config := field r 6 1, rate := field r 7 1, map := field r 8 1, hot := decide (field r 9 1 = 1), retain := decide (field r 10 1 = 1),
    srIdle := field r 12 4, timing := timing }

def slotBase (k : Nat) : Nat := 0x00100000 + 0x01000000 * k
def pkgN (s : State) (k o w : Nat) : Nat := flashN s (slotBase k + o) w
def pkgLength (s : State) (k : Nat) : Nat := pkgN s k 8 4
def hasImage (s : State) (k i : Nat) : Bool := bit (pkgN s k 7 1) i
def imageVersion (s : State) (k i : Nat) : Nat := pkgN s k (12 + 4 * i) 4

/-- An image lies inside its package and before the signature; one that is absent has version 0. -/
def imagePlaced (s : State) (k i : Nat) : Bool :=
  if hasImage s k i then decide (pkgN s k (24 + 8 * i) 4 + pkgN s k (28 + 8 * i) 4 + 96 ≤ pkgLength s k)
  else decide (imageVersion s k i = 0)

/-- The header of a package is well formed (R371). -/
def pkgOk (s : State) (k : Nat) : Bool :=
  let pairs := pkgN s k 20 2
  decide (pkgN s k 0 4 = 0x4B504B47 ∧ pkgN s k 4 2 = 1 ∧ pkgN s k 6 1 ≤ 1 ∧ 1 ≤ pkgN s k 7 1 ∧ pkgN s k 7 1 ≤ 3
      ∧ 256 ≤ pkgLength s k ∧ pkgLength s k ≤ 16777216 ∧ 1 ≤ pairs ∧ pairs ≤ 64 ∧ 64 + 16 * pairs + 96 ≤ pkgLength s k
      ∧ pkgN s k 22 2 = 0 ∧ pkgN s k 40 24 = 0)
    && imagePlaced s k 0 && imagePlaced s k 1

/-- A package verifies under its key (R371). -/
def pkgSigned (s : State) (k : Nat) : Bool :=
  let key := pkgN s k 6 1
  !(decide (key = 0) && Config.key0Revoked) && Config.signatureVerifies key (flashRead s (slotBase k) (pkgLength s k))

/-- The slot an image is taken from with slot `pref` preferred (R372). -/
def imageSlot (s : State) (pref i : Nat) : Option Nat :=
  if hasImage s pref i then some pref
  else if pkgOk s (1 - pref) ∧ hasImage s (1 - pref) i then some (1 - pref)
  else none

/-- CONTRACT of the manifest entries for a pair. -/
def pairContracts (s : State) (pref fw uc : Nat) : List Nat :=
  ((List.range (pkgN s pref 20 2)).filter (fun j => decide (pkgN s pref (64 + 16 * j) 4 = fw ∧ pkgN s pref (68 + 16 * j) 4 = uc))).map
    (fun j => pkgN s pref (72 + 16 * j) 1)

/-- What the assembly of a pair comes to: its versions, and the first failure of R372 with its status. -/
structure PairCheck where
  fw : Nat
  uc : Nat
  fail : Option (MaintReason × Nat)
deriving DecidableEq, Repr

def checkPair (s : State) (pref : Nat) : PairCheck :=
  if !pkgOk s pref then { fw := 0, uc := 0, fail := some (.imageMissing, stBadLength) }
  else
    let f := imageSlot s pref 0
    let u := imageSlot s pref 1
    let fw := match f with
      | some k => imageVersion s k 0
      | none => 0
    let uc := match u with
      | some k => imageVersion s k 1
      | none => 0
    let used := distinct ([f, u].filterMap id)
    { fw := fw, uc := uc,
      fail :=
        if f.isNone ∨ u.isNone then some (.imageMissing, stBadLength)
        else if !used.all (pkgSigned s) then some (.signature, stSignature)
        else if pairContracts s pref fw uc = [] then some (.untestedPair, stUntested)
        else if 3 ∉ pairContracts s pref fw uc then some (.contract, stUntested)
        else none }

/-! ## The boot (R370, R372, R373, R378) -/

/-- The boot ends in MAINT, with its entry (R372). -/
def enterMaint (reason : MaintReason) (status fw uc : Nat) (s : State) : State :=
  let s := s.report 0x6004 (logKey none none none none) 0 (leBytes 2 status ++ leBytes 4 fw ++ leBytes 4 uc)
  let s := s.withDram { s.dram with trained := false }
  (s.withDev .maint).withBoot { s.boot with
    path := .up, warm := false, maint := reason, fwVersion := fw, ucodeVersion := uc, wdogOut := false, domains := 0x83F,
    domainsReady := 0x83F }

/-- A listed place for which no spare is left (R295, R306): rows of an SRAM bank beyond its spare rows, columns likewise, and DRAM rows
beyond the first of their bank group. -/
def spareGroup (cfg : Nat) (r : Repair) : Nat × Nat :=
  if r.kind = 0 then (r.place / 131072, min 16 (Config.spareRows (r.place / 131072)))
  else if r.kind = 1 then (r.place / 138, min 4 (Config.spareColumns (r.place / 138)))
  else
    let p := rowPageOf cfg (4096 * r.place)
    (p.bg + 8 * (p.rank + 2 * p.subch), 1)

/-- Walk the soft-repair list: places of a kind taken from each group so far. -/
def exhausted (cfg : Nat) (dram : Bool) : List (Nat × Nat) → List Repair → List Repair
  | _, [] => []
  | seen, r :: l =>
    let g := spareGroup cfg r
    let n := (seen.filter (fun x => decide (x = (r.kind, g.1)))).length
    let rest := exhausted cfg dram (seen ++ [(r.kind, g.1)]) l
    if g.2 ≤ n ∧ decide (r.kind = kindDramRow) = dram then r :: rest else rest

/-- REPAIR_EXHAUSTED for the listed items without a spare: those of SRAM at every reset, those of DRAM at a cold one. -/
def reportExhausted (dram : Bool) (s : State) : State :=
  (exhausted s.dram.cfg.config dram [] s.dram.repairs).foldl (fun s r =>
    s.report 0x5005 (logKey none none none none) 0 (leBytes 1 r.kind ++ leBytes 4 r.place)) s

/-- TRIES and the rollback of R373. -/
def bootState (s : State) : State :=
  let b := s.boot
  if !b.trial then s
  else if (b.source = .watchdog ∨ b.source = .fatal) ∧ b.tries = 3 then
    (s.withBoot { b with preferred := 1 - b.preferred, trial := false }).report 0x6005 (logKey none none none none) 0 []
  else s.withBoot { b with tries := min 3 (b.tries + 1) }

/-- Training confirms a read delay of every rank, and the mode registers name the manufacturer: free values, kept in the calibration store. -/
def trainRead (s : State) (x : Nat × Nat) : State :=
  let (d, s) := s.draw 65536
  s.withDram { s.dram with taps := tput (fun _ => 0) s.dram.taps (rankIx x.1 x.2) (d : Int) }

def trainDram (s : State) : State :=
  let s := ((List.range 8).flatMap (fun h => s.ranks.map (fun r => (h, r)))).foldl trainRead s
  let (v, s) := s.draw 65536
  let s := s.withDram { s.dram with vendor := v }
  s.withBoot { s.boot with checkpoint := { s.boot.checkpoint with taps := s.dram.taps, vendor := v } }

/-- A cold boot: DRAM repaired, trained and cleared, the trace buffer with it; the store, the ready queue and the table mirror are empty or
void. -/
def coldDram (cfg : DramConfig) (s : State) : State :=
  let c := s.boot.checkpoint
  let s := s.withBoot { s.boot with
    retained := false,
    checkpoint := { c with ready := [], mapBad := false, mapFrames := [], mapAreas := [], mirrorBad := c.mirror.map (·.1), cfg := some cfg } }
  let s := ((s.withStore Store.reset).withPath { s.path with wearTotals := [] }).withTrace { s.trace with buffer := [] }
  trainDram (reportExhausted true (s.withDram { s.dram with cfg := hotConfig cfg, trained := true, channels := [] }))

/-- The frames that a descriptor names, with their layers. -/
def framesByLayer (s : State) (d : Nat) : List (Nat × Nat) :=
  distinct (layersOf.flatMap (fun x => (listHandles s (layerEntry s d x.1 x.2)).map (fun h => (h, x.2))))

/-- The header burst of a frame is checked (R378): one that fails the checks of R118 or cannot be read is poisoned and reported. -/
def checkFrame (errs : List (Nat × ReadErr)) (s : State) (x : Nat × Nat) : State :=
  let phys := framePhys s.dram.cfg.config x.1 (headerAt x.2)
  let refuse (s : State) : State := markBurst phys (reportScrub x.1 (headerAt x.2 / 64) s)
  let check (s : State) : State :=
    if (headerError (s.frameRead x.1 (headerAt x.2) 32)).isSome then refuse (s.raise 9) else s
  if x.1 ∉ s.store.frames then s
  else match burstOutcome s phys (s.burstPoisoned phys) (errAt errs (devAddr s.dram.cfg.config s.dram.cfg.map phys)) with
    | .clean => check s
    | .corrected => check (dramCorrected phys s)
    | .poison => s.count 21
    | .uncorrectable => refuse (dramUe phys s)

/-- The device addresses that the signature of a descriptor covers, with their lengths (R378). -/
def signedSpans (s : State) (d : Nat) : List (Nat × Nat) :=
  (4096 * d, 272) :: layersOf.filterMap (fun x => (s.area (layerEntry s d x.1 x.2).list).map (fun a => (4096 * a.handle, a.bytes)))

/-- The signature is that of PAGE_READY, and every burst it covers could be read. -/
def descStands (s : State) (r : Ready) : Bool :=
  decide (descSignature s r.descriptor = r.signature) && (signedSpans s r.descriptor).all (fun x => !s.devPoisoned x.1 x.2)

/-- The reads of the descriptors meet their errors. -/
def meetDescs (errs : List (Nat × ReadErr)) (s : State) : State :=
  let spans := s.boot.checkpoint.ready.flatMap (fun r => signedSpans s r.descriptor)
  meetBursts (errs.filter (fun e => spans.any (fun x => decide (x.1 < e.1 + 64 ∧ e.1 < x.1 + x.2)))) s

/-- The retained store is validated (R378). -/
def validateStore (errs : List (Nat × ReadErr)) (s : State) : State :=
  let c := s.boot.checkpoint
  if c.mapBad then
    let s := s.report 0x5006 (logKey none none none none) 0 []
    s.withBoot { s.boot with checkpoint := { c with mapBad := false, mapFrames := [], mapAreas := [], ready := [] } }
  else
    let s := meetDescs errs (s.withStore { s.store with frames := c.mapFrames, areas := c.mapAreas })
    let good := c.ready.filter (descStands s)
    let bad := c.ready.filter (fun r => !descStands s r)
    let s := bad.foldl (fun s r =>
      s.report 0x5007 (logKey none none none none) 0 (leBytes 4 r.descriptor ++ leBytes 4 r.first ++ leBytes 4 r.count)) s
    let s := mirrorReady (s.withRun { s.run with ready := good })
    (distinct (good.map (·.descriptor))).foldl (fun s d => (framesByLayer s d).foldl (checkFrame errs) s) s

/-- A warm boot with DRAM retained: the stored training is loaded, the read timing updated (R291), and the store validated. -/
def warmDram (cfg : DramConfig) (errs : List (Nat × ReadErr)) (s : State) : State :=
  let c := s.boot.checkpoint
  let s := s.withBoot { s.boot with retained := true }
  let s := s.withDram { s.dram with cfg := hotConfig cfg, trained := true, channels := [], taps := c.taps, vendor := c.vendor }
  validateStore errs (((List.range 8).flatMap (fun h => s.ranks.map (fun r => (h, r)))).foldl moveTap s)

/-- The retained store fits the configuration that boots (R288, R365): PHYs confirmed, RETAIN set, the same map and configuration. -/
def mayRetain (s : State) (srEntered : Bool) (r : List Byte) : Bool :=
  s.boot.warm && srEntered && decide (field r 10 1 = 1) && (match s.boot.checkpoint.cfg with
    | none => false
    | some c => decide (c.config = field r 6 1 ∧ c.map = field r 8 1))

/-- The calibrations of a cold boot (R415): each value is what the measurement gives. -/
def coldTarget (s : State) (c : Nat) : State :=
  let now := some (median s (clusterOf c))
  let take (n : Nat) (s : State) : State :=
    let (v, s) := s.draw n
    s.withTarget c { CalTarget.reset with value := v, was := v, reference := now }
  match tgtOf c with
  | .duty _ _ => take 16 s
  | .fine _ => take 128 s
  | .tout _ => take 128 s
  | .onDie _ => take 65536 s
  | .remote _ => take 65536 s
  | .deskew _ _ => s.withTarget c { s.target c with pending := true }
  | .sampler _ => s.withTarget c { s.target c with pending := true }
  | .none => s

/-- What the boot logs of the reset before it: a fatal record lost, a thermal shutdown, a lockout. -/
def bootLogs (s : State) : State :=
  let none_ := logKey none none none none
  let s := if s.boot.recordLost then s.report 0x6006 none_ 0 [] else s
  let s := match s.boot.shutdownRec with
    | none => s
    | some r => s.report 0x7005 none_ 0 (leBytes 1 r.cluster ++ r.readings.flatMap (leInt 2) ++ leBytes 8 (taiSec r.tai) ++ leBytes 4 (taiNs r.tai))
  let s := if s.boot.lockoutLog then s.report 0x7006 none_ 0 [] else s
  s.withBoot { s.boot with recordLost := false, shutdownRec := none, lockoutLog := false }

/-- The units start: domains, channels, calibrations; RESET_OUT_N rises and IDLE is entered. -/
def startUnits (p : PairCheck) (s : State) : State :=
  let s := s.withBoot { s.boot with
    path := .up, fwVersion := p.fw, ucodeVersion := p.uc, wdogOut := false, resetOutN := true, dramResetN := true, domains := 0x83F,
    domainsReady := 0x83F }
  let s := State.noDebt ((List.range 4).foldl (fun s c => s.withChannel c
    { Channel.reset with lastRequest := s.clk.elapsed, lastRetrain := s.clk.elapsed, oscSince := s.clk.elapsed, zq := true }) s)
  let s := if s.boot.retained then s else calCodes.foldl coldTarget s
  (bootLogs s).enter .idle

/-- The boot ROM goes on with a valid boot configuration record. -/
def bootFrom (r : List Byte) (srEntered : Bool) (timing : List Nat) (errs : List (Nat × ReadErr)) (s : State) : State :=
  let s := bootState s
  let p := checkPair s s.boot.preferred
  match p.fail with
  | some (reason, status) => enterMaint reason status p.fw p.uc (bootLogs s)
  | none =>
    if mayRetain s srEntered r then
      let stored := s.boot.checkpoint.cfg.getD (recordConfig r timing)
      startUnits p (warmDram { recordConfig r stored.timing with rate := stored.rate } errs s)
    else startUnits p (coldDram (recordConfig r timing) s)

/-- BOOT (R369 to R373, R378, R467, R469): the boot from the end of the reset, at the earliest 1 ms after it began, to IDLE or
MAINT; POR_N and RESET_N are high and every rail is in tolerance. -/
def execBoot (t : Nat) (srEntered : Bool) (timing : List Nat) (straps : Nat) (errs : List (Nat × ReadErr)) (s : State) : Result :=
  let s := s.at t
  if (s.boot.path ≠ .booting ∧ s.boot.path ≠ .held) ∨ s.clk.elapsed < s.boot.resetAt + msT then .next s
  else
    let s := s.withBoot { s.boot with
      porLow := false, resetLow := false, supplyBad := false, pllLost := s.boot.pllLost.filter (fun p => p = .pcie), xspiResetN := true,
      straps := if s.boot.source = .porN then straps else s.boot.straps }
    let s := reportExhausted false s
    match liveCopy s with
    | none => .next (enterMaint .imageMissing stBadLength 0 0 (bootLogs s))
    | some k => .next (bootFrom (copyAt s k) srEntered timing errs s)

/-! ## Updates (R374 to R376) -/

def beginBody (target length : Nat) (s : State) : State × Answer :=
  if 1 < target ∨ (target = 1 ∧ length ≠ 64) ∨ (target = 0 ∧ (length < 256 ∨ 16777216 < length)) then (s, refuse stBadParam)
  else if s.boot.update.isSome then (s, refuse stBusy)
  else
    let u : Update := { target := target, length := length, written := 0, data := [] }
    (s.withBoot { s.boot with update := some u }, refuse stOk)

/-- IMAGE_UPDATE_BEGIN (R374). -/
def execImageUpdateBegin (h : Hdr) (target length : Nat) (s : State) : Result :=
  .next (hostCmd (.imageUpdateBegin (unstarted h) target length) h (cmdOf 0x0020 0) (beginBody target length) s)

def dataBegin (h : Hdr) (offset length source : Nat) (s : State) : State :=
  match s.boot.update with
  | none => s.finishLong h.ring h.tag (refuse stWrongState)
  | some u =>
    if s.boot.dataOp.isSome ∨ s.boot.commitOp.isSome then s.finishLong h.ring h.tag (refuse stBusy)
    else if length = 0 ∨ 16777216 < length ∨ offset ≠ u.written then s.finishLong h.ring h.tag (refuse stBadParam)
    else if u.length < offset + length then s.finishLong h.ring h.tag (refuse stBadLength)
    else s.withBoot { s.boot with dataOp := some (h.ring, h.tag, offset, length, source) }

/-- IMAGE_UPDATE_DATA (R375). -/
def execImageUpdateData (h : Hdr) (offset length source : Nat) (s : State) : Result :=
  .next (hostLong (.imageUpdateData (unstarted h) offset length source) h (cmdOf 0x0021 0) (dataBegin h offset length source) s)

/-- The slot an update of a package writes. -/
def updateSlot (s : State) : Nat := 1 - s.boot.preferred

/-- Program `n` bytes from `offset` on; the last sector of 4,096 bytes was erased ahead of the data. -/
def programData (u : Update) (offset n source : Nat) (s : State) : State :=
  let bs := s.dmaRead source n
  if n = 0 then s
  else if u.target = 1 then s.withBoot { s.boot with update := some { u with written := offset + n, data := u.data.take offset ++ bs } }
  else
    let s := flashWrite (slotBase (updateSlot s) + offset) (bs ++ List.replicate ((4096 - (offset + n) % 4096) % 4096) 0xFF) s
    s.withBoot { s.boot with update := some { u with written := offset + n } }

/-- IMAGE_UPDATE_DATA_DONE (R375): the data are programmed up to the byte of the update that the event states, or all of them, and PROGRESS
is bytes written divided by 65,536. -/
def execImageUpdateDataDone (o : OpRef) (s : State) : Result :=
  .next (withStep o 0x0021 (fun _ s =>
    match s.boot.dataOp, s.boot.update with
    | some (ring, tag, offset, length, source), some u =>
      let n := match o.reach with
        | none => length
        | some p => min (p - offset) (length - 1)
      if ring ≠ o.ring ∨ tag ≠ o.tag then s
      else match s.dmaBad source n with
        | some a => ((s.withBoot { s.boot with dataOp := none }).dmaFault a).finishLong ring tag (refuse stDataUe)
        | none =>
          let s := (programData u offset n source s).progressTo ring tag ((offset + n) / 65536)
          if o.reach.isSome then s.withBoot { s.boot with dataOp := some (ring, tag, offset + n, length - n, source + n) }
          else (s.withBoot { s.boot with dataOp := none }).finishLong ring tag (refuse stOk)
    | _, _ => s) s)

/-- An ABORT of IMAGE_UPDATE_DATA: the update stays open at the last whole 4,096 bytes written; how far it had come is free. -/
def dataAbort (s : State) : State :=
  match s.boot.dataOp, s.boot.update with
  | some (ring, tag, offset, length, source), some u =>
    let s := s.withBoot { s.boot with dataOp := none }
    let (n, s) := s.draw length
    let s := programData u offset n source s
    let s := match s.boot.update with
      | some v => s.withBoot { s.boot with update := some { v with written := v.written / 4096 * 4096 } }
      | none => s
    s.finishLong ring tag (refuse stAborted)
  | _, _ => s

def activateBegin (h : Hdr) (s : State) : State :=
  if s.boot.update.isNone then s.finishLong h.ring h.tag (refuse stWrongState)
  else if s.boot.dataOp.isSome ∨ s.boot.commitOp.isSome then s.finishLong h.ring h.tag (refuse stBusy)
  else s.withBoot { s.boot with commitOp := some (h.ring, h.tag, 0) }

/-- IMAGE_UPDATE_COMMIT ACTIVATE (R376). -/
def execImageUpdateCommitActivate (h : Hdr) (s : State) : Result :=
  .next (hostLong (.imageUpdateCommitActivate (unstarted h)) h (cmdOf 0x0022 0) (activateBegin h) s)

/-- The status of ACTIVATE for a package, in the order of R372. -/
def packageStatus (s : State) (u : Update) : Nat :=
  let k := updateSlot s
  if u.written ≠ u.length ∨ pkgLength s k ≠ u.length then stBadLength
  else match (checkPair s k).fail with
    | some (_, st) => st
    | none => stOk

/-- A boot configuration record as ACTIVATE writes it: SERIAL one above the other copy, and the CRC of that. -/
def serialised (serial : Nat) (r : List Byte) : List Byte :=
  let body := (overlay r 16 (leBytes 4 serial)).take 60
  body ++ leBytes 4 (crc32c body)

/-- Write a boot configuration record over the copy with the lower SERIAL. -/
def writeRecord (r : List Byte) (s : State) : State :=
  match liveCopy s with
  | none => flashWrite 0 (serialised (recordSerial r) r) s
  | some k => flashWrite (4096 * (1 - k)) (serialised ((recordSerial (copyAt s k) + 1) % 2 ^ 32) r) s

/-- The outcome of ACTIVATE. -/
def activate (u : Update) (s : State) : State × Nat :=
  if u.target = 0 then
    let st := packageStatus s u
    (if st = stOk then s.withBoot { s.boot with preferred := updateSlot s, trial := true, tries := 0 } else s, st)
  else if u.written = 64 ∧ recordValid u.data then (writeRecord u.data s, stOk)
  else (s, stBadParam)

/-- IMAGE_UPDATE_COMMIT_DONE (R376): the checks have ended, and the update is no longer open. -/
def execImageUpdateCommitDone (o : OpRef) (s : State) : Result :=
  .next (withOp o 0x0022 (fun s =>
    match s.boot.commitOp, s.boot.update with
    | some (ring, tag, _), some u =>
      if ring ≠ o.ring ∨ tag ≠ o.tag then s
      else
        let (s, st) := activate u s
        (s.withBoot { s.boot with commitOp := none, update := none }).finishLong ring tag (refuse st)
    | _, _ => s) s)

/-- IMAGE_UPDATE_COMMIT CONFIRM (R376). -/
def execImageUpdateCommitConfirm (h : Hdr) (s : State) : Result :=
  .next (hostLong (.imageUpdateCommitConfirm (unstarted h)) h (cmdOf 0x0022 1)
    (fun s => (s.withBoot { s.boot with trial := false }).finishLong h.ring h.tag (refuse stOk)) s)

def rollbackBody (h : Hdr) (s : State) : State :=
  match (checkPair s (1 - s.boot.preferred)).fail with
  | some (_, st) => s.finishLong h.ring h.tag (refuse st)
  | none => (s.withBoot { s.boot with preferred := 1 - s.boot.preferred, trial := false }).finishLong h.ring h.tag (refuse stOk)

/-- IMAGE_UPDATE_COMMIT ROLLBACK (R376). -/
def execImageUpdateCommitRollback (h : Hdr) (s : State) : Result :=
  .next (hostLong (.imageUpdateCommitRollback (unstarted h)) h (cmdOf 0x0022 2) (rollbackBody h) s)

end Sys2Proof.Machine
end

