-- ==== Sys2Proof/Machine/Thermal.lean ====
section
/-! DEFINITION. Machine/Thermal.lean: sensors, the junction temperature, warning, throttling and the thermal shutdown (R425 to
R434). -/

namespace Sys2Proof.Machine

open Sys2Proof

/-! ## Sensors (R426 to R429) -/

/-- Always-on logic and firmware both run: the device can log. -/
def awake (s : State) : Bool := decide (s.boot.path = .up ∨ s.boot.path = .booting)

/-- What a broken sensor reads, in 0.1 °C. -/
def brokenReading : Int := 2000

/-- A sensor has converted; `reading` is none when it is broken. A new episode is logged once. -/
def takeReading (i : Nat) (reading : Option Int) (s : State) : State :=
  let x := s.sensor i
  match reading with
  | some v =>
    s.withSensor i { x with reading := v, broken := false, inRangeSince := if x.episode then some (x.inRangeSince.getD s.clk.elapsed) else none }
  | none =>
    let s := if !x.episode ∧ awake s then s.report 0x7007 (logKey none none none none) 0 (leBytes 1 i) else s
    s.withSensor i { x with reading := brokenReading, broken := true, episode := x.episode || awake s, inRangeSince := none }

/-- An on-die sensor reads -40.0 °C to 150.0 °C; another code is out of its range. -/
def inRange : Option Int → Option Int
  | some v => if -400 ≤ v ∧ v ≤ 1500 then some v else none
  | none => none

/-! ## Shutdown (R432 to R434) -/

/-- Sensors of a cluster that read 120.0 °C or more. -/
def hotVotes (s : State) (k : Nat) : Nat := ((List.range 3).filter (fun j => decide (1200 ≤ (s.sensor (3 * k + j)).reading))).length

/-- Shutdown decisions of the last 3,600 s. -/
def recentShutdowns (s : State) : List Time := s.boot.shutdowns.filter (fun x => decide (s.clk.elapsed < x + 3600 * secT))

/-- The shutdown decision for a cluster: thermal OK falls before any domain is switched off, which latches and tells as any gating input does
(R226, R227); the third decision within 3,600 s locks the device out. -/
def shutDown (k : Nat) (s : State) : State :=
  let rec_ : ShutdownRecord := { cluster := k, readings := (List.range 3).map (fun j => (s.sensor (3 * k + j)).reading), tai := s.base }
  let decisions := recentShutdowns s ++ [s.clk.elapsed]
  let out := decide (3 ≤ decisions.length)
  let s := (s.withLink { s.link with inputs := { s.link.inputs with thermalOk := false } }).settleGates
  let s := s.doReset s.boot.source true (if out then .lockout else .shutdown)
  s.withBoot { s.boot with shutdownRec := some rec_, shutdowns := decisions, lockoutLog := s.boot.lockoutLog || out }

/-- While shut down, the time since which every cluster median has stayed below 95.0 °C. -/
def coolDown (s : State) : State :=
  if s.boot.path ≠ .shutdown then s
  else if (List.range 8).all (fun k => decide (median s k < 950)) then
    s.withBoot { s.boot with coolSince := some (s.boot.coolSince.getD s.clk.elapsed) }
  else s.withBoot { s.boot with coolSince := none }

/-- ON_DIE_SENSOR_CONVERSION (R426, R429, R432, R433): the 24 readings of one always-on cycle, in 0.1 °C, after the front ends' trims. -/
def execOnDieSensorConversion (readings : List (Option Int)) (t : Nat) (s : State) : Result :=
  let s := s.at t
  if readings.length ≠ 24 ∨ s.clk.elapsed < s.thermal.convertedAt + alwaysOnCycle then .next s
  else
    let s := s.withThermal { s.thermal with convertedAt := s.clk.elapsed }
    let s := (List.range 24).foldl (fun s i => takeReading i (inRange (nth none readings i)) s) s
    match (if awake s ∨ s.boot.path = .record then (List.range 8).find? (fun k => decide (2 ≤ hotVotes s k)) else none) with
    | some k => .next (shutDown k s)
    | none => .next (coolDown s)

/-- SENSOR_EPISODE_END (R429): the sensor has read in range for 10 s. -/
def execSensorEpisodeEnd (sensor t : Nat) (s : State) : Result :=
  let s := s.at t
  let x := s.sensor sensor
  .next (match x.inRangeSince with
    | none => s
    | some a => if x.episode ∧ !x.broken ∧ a + 10 * secT ≤ s.clk.elapsed then
        s.withSensor sensor { x with episode := false, inRangeSince := none }
      else s)

/-- The configuration of a remote input. -/
def State.remote (s : State) (i : Nat) : RemoteCfg := tget (fun _ => RemoteCfg.reset) s.thermal.remotes i

/-- log2 of a number from 1 up to 2 in 2^-32: its square is taken bit by bit. -/
def logBits : Nat → Nat → Nat → Nat
  | 0, _, acc => acc
  | n + 1, m, acc =>
    let q := m * m / 2 ^ 32
    if 2 ^ 33 ≤ q then logBits n (q / 2) (2 * acc + 1) else logBits n q (2 * acc)

/-- The natural logarithm of n / d in 2^-32, for n and d not 0. -/
def lnRatio (n d : Nat) : Int :=
  let k : Int := (Nat.log2 (n * 2 ^ 32 / d) : Int) - 32
  let m := if 0 ≤ k then n * 2 ^ 32 / (d * 2 ^ k.toNat) else n * 2 ^ (32 + (-k).toNat) / d
  (k * 2 ^ 32 + (logBits 32 (max m (2 ^ 32)) 0 : Nat)) * 2977044472 / 2 ^ 32

/-- The temperature of a diode in 0.1 °C from its voltages in µV (R427): the voltages at 10 µA and 160 µA differ by what 150 µA bring over the
series resistance and by ideality times kT/q times ln 16, 238.923210 µV/K. -/
def diodeReading (r : RemoteCfg) (v10 v160 : Nat) : Int :=
  roundDiv (2 * 10 * ((v160 : Int) - v10 - 15 * r.paramB) * 2 ^ 20 * 1000000 - 5463 * (r.paramA * 238923210)) (2 * (r.paramA * 238923210))

/-- The temperature of a thermistor of `ohms` in 0.1 °C (R427): T = 1 / (1 / 298.15 K + ln(R / R25) / β) - 273.15. One that the formula gives no
positive absolute temperature is none. -/
def ntcReading (r : RemoteCfg) (ohms : Nat) : Option Int :=
  let den : Int := 100 * 2 ^ 32 * r.paramB + 29815 * lnRatio (max 1 ohms) (max 1 r.paramA)
  if den ≤ 0 then none else some (roundDiv (2 * 298150 * 2 ^ 32 * r.paramB - 5463 * den) (2 * den).toNat)

/-- The four reference resistors of a remote front end, in ohms (R413, R486). -/
def referenceOhms (k : Nat) : Nat := 1000 * 10 ^ (k % 4)

/-- The reading of a remote input (R427, R429): a diode below 0.20 V or above 0.95 V, a thermistor whose divider node, in 2^-20 of the supply,
lies within 2 % of a rail, and an input that the front end finds open or shorted, are broken. -/
def remoteReading (r : RemoteCfg) : RemoteRaw → Option Int
  | .diode v10 v40 v160 =>
    if r.kind = 1 ∧ [v10, v40, v160].all (fun v => decide (200000 ≤ v ∧ v ≤ 950000)) then some (diodeReading r v10 v160) else none
  | .ntc node reference =>
    if r.kind = 2 ∧ 2 * 2 ^ 20 < 100 * node ∧ 100 * node < 98 * 2 ^ 20 then
      ntcReading r (referenceOhms reference * node / (2 ^ 20 - node))
    else none
  | .faulty => none

/-- REMOTE_SENSOR_CONVERSION (R427, R429): a remote input that is not OFF converts every 10 ms. -/
def execRemoteSensorConversion (input : Nat) (raw : RemoteRaw) (t : Nat) (s : State) : Result :=
  let s := s.at t
  .next (if input < 4 ∧ (s.remote input).kind ≠ 0 ∧ awake s ∧ nget s.thermal.remoteAt input + 10 * msT ≤ s.clk.elapsed then
      takeReading (24 + input) (remoteReading (s.remote input) raw)
        (s.withThermal { s.thermal with remoteAt := nput s.thermal.remoteAt input s.clk.elapsed })
    else s)

/-- THERMAL_RESTART (R433): 10 s below 95.0 °C without a break start a warm reset. -/
def execThermalRestart (t : Nat) (s : State) : Result :=
  let s := s.at t
  .next (match s.boot.coolSince with
    | none => s
    | some a => if s.boot.path = .shutdown ∧ a + 10 * secT ≤ s.clk.elapsed then s.doReset .thermalRestart true .booting else s)

/-! ## The junction temperature (R428, R431) -/

/-- Remote inputs that count: configured, and not excluded. -/
def includedInputs (s : State) : List Nat := (List.range 4).filter (fun i => decide ((s.remote i).kind ≠ 0) && !(s.sensor (24 + i)).excluded)

/-- The source in force: 0 ON_DIE, 1 REMOTE, 2 BOTH; REMOTE with no input included follows the on-die sensors. -/
def sourceInForce (s : State) : Nat := if s.thermal.sourceCfg = 1 ∧ includedInputs s = [] then 0 else s.thermal.sourceCfg

def maxInt (d : Int) : List Int → Int
  | [] => d
  | x :: l => l.foldl max x

/-- T_J. -/
def junction (s : State) : Int :=
  let die := maxInt 0 ((List.range 24).map (fun i => (s.sensor i).reading))
  let remote := maxInt die ((includedInputs s).map (fun i => (s.sensor (24 + i)).reading + (s.remote i).offset))
  match sourceInForce s with
  | 0 => die
  | 1 => remote
  | _ => max die remote

/-- The warning level. -/
def warnLevel (s : State) : State :=
  let none_ := logKey none none none none
  if !s.thermal.warn ∧ 1000 ≤ s.thermal.tj then
    ((s.withThermal { s.thermal with warn := true }).raise 8).report 0x7001 none_ 0 []
  else if s.thermal.warn ∧ s.thermal.tj < 970 then (s.withThermal { s.thermal with warn := false }).report 0x7002 none_ 0 []
  else s

/-- Throttling is in force for part of the frames of a port that have not ended (R256). -/
def throttleFrames (p : CamPort) : CamPort :=
  let flag (f : CamFrame) : CamFrame := { f with flags := setBit f.flags 10 true }
  { p with frame := p.frame.map flag, closing := p.closing.map flag }

/-- The throttling level, and since when T_J has stayed below its end. -/
def throttleLevel (s : State) : State :=
  let x := s.thermal
  if !x.throttle ∧ 1050 ≤ x.tj then
    let s := s.withCams (s.cams.foldl (fun t e => tput (fun _ => CamPort.reset) t e.1 (throttleFrames e.2)) [])
    ((s.withThermal { x with throttle := true, belowSince := none }).raise 8).report 0x7003 (logKey none none none none) 0 []
  else if x.throttle then
    s.withThermal { x with belowSince := if x.tj < 1020 then some (x.belowSince.getD s.clk.elapsed) else none }
  else s

/-- T_J_EVALUATION (R428, R431): every 1 ms. -/
def execTJEvaluation (t : Nat) (s : State) : Result :=
  let s := s.at t
  .next (if awake s ∧ s.thermal.judgedAt + msT ≤ s.clk.elapsed then
      throttleLevel (warnLevel (s.withThermal { s.thermal with tj := junction s, judgedAt := s.clk.elapsed }))
    else s)

/-! ## CAL_RUN STATUS and SENSOR_EXCLUDE (R425, R430) -/

/-- The 128-byte thermal status block. -/
def thermalBlock (s : State) : List Byte :=
  let broken := maskOf ((List.range 28).filter (fun i => (s.sensor i).broken))
  let excluded := maskOf ((List.range 4).filter (fun i => (s.sensor (24 + i)).excluded))
  padTo 128 (((List.range 28).flatMap (fun i => leInt 2 (s.sensor i).reading)) ++ ((List.range 8).flatMap (fun k => leInt 2 (median s k)))
    ++ leInt 2 s.thermal.tj ++ leBytes 1 s.thermal.sourceCfg ++ leBytes 1 (sourceInForce s) ++ leBytes 4 broken ++ leBytes 1 excluded
    ++ leBytes 1 (bitNat s.thermal.warn + 2 * bitNat s.thermal.throttle) ++ leBytes 1 (recentShutdowns s).length)

def calStatusBody (h : Hdr) (addr : Nat) (s : State) : State :=
  (s.dmaWrite addr (thermalBlock s)).finishLong h.ring h.tag (refuse (if s.host.linkUp then stOk else stDataUe))

/-- CAL_RUN STATUS (R425). -/
def execCalRunStatus (h : Hdr) (addr : Nat) (s : State) : Result :=
  .next (hostLong (.calRunStatus (unstarted h) addr) h (cmdOf 0x00C0 5) (calStatusBody h addr) s)

def excludeBody (input ackSeq : Nat) (s : State) : State × Answer :=
  let x := s.sensor (24 + input)
  if 3 < input ∨ x.brokenSeq ≠ some ackSeq then (s, refuse stBadParam)
  else if !x.broken then (s, refuse stWrongState)
  else
    let s := s.withSensor (24 + input) { x with excluded := true }
    (s.report 0x7008 (logKey none none none none) 0 (leBytes 1 (24 + input)), refuse stOk)

/-- SENSOR_EXCLUDE EXCLUDE (R430). -/
def execSensorExclude (h : Hdr) (input ackSeq : Nat) (s : State) : Result :=
  .next (hostCmd (.sensorExclude (unstarted h) input ackSeq) h (cmdOf 0x0110 0) (excludeBody input ackSeq) s)

def includeBody (input : Nat) (s : State) : State × Answer :=
  if 3 < input then (s, refuse stOk)
  else (s.withSensor (24 + input) { s.sensor (24 + input) with excluded := false }, refuse stOk)

/-- SENSOR_EXCLUDE INCLUDE (R430): always answers OK. -/
def execSensorInclude (h : Hdr) (input : Nat) (s : State) : Result :=
  .next (hostCmd (.sensorInclude (unstarted h) input) h (cmdOf 0x0110 1) (includeBody input) s)

end Sys2Proof.Machine
end

