-- ==== Sys2Proof/Machine/Observe.lean ====
section
/-! DEFINITION. Machine/Observe.lean: the error unit at work, LOG_READ and TRACE_FILTER (R441, R443 to R446, R453). -/

namespace Sys2Proof.Machine

open Sys2Proof

/-! ## Recording (R443, R444) -/

/-- LOG_RECORD (R443): the report at the head of the queue is recorded. -/
def execLogRecord (t : Nat) (s : State) : Result := .next (s.at t).recordHead

/-- The follow-up in progress: of the highest severity, then the earliest. -/
def currentFollowUp (s : State) : Option Report := headReport (s.log.followUps.map (·.1))

/-- A report leaves the queue and the follow-ups, and its entry is written. -/
def endFollowUp (r : Report) (fields : List Byte) (s : State) : State :=
  State.record (s.withLog { s.log with followUps := s.log.followUps.filter (fun x => x.1.arrival != r.arrival)
                                       queue := s.log.queue.filter (fun x => x.arrival != r.arrival) })
    { r with fields := fields }

/-- FOLLOW_UP_END (R443): the entry holds the follow-up's results. -/
def execFollowUpEnd (t : Nat) (s : State) : Result :=
  let s := s.at t
  .next (match currentFollowUp s with
    | none => s
    | some r => endFollowUp r r.fields s)

/-- A follow-up, begun or not, that has not ended 10 ms after its report. -/
def overdue (s : State) : Option Report :=
  (s.log.followUps.map (·.1) ++ s.log.queue).find? (fun r => match r.followAt with
    | some a => decide (a + 10 * msT ≤ s.clk.elapsed)
    | none => false)

/-- FOLLOW_UP_TIMEOUT (R444): a follow-up that has not ended 10 ms after its report is cut short; of SCRUB_UE only the burst is known
then (R310), and every other field is all ones. -/
def execFollowUpTimeout (t : Nat) (s : State) : Result :=
  let s := s.at t
  .next (match overdue s with
    | none => s
    | some r => endFollowUp r (r.fields.take 1 ++ List.replicate (r.fields.length - 1) 0xFF) s)

/-! ## LOG_READ (R446) -/

/-- Entries from `first` on, at most `count`, that the log holds. -/
def heldEntries (s : State) (first count : Nat) : List LogEntry := (List.range count).filterMap (fun i => s.log.held (first + i))

def readBody (first count dest : Nat) (s : State) : State × Answer :=
  if count = 0 ∨ 256 < count then (s, refuse stBadParam)
  else if !s.host.linkUp then (s, refuse stDataUe)
  else
    let es := heldEntries s first count
    let seq := match es with
      | [] => first
      | e :: _ => e.seq
    (s.dmaWrite dest (es.flatMap LogEntry.toBytes), answer stOk (leBytes 4 seq ++ leBytes 4 es.length))

/-- LOG_READ READ (R446). -/
def execLogReadRead (h : Hdr) (first count dest : Nat) (s : State) : Result :=
  .next (hostCmd (.logReadRead (unstarted h) first count dest) h (cmdOf 0x00F0 0) (readBody first count dest) s)

def ackBody (first : Nat) (s : State) : State × Answer :=
  if s.log.next < first then (s, refuse stBadParam)
  else (s.withLog { s.log with readMark := max s.log.readMark first }, refuse stOk)

/-- LOG_READ ACK (R446). -/
def execLogReadAck (h : Hdr) (first : Nat) (s : State) : Result :=
  .next (hostCmd (.logReadAck (unstarted h) first) h (cmdOf 0x00F0 1) (ackBody first) s)

def logStatus (s : State) : List Byte := ((List.range 6).flatMap (fun i => leBytes 2 (nget s.log.since i))) ++ leBytes 4 s.log.readMark

/-- LOG_READ STATUS (R446). -/
def execLogReadStatus (h : Hdr) (s : State) : Result :=
  .next (hostCmd (.logReadStatus (unstarted h)) h (cmdOf 0x00F0 2) (fun s => (s, answer stOk (logStatus s))) s)

def readFatalBody (first count dest : Nat) (s : State) : State × Answer :=
  if count = 0 ∨ 16 < count then (s, refuse stBadParam)
  else if !s.host.linkUp then (s, refuse stDataUe)
  else
    let rs := (s.log.fatalRecords.drop first).take count
    (s.dmaWrite dest (rs.flatMap (padTo 512)), answer stOk (leBytes 4 rs.length ++ leBytes 4 s.log.fatalRecords.length))

/-- LOG_READ FATAL (R446). -/
def execLogReadFatal (h : Hdr) (first count dest : Nat) (s : State) : Result :=
  .next (hostCmd (.logReadFatal (unstarted h) first count dest) h (cmdOf 0x00F0 3) (readFatalBody first count dest) s)

def clearFirstBody (s : State) : State × Answer :=
  (s.withLog { s.log with first := none, firstArrival := none, since := [] }, refuse stOk)

/-- LOG_READ CLEAR_FIRST (R446). -/
def execClearFirst (h : Hdr) (s : State) : Result :=
  .next (hostCmd (.clearFirst (unstarted h)) h (cmdOf 0x00F0 4) clearFirstBody s)

/-! ## TRACE_FILTER (R453) -/

def traceStartBody (mode output barMask sources code post startPos : Nat) (s : State) : State × Answer :=
  if 2 < mode ∨ 3 < output ∨ 255 < barMask ∨ 2047 < sources ∨ 262143 < post then (s, refuse stBadParam)
  else
    (s.withTrace { s.trace with
      mode := mode, output := output, barMask := barMask, sources := sources, triggerCode := code, post := post, startPos := startPos,
      armed := decide (startPos ≠ 0), stopped := decide (startPos ≠ 0), write := 0, wraps := 0, triggered := false, postLeft := post },
     refuse stOk)

/-- TRACE_FILTER START (R453). -/
def execTraceFilterStart (h : Hdr) (mode output barMask sources triggerCode post startPos : Nat) (s : State) : Result :=
  .next (hostCmd (.traceFilterStart (unstarted h) mode output barMask sources triggerCode post startPos) h (cmdOf 0x00F2 1)
    (traceStartBody mode output barMask sources triggerCode post startPos) s)

def traceStop (s : State) : State := s.withTrace { s.trace with stopped := true, armed := false }

/-- TRACE_FILTER STOP (R453). -/
def execTraceFilterStop (h : Hdr) (s : State) : Result :=
  .next (hostCmd (.traceFilterStop (unstarted h)) h (cmdOf 0x00F2 0) (fun s => (traceStop s, refuse stOk)) s)

/-- TRACE_START_POSITION (R453): the line clock has reached START_POS. -/
def execTraceStartPosition (s : State) : Result :=
  .next (if s.trace.armed ∧ s.web.running ∧ s.trace.startPos ≤ s.web.webPos then
      s.withTrace { s.trace with armed := false, stopped := false }
    else s)

/-- TRACE_TRIGGER_STOP (R453): the POST records after the trigger have been written. -/
def execTraceTriggerStop (s : State) : Result :=
  .next (if s.trace.triggered ∧ s.trace.postLeft = 0 ∧ !s.trace.stopped then traceStop s else s)

end Sys2Proof.Machine
end

