-- ==== Sys2Proof/Machine/Fetch.lean ====
section
/-! DEFINITION. Machine/Fetch.lean: how a cue of a frame program issues, RUN cues and the bursts they read, and the decoder contexts with
their concealment (R20, R21, R30, R46, R52, R53, R85 to R88, R102, R117 to R120). -/

namespace Sys2Proof.Machine

open Sys2Proof

/-! ## Cues (R52, R55, R66, R95) -/

/-- The page position that begins at `page`, when its page program is played: its fence is resolved, and it is not left blank. -/
def playedPage (s : State) (page : Nat) : Option PagePos :=
  if s.web.running ∧ (s.dev = .run ∨ s.dev = .drain) then
    s.run.pages.find? (fun p => decide (p.start = page) && p.resolved && !p.blank)
  else none

/-- After RUN_STOP NOW no RUN or DECODE cue issues (R95). -/
def fetchStopped (s : State) : Bool :=
  match s.run.stop with
  | .now last => decide (last ≤ s.web.webPos + 5)
  | _ => false

/-- The frame program that a bar plays of a page position in the frame of the latest tick. -/
def frameOf (s : State) (bar : Nat) (p : PagePos) : Option Nat :=
  framePlayed (s.bank p.bank).image p.pageProg bar p.start s.web.webPos

/-- The words of a frame program that come after those issued. -/
def afterIssued : List Nat → List Nat → List Nat
  | words, [] => words
  | [], _ => []
  | w :: ws, i :: is => if w = i then afterIssued ws is else afterIssued ws (i :: is)

/-- The words that a bar has still to issue in this frame of the program it plays of a page, in their order, END (0) last; after RUN_STOP
NOW without RUN and DECODE. -/
def wordsLeft (s : State) (bar : Nat) (p : PagePos) : List Nat :=
  let issued := (s.path.issued.filter (fun x => decide (x.1 = bar ∧ x.2.1 = p.start))).map (fun x => x.2.2)
  match frameOf s bar p with
  | none => []
  | some f =>
    if 0 ∈ issued then []
    else ((afterIssued (frameCueWords (s.bank p.bank).image f) issued).filter (fun w =>
      !fetchStopped s || decide (2 < (Cue.ofWord w).kind))) ++ [0]

/-- May this word issue now (R9, R54)? It is the next word of its frame program, and no program that plays in this frame has an earlier
TIME to issue first. -/
def mayIssue (s : State) (bar : Nat) (p : PagePos) (word : Nat) : Bool :=
  decide ((wordsLeft s bar p).head? = some word)
    && (decide (word = 0) || (s.run.pages.filter (fun q => q.resolved && !q.blank)).all (fun q => (List.range 8).all (fun b =>
      match wordsLeft s b q with
      | w :: _ => decide (w = 0 ∨ (Cue.ofWord word).time ≤ (Cue.ofWord w).time)
      | [] => true)))

/-- A cue word issues, and is traced. -/
def noteCue (bar page word : Nat) (s : State) : State :=
  (s.withPath { s.path with issued := s.path.issued ++ [(bar, page, word)] }).traceRec 0 bar (leBytes 8 word)

/-- The image line a cue acts on (R52). -/
def cueLine (s : State) (bar : Nat) (p : PagePos) (c : Cue) : Int :=
  frameIndex (s.bank p.bank).image p.pageProg bar p.start s.web.webPos + c.lead

/-- A cue of one kind issues: it acts on its image line when the page has that line. `errs` are the SRAM words in which its reads, the
sequencer's read of the cue word among them, met errors; one of the schedule leads to FAULT, in which the cue does not act (R97, R304). -/
def playCue (kind bar page : Nat) (cue : Word64) (errs : List (Nat × ReadErr)) (act : PagePos → Cue → Nat → State → State) (s : State) : State :=
  match playedPage s page with
  | none => s
  | some p =>
    let c := Cue.ofWord cue.toNat
    if c.kind ≠ kind ∨ !mayIssue s bar p cue.toNat then s
    else
      let line := cueLine s bar p c
      let s := meetErrors errs (noteCue bar page cue.toNat s)
      if 0 ≤ line ∧ line < (p.length : Nat) ∧ s.dev ∈ [.run, .drain] then act p c line.toNat s else s

/-- END_CUE (R52): the frame program has ended, and no cue of it issues in this frame any more. -/
def execEndCue (bar page : Nat) (s : State) : Result :=
  .next (match playedPage s page with
    | none => s
    | some p => if mayIssue s bar p 0 then noteCue bar page 0 s else s)

/-! ## Contexts -/

/-- The index of a context in the family of contexts. -/
def ctxIx (bar layer c : Nat) : Nat := 256 * (2 * bar + layer) + c

def State.context (s : State) (bar layer c : Nat) : Context := tget (fun _ => Context.reset) s.path.contexts (ctxIx bar layer c)

def State.withContext (s : State) (bar layer c : Nat) (x : Context) : State :=
  s.withPath { s.path with contexts := tput (fun _ => Context.reset) s.path.contexts (ctxIx bar layer c) x }

def blankRow : List Byte := List.replicate 256 0
def blankCov : List Byte := List.replicate 32 0

/-- A context turns to a row group. At a new page its last good row is all zeros, and an episode of concealment ends with the page
before; at a new tile it holds no header. -/
def Context.turn (x : Context) (page tileRow group : Nat) : Context :=
  let x := if x.page = some page then x
    else { Context.reset with page := some page, tileRow := tileRow, group := 8, good := blankRow, goodCov := blankCov, outs := x.outs }
  let x := if x.tileRow = tileRow ∧ x.group ≠ 8 then x
    else { x with tileRow := tileRow, group := 8, header := none, headerBad := none, clean := true, decoded := [], masks := [] }
  if x.group = group then x
  else { x with group := group, bytes := [], got := [], poisoned := [], skipped := false, begun := false, rows := [], failed := none }

/-- The contone row of an image line for a bar (R20, R53). -/
def contoneRow (s : State) (p : PagePos) (bar line : Nat) : Nat := line / alongDiv (s.bank p.bank).image p.pageProg bar

/-- The tile that a context reads in a tile row of a page (R83, R100, R104, R110). -/
def tileOf (s : State) (p : PagePos) (bar layer c row : Nat) : TileRef :=
  if layer = 1 ∧ p.baseOnly then .empty
  else match p.descriptor with
    | none => .absent
    | some d => match listedTile s (layerEntry s d bar layer) row (ctxTileCol (s.bank p.bank).image bar layer c) with
      | .frame h => if h ∈ p.absent then .absent else .frame h
      | x => x

/-- The header a context holds of the tile row, when it has come and passes R118. -/
def Context.goodHeader (x : Context) (page tileRow : Nat) : Option (List Byte) :=
  if x.page = some page ∧ x.tileRow = tileRow ∧ x.headerBad.isNone then
    match x.header with
    | some h => if (headerError h).isNone then some h else none
    | none => none
  else none

/-- The variable tile over the same columns has returned a header with COVER_FULL (R46). -/
def underFull (s : State) (p : PagePos) (bar c row : Nat) : Bool :=
  let m := (s.bank p.bank).image
  (columnContexts m bar 1 (ctxTileCol m bar 0 c)).any (fun v => match (s.context bar 1 v).goodHeader p.start row with
    | none => false
    | some h => !tileEmpty h && decide (tileCover h = 1))

/-! ## RUN (R30, R46, R53, R102) -/

/-- Bursts of the token stream of a row group of a variable tile. -/
def tokenBursts (h : List Byte) (g : Nat) : Nat := ceilDiv (groupEnd h g - groupStart h g) 64

/-- Bursts that a run fetches, counted from its base burst: none when it is skipped. -/
def runSpan (s : State) (p : PagePos) (bar row g : Nat) (q : Cue) : List Nat :=
  let m := (s.bank p.bank).image
  let all := (List.range q.bursts).map (fun i => q.first + i)
  if q.layer = 0 then
    if underFull s p bar q.context row then []
    else all.filter (fun i => decide (i < (budget m p.pageProg bar q.context row g).2))
  else if q.part = 1 then all
  else match (s.context bar 1 q.context).goodHeader p.start row with
    | none => all
    | some h =>
      if tileEmpty h then []
      else if q.part = 2 then (if tileCover h = 2 then all else [])
      else all.filter (fun i => decide (i < tokenBursts h g))

/-- One burst leaves for its context. -/
def fetchBurst (p : PagePos) (bar row g h : Nat) (q : Cue) (burst : Nat) (s : State) : State :=
  let phys := framePhys s.dram.cfg.config h (64 * burst)
  s.withPath { s.path with inflight := s.path.inflight ++
    [{ bar := bar, layer := q.layer, context := q.context, page := p.start, group := 8 * row + g, part := q.part, burst := burst,
       phys := phys, data := s.frameRead h (64 * burst) 64, poisoned := s.burstPoisoned phys }] }

/-- What a RUN cue does. Under a COVER_FULL variable tile the base run is skipped whatever the base tile, an ABSENT one too, so that no row of
it is concealed (R102's table has "Any"; DEDUCED, log 85). -/
def runRun (bar : Nat) (p : PagePos) (q : Cue) (line : Nat) (s : State) : State :=
  let m := (s.bank p.bank).image
  let r := contoneRow s p bar line
  let row := r / 64
  let g := r % 64 / 8
  let s := s.withContext bar q.layer q.context ((s.context bar q.layer q.context).turn p.start row g)
  let s := if q.layer = 0 ∧ underFull s p bar q.context row then
      s.withContext bar 0 q.context { s.context bar 0 q.context with skipped := true }
    else s
  match tileOf s p bar q.layer q.context row with
  | .frame h =>
    let span := runSpan s p bar row g q
    let base := baseBurst m p.pageProg bar q.context q.layer row q.part g
    span.foldl (fun s i => fetchBurst p bar row g h q (base + i) s) s
  | _ => s

/-- RUN_CUE (R30, R46, R53, R102). -/
def execRunCue (bar page : Nat) (cue : Word64) (errs : List (Nat × ReadErr)) (s : State) : Result := .next (playCue 1 bar page cue errs (runRun bar) s)

/-! ## Read data (R46, R86, R304) -/

/-- A burst arrives in a context that still holds its row group; a header serves every group of its tile. -/
def Context.take (x : Context) (e : Inflight) (usable : Bool) : Context :=
  if x.page ≠ some e.page ∨ x.tileRow ≠ e.group / 8 then x
  else if e.part = 1 then
    if usable then { x with header := some (e.data.take 32) } else { x with headerBad := some .poisoned }
  else if x.group ≠ e.group % 8 then x
  else
    let x := { x with got := x.got ++ [e.burst] }
    if usable then { x with bytes := mwrite zeroByte x.bytes (64 * e.burst) e.data } else { x with poisoned := x.poisoned ++ [e.burst] }

/-- READ_DATA_RETURN (R46, R304): the oldest burst on its way to a context arrives; `err` is what befell the read. -/
def execReadDataReturn (bar layer context : Nat) (err : ReadErr) (s : State) : Result :=
  match s.path.inflight.find? (fun e => decide (e.bar = bar ∧ e.layer = layer ∧ e.context = context)) with
  | none => .next s
  | some e =>
    let s := s.withPath { s.path with inflight := s.path.inflight.erase e }
    let (s, usable) := meetBurst e.phys e.poisoned err s
    .next (s.withContext bar layer context ((s.context bar layer context).take e usable))

/-! ## Decoding a row group (R113, R117 to R119) -/

/-- The bytes of a context from frame offset `o` on, at most `n`, up to the first burst that has not arrived (R47). -/
def arrivedBytes (x : Context) (o : Nat) : Nat → List Byte
  | 0 => []
  | n + 1 => if o / 64 ∈ x.got then tget zeroByte x.bytes o :: arrivedBytes x (o + 1) n else []

/-- The header of a tile, taken when a group of it first needs it; or why there is none. The header of a base tile comes with its
group 0. -/
def Context.findHeader (x : Context) (layer : Nat) : Context :=
  if x.header.isSome ∨ x.headerBad.isSome then x
  else if layer = 1 then { x with headerBad := some .absent }
  else if 0 ∈ x.poisoned then { x with headerBad := some .poisoned }
  else if 0 ∈ x.got then { x with header := some (arrivedBytes x 0 32) }
  else { x with headerBad := some .length }

/-- Coverage rows of a group: of COVER_FULL all ones, of COVER_MASK those stored, else none (R101, R113). -/
def covRows (x : Context) (layer g : Nat) (h : List Byte) : List (List Byte) :=
  (List.range 8).map (fun r =>
    if layer = 0 then blankCov
    else match tileCover h with
      | 1 => List.replicate 32 0xFF
      | 2 => padTo 32 (((arrivedBytes x (18432 + 256 * g) 256).drop (32 * r)).take 32)
      | _ => blankCov)

/-- A row group whose rows are all pixels of 0 without coverage, which no CRC covers. -/
def Context.blankGroup (x : Context) : Context :=
  { x with begun := true, clean := false, rows := List.replicate 8 (blankRow, blankCov), failed := none }

def Context.failGroup (x : Context) (e : Conceal) : Context := { x with begun := true, rows := [], failed := some e }

/-- Bursts of the span of a group: of the base tile those of its budget, of the variable tile its tokens and mask. -/
def spanBursts (m : Mem) (p b c layer row g : Nat) (h : List Byte) : List Nat :=
  if layer = 0 then (List.range (budget m p b c row g).2).map (fun i => (budget m p b c row g).1 + i)
  else (List.range (tokenBursts h g)).map (fun i => 32 * g + i) ++ (if tileCover h = 2 then (List.range 4).map (fun i => 288 + 4 * g + i) else [])

/-- Decode the row group a context holds. -/
def decodeHeld (m : Mem) (pp bar layer c row : Nat) (tile : TileRef) (x : Context) : Context :=
  let g := x.group
  match tile with
  | .absent => if layer = 0 ∧ x.skipped then x.blankGroup else x.failGroup .absent
  | .empty => x.blankGroup
  | .frame _ =>
    if layer = 0 ∧ (x.skipped ∨ (budget m pp bar c row g).2 = 0) then x.blankGroup
    else
      let x := x.findHeader layer
      match x.headerBad, x.header with
      | some e, _ => x.failGroup e
      | none, none => x.failGroup .absent
      | none, some h => match headerError h with
        | some e => x.failGroup e
        | none =>
          if tileEmpty h then x.blankGroup
          else if (spanBursts m pp bar c layer row g h).any (fun i => decide (i ∈ x.poisoned)) then x.failGroup .poisoned
          else
            let o := if layer = 0 then 32 + groupStart h g else 2048 * g
            let out := decodeGroup (tileRaw h) (groupStart h g) (arrivedBytes x o (groupEnd h g - groupStart h g))
            { x with begun := true, rows := List.zip out.rows (covRows x layer g h), failed := out.err.map (·.1) }

/-! ## Rows, concealment and CRC (R85 to R88, R117, R120) -/

/-- Columns per tile column: W of R85. -/
def tileWidth (s : State) (bar start : Nat) : Nat := if s.liveNum 3 bar start 0 1 0 = 1 then 512 else 256

/-- First and last column of a context's concealed range: its tile column, clipped to the columns that it feeds. Those are of the fitted
slots whose stages follow a DECODE cue with this LEAD: 5 - d(s) (R44, R85). -/
def concealedRange (s : State) (bar start col : Nat) (lead : Int) : Nat × Nat :=
  let w := tileWidth s bar start
  let lo := w * col
  let hi := w * col + w - 1
  let fed := (s.fittedSlots bar).filter (fun sl => decide (lead = 5 - (slotDelay s bar sl : Int))
    && decide ((s.slotDesc bar sl).f ≤ hi ∧ lo < (s.slotDesc bar sl).f + s.nozzles bar sl))
  match fed with
  | [] => (lo, min hi 110591)
  | x :: l => (max lo ((l.map (fun sl => (s.slotDesc bar sl).f)).foldl min (s.slotDesc bar x).f),
               min hi (maxOver (fun sl => (s.slotDesc bar sl).f + s.nozzles bar sl - 1) fed))

/-- A row is concealed: its lines are counted, their zones are disturbed, and a new episode raises UNDERRUN with its entry (R87). -/
def concealRow (p : PagePos) (bar layer c row : Nat) (lead : Int) (cause : Conceal) (fresh : Bool) (s : State) : State :=
  let m := (s.bank p.bank).image
  let div := alongDiv m p.pageProg bar
  let cols := concealedRange s bar p.start (ctxTileCol m bar layer c) lead
  let lines := min div (p.length - row * div)
  let s := if fresh then
      (((s.count 0).count (barCounter bar 0)).raise 3).report 0x1001 (logKey (some bar) none none (some layer)) 0
        (leBytes 2 c ++ leBytes 4 cols.1 ++ leBytes 4 cols.2 ++ leBytes 1 cause.code ++ leBytes 8 (p.start + row * div))
    else s
  let s := (s.countN 1 lines).countN (barCounter bar 1) lines
  let s := s.updPage p.start (fun p => { p with underrunLines := p.underrunLines + lines })
  disturbBlock bar p.start (row * div / 64) (zonesOfCols cols.1 (cols.2 + 1 - cols.1)) s

/-- The tile's CRC fails (R88). -/
def crcFailed (p : PagePos) (bar layer c row : Nat) (s : State) : State :=
  let col := ctxTileCol (s.bank p.bank).image bar layer c
  ((s.count (barCounter bar 16)).report 0x1003 (logKey (some bar) none none (some layer)) 0
    (leBytes 2 c ++ leBytes 2 (row / 64) ++ leBytes 2 col)).updPage p.start (fun p => p.flag 4)

/-- A row decoded without concealment joins those the tile's CRC is taken over. -/
def Context.addCrc (x : Context) (row : Nat) (px cov : List Byte) : Context :=
  if x.clean ∧ x.decoded.length = 256 * (row % 64) then
    { x with decoded := x.decoded ++ px, masks := if (x.header.map tileCover) = some 2 then x.masks ++ cov else x.masks }
  else { x with clean := false }

/-- After row 63 of a tile decoded in full, does its CRC differ from the header's (R120)? -/
def Context.crcBad (x : Context) (row : Nat) : Bool :=
  match x.header with
  | none => false
  | some h => x.clean && decide (row % 64 = 63) && decide (contentCrc h x.decoded x.masks ≠ tileCrc h)

/-- One context presents its next contone row. -/
def decodeRow (bar layer : Nat) (p : PagePos) (row : Nat) (lead : Int) (s : State) (c : Nat) : State :=
  let m := (s.bank p.bank).image
  let x := s.context bar layer c
  if !ctxUsed m bar layer c ∨ x.outs.any (fun o => decide (o.page = p.start ∧ o.row = row)) then s
  else
    let x := x.turn p.start (row / 64) (row % 64 / 8)
    let x := if x.begun then x else decodeHeld m p.pageProg bar layer c (row / 64) (tileOf s p bar layer c (row / 64)) x
    let x := if x.failed.isNone then { x with concealing := none } else x
    match x.rows.drop (row % 8) with
    | (px, cov) :: _ =>
      let x := x.addCrc row px cov
      let s := if x.crcBad row then crcFailed p bar layer c row s else s
      let out : OutRow := { page := p.start, row := row, pixels := px, cov := cov }
      s.withContext bar layer c { x with good := px, goodCov := cov, outs := out :: x.outs.take 1 }
    | [] =>
      let cause := x.failed.getD .length
      let s := concealRow p bar layer c row lead cause x.concealing.isNone s
      let out : OutRow := { page := p.start, row := row, pixels := x.good, cov := x.goodCov }
      s.withContext bar layer c { x with clean := false, concealing := some cause, outs := out :: x.outs.take 1 }

/-- DECODE_CUE (R20, R85 to R88, R117 to R120): every context in the cue's range presents one row. -/
def execDecodeCue (bar page : Nat) (cue : Word64) (errs : List (Nat × ReadErr)) (s : State) : Result :=
  .next (playCue 2 bar page cue errs (fun p q line s => q.contexts.foldl (decodeRow bar q.layer p (contoneRow s p bar line) q.lead) s) s)

end Sys2Proof.Machine
end

