-- ==== Sys2Proof/Machine/Tone.lean ====
section
/-! DEFINITION. Machine/Tone.lean: the tone and density stage and the screening engine (R130 to R149, R268). -/

namespace Sys2Proof.Machine

open Sys2Proof

/-! ## Line values (R20, R44) -/

/-- The values of an image line in one pass, if it has begun. -/
def findVals (s : State) (bar page line : Nat) (above : Int) : Option LineVals :=
  s.path.lines.find? (fun l => decide (l.bar = bar ∧ l.page = page ∧ l.line = line ∧ l.above = above))

def State.vals (s : State) (bar page line : Nat) (above : Int) : LineVals :=
  (findVals s bar page line above).getD
    { bar := bar, page := page, line := line, above := above, toned := 0, print := [], levels := [] }

def State.withVals (s : State) (v : LineVals) : State :=
  match findVals s v.bar v.page v.line v.above with
  | none => s.withPath { s.path with lines := s.path.lines ++ [v] }
  | some old => s.withPath { s.path with lines := s.path.lines.map (fun l => if l = old then v else l) }

/-! ## Contone selection (R85, R131) -/

/-- The row that a layer presents of a tile column for a contone row of a page: that of the context which holds the row (R131, R134); where
no context of the layer holds the column, pixels of 0 without coverage. -/
def presented (s : State) (m : Mem) (bar layer col page row : Nat) : List Byte × List Byte :=
  let outs := (columnContexts m bar layer col).flatMap (fun c => (s.context bar layer c).outs)
  match outs.find? (fun o => decide (o.page = page ∧ o.row = row)) with
  | some o => (o.pixels, o.cov)
  | none => (blankRow, blankCov)

/-- The pixel of a tile row that a column takes. -/
def pixelOf (w x : Nat) : Nat := if w = 512 then x % 512 / 2 else x % 256

/-! ## One column (R136, R137, R142) -/

/-- The composite of base pixel, variable pixel and coverage bit. -/
def composite (mode b v : Nat) (cv : Bool) : Nat :=
  if cv then v
  else match mode with
    | 0 => max b v
    | 1 => min 255 (b + v)
    | _ => b

/-- The print value of a tone value under a zone gain, a column gain and a limit. -/
def printValue (t g k limit : Nat) : Nat := min (min (((t * g + 16384) / 32768 * k + 16384) / 32768) 4095) limit

/-- The composite of each column of a 16-column unit. -/
def unitComposites (s : State) (p : PagePos) (bar unit line : Nat) : List Nat :=
  let m := (s.bank p.bank).image
  let w := if s.headerNum 3 bar p.start 0 1 = 1 then 512 else 256
  let row := contoneRow s p bar line
  let base := presented s m bar 0 (16 * unit / w) p.start row
  let var := presented s m bar 1 (16 * unit / w) p.start row
  let mode := s.headerNum 0 bar p.start 0 2
  (List.range 16).map (fun i =>
    let px := pixelOf w (16 * unit + i)
    composite mode (nth 0 base.1 px).toNat (nth 0 var.1 px).toNat ((nth 0 var.2 (px / 8)).getLsbD (px % 8)))

/-- Tone value of a composite. -/
def toneOf (s : State) (bar start c : Nat) : Nat := s.liveNum 0 bar start (16 + 2 * c) 2 0 % 4096

/-- The gain of a zone on an image line (R139). -/
def lineGain (s : State) (bar start zone line : Nat) : Nat :=
  let r := pageRamp s bar start
  rampGain s bar r zone (r.k0 + line)

/-- The zone gain is ramping on an image line: RAMP is set and 0 < k < 4,096. -/
def ramping (s : State) (bar start line : Nat) : Bool :=
  let k := (pageRamp s bar start).k0 + line
  decide (rampMode s bar start ≠ 0 ∧ 0 < k ∧ k < 4096)

/-- TONE of one unit: print values, and once for each column of an image line the sums of the feed history (R268). -/
def toneUnit (bar : Nat) (p : PagePos) (line : Nat) (above : Int) (s : State) (unit : Nat) : State :=
  let cs := unitComposites s p bar unit line
  let ts := cs.map (toneOf s bar p.start)
  let g := lineGain s bar p.start (unit / 16) line
  let limit := s.headerNum 0 bar p.start 2 2
  let v := s.vals bar p.start line above
  let print := (placed ts).foldl (fun t x =>
    nput t (16 * unit + x.1) (printValue x.2 g (s.liveNum 2 bar p.start (2 * (16 * unit + x.1)) 2 0x8000) limit)) v.print
  let first := !s.path.lines.any (fun l => decide (l.bar = bar ∧ l.page = p.start ∧ l.line = line) && bit l.toned unit)
  let s := s.meetWords 0 bar p.start (cs.map (fun c => 16 + 2 * c))
  let s := s.meetWords 1 bar p.start [16 + 2 * (unit / 16)]
  let s := s.meetWords 2 bar p.start ((List.range 16).map (fun i => 2 * (16 * unit + i)))
  let s := s.withVals { v with toned := setBit v.toned unit true, print := print }
  if first then feedUnit bar p.start line unit (ts.foldl (· + ·) 0) (ramping s bar p.start line) s else s

/-- Every 16-column unit that a fitted slot of the bar covers has been toned for an image line, in some pass. -/
def lineToned (s : State) (bar page line : Nat) : Bool :=
  let masks := (s.path.lines.filter (fun l => decide (l.bar = bar ∧ l.page = page ∧ l.line = line))).map (·.toned)
  (s.fittedSlots bar).all (fun sl =>
    let f := (s.slotDesc bar sl).f
    (List.range ((f + s.nozzles bar sl - 1) / 16 + 1)).all (fun u => decide (u < f / 16) || masks.any (fun t => bit t u)))

/-- What a TONE cue does. The stage begins a page by loading its header latches (R149). -/
def runTone (bar : Nat) (p : PagePos) (q : Cue) (line : Nat) (s : State) : State :=
  let s := [0, 1, 3].foldl (fun s cls => s.loadLatch cls bar p.start) s
  let was := lineToned s bar p.start line
  let s := (((List.range q.units).map (fun i => q.unit + i)).filter (fun u => decide (u < 6912))).foldl (toneUnit bar p line (4 - q.lead)) s
  if !was && lineToned s bar p.start line then feedLineDone bar p.start line s else s

/-- TONE_CUE (R131 to R142). -/
def execToneCue (bar page : Nat) (cue : Word64) (errs : List (Nat × ReadErr)) (s : State) : Result := .next (playCue 3 bar page cue errs (runTone bar) s)

/-! ## Screening (R143 to R145) -/

/-- The drop level of a print value against a threshold, for the edges E1, E2 and E3. -/
def dropLevel (e1 e2 e3 v m : Nat) : Nat :=
  let at_ (j lo hi : Nat) : Nat := if m < 4096 * (v - lo) / (hi - lo) then j + 1 else j
  if e3 ≤ v then 3 else if v < e1 then at_ 0 0 e1 else if v < e2 then at_ 1 e1 e2 else at_ 2 e2 e3

/-- The byte offset of the mask entry of a column and line (R144). -/
def maskOff (s : State) (bar start x line : Nat) : Nat :=
  let y := if s.headerNum 4 bar start 14 1 = 0 then line else start + line
  32 + 2 * (512 * ((s.headerNum 4 bar start 12 2 + y) % 512) + (s.headerNum 4 bar start 8 4 + x) % 512)

/-- The level that SCREEN gives a column. -/
def screenCol (s : State) (bar start line x v : Nat) : Nat :=
  dropLevel (s.headerNum 4 bar start 0 2) (s.headerNum 4 bar start 2 2) (s.headerNum 4 bar start 4 2) v
    (s.liveNum 4 bar start (maskOff s bar start x line) 2 4095 % 4096)

/-- What a SCREEN cue does. -/
def runScreen (bar : Nat) (p : PagePos) (q : Cue) (line : Nat) (s : State) : State :=
  let s := s.loadLatch 4 bar p.start
  let v := s.vals bar p.start line (3 - q.lead)
  let cols := q.columns.filter (fun x => decide (x < 110592))
  let levels := cols.foldl (fun t x => nput t x (screenCol s bar p.start line x (nget v.print x))) v.levels
  (s.meetWords 4 bar p.start (cols.map (fun x => maskOff s bar p.start x line))).withVals { v with levels := levels }

/-- SCREEN_CUE (R143 to R145). -/
def execScreenCue (bar page : Nat) (cue : Word64) (errs : List (Nat × ReadErr)) (s : State) : Result := .next (playCue 4 bar page cue errs (runScreen bar) s)

end Sys2Proof.Machine
end

