-- ==== Sys2Proof/Machine/Mapper.lean ====
section
/-! DEFINITION. Machine/Mapper.lean: the nozzle mapper: one slot line from drop levels to its packed stream (R150 to R152, R158 to R163,
R167, R169, R171, R173). -/

namespace Sys2Proof.Machine

open Sys2Proof

/-! ## What the mapper reads (R156, R158) -/

/-- A field of a slot record, and of the bar header, through the latch. -/
def recNum (s : State) (b start sl o w : Nat) : Nat := s.headerNum 5 b start (32 + 32 * sl + o) w
def barNum (s : State) (b start o w : Nat) : Nat := s.headerNum 5 b start o w

def recFirst (s : State) (b start sl : Nat) : Nat := recNum s b start sl 0 4
def recN (s : State) (b start sl : Nat) : Nat := recNum s b start sl 4 2
def recDesc (s : State) (b start sl : Nat) : Bool := bit (recNum s b start sl 6 1) 0
def recLeadB (s : State) (b start sl : Nat) : Bool := bit (recNum s b start sl 6 1) 1

/-- The nozzle word of a place of a slot, on the row that fires (R158). -/
def wordAt (s : State) (b start sl row i : Nat) : Nat :=
  s.liveNum 5 b start (wordOff sl row (nozzleOf (recN s b start sl) (recDesc s b start sl) i)) 2 0x1800

/-! ## Rows (R22, R151) -/

/-- The tick at which image line k of a page is due at a slot. -/
def dueTick (s : State) (b sl start k : Nat) : Nat := start + k + s.coarse b sl

/-! ## Stitch zones (R160, R161, R167) -/

/-- A zone that a column of a slot lies in: its first column, width, kind and bias, whether this slot's head is the right one, and the
slot of the other head when this device holds it. -/
structure Zone where
  first : Nat
  width : Nat
  kind : Nat
  bias : Int
  isRight : Bool
  other : Option Nat
deriving DecidableEq, Repr

def Zone.holds (z : Zone) (x : Nat) : Bool := decide (z.first ≤ x ∧ x < z.first + z.width)

/-- The zone at the right end of a slot, shared with NEXT_SLOT. -/
def rightZone (s : State) (b start sl : Nat) : List Zone :=
  let o := recNum s b start sl 10 1
  let w := recNum s b start sl 12 2
  if o < 24 ∧ w ≠ 0 then
    [{ first := recFirst s b start sl + recN s b start sl - w, width := w, kind := recNum s b start sl 11 1,
       bias := signed 2 (recNum s b start sl 14 2), isRight := false, other := some o }]
  else []

/-- Zones in which a slot is the NEXT_SLOT of another. -/
def leftZones (s : State) (b start sl : Nat) : List Zone :=
  ((List.range 24).filter (fun o => decide (o ≠ sl ∧ recN s b start o ≠ 0 ∧ recNum s b start o 10 1 = sl))).flatMap (fun o =>
    (rightZone s b start o).map (fun z => { z with isRight := true, other := some o }))

/-- Slots that hold nozzles in the latched records. -/
def mappedSlots (s : State) (b start : Nat) : List Nat := (List.range 24).filter (fun sl => decide (recN s b start sl ≠ 0))

/-- The edge zones of the bar that a slot lies in. -/
def edgeZones (s : State) (b start sl : Nat) : List Zone :=
  let f := recFirst s b start sl
  let e := f + recN s b start sl
  let lw := barNum s b start 6 2
  let rw_ := barNum s b start 8 2
  let all := mappedSlots s b start
  (if lw ≠ 0 ∧ all.all (fun o => decide (f ≤ recFirst s b start o)) then
    [{ first := f, width := lw, kind := barNum s b start 14 1, bias := signed 2 (barNum s b start 10 2), isRight := true, other := none }]
   else [])
  ++ (if rw_ ≠ 0 ∧ all.all (fun o => decide (recFirst s b start o + recN s b start o ≤ e)) then
    [{ first := e - rw_, width := rw_, kind := barNum s b start 15 1, bias := signed 2 (barNum s b start 12 2), isRight := false,
       other := none }]
   else [])

def zonesOf (s : State) (b start sl : Nat) : List Zone := rightZone s b start sl ++ leftZones s b start sl ++ edgeZones s b start sl

/-- RANK of a press column and line (R158). -/
def rankAt (s : State) (b start u v : Nat) : Nat := s.liveNum 5 b start (800 + 256 * v + u) 1 0x80

/-- The position belongs to the right head of a zone (R160). -/
def rightOwns (kind width rank : Nat) (bias : Int) (i : Nat) : Bool :=
  if kind = 1 then decide (((rank * (width + 1) / 256 : Nat) : Int) + bias ≤ (i : Int))
  else decide (((width / 2 : Nat) : Int) + bias ≤ (i : Int))

/-- The byte offset of the rank that a column and line use. -/
def rankOff (s : State) (b start x k : Nat) : Nat :=
  let y := if barNum s b start 4 1 = 0 then k else start + k
  800 + 256 * (y % 256) + (barNum s b start 0 4 + x) % 256

/-- A neighbour is withdrawn, and its zone positions on this line are the other head's (R167): the line is one from k_w on, and its MAP cue
issues in frame T_d or later. On lines before k_w ownership and substitution stay as they are. -/
def goneFor (s : State) (b sl start k : Nat) : Bool :=
  (s.slot b sl).withdrawals.any (fun w => w.holds start && decide (w.td ≤ s.web.webPos)
    && decide (((w.td + 3 : Nat) : Int) - start - s.coarse b sl ≤ (k : Int)))

/-- The slot owns a column of a zone on an image line, with substitution between heads of this device (R160, R161, R167). -/
def ownsIn (s : State) (b start sl k x : Nat) (z : Zone) : Bool :=
  let off := rankOff s b start x k
  let right := rightOwns z.kind z.width (rankAt s b start ((off - 800) % 256) ((off - 800) / 256)) z.bias (x - z.first)
  let mine := right == z.isRight
  match z.other with
  | none => mine
  | some o =>
    if goneFor s b o start k then true
    else
      let myWord := wordAt s b start sl (firingRow (dueTick s b sl start k)) (x - recFirst s b start sl)
      let theirs := wordAt s b start o (firingRow (dueTick s b o start k)) (x - recFirst s b start o)
      if mine then !(wordFailed myWord && !wordFailed theirs) else wordFailed theirs && !wordFailed myWord

/-- The slot owns a column on an image line. -/
def owns (s : State) (b start sl k x : Nat) (zs : List Zone) : Bool :=
  (zs.filter (fun z => z.holds x)).all (ownsIn s b start sl k x)

/-! ## Compensation (R163) -/

/-- One column of a slot line on its way through the mapper. -/
structure MapCol where
  owned : Bool
  word : Nat
  level : Nat
  deficit : Nat
deriving DecidableEq, Repr

/-- Steps 1 and 3: a level of 0 where the slot does not own the column, else what the nozzle can fire and its deficit. -/
def startCol (owned : Bool) (word level : Nat) : MapCol :=
  let l := if owned then level else 0
  { owned := owned, word := word, level := min l (wordCap word), deficit := l - min l (wordCap word) }

/-- The deficit a column gives to the left, and to the right, on image line k. -/
def givesLeft (k : Nat) (c : MapCol) : Nat :=
  if wordGive c.word = 1 ∨ (wordGive c.word = 3 ∧ k / 2 % 2 = 0) then c.deficit else 0

def givesRight (k : Nat) (c : MapCol) : Nat :=
  if wordGive c.word = 2 ∨ (wordGive c.word = 3 ∧ k / 2 % 2 = 1) then c.deficit else 0

/-- Steps 4 and 5 of one column, `given` being the deficits given to it. -/
def finishCol (given : Nat) (c : MapCol) : Nat :=
  let cap := wordCap c.word
  let l := if c.owned then min cap (c.level + given) else c.level
  if l = 0 then 0 else min cap (l + wordBoost c.word)

/-- Steps 4 and 5 along a line; `left` is what the column before gives to the right. -/
def finishCols (k : Nat) : Nat → List MapCol → List Nat
  | _, [] => []
  | left, c :: rest =>
    let right := match rest with
      | [] => 0
      | d :: _ => givesLeft k d
    finishCol (left + right) c :: finishCols k (givesRight k c) rest

/-! ## Packing (R173) -/

/-- The nozzle at stream position m of a slot of n nozzles with interleave i. -/
def streamNozzle (n i m : Nat) : Nat := i * (m % (n / i)) + m / (n / i)

/-- Levels by nozzle in stream order. -/
def packLevels (n i : Nat) (byNozzle : Nat → Nat) : List Nat := (List.range n).map (fun m => byNozzle (streamNozzle n i m))

/-! ## Wear (R169, R171) -/

def wearMax : Nat := 0xFFFFFFFF

/-- The wear counter of a nozzle grows by `w`; a counter that would pass its end stops there and sets WEAR_SAT of its slot. -/
def addWear (b sl row : Nat) (s : State) (x : Nat × Nat) : State :=
  let i := wearIx b (10240 * sl + 5120 * row + x.1)
  let v := nget s.path.wear i + x.2
  let s := s.withPath { s.path with wear := nput s.path.wear i (min v wearMax) }
  if v ≤ wearMax ∨ tget (fun _ => false) s.path.wearSat (slotIx b sl) then s
  else (s.withPath { s.path with wearSat := tput (fun _ => false) s.path.wearSat (slotIx b sl) true }).report 0x100C
    (logKey (some b) (some sl) none none) 0 []

/-- The weight of a level. -/
def levelWeight (s : State) (b start level : Nat) : Nat := if level = 0 then 0 else barNum s b start (15 + level) 1

/-- Step 6: a sampled line adds its weights. -/
def wearLine (b sl start t : Nat) (byNozzle : List (Nat × Nat)) (s : State) : State :=
  if t % 64 < 2 then (byNozzle.map (fun x => (x.1, levelWeight s b start x.2))).foldl (addWear b sl (firingRow t)) s else s

/-! ## One slot line (R159) -/

/-- The levels of a slot line by place, after step 5. -/
def mapLevels (s : State) (b sl start k : Nat) (levels : Tab Nat) : List Nat :=
  let n := recN s b start sl
  let f := recFirst s b start sl
  let row := firingRow (dueTick s b sl start k)
  if slotWithdrawn s b sl start then List.replicate n 0
  else
    let zs := zonesOf s b start sl
    finishCols k 0 ((List.range n).map (fun i =>
      startCol (owns s b start sl k (f + i) zs) (wordAt s b start sl row i) (nget levels (f + i))))

/-- Byte offsets of the NOZZLE words that a slot line reads. -/
def mapReads (s : State) (b sl start k : Nat) : List Nat :=
  let n := recN s b start sl
  let row := firingRow (dueTick s b sl start k)
  (List.range n).map (fun i => wordOff sl row (nozzleOf n (recDesc s b start sl) i))
    ++ (zonesOf s b start sl).flatMap (fun z => (List.range z.width).map (fun i => rankOff s b start (z.first + i) k))

/-- What a MAP cue does: the slot line goes into line staging. A slot whose record reads NOZZLES 0 sends lines of zeros of the length
its head memory states (R156). -/
def runMap (bar : Nat) (p : PagePos) (q : Cue) (line : Nat) (s : State) : State :=
  let sl := q.slot
  if !s.fitted bar sl then s
  else
    let s := s.loadLatch 5 bar p.start
    let n := recN s bar p.start sl
    let t := dueTick s bar sl p.start line
    let levels := mapLevels s bar sl p.start line (s.vals bar p.start line (3 - q.lead)).levels
    let desc := recDesc s bar p.start sl
    let byNozzle (j : Nat) : Nat := nth 0 levels (nozzleOf n desc j)
    let stream := if n = 0 then List.replicate (s.nozzles bar sl) 0 else packLevels n (2 ^ recNum s bar p.start sl 7 1) byNozzle
    let s := s.meetWords 5 bar p.start (mapReads s bar sl p.start line)
    let s := wearLine bar sl p.start t ((List.range n).map (fun j => (j, byNozzle j))) s
    let s := if slotWithdrawn s bar sl p.start then disturbLine bar sl p.start line s else s
    let x : SlotLine := { bar := bar, slot := sl, due := t, page := p.start, line := line, row := firingRow t,
                          trail := firesTrail (if n = 0 then (s.head bar sl).any (fun h => h.mem.leadRowB) else recLeadB s bar p.start sl) t,
                          stream := stream, began := false, voided := false, gate := false, sent := 0 }
    let old := s.path.staging.filter (fun l => !decide (l.bar = bar ∧ l.slot = sl ∧ l.page = p.start ∧ l.line = line))
    s.withPath { s.path with staging := old ++ [x] }

/-- MAP_CUE (R150 to R152, R158 to R173). -/
def execMapCue (bar page : Nat) (cue : Word64) (errs : List (Nat × ReadErr)) (s : State) : Result := .next (playCue 5 bar page cue errs (runMap bar) s)

end Sys2Proof.Machine
end

