-- ==== Sys2Proof/Machine/Send.lean ====
section
/-! DEFINITION. Machine/Send.lean: slot lines and energy records on the head link (R40, R42, R185 to R189, R209, R212). -/

namespace Sys2Proof.Machine

open Sys2Proof

/-! ## Slot lines (R173, R185, R186) -/

/-- DELAY of a slot line with the period in force (R152, R209). -/
def lineDelay (s : State) (l : SlotLine) : Nat :=
  let f := s.fineFor l.bar l.slot l.page
  delayUi (if l.trail then trailRest f (s.rowSpacing l.bar l.slot) else f) s.web.period

/-- The header payload of a slot line. -/
def headerPayload (due row : Nat) (gate trail : Bool) (delay : Nat) : Nat :=
  let low := due % 65536 + 2 ^ 16 * (row % 2) + 2 ^ 17 * bitNat gate + 2 ^ 18 * bitNat trail + 2 ^ 19 * (delay % 2 ^ 22)
  low + 2 ^ 48 * crc16 low 48

/-- The payload of a data block: 32 levels of two bits, the first lowest. -/
def levelPayload : List Nat → Nat
  | [] => 0
  | l :: rest => l % 4 + 4 * levelPayload rest

/-- Block i of a slot line; `gate` is GATE of its header. -/
def lineBlock (s : State) (l : SlotLine) (gate : Bool) (i : Nat) : Blk :=
  if l.voided then ctrlBlk 0x3C l.slot false 0
  else if i = 0 then dataBlk (headerPayload l.due l.row gate l.trail (lineDelay s l))
  else dataBlk (levelPayload ((l.stream.drop (32 * (i - 1))).take 32))

/-! ## Credits (R189) -/

/-- The first occupancy of a slot line takes a credit, or voids the line. -/
def beginLine (l : SlotLine) (s : State) : State × SlotLine :=
  if l.began then (s, l)
  else
    let x := s.slot l.bar l.slot
    if 0 < x.credit then (s.withSlot l.bar l.slot { x with credit := x.credit - 1 }, { l with began := true })
    else
      let s := (((s.count 4).count (barCounter l.bar 4)).count (slotFaultCounter l.bar l.slot)).report 0x2001
        (logKey (some l.bar) (some l.slot) none none) 0 (leBytes 8 l.due)
      (disturbLine l.bar l.slot l.page l.line s, { l with began := true, voided := true })

/-- LINES_SENT counts a slot line when its last block has gone with GATE 1. -/
def endLine (before : Nat) (l : SlotLine) (s : State) : State :=
  if !l.voided ∧ l.gate ∧ before < blocksOf l.stream.length ∧ blocksOf l.stream.length ≤ l.sent then s.count (barCounter l.bar 2) else s

/-- What a SEND cue does. -/
def runSend (bar : Nat) (p : PagePos) (q : Cue) (line : Nat) (s : State) : State :=
  match s.path.staging.find? (fun l => decide (l.bar = bar ∧ l.slot = q.slot ∧ l.page = p.start ∧ l.line = line)) with
  | none => s
  | some old =>
    let (s, l) := beginLine old s
    let l := if q.block = 0 then { l with gate := gateBit s bar p.start } else l
    let s := s.sendOccupancy bar (q.time / 8) ((List.range q.blocks).map (fun i => lineBlock s l l.gate (q.block + i)))
    let l := { l with sent := l.sent + q.blocks }
    endLine old.sent l (s.withPath { s.path with staging := s.path.staging.map (fun x => if x = old then l else x) })

/-- SEND_CUE (R40, R185, R186, R189). -/
def execSendCue (bar page : Nat) (cue : Word64) (errs : List (Nat × ReadErr)) (s : State) : Result := .next (playCue 6 bar page cue errs (runSend bar) s)

/-! ## Energy records (R42, R187, R212 to R214) -/

/-- What an ENERGY cue does: the unit fills the block, and the record holds from the slot line due then. -/
def runEnergy (bar : Nat) (p : PagePos) (q : Cue) (line : Nat) (s : State) : State :=
  let sl := q.slot
  if !s.fitted bar sl then s
  else
    let (s, e) := frameRecord s bar sl p.start
    let x := s.slot bar sl
    let s := s.withSlot bar sl { x with energy := e, warmMax := max x.warmMax e.warmN }
    let w := energyPayloads e (dueTick s bar sl p.start line)
    s.sendOccupancy bar (q.time / 8) [dataBlk w.1, dataBlk w.2]

/-- ENERGY_CUE (R42, R187, R212 to R214). -/
def execEnergyCue (bar page : Nat) (cue : Word64) (errs : List (Nat × ReadErr)) (s : State) : Result := .next (playCue 7 bar page cue errs (runEnergy bar) s)

end Sys2Proof.Machine
end

