-- ==== Sys2Proof/Machine/Codec.lean ====
section
/-! DEFINITION. Machine/Codec.lean: the compressor: packing a tile (R123 to R125), stream buffers (R127, R128), COMPRESS and
DECOMPRESS_TEST (R121 to R129). -/

namespace Sys2Proof.Machine

open Sys2Proof

/-! ## Packing one tile (R111 to R114, R123 to R125) -/

/-- A tile as the compressor takes it in: 16,384 pixel bytes in row order and, with COVER, the 2,048-byte mask. -/
structure TileIn where
  pixels : List Byte
  mask : Option (List Byte)
deriving DecidableEq, Repr

def allBytes (v : Byte) (l : List Byte) : Bool := l.all (fun b => decide (b = v))

/-- EMPTY (R123). -/
def TileIn.empty (x : TileIn) : Bool :=
  allBytes 0 x.pixels && (match x.mask with
    | none => true
    | some m => allBytes 0 m)

/-- The cover mode of R123: 0 COVER_NONE, 1 COVER_FULL, 2 COVER_MASK. -/
def TileIn.cover (x : TileIn) : Nat :=
  match x.mask with
  | none => 0
  | some m => if allBytes 0xFF m then 1 else if allBytes 0 m then 0 else 2

/-- The mask that is stored: with COVER_MASK only. -/
def TileIn.stored (x : TileIn) : List Byte := if x.cover = 2 then x.mask.getD [] else []

/-- Where each of a list of groups starts in the token stream. -/
def groupOffsets : Nat → List (List Byte) → List Nat
  | _, [] => []
  | o, g :: gs => o :: groupOffsets (o + g.length) gs

/-- A tile header (R111). -/
def tileHeader (flags length : Nat) (offs : List Nat) (crc : Nat) : List Byte :=
  leBytes 2 0x4643 ++ leBytes 1 flags ++ [0] ++ leBytes 2 256 ++ leBytes 2 64 ++ leBytes 4 length
    ++ padTo 16 (offs.flatMap (leBytes 2)) ++ leBytes 4 crc

/-- The CRC field of a tile (R114). -/
def TileIn.crc (x : TileIn) : Nat := crc32c (x.pixels ++ x.stored)

def emptyTile : List Byte := tileHeader 2 0 [] 0

/-- The tile in packed form with these groups of tokens. -/
def TileIn.packed (x : TileIn) (raw : Bool) (gs : List (List Byte)) : List Byte :=
  tileHeader (4 * x.cover + bitNat raw) (gs.map (·.length)).sum (groupOffsets 0 gs) x.crc ++ gs.flatten ++ x.stored

/-- The eight groups of a RAW tile. -/
def TileIn.rawGroups (x : TileIn) : List (List Byte) := (List.range 8).map (fun g => (x.pixels.drop (2048 * g)).take 2048)

/-- How a tile was stored: EMPTY or coded, RAW because of its size, RAW after a failed comparison, or not at all. -/
inductive Stored where
  | coded | rawSize | rawVerify | failed
deriving DecidableEq, Repr

/-- Encoding one tile, the n-th of the device (R125). -/
def encodeOne (n : Nat) (x : TileIn) : List Byte × Stored :=
  if x.empty then (emptyTile, .coded)
  else
    let gs := Config.encodeTile x.pixels
    let raw := x.packed true x.rawGroups
    if 16384 ≤ (gs.map (·.length)).sum ∨ gs.any (fun g => decide (2048 < g.length)) then
      (raw, if Config.rawFails n then .failed else .rawSize)
    else
      let t := x.packed false gs
      let out := decodeTile (t.take 32) (packedGroup t)
      if out.pixels = x.pixels ∧ out.err = none ∧ !Config.compareFails n then (t, .coded)
      else (raw, if Config.rawFails n then .failed else .rawVerify)

/-- A failed comparison is counted and logged, with the camera port where one is served; the tile is counted. A tile that fails as RAW counts
once, whether RAW for its size or after a failed comparison (DESIGN CHOICE, log 85). -/
def noteTile (port : Option Nat) (r : Stored) (s : State) : State :=
  let s := s.withStore { s.store with tilesDone := s.store.tilesDone + 1 }
  match r with
  | .rawVerify => (s.count 9).report 0x4002 (logKey none none port none) 0 []
  | .failed => (s.count 9).report 0x4002 (logKey none none port none) 0 []
  | _ => s

/-! ## Chains of stream buffers (R127) -/

def chainAddr (s : State) (d : Nat) : Nat := leNat (s.dmaRead d 8)
def chainSize (s : State) (d : Nat) : Nat := leNat (s.dmaRead (d + 8) 4)
def chainFlags (s : State) (d : Nat) : Nat := leNat (s.dmaRead (d + 12) 4)
def chainNext (s : State) (d : Nat) : Nat := leNat (s.dmaRead (d + 16) 8)

/-- What stops a stream at a descriptor: a read that fails, or a form that R127 does not allow. -/
def chainBad (s : State) (d : Nat) : Option Nat :=
  if (s.dmaBad d 24).isSome then some stDataUe
  else if chainAddr s d % 64 ≠ 0 ∨ chainSize s d % 4096 ≠ 0 ∨ chainSize s d < 4096 ∨ 1073741824 < chainSize s d
      ∨ 4 ≤ chainFlags s d then some stBadParam
  else none

/-- Is there room for `n` more bytes? None: there is; else why not. -/
def chainRoom (s : State) : Nat → ChainPos → Nat → Option Nat
  | 0, _, _ => some stNoResource
  | f + 1, p, n =>
    match chainBad s p.desc with
    | some st => some st
    | none =>
      if p.used + n ≤ chainSize s p.desc then none
      else if bit (chainFlags s p.desc) 0 then chainRoom s f { desc := chainNext s p.desc, used := 0 } (n - (chainSize s p.desc - p.used))
      else some stNoResource

/-- The device hands a buffer back: USED, then STATE (1 FULL, 2 FINAL). -/
def closeBuffer (p : ChainPos) (state : Nat) (s : State) : State :=
  (s.dmaWrite (p.desc + 24) (leBytes 4 p.used)).dmaWrite (p.desc + 28) (leBytes 4 state)

/-- Put bytes in the stream; `told` acts when a buffer with NOTIFY is finished. -/
def chainPut (told : State → State) : Nat → ChainPos → List Byte → State → State × ChainPos
  | 0, p, _, s => (s, p)
  | f + 1, p, bs, s =>
    if bs = [] then (s, p)
    else
      let room := chainSize s p.desc - p.used
      if room = 0 then
        let next := chainNext s p.desc
        let notify := bit (chainFlags s p.desc) 1
        let s := closeBuffer p 1 s
        chainPut told f { desc := next, used := 0 } bs (if notify then told s else s)
      else
        let part := bs.take room
        chainPut told f { p with used := p.used + part.length } (bs.drop room) (s.dmaWrite (chainAddr s p.desc + p.used) part)

/-- A tile in the stream: it starts at a multiple of 64 and is padded with zeros to the next (R124). -/
def padTile (t : List Byte) : List Byte := padTo (64 * ceilDiv t.length 64) t

/-- A tile needs at most six buffers of 4,096 bytes; each is filled and then left. -/
def chainSteps : Nat := 16

/-! ## COMPRESS (R121 to R128) -/

def pixelSize (format : Nat) : Nat := format + 1

/-- The planes that are emitted, rising. -/
def CodecOp.planeList (o : CodecOp) : List Nat := maskList o.planes 4

def CodecOp.total (o : CodecOp) : Nat := o.planeList.length * o.tileRows * o.tileCols

/-- Plane, tile row and tile column of a tile index (R124). -/
def CodecOp.tileAt (o : CodecOp) (i : Nat) : Nat × Nat × Nat :=
  (nth 0 o.planeList (i / (o.tileRows * o.tileCols)), i / o.tileCols % o.tileRows, i % o.tileCols)

/-- Host address of pixel row r of a tile. -/
def CodecOp.rowAddr (o : CodecOp) (row col r : Nat) : Nat := o.source + (64 * row + r) * o.stride + 256 * col * pixelSize o.format

/-- One channel of the 256 pixels of a row. -/
def channelRow (s : State) (o : CodecOp) (row col ch r : Nat) : List Byte :=
  (List.range 256).map (fun x => tget zeroByte s.host.mem (o.rowAddr row col r + x * pixelSize o.format + ch))

/-- Bytes of a coverage mask from 0 or not-0 bytes, eight to a byte (R113). -/
def packMask : Nat → List Byte → List Byte
  | 0, _ => []
  | n + 1, l => BitVec.ofNat 8 (maskOf ((List.range 8).filter (fun i => decide (nth 0 l i ≠ (0 : Byte))))) :: packMask n (l.drop 8)

/-- A tile of the source (R123). -/
def sourceTile (s : State) (o : CodecOp) (plane row col : Nat) : TileIn :=
  { pixels := (List.range 64).flatMap (channelRow s o row col plane)
    mask := if bit o.options 0 then some (packMask 2048 ((List.range 64).flatMap (channelRow s o row col o.coverCh))) else none }

/-- The first host address of a tile's source whose read fails. -/
def tileBad (s : State) (o : CodecOp) (row col : Nat) : Option Nat :=
  (List.range 64).findSome? (fun r => s.dmaBad (o.rowAddr row col r) (256 * pixelSize o.format))

/-- A progress reply that NOTIFY asks for, whatever the spacing of R329. -/
def notifyLong (ring tag : Nat) (s : State) : State :=
  match s.longOp ring tag with
  | none => s
  | some o =>
    let g := s.ring ring
    if o.quiet || o.orphan then s
    else if g.free ≤ g.owed then s.updLong ring tag (fun o => { o with skipped := true })
    else
      State.putReply (s.updLong ring tag (fun o => { o with lastProgress := o.progress, lastAt := s.clk.elapsed, skipped := false }))
        { ring := ring, tag := tag, status := stInProgress, progress := o.progress, phase := false, final := false,
          pos := o.pos, skipped := o.skipped, opcode := o.opcode, timestamp := 0, result := [] }

/-- Progress in tiles (R122), in 1/10,000. -/
def noteTiles (o : CodecOp) (tiles : Nat) (s : State) : State :=
  s.progressTo o.ring o.tag (10000 * tiles / max 1 (o.total - o.firstTile))

/-- One tile of a COMPRESS. -/
def compressTile (o : CodecOp) (r : CodeRun) (s : State) : State × CodeRun :=
  let (plane, row, col) := o.tileAt r.index
  match tileBad s o row col with
  | some a => (s.dmaFault a, { r with stop := some stDataUe })
  | none =>
    let (t, how) := encodeOne s.store.tilesDone (sourceTile s o plane row col)
    let bytes := padTile t
    match chainRoom s chainSteps r.pos bytes.length with
    | some st => (s, { r with stop := some st })
    | none =>
      let s := noteTile none how s
      if how = .failed then (s, { r with stop := some stVerify })
      else
        let (s, pos) := chainPut (notifyLong o.ring o.tag) chainSteps r.pos bytes (noteTiles o (r.tiles + 1) s)
        (s, { r with pos := pos, index := r.index + 1, tiles := r.tiles + 1, units := r.units + bytes.length / 64,
                     rawSize := r.rawSize + bitNat (how = .rawSize), rawVerify := r.rawVerify + bitNat (how = .rawVerify) })

/-- `n` tiles of a COMPRESS, up to the one that stops it. -/
def compressTiles (o : CodecOp) : Nat → CodeRun → State → State × CodeRun
  | 0, r, s => (s, r)
  | n + 1, r, s =>
    let (s, r) := compressTile o r s
    if r.stop.isSome then (s, r) else compressTiles o n r s

/-- The result of R126, R128, or the index of the tile that failed (R125). -/
def compressResult (r : CodeRun) : List Byte :=
  if r.stop = some stVerify then leBytes 4 r.index
  else leBytes 4 r.tiles ++ leBytes 4 r.rawSize ++ leBytes 2 (sat 2 r.rawVerify) ++ [0, 0] ++ leBytes 4 r.units

/-- Any camera context, in force or to come, with its coding output enabled keeps engine 1 (R121), and so does one whose frames are still to
be coded. -/
def codingOn (s : State) : Bool :=
  s.cams.any (fun e => ([e.2.ctx, e.2.next].any (fun c => match c with
    | none => false
    | some c => bit c.outputs 1)) || e.2.closing.any (fun f => bit f.ctx.outputs 1) || e.2.codeWait ≠ [])

def codecEngines (s : State) : List Nat := if codingOn s then [0] else [0, 1]

def freeEngine (s : State) : Option Nat := (codecEngines s).find? (fun e => !s.store.codec.any (fun o => decide (o.engine = e)))

/-- Commands that wait take free engines in order of acceptance. -/
def giveEngines : Nat → State → State
  | 0, s => s
  | n + 1, s =>
    match freeEngine s, s.store.codec.find? (fun o => decide (o.engine = 2)) with
    | some e, some o =>
      giveEngines n (s.withStore { s.store with codec := s.store.codec.map (fun x => if x = o then { x with engine := e } else x) })
    | _, _ => s

/-- The operation of a ring and tag that a compressor holds. -/
def codecOp (s : State) (ring tag : Nat) : Option CodecOp := s.store.codec.find? (fun o => decide (o.ring = ring ∧ o.tag = tag))

/-- A codec operation leaves, and its engine takes the next. -/
def dropCodec (o : CodecOp) (s : State) : State := giveEngines 2 (s.withStore { s.store with codec := s.store.codec.erase o })

/-- The last buffer in use is handed back as FINAL, with the progress reply that its NOTIFY asks for. -/
def closeFinal (o : CodecOp) (p : ChainPos) (s : State) : State :=
  let notify := bit (chainFlags s p.desc) 1
  let s := closeBuffer p 2 s
  if notify then notifyLong o.ring o.tag s else s

/-- A COMPRESS ends with what stopped it, or with `status`. -/
def compressEnd (o : CodecOp) (status : Nat) (s : State) : State :=
  let s := dropCodec o (closeFinal o o.run.pos s)
  s.finishLong o.ring o.tag (answer (o.run.stop.getD status) (compressResult o.run))

/-- `n` more tiles of a COMPRESS; it ends when a tile stops it or none is left. -/
def compressSome (o : CodecOp) (n : Nat) (s : State) : State :=
  let (s, r) := compressTiles o (min n (o.total - o.run.index)) o.run s
  let x := { o with run := r }
  let s := s.withStore { s.store with codec := s.store.codec.map (fun y => if y = o then x else y) }
  if r.stop.isSome ∨ x.total ≤ r.index then compressEnd x stOk s else s

/-- The checks of R122 and R123. FIRST_TILE at or beyond the number of tiles, PLANES 0, COVER_CH above 3 without COVER, and with COVER a
COVER_CH that FORMAT lacks also answer BAD_PARAM, which the manual does not say (DESIGN CHOICE, log 85). -/
def compressOk (o : CodecOp) : Bool :=
  decide (1 ≤ o.tileCols ∧ o.tileCols ≤ 432 ∧ 1 ≤ o.tileRows ∧ o.tileRows ≤ 65535 ∧ o.format ≤ 3 ∧ o.options < 2 ∧ o.coverCh ≤ 3
      ∧ 256 * o.tileCols * pixelSize o.format ≤ o.stride ∧ o.chain % 64 = 0 ∧ o.planes < 2 ^ pixelSize o.format
      ∧ o.firstTile < o.total)
    && (!bit o.options 0 || (decide (o.coverCh < pixelSize o.format) && !bit o.planes o.coverCh))

def codecBegin (o : CodecOp) (s : State) : State :=
  giveEngines 1 (s.withStore { s.store with codec := s.store.codec ++ [o] })

def compressBegin (o : CodecOp) (s : State) : State :=
  if !compressOk o then s.finishLong o.ring o.tag (refuse stBadParam)
  else if (freeEngine s).isNone ∧ 8 ≤ (s.store.codec.filter (fun x => x.compress && decide (x.engine = 2))).length then
    s.finishLong o.ring o.tag (refuse stBusy)
  else codecBegin o s

/-- COMPRESS (R121, R122). -/
def execCompress (h : Hdr) (source stride tileCols tileRows format planes options coverCh firstTile chain : Nat) (s : State) : Result :=
  .next (hostLong (.compress (unstarted h) source stride tileCols tileRows format planes options coverCh firstTile chain) h
    (cmdOf 0x0100 0) (compressBegin
      { ring := h.ring, tag := h.tag, compress := true, engine := 2, source := source, stride := stride, tileCols := tileCols,
        tileRows := tileRows, format := format, planes := planes, options := options, coverCh := coverCh, firstTile := firstTile,
        chain := chain, kind := 0, layer := 0, dest := 0
        run := { CodeRun.reset with pos := { desc := chain, used := 0 }, index := firstTile } }) s)

/-- COMPRESS_DONE (R122, R126, R128): so many more tiles are done, or the whole stream. While throttling stops the compressor, none is. -/
def execCompressDone (o : OpRef) (s : State) : Result :=
  .next (withStep o 0x0100 (fun _ s =>
    match codecOp s o.ring o.tag with
    | none => s
    | some x => if x.engine = 2 ∨ s.thermal.throttle then s else compressSome x (o.reach.getD (x.total - x.run.index)) s) s)

/-- An ABORT of a codec operation. -/
def codecAbort (o : CodecOp) (s : State) : State :=
  if o.compress then compressEnd o stAborted s else (dropCodec o s).finishLong o.ring o.tag (refuse stAborted)

/-! ## DECOMPRESS_TEST (R129) -/

/-- What the test decode met: status, CRC, row, stream offset, and the bytes for DEST when every pixel was produced. -/
structure TestOut where
  status : Nat
  crc : Option Nat
  row : Nat
  offset : Nat
  bytes : Option (List Byte)
deriving DecidableEq, Repr

def testFails (status row offset : Nat) : TestOut := { status := status, crc := none, row := row, offset := offset, bytes := none }

/-- Decode a tile whose header is `h`; `bad g` says that a byte of group g is poisoned. An EMPTY tile whose CRC field is not 0 answers
CODEC_CRC, its computed CRC being 0, and a failing header or CRC names row 0 and offset 0 (DESIGN CHOICE, log 85). -/
def testDecode (h : List Byte) (bad : Nat → Bool) (group : Nat → List Byte) (maskBad : Bool) (mask : List Byte) : TestOut :=
  match headerError h with
  | some e => testFails e.status 0 0
  | none =>
    let out := decodeTile h group
    let poisoned := if tileEmpty h then none else (List.range 8).find? bad
    let firstErr := match poisoned, out.err with
      | some g, some (e, row, o) => if 8 * g ≤ row then some (stDataUe, 8 * g, groupStart h g) else some (e.status, row, o)
      | some g, none => some (stDataUe, 8 * g, groupStart h g)
      | none, some (e, row, o) => some (e.status, row, o)
      | none, none => none
    match firstErr with
    | some (st, row, o) => testFails st row o
    | none =>
      if tileCover h = 2 ∧ maskBad then testFails stDataUe 0 0
      else
        let m := if tileCover h = 2 then mask else []
        let crc := if tileEmpty h then 0 else contentCrc h out.pixels m
        { status := if crc = tileCrc h then stOk else stCrc, crc := some crc, row := 0, offset := 0, bytes := some (out.pixels ++ m) }

/-- Any burst of a stored frame from byte offset `o` on is poisoned. -/
def frameBad (s : State) (h o n : Nat) : Bool :=
  n ≠ 0 && (List.range ((o + n - 1) / 64 - o / 64 + 1)).any (fun i => s.burstPoisoned (framePhys s.dram.cfg.config h (64 * (o / 64 + i))))

/-- Where group g of a stored tile lies in its frame (R45). -/
def groupPlace (layer : Nat) (h : List Byte) (g : Nat) : Nat := if layer = 0 then 32 + groupStart h g else 2048 * g

def testFrame (s : State) (handle layer : Nat) : TestOut :=
  if s.burstPoisoned (framePhys s.dram.cfg.config handle (headerAt layer)) then testFails stDataUe 0 0
  else
    let h := s.frameRead handle (headerAt layer) 32
    testDecode h (fun g => frameBad s handle (groupPlace layer h g) (groupEnd h g - groupStart h g))
      (fun g => s.frameRead handle (groupPlace layer h g) (groupEnd h g - groupStart h g))
      (frameBad s handle 18432 2048) (s.frameRead handle 18432 2048)

def testHost (s : State) (source : Nat) : TestOut :=
  if (s.dmaBad source 32).isSome then testFails stDataUe 0 0
  else
    let h := s.dmaRead source 32
    let at_ (g : Nat) : Nat := source + 32 + groupStart h g
    testDecode h (fun g => (s.dmaBad (at_ g) (groupEnd h g - groupStart h g)).isSome)
      (fun g => s.dmaRead (at_ g) (groupEnd h g - groupStart h g))
      (s.dmaBad (source + 32 + tileLength h) 2048).isSome (s.dmaRead (source + 32 + tileLength h) 2048)

def testBegin (o : CodecOp) (s : State) : State :=
  if 1 < o.kind ∨ 1 < o.layer ∨ (o.kind = 1 ∧ o.source ∉ s.store.frames) then s.finishLong o.ring o.tag (refuse stBadParam)
  else codecBegin o s

/-- DECOMPRESS_TEST (R129). -/
def execDecompressTest (h : Hdr) (kind layer source dest : Nat) (s : State) : Result :=
  .next (hostLong (.decompressTest (unstarted h) kind layer source dest) h (cmdOf 0x0101 0) (testBegin
    { ring := h.ring, tag := h.tag, compress := false, engine := 2, source := source, stride := 0, tileCols := 0, tileRows := 0,
      format := 0, planes := 0, options := 0, coverCh := 0, firstTile := 0, chain := 0, kind := kind, layer := layer, dest := dest,
      run := CodeRun.reset }) s)

/-- The test decode ends. Of a tile that was not decoded to its end the CRC is a free value. -/
def testEnd (o : CodecOp) (s : State) : State :=
  let s := if o.kind = 1 then s.share [(handlePage o.source).subch] else s
  let out := if o.kind = 1 then testFrame s o.source o.layer else testHost s o.source
  let (crc, s) := match out.crc with
    | some c => (c, s)
    | none => s.draw (2 ^ 32)
  let s := if out.status ≠ stDataUe then s
    else if o.kind = 1 then s.count 21
    else s.dmaFault ((s.dmaBad o.source (32 + tileLength (s.dmaRead o.source 32) + 2048)).getD o.source)
  let s := match out.bytes with
    | some bs => if o.dest = 0 then s else s.dmaWrite o.dest bs
    | none => s
  (dropCodec o s).finishLong o.ring o.tag
    (answer out.status (leBytes 4 crc ++ leBytes 2 out.row ++ [0, 0] ++ leBytes 4 out.offset))

/-- DECOMPRESS_TEST_DONE (R129). -/
def execDecompressTestDone (o : OpRef) (s : State) : Result :=
  .next (withOp o 0x0101 (fun s =>
    match codecOp s o.ring o.tag with
    | none => s
    | some x => if x.engine = 2 ∨ s.thermal.throttle then s else testEnd x s) s)

end Sys2Proof.Machine
end

