-- ==== Sys2Proof/Machine/Camera.lean ====
section
/-! DEFINITION. Machine/Camera.lean: the camera ports and the image pipeline (R248 to R267). -/

namespace Sys2Proof.Machine

open Sys2Proof

/-- The context a port has or is about to have, none once DISABLE has been accepted. -/
def CamPort.enabled (p : CamPort) : Option CamContext := if p.next.isSome then p.next else if p.disabling then none else p.ctx

/-- Camera packets reach a port while PD10 is in full operation (R435, R436). -/
def cameraPowered (s : State) (port : Nat) : Bool := decide (port ≤ 1) && bit s.boot.domainsReady 10

/-- PD10 goes off after the last context has been disabled and its open frame has closed (R435). -/
def cameraPower (s : State) : State :=
  if s.cams.any (fun e => e.2.ctx.isSome || e.2.next.isSome || e.2.closing ≠ []) then s
  else s.withBoot { s.boot with domains := setBit s.boot.domains 10 false, domainsReady := setBit s.boot.domainsReady 10 false }

/-! ## Context records (R251, R252) -/

/-- A list of numbers of `w` bytes. -/
def wordsOf (w : Nat) : Nat → List Byte → List Nat
  | 0, _ => []
  | n + 1, bs => leNat (bs.take w) :: wordsOf w n (bs.drop w)

/-- The context a record states, with its tables. -/
def camContext (r : List Byte) (lut flat : List Nat) : CamContext :=
  { lanes := field r 0 1, dataType := field r 1 1, cfa := field r 2 1, exposures := field r 3 1, vcBase := field r 4 1,
    priority := field r 5 1, outputs := field r 6 1, scaleA := bits (field r 7 1) 0 4, scaleB := bits (field r 7 1) 4 4,
    pixels := field r 8 2, visLines := field r 10 2, frameLines := field r 12 4, linePeriod := field r 16 4, latency := field r 20 4,
    camDist := field r 24 8, col0 := fieldInt r 32 4, pitch := field r 36 4, sat := field r 40 2, ratio1 := field r 42 2,
    ratio2 := field r 44 2, matrix := (List.range 9).map (fun i => fieldInt r (48 + 2 * i) 2),
    white := (field r 68 4, field r 72 4, field r 76 4), lut := lut, flat := flat, ringAddr := field r 96 8,
    ringSize := field r 104 4, chain := field r 112 8,
    roi := (List.range 4).map (fun i => (field r (128 + 16 * i) 2, field r (130 + 16 * i) 2, field r (132 + 16 * i) 4,
      field r (136 + 16 * i) 4)) }

/-- Reserved bytes of the record. -/
def contextRsv (r : List Byte) : Bool :=
  [(46, 2), (66, 2), (108, 4), (120, 8), (140, 4), (156, 4), (172, 4), (188, 4), (192, 64)].any (fun x =>
    (List.range x.2).any (fun i => decide (field r (x.1 + i) 1 ≠ 0)))

/-- Boxes of the display image across and along the web (R260, R266). -/
def CamContext.dispCols (c : CamContext) : Nat := ceilDiv c.pixels (2 ^ c.scaleA)
def CamContext.dispRows (c : CamContext) : Nat := ceilDiv c.frameLines (2 ^ c.scaleB)
def CamContext.dispBytes (c : CamContext) : Nat := if bit c.outputs 0 then c.dispCols * c.dispRows * 3 else 0

/-- Bytes of a frame slot, and slots of the ring (R266). -/
def CamContext.slotBytes (c : CamContext) : Nat := 4096 * ceilDiv (21568 + c.dispBytes) 4096
def CamContext.slots (c : CamContext) : Nat := c.ringSize / c.slotBytes

/-- Every field in its range (R251), the rate bound and the ring (R252). -/
def CamContext.ok (c : CamContext) : Bool :=
  decide (1 ≤ c.lanes ∧ c.lanes ≤ 4 ∧ c.dataType ≤ 2 ∧ c.cfa ≤ 2 ∧ (c.dataType = 2 ↔ c.cfa = 2) ∧ 1 ≤ c.exposures ∧ c.exposures ≤ 3
      ∧ c.vcBase + c.exposures ≤ 4 ∧ c.priority ≤ 1 ∧ c.outputs < 8 ∧ c.scaleA ≤ 4 ∧ c.scaleB ≤ 4)
    && decide (256 ≤ c.pixels ∧ c.pixels ≤ 16384 ∧ c.pixels % 16 = 0 ∧ 16 ≤ c.visLines ∧ c.visLines ≤ 1024 ∧ 256 ≤ c.frameLines
      ∧ c.frameLines ≤ 65536 ∧ 27778 ≤ c.linePeriod ∧ c.linePeriod ≤ 1000000 ∧ c.latency ≤ 1000000)
    && decide (c.ringAddr % 4096 = 0 ∧ c.ringSize % 4096 = 0 ∧ 2 ≤ c.slots ∧ c.dispBytes ≤ 67108864)
    && c.roi.all (fun x => decide (x.2.1 ≤ 4096))
    && decide (c.pixels * c.exposures * 1000 ≤ (if c.priority = 0 then 625 else 1250) * c.linePeriod)

/-- The other port's context, in force or to come, has the same PRIORITY. -/
def priorityTaken (s : State) (port : Nat) (c : CamContext) : Bool :=
  let p := s.cam (1 - port)
  ([p.ctx, p.next].filterMap id).any (fun d => decide (d.priority = c.priority))

/-! ## CAM_CONFIG (R250) -/

/-- Read a context: the record and its tables, or the first address whose read fails. -/
def readContext (s : State) (record : Nat) : CamContext × Bool × Option Nat :=
  let r := s.dmaRead record 256
  let lutAt := field r 80 8
  let flatAt := field r 88 8
  let n := field r 8 2
  (camContext r (wordsOf 2 12288 (s.dmaRead lutAt 24576)) (wordsOf 2 (6 * n) (s.dmaRead flatAt (12 * n))), contextRsv r,
    match s.dmaBad record 256 with
    | some a => some a
    | none => match s.dmaBad lutAt 24576 with
      | some a => some a
      | none => s.dmaBad flatAt (12 * n))

/-- Engine 1 runs a COMPRESS. -/
def engine1Busy (s : State) : Bool := s.store.codec.any (fun o => o.compress && decide (o.engine = 1))

def camEnableBody (h : Hdr) (port record : Nat) (orphan : Bool) (s : State) : State × Option Answer :=
  if 1 < port then (s, some (refuse stBadParam))
  else
    let (c, rsv, bad) := readContext s record
    match bad with
    | some a => (s.dmaFault a, some (refuse stDataUe))
    | none =>
      if rsv ∨ !c.ok ∨ priorityTaken s port c then (s, some (refuse stBadParam))
      else if bit c.outputs 1 ∧ engine1Busy s then (s, some (refuse stBusy))
      else
        let p := s.cam port
        let result := leBytes 4 p.frames
        let s := giveEngines 2 (s.withCam port { p with next := some c, disabling := false })
        let s := s.withBoot { s.boot with domains := setBit s.boot.domains 10 true }
        if bit s.boot.domainsReady 10 then (s, some (answer stOk result))
        else (s.addWait orphan h (cmdOf 0x0090 1) (.domain 1024 result), none)

/-- CAM_CONFIG ENABLE (R250 to R252): it waits until PD10 is ready (R436). -/
def execCamConfigEnable (h : Hdr) (port record : Nat) (s : State) : Result :=
  .next (hostWait (.camConfigEnable (unstarted h) port record) h (cmdOf 0x0090 1) (camEnableBody h port record) s)

def camDisableBody (port : Nat) (s : State) : State × Answer :=
  if 1 < port then (s, refuse stBadParam)
  else
    let p := s.cam port
    if p.frame.isSome then (s.withCam port { p with next := none, disabling := true }, refuse stOk)
    else (giveEngines 2 (cameraPower (s.withCam port { p with ctx := none, next := none, disabling := false })), refuse stOk)

/-- CAM_CONFIG DISABLE (R250). -/
def execCamConfigDisable (h : Hdr) (port : Nat) (s : State) : Result :=
  .next (hostCmd (.camConfigDisable (unstarted h) port) h (cmdOf 0x0090 0) (camDisableBody port) s)

/-! ## Print position (R253, R254) -/

/-- The web position, in 1/256 line, of an instant of the time base, where the line clock ran then. -/
def positionAt (s : State) (t : Nat) : Option Int :=
  if !s.web.running ∧ s.web.stoppedAt ≤ t then none
  else match s.web.history.find? (fun x => decide (x.2.1 ≤ t)) with
    | none => none
    | some (n, tn, p) => some ((256 * n + (256 * (t - tn) + p / 2) / max 1 p : Nat) : Int)

/-- The stamp of a packet: the time base, to 2 ns. -/
def camStamp (s : State) : Nat := s.base / (2 * nsT) * (2 * nsT)

/-- The print position of a scan line whose exposure 0 arrives now; none also where it lies below 0. -/
def printPosition (s : State) (c : CamContext) : Option Int :=
  if camStamp s < c.latency * nsT then none
  else match positionAt s (camStamp s - c.latency * nsT) with
    | none => none
    | some w => if w < (c.camDist : Int) then none else some (w - c.camDist)

/-! ## The pipeline (R257) -/

/-- The channels a pixel carries. -/
def CamContext.chans (c : CamContext) (x : Nat) : List Nat :=
  if c.dataType = 2 then [0, 1, 2] else if c.cfa = 1 then [x % 3] else [0]

/-- Input value u of a sample. -/
def CamContext.input (c : CamContext) (v : Nat) : Nat := if c.dataType = 0 then 4 * v else if c.dataType = 1 then v else 16 * v

/-- Stage 1: L of exposure k, pixel x and channel ch. -/
def CamContext.linear (c : CamContext) (l : CamLine) (k x ch : Nat) : Nat :=
  nth 0 c.lut (4096 * ch + c.input (nth 0 (nth [] l.exposures k) (if c.dataType = 2 then 3 * x + ch else x)))

def CamContext.gain (c : CamContext) (k : Nat) : Nat := if k = 0 then 256 else if k = 1 then c.ratio1 else c.ratio2

def max24 : Nat := 2 ^ 24 - 1

/-- Stage 2: the exposures merged. -/
def CamContext.merged (c : CamContext) (l : CamLine) (x ch : Nat) : Nat :=
  let k := ((List.range c.exposures).find? (fun k => decide (c.linear l k x ch < c.sat))).getD (c.exposures - 1)
  min max24 ((c.linear l k x ch * c.gain k + 128) / 256)

/-- Stage 3: dark and flat. -/
def CamContext.corrected (c : CamContext) (l : CamLine) (x ch : Nat) : Nat :=
  let o := 6 * x + 2 * ch
  min max24 (((c.merged l x ch - nth 0 c.flat o) * nth 0 c.flat (o + 1) + 8192) / 16384)

/-- Stage 4: the three channels of pixel x; `v` gives stage 3's values. -/
def CamContext.demosaic (c : CamContext) (v : Nat → Nat → Nat) (x ch : Nat) : Nat :=
  if c.dataType = 2 then v x ch
  else if c.cfa = 0 then v x 0
  else if x % 3 = ch then v x ch
  else
    let ahead := decide ((x + 1) % 3 = ch)
    let near := if ahead then x + 1 else x - 1
    let far := if ahead then x - 2 else x + 2
    let nearIn := if ahead then decide (x + 1 < c.pixels) else decide (1 ≤ x)
    let farIn := if ahead then decide (2 ≤ x) else decide (x + 2 < c.pixels)
    match nearIn, farIn with
    | true, true => (2 * v near ch + v far ch + 1) / 3
    | true, false => v near ch
    | false, _ => v far ch

/-- Stage 5: X, Y or Z (row i of MATRIX). -/
def CamContext.matrixRow (c : CamContext) (i : Nat) (r g b : Nat) : Nat :=
  let m (j : Nat) : Int := nth 0 c.matrix (3 * i + j)
  (clampInt 0 max24 ((m 0 * r + m 1 * g + m 2 * b + 2048) / 4096)).toNat

/-- X, Y and Z of every pixel of a scan line. -/
def CamContext.xyz (c : CamContext) (l : CamLine) : List (Nat × Nat × Nat) :=
  let v := c.corrected l
  (List.range c.pixels).map (fun x =>
    let r := c.demosaic v x 0
    let g := c.demosaic v x 1
    let b := c.demosaic v x 2
    (c.matrixRow 0 r g b, c.matrixRow 1 r g b, c.matrixRow 2 r g b))

/-! ## Statistics (R259) -/

def histLine (c : CamContext) (l : CamLine) (t : Tab Nat) : Tab Nat :=
  (List.range c.exposures).foldl (fun t k => (List.range c.pixels).foldl (fun t x => (c.chans x).foldl (fun t ch =>
    let key := 768 * k + 256 * ch + c.linear l k x ch / 256
    nput t key (nget t key + 1)) t) t) t

def gridKey (c : CamContext) (l : CamLine) (x ch : Nat) : Nat := 1024 * ch + 64 * (16 * l.index / c.frameLines) + 64 * x / c.pixels

def gridLine (c : CamContext) (l : CamLine) (v : Nat → Nat → Nat) (t : Tab Nat) : Tab Nat :=
  (List.range c.pixels).foldl (fun t x => (c.chans x).foldl (fun t ch =>
    nput t (gridKey c l x ch) (nget t (gridKey c l x ch) + v x ch)) t) t

/-! ## Outputs (R260 to R263) -/

def addXyz (a b : Nat × Nat × Nat) : Nat × Nat × Nat := (a.1 + b.1, a.2.1 + b.2.1, a.2.2 + b.2.2)
def divXyz (a : Nat × Nat × Nat) (n : Nat) : Nat × Nat × Nat := (a.1 / n, a.2.1 / n, a.2.2 / n)
def xyzGet (t : Tab (Nat × Nat × Nat)) (k : Nat) : Nat × Nat × Nat := tget (fun _ => (0, 0, 0)) t k
def xyzAdd (t : Tab (Nat × Nat × Nat)) (k : Nat) (v : Nat × Nat × Nat) : Tab (Nat × Nat × Nat) :=
  tput (fun _ => (0, 0, 0)) t k (addXyz (xyzGet t k) v)

/-- The display boxes with one more line. -/
def displayLine (c : CamContext) (l : CamLine) (px : List (Nat × Nat × Nat)) (f : CamFrame) : CamFrame :=
  let key (x : Nat) : Nat := l.index / 2 ^ c.scaleB * c.dispCols + x / 2 ^ c.scaleA
  let xs := List.zip (List.range c.pixels) px
  { f with display := xs.foldl (fun t x => xyzAdd t (key x.1) x.2) f.display
           displayN := xs.foldl (fun t x => nput t (key x.1) (nget t (key x.1) + 1)) f.displayN }

/-- The largest k up to `hi` from `lo` on for which `p` holds, by halving; `p` holds up to some k and not beyond. -/
def searchUp (p : Nat → Bool) : Nat → Nat → Nat → Nat
  | 0, lo, _ => lo
  | n + 1, lo, hi =>
    let mid := (lo + hi + 1) / 2
    if p mid then searchUp p n mid hi else searchUp p n lo (mid - 1)

/-- The 8-bit sRGB code of a linear component n / d: the transfer function of IEC 61966-2-1, rounded. Code k is reached where the component
has the value that k - 1/2 stands for, which is (200 k - 100 + 2805) / 53805 to the power 2.4, or on the linear part (2 k - 1) / 6589.2. -/
def srgbCode (n : Int) (d : Nat) : Nat :=
  let m := n.toNat
  searchUp (fun k => k = 0 || (if k ≤ 10 then decide (10 * (2 * k - 1) * d ≤ 65892 * m)
    else decide ((200 * k + 2705) ^ 12 * d ^ 5 ≤ m ^ 5 * 53805 ^ 12))) 8 0 255

/-- The standard's matrix from XYZ to linear RGB for D65, in 10^-4 (PRESUMED: the standard's figures, log 84). -/
def srgbRows : List (Int × Int × Int) := [(32406, -15372, -4986), (-9689, 18758, 415), (557, -2040, 10570)]

/-- sRGB of X, Y and Z against Yn (R260). Where Yn is 0 the manual states none. -/
def srgbOf (v : Nat × Nat × Nat) (yn : Nat) : List Nat :=
  if yn = 0 then [(Config.srgb v).1 % 256, (Config.srgb v).2.1 % 256, (Config.srgb v).2.2 % 256]
  else srgbRows.map (fun r => srgbCode (r.1 * v.1 + r.2.1 * v.2.1 + r.2.2 * v.2.2) (10000 * yn))

def srgbBytes (c : CamContext) (v : Nat × Nat × Nat) : List Byte := (srgbOf v c.white.2.1).flatMap (leBytes 1)

/-- The cube root of n / d in 2^-24, rounded down, for n up to 2^24 d. -/
def cubeRoot (n d : Nat) : Nat := searchUp (fun k => decide (k ^ 3 * d ≤ n * 2 ^ 72)) 33 0 (2 ^ 32)

/-- The function f of CIE 1976 at n / d, in 2^-24: the cube root above (6 / 29)^3, and 841 / 108 of the argument and 4 / 29 below. -/
def labF (n d : Nat) : Nat :=
  if 216 * d < 24389 * n then cubeRoot n d else (841 * 29 * n + 432 * d) * 2 ^ 24 / (3132 * d)

/-- L*, a* and b* in 1/256 by the formulas of CIE 1976, to the nearest. -/
def labExact (v w : Nat × Nat × Nat) : Int × Int × Int :=
  let x := labF v.1 w.1
  let y := labF v.2.1 w.2.1
  let z := labF v.2.2 w.2.2
  (roundDiv (116 * 256 * y) (2 ^ 24) - 4096, roundDiv (500 * 256 * ((x : Int) - y)) (2 ^ 24), roundDiv (200 * 256 * ((y : Int) - z)) (2 ^ 24))

/-- CIELAB of X, Y and Z against a white (R260): within 2/256 of the formulas. Where the white has a 0 the manual states none. -/
def labOf (v w : Nat × Nat × Nat) : Int × Int × Int :=
  if w.1 = 0 ∨ w.2.1 = 0 ∨ w.2.2 = 0 then Config.labError v w
  else
    let e := Config.labError v w
    let x := labExact v w
    (x.1 + clampInt (-2) 2 e.1, x.2.1 + clampInt (-2) 2 e.2.1, x.2.2 + clampInt (-2) 2 e.2.2)

/-- Device column of a pixel (R262). -/
def CamContext.column (c : CamContext) (x : Nat) : Int := (256 * c.col0 + (x * c.pitch : Nat)) / 65536

/-- The zone of a pixel, where it lies on the device. -/
def CamContext.zone (c : CamContext) (x : Nat) : Option Nat :=
  if 0 ≤ c.column x ∧ c.column x < 110592 then some ((c.column x).toNat / 256) else none

def emptyBlock (seq : Nat) : VisionBlock := { positions := [], sums := [], counts := [], seq := seq }

/-- The block with one more line. -/
def VisionBlock.add (b : VisionBlock) (c : CamContext) (pos : Int) (px : List (Nat × Nat × Nat)) : VisionBlock :=
  let xs := List.zip (List.range c.pixels) px
  { seq := b.seq, positions := b.positions ++ [pos]
    sums := xs.foldl (fun t x => match c.zone x.1 with
      | none => t
      | some z => xyzAdd t z x.2) b.sums
    counts := xs.foldl (fun t x => match c.zone x.1 with
      | none => t
      | some z => nput t z (nget t z + 1)) b.counts }

/-- The zone records of a full block. -/
def VisionBlock.records (b : VisionBlock) (c : CamContext) (port : Nat) : List ZoneRec :=
  b.counts.map (fun e =>
    { port := port, zone := e.1, pos := nth 0 b.positions (c.visLines / 2), pixels := e.2
      lab := labOf (divXyz (xyzGet b.sums e.1) e.2) c.white })

/-- L* of a pixel in units of 100/255 (R263). -/
def windowValue (c : CamContext) (v : Nat × Nat × Nat) : Nat := ((clampInt 0 255 (((labOf v c.white).1 * 255 + 12800) / 25600))).toNat

/-- The window rows of a line. -/
def windowRows (c : CamContext) (i : Nat) (pos : Int) (px : List (Nat × Nat × Nat)) : List WindowRow :=
  ((List.zip (List.range 4) c.roi).filter (fun (x : Nat × Nat × Nat × Nat × Nat) =>
      decide (0 < x.2.2.1 ∧ x.2.2.2.1 ≤ i ∧ i < x.2.2.2.1 + x.2.2.2.2))).map (fun x =>
    { roi := x.1, pos := pos, first := 256 * c.col0 + (x.2.1 * c.pitch : Nat), pitch := c.pitch, vals := ((px.drop x.2.1).take x.2.2.1).map (windowValue c) })

/-- Bytes in use in a port's 4-MB vision ring. -/
def CamPort.visionUsed (p : CamPort) : Nat :=
  p.vision.length * Config.visionBytes 0 + (p.windows.map (fun r => Config.visionBytes r.vals.length)).sum

def visionRing : Nat := 4194304

/-- The frame of a line. -/
def CamPort.frameOf (p : CamPort) (seq : Nat) : Option CamFrame := (p.frame.toList ++ p.closing).find? (fun f => decide (f.seq = seq))

/-- A record goes into the vision ring, or is dropped where firmware has freed no room for it. -/
def putRecord (port seq : Nat) (s : State) (r : ZoneRec) : State :=
  let p := s.cam port
  if visionRing < p.visionUsed + Config.visionBytes 0 then frameFlag port seq 8 (s.count (camCounter port 7))
  else s.withCam port { p with vision := p.vision ++ [r] }

def putRow (port seq : Nat) (s : State) (r : WindowRow) : State :=
  let p := s.cam port
  if visionRing < p.visionUsed + Config.visionBytes r.vals.length then frameFlag port seq 8 (s.count (camCounter port 7))
  else s.withCam port { p with windows := p.windows ++ [r] }

/-- The vision output of one line that has a print position. -/
def visionLine (port : Nat) (c : CamContext) (l : CamLine) (px : List (Nat × Nat × Nat)) (s : State) : State :=
  match l.pos with
  | none => s
  | some pos =>
    let old := (s.cam port).block
    let b := (if old.seq = l.seq then old else emptyBlock l.seq).add c pos px
    let full := decide (c.visLines ≤ b.positions.length)
    let s := s.withCam port { s.cam port with block := if full then emptyBlock l.seq else b }
    let s := if full then (b.records c port).foldl (putRecord port l.seq) s else s
    (windowRows c l.index pos px).foldl (putRow port l.seq) s

/-! ## Staging and coding (R264, R265) -/

def stagingSize : Nat := 4194304

/-- The panic signal follows the level of the staging queue. -/
def CamPort.setStaging (p : CamPort) (n : Nat) : CamPort :=
  { p with staging := n, panic := if 3 * stagingSize ≤ 4 * n then true else if 4 * n ≤ stagingSize then false else p.panic }

/-- A plane of the tile at a row and column of a frame that is coded; what the frame lacks is 0. -/
def CodeJob.tile (j : CodeJob) (plane row col : Nat) : TileIn :=
  { pixels := (List.range 64).flatMap (fun r =>
      let line := tget (fun _ => []) j.rows (64 * row + r)
      (List.range 256).map (fun x => nth 0 line (3 * (256 * col + x) + plane)))
    mask := none }

/-- The chain has no room for the next tile: the descriptor without NEXT_VALID is closed with FINAL, those before it as full (R264). -/
def endChain : Nat → ChainPos → State → State
  | 0, p, s => closeBuffer p 2 s
  | n + 1, p, s =>
    if (chainBad s p.desc).isNone ∧ bit (chainFlags s p.desc) 0 then
      endChain n { desc := chainNext s p.desc, used := 0 } (closeBuffer p 1 s)
    else closeBuffer p 2 s

/-- A tile goes into the port's chain; where it does not fit the chain has ended. -/
def codeTile (port chain : Nat) (s : State) (t : TileIn) : State :=
  match tget (fun _ => none) (s.cam port).chains chain with
  | none => s
  | some pos =>
    let (t, how) := encodeOne s.store.tilesDone t
    let bytes := padTile t
    let set (x : Option ChainPos) (s : State) : State :=
      s.withCam port { s.cam port with chains := tput (fun _ => none) (s.cam port).chains chain x }
    match chainRoom s chainSteps pos bytes.length with
    | some st => set none (endChain (if st = stNoResource then chainSteps else 0) pos s)
    | none =>
      let (s, pos) := chainPut id chainSteps pos bytes (noteTile (some port) how s)
      set (some pos) s

/-- One frame is coded: three planes of tiles. -/
def codeFrame (port : Nat) (s : State) (j : CodeJob) : State :=
  (List.range 3).foldl (fun s plane => (List.range j.tileRows).foldl (fun s row =>
    (List.range (ceilDiv j.pixels 256)).foldl (fun s col => codeTile port j.chain s (j.tile plane row col)) s) s) s

/-- The compressor takes what waits for it, unless throttling stops it; the staging queue empties. -/
def drainCode (port : Nat) (s : State) : State :=
  if s.thermal.throttle then s
  else
    let jobs := (s.cam port).codeWait
    let s := jobs.foldl (codeFrame port) s
    s.withCam port ({ s.cam port with codeWait := [], staged := [] }.setStaging 0)

/-- The staging queue of a port in the reserved region (R265, R289), whose accesses are of its class of the dynamic share. -/
def shareStaging (port : Nat) (s : State) : State :=
  s.share (spanSubs s (reservedBase s.dram.cfg.config + 0x07000000 + stagingSize * port) stagingSize)

/-- THROTTLE_OFF (R431): T_J has stayed below 102.0 °C for 1 s. The compressor takes what has waited in the staging queues (R264, R265). -/
def execThrottleOff (t : Nat) (s : State) : Result :=
  let s := s.at t
  .next (match s.thermal.belowSince with
    | none => s
    | some a => if s.thermal.throttle ∧ a + secT ≤ s.clk.elapsed then
        giveEngines 2 (drainCode 1 (drainCode 0
          ((s.withThermal { s.thermal with throttle := false, belowSince := none }).report 0x7004 (logKey none none none none) 0 [])))
      else s)

/-- Does a line's display or coding data find no room in the staging queue, or are they lost in it (R304)? Coding lines stay there while the
compressor stands. -/
def stagingFull (s : State) (port bytes : Nat) : Bool := (s.cam port).lineLost || decide (stagingSize < (s.cam port).staging + bytes)

/-! ## CAM_CAPTURE's lines (R267) -/

def captureLineBytes (c : CamContext) (stage : Nat) : Nat :=
  if stage = 0 then 2 * c.exposures * c.pixels * (if c.dataType = 2 then 3 else 1) else if stage = 1 then 12 * c.pixels else 3 * c.pixels

def captureLine (c : CamContext) (l : CamLine) (px : List (Nat × Nat × Nat)) (stage : Nat) : List Byte :=
  match stage with
  | 0 => (List.range c.exposures).flatMap (fun k => (List.range c.pixels).flatMap (fun x =>
      (c.chans x).flatMap (fun ch => leBytes 2 (c.linear l k x ch))))
  | 1 => px.flatMap (fun v => leBytes 4 v.1 ++ leBytes 4 v.2.1 ++ leBytes 4 v.2.2)
  | _ => px.flatMap (srgbBytes c)

/-- Change the captures of a port. -/
def updCaptures (port : Nat) (f : CamCapture → CamCapture) (s : State) : State :=
  s.withCam port { s.cam port with captures := (s.cam port).captures.map f }

/-- One line for a capture of the open frame. -/
def takeCapture (port : Nat) (c : CamContext) (l : CamLine) (px : List (Nat × Nat × Nat)) (full : Bool) (s : State) (x : CamCapture) : State :=
  if x.seq ≠ some l.seq then s
  else if full then updCaptures port (fun y => if y = x then { y with dropped := y.dropped + 1 } else y) s
  else (s.dmaWrite (x.dest + l.index * captureLineBytes c x.stage) (captureLine c l px x.stage)).progressTo x.ring x.tag (min l.index 65535)

/-! ## A scan line in the pipeline -/

/-- A scan line passes through the pipeline to the statistics and the outputs. -/
def processLine (port : Nat) (c : CamContext) (l : CamLine) (s : State) : State :=
  let px := c.xyz l
  let v := c.corrected l
  let s := withFrame port l.seq (fun f => { f with
    hist := histLine c l f.hist
    gridSum := gridLine c l v f.gridSum
    gridCount := gridLine c l (fun _ _ => 1) f.gridCount
    flags := if s.thermal.throttle then setBit f.flags 10 true else f.flags }) s
  let s := drainCode port s
  let full := stagingFull s port (3 * c.pixels)
  let s := s.withCam port { s.cam port with lineLost := (s.cam port).lineLost && decide (bits c.outputs 0 2 = 0) }
  let s := if bits c.outputs 0 2 = 0 ∨ full then s else shareStaging port s
  let s := if !bit c.outputs 0 then s
    else if full then frameFlag port l.seq 6 (s.count (camCounter port 8))
    else withFrame port l.seq (displayLine c l px) s
  let s := if !bit c.outputs 1 then s
    else if full then frameFlag port l.seq 7 (s.count (camCounter port 9))
    else
      let s := withFrame port l.seq (fun f => { f with coded := tput (fun _ => []) f.coded l.index (px.flatMap (srgbBytes c)) }) s
      if s.thermal.throttle then
        let p := s.cam port
        s.withCam port ({ p with staged := p.staged ++ [(l.seq, l.index)] }.setStaging (p.staging + 3 * c.pixels))
      else s
  let s := if bit c.outputs 2 then visionLine port c l px s else s
  (s.cam port).captures.foldl (takeCapture port c l px full) s

/-! ## Frames (R255, R256, R266) -/

/-- The frame record (R256). -/
def camRecord (port : Nat) (c : CamContext) (f : CamFrame) : List Byte :=
  let pos (p : Option Int) : List Byte := match p with
    | none => List.replicate 8 0xFF
    | some x => leBytes 8 x.toNat
  leBytes 4 f.seq ++ leBytes 1 port ++ [0] ++ leBytes 2 f.flags ++ leBytes 4 c.frameLines ++ leBytes 4 f.kept ++ leBytes 4 f.excess
    ++ leBytes 4 f.lost ++ leBytes 4 f.errors ++ leBytes 2 f.csiFrame ++ [0, 0] ++ pos f.firstPos ++ pos f.lastPos
    ++ leBytes 8 (taiSec f.stamp) ++ leBytes 4 (taiNs f.stamp) ++ leBytes 4 f.seq

/-- The display image: the mean of each box (R260). -/
def displayImage (c : CamContext) (f : CamFrame) : List Byte :=
  (List.range (c.dispCols * c.dispRows)).flatMap (fun k =>
    let n := nget f.displayN k
    if n = 0 then [0, 0, 0] else srgbBytes c (divXyz (xyzGet f.display k) n))

/-- A frame's slot in the ring (R266). -/
def writeSlot (port : Nat) (c : CamContext) (f : CamFrame) (s : State) : State :=
  let a := c.ringAddr + f.seq % max 1 c.slots * c.slotBytes
  let s := s.dmaWrite a ((camRecord port c f).take 60)
  let s := s.dmaWrite (a + 64) ((List.range 2304).flatMap (fun k => leBytes 4 (nget f.hist k)))
  let s := s.dmaWrite (a + 9280) ((List.range 3072).flatMap (fun k =>
    leBytes 4 (if nget f.gridCount k = 0 then 0 else nget f.gridSum k / nget f.gridCount k)))
  let s := if bit c.outputs 0 then s.dmaWrite (a + 21568) (displayImage c f) else s
  s.dmaWrite (a + 60) (leBytes 4 f.seq)

/-- An incomplete scan line: an exposure of it has not arrived, and it is dropped. -/
def dropPart (port : Nat) (s : State) : State :=
  let p := s.cam port
  match p.part, p.frame with
  | some _, some f =>
    let s := s.withCam port { p with part := none, badLine := false }
    if f.ctx.frameLines ≤ f.seen then
      withFrame port f.seq (fun f => { f with seen := f.seen + 1, excess := f.excess + 1 }) (s.count (camCounter port 5))
    else withFrame port f.seq (fun f => { f with seen := f.seen + 1, errors := f.errors + 1, flags := setBit f.flags 5 true }) s
  | _, _ => s

/-- A frame that has closed, and whose last line has passed the pipeline, ends: its tiles go to the compressor, its slot is written, and
CAM_FRAME is raised. The flags by count stand beside that of the event that closed it. -/
def finishFrame (port : Nat) (f : CamFrame) (s : State) : State :=
  let c := f.ctx
  let job : CodeJob := { seq := f.seq, pixels := c.pixels, tileRows := ceilDiv c.frameLines 64, chain := f.installed, rows := f.coded }
  let open_ (s : State) : Bool := bit c.outputs 1 && (tget (fun _ => none) (s.cam port).chains f.installed).isSome
  let p := s.cam port
  let coded := open_ s
  let s := s.withCam port { p with closing := p.closing.filter (fun x => decide (x.seq ≠ f.seq)),
                                   codeWait := if coded then p.codeWait ++ [job] else p.codeWait }
  let s := drainCode port s
  let flags := if f.seen < c.frameLines then setBit f.flags 0 true else if c.frameLines < f.seen then setBit f.flags 1 true else f.flags
  let flags := match f.why with
    | none => flags
    | some i => setBit flags i true
  let f := { f with flags := if bit c.outputs 1 && !open_ s then setBit flags 7 true else flags }
  let s := writeSlot port c f s
  let s := updCaptures port (fun x => if x.seq = some f.seq then { x with closed := some (decide (f.why = some 2)) } else x) s
  let s := (s.count (camCounter port 10)).raise 12
  if f.why = some 2 then (s.count (camCounter port 11)).report 0x4001 (logKey none none (some port) none) 0 [] else s

/-- Frames that have closed end, oldest first, once no line of theirs waits. -/
def finishFrames (port : Nat) : Nat → State → State
  | 0, s => s
  | n + 1, s =>
    match (s.cam port).closing with
    | [] => s
    | f :: _ =>
      if (s.cam port).lineBuf.any (fun l => decide (l.seq = f.seq)) then s
      else finishFrames port n (finishFrame port f s)

/-- A port's frames end as far as their lines have passed; after its context's last one PD10 and engine 1 may go. -/
def settleFrames (port : Nat) (s : State) : State :=
  let s := finishFrames port (s.cam port).closing.length s
  if (s.cam port).ctx.isNone then giveEngines 2 (cameraPower s) else s

/-- The next buffered line of a port enters the pipeline. -/
def takeLine (port : Nat) (s : State) : State :=
  let p := s.cam port
  match p.lineBuf with
  | [] => s
  | l :: rest =>
    let s := s.withCam port { p with lineBuf := rest }
    match p.frameOf l.seq with
    | none => s
    | some f => settleFrames port (processLine port f.ctx l s)

/-- PRIORITY of the context of the line that a port presents, none where none waits. -/
def linePriority (s : State) (port : Nat) : Option Nat :=
  match (s.cam port).lineBuf with
  | [] => none
  | l :: _ => ((s.cam port).frameOf l.seq).map (·.ctx.priority)

/-- CAM_LINE_PIPELINE (R261): the HIGH context's line goes first. -/
def execCamLinePipeline (t : Nat) (s : State) : Result :=
  let s := s.at t
  let first := if linePriority s 1 = some 0 then 1 else 0
  .next (if (s.cam first).lineBuf ≠ [] then takeLine first s else takeLine (1 - first) s)

/-- The frame closes with flag `why` (2 TIMEOUT, 3 NO_FE); it ends when its lines have passed the pipeline. A DISABLE takes effect. -/
def closeFrame (port : Nat) (why : Option Nat) (s : State) : State :=
  let s := dropPart port s
  let p := s.cam port
  match p.frame with
  | none => s
  | some f =>
    settleFrames port (s.withCam port { p with
      frame := none, closing := p.closing ++ [{ f with why := why }],
      ctx := if p.disabling then none else p.ctx, disabling := false })

/-- Does a print position lie in a page treated as declared, whose feed blocks stand in the ring (R278)? -/
def declaredAt (s : State) (pos : Int) : Bool :=
  s.keep.feed.any (fun e => match e.2 with
    | none => false
    | some f => f.pattern.isSome && decide (((256 * (f.page + 64 * f.block) : Nat) : Int) ≤ pos
        ∧ pos < ((256 * (f.page + 64 * f.block + f.lines) : Nat) : Int)))

/-- The firmware reads the window rows of a port, keeping those of declared pages while their feed blocks stand in the ring (log 69). -/
def readRows (port : Nat) (s : State) : State :=
  let p := s.cam port
  let rows := (s.keep.rows ++ p.windows).filter (fun r => declaredAt s r.pos)
  (s.withCam port { p with windows := [] }).withKeep { s.keep with rows := rows }

/-- A frame opens. The window rows of the port's frames before have been read by now. -/
def openFrame (port number : Nat) (c : CamContext) (s : State) : State :=
  let s := readRows port s
  let p := s.cam port
  let f : CamFrame :=
    { seq := p.frames % 2 ^ 32, ctx := c, installed := p.installed, why := none, csiFrame := number, openedAt := s.clk.elapsed,
      stamp := camStamp s, seen := 0, kept := 0, excess := 0, lost := 0, errors := 0, flags := if s.thermal.throttle then 1024 else 0,
      firstPos := none, lastPos := none, hist := [], gridSum := [], gridCount := [], display := [], displayN := [], coded := [] }
  let s := s.withCam port { p with frame := some f, frames := p.frames + 1, part := none, badLine := false }
  updCaptures port (fun x => if x.seq = none then { x with seq := some f.seq } else x) s

/-- The context that waits takes effect, with its own chain. -/
def installContext (port : Nat) (s : State) : State :=
  let p := s.cam port
  match p.next with
  | none => s
  | some c =>
    let n := p.installed + 1
    let pos : Option ChainPos := if bit c.outputs 1 then some { desc := c.chain, used := 0 } else none
    giveEngines 2 (s.withCam port { p with ctx := some c, next := none, installed := n, chains := tput (fun _ => none) p.chains n pos })

/-- Frame starts reach a port on the virtual channel of exposure 0; a context that waits takes effect first. -/
def frameStart (port vc number : Nat) (s : State) : State :=
  let p := s.cam port
  match p.ctx, p.next with
  | none, none => s.count (camCounter port 0)
  | old, new =>
    let isBase (c : Option CamContext) : Bool := match c with
      | none => false
      | some c => decide (c.vcBase = vc)
    if !isBase old && !isBase new then s
    else
      let s := if p.frame.isSome then closeFrame port (some 3) s else s
      let s := installContext port s
      match (s.cam port).ctx with
      | none => s
      | some c => if c.vcBase = vc then openFrame port number c s else s

/-- CSI2_FRAME_START (R250, R255). -/
def execCsi2FrameStart (port vc number t : Nat) (s : State) : Result :=
  let s := s.at t
  .next (if cameraPowered s port then frameStart port vc number s else s)

/-- CSI2_FRAME_END (R255). -/
def execCsi2FrameEnd (port vc t : Nat) (s : State) : Result :=
  let s := s.at t
  if !cameraPowered s port then .next s
  else match (s.cam port).ctx with
    | none => .next (s.count (camCounter port 0))
    | some c => .next (if vc = c.vcBase ∧ (s.cam port).frame.isSome then closeFrame port none s else s)

/-- CAM_FRAME_TIMEOUT (R255): no FE within 2 × FRAME_LINES × LINE_PERIOD. -/
def execCamFrameTimeout (port t : Nat) (s : State) : Result :=
  let s := s.at t
  match (s.cam port).ctx, (s.cam port).frame with
  | some c, some f =>
    .next (if cameraPowered s port ∧ f.openedAt + 2 * c.frameLines * c.linePeriod * nsT ≤ s.clk.elapsed then closeFrame port (some 2) s else s)
  | _, _ => .next s

/-! ## Packets (R248, R249) -/

/-- CSI2_SHORT_PACKET (R248): line starts (2) and line ends (3) are accepted and ignored, generic short packets discarded. -/
def execCsi2ShortPacket (port _vc dataType : Nat) (headerOk : Bool) (t : Nat) (s : State) : Result :=
  let s := s.at t
  .next (if !cameraPowered s port then s
    else if !headerOk then s.count (camCounter port 1)
    else if dataType = 2 ∨ dataType = 3 then s
    else s.count (camCounter port 0))

/-- The CSI-2 code of DATA_TYPE, and the word count of a line. -/
def CamContext.typeCode (c : CamContext) : Nat := if c.dataType = 0 then 0x2B else if c.dataType = 1 then 0x2C else 0x24
def CamContext.lineWords (c : CamContext) : Nat :=
  if c.dataType = 0 then c.pixels * 5 / 4 else if c.dataType = 1 then c.pixels * 3 / 2 else 3 * c.pixels

/-- A scan line has arrived with all its exposures (R255, R261). -/
def completeLine (port : Nat) (c : CamContext) (s : State) : State :=
  let p := s.cam port
  match p.part, p.frame with
  | some l, some f =>
    if l.exposures.length < c.exposures then s
    else
      let s := s.withCam port { p with part := none, badLine := false }
      let seen := f.seen + 1
      if c.frameLines ≤ f.seen then
        withFrame port f.seq (fun f => { f with seen := seen, excess := f.excess + 1 }) (s.count (camCounter port 5))
      else if p.badLine then withFrame port f.seq (fun f => { f with seen := seen, errors := f.errors + 1, flags := setBit f.flags 5 true }) s
      else
        let l := { l with index := f.kept, seq := f.seq }
        let flags := if l.pos.isNone then setBit f.flags 9 true else f.flags
        let f := { f with seen := seen, kept := f.kept + 1, flags := flags
                          firstPos := if f.firstPos.isSome then f.firstPos else l.pos
                          lastPos := if l.pos.isSome then l.pos else f.lastPos }
        if c.priority = 1 ∧ 16 ≤ p.lineBuf.length then
          (s.withCam port { s.cam port with frame := some { f with lost := f.lost + 1, flags := setBit f.flags 4 true } }).count (camCounter port 6)
        else s.withCam port { s.cam port with frame := some f, lineBuf := p.lineBuf ++ [l] }
  | _, _ => s

/-- A packet of an accepted type on an accepted virtual channel: exposure k of a scan line. Its checks are counted whether or not a frame is
open. -/
def takeExposure (port : Nat) (c : CamContext) (k wordCount : Nat) (pixels : List Nat) (crcOk : Bool) (s : State) : State :=
  let good := crcOk && decide (wordCount = c.lineWords)
  let s := if !crcOk then s.count (camCounter port 2) else if wordCount ≠ c.lineWords then s.count (camCounter port 3) else s
  if (s.cam port).frame.isNone then (if k = 0 then s.count (camCounter port 4) else s)
  else if k = 0 then
    let s := dropPart port s
    completeLine port c (s.withCam port { s.cam port with
      part := some { index := 0, seq := 0, exposures := [pixels], pos := printPosition s c }, badLine := !good })
  else match (s.cam port).part with
    | none => s
    | some l =>
      if l.exposures.length ≠ k then s
      else completeLine port c (s.withCam port { s.cam port with
        part := some { l with exposures := l.exposures ++ [pixels] }, badLine := (s.cam port).badLine || !good })

/-- CSI2_LONG_PACKET (R248, R249). -/
def execCsi2LongPacket (port vc dataType wordCount : Nat) (pixels : List Nat) (crcOk headerOk : Bool) (t : Nat) (s : State) : Result :=
  let s := s.at t
  if !cameraPowered s port then .next s
  else if !headerOk then .next (s.count (camCounter port 1))
  else match (s.cam port).ctx with
    | none => .next (s.count (camCounter port 0))
    | some c =>
      if dataType ≠ c.typeCode ∨ vc < c.vcBase ∨ c.vcBase + c.exposures ≤ vc then .next (s.count (camCounter port 0))
      else .next (takeExposure port c (vc - c.vcBase) wordCount pixels crcOk s)

/-! ## CAM_CAPTURE (R267) -/

def captureBegin (h : Hdr) (port stage dest size : Nat) (s : State) : State :=
  if 1 < port ∨ 2 < stage then s.finishLong h.ring h.tag (refuse stBadParam)
  else match (s.cam port).enabled with
    | none => s.finishLong h.ring h.tag (refuse stWrongState)
    | some c =>
      if size < c.frameLines * captureLineBytes c stage then s.finishLong h.ring h.tag (refuse stNoResource)
      else s.withCam port { s.cam port with captures := (s.cam port).captures ++
        [{ ring := h.ring, tag := h.tag, stage := stage, dest := dest, seq := none, dropped := 0, closed := none }] }

/-- CAM_CAPTURE (R267). -/
def execCamCapture (h : Hdr) (port stage dest size : Nat) (s : State) : Result :=
  .next (hostLong (.camCapture (unstarted h) port stage dest size) h (cmdOf 0x0091 0) (captureBegin h port stage dest size) s)

/-- The capture of a ring and tag, with its port. -/
def findCapture (s : State) (ring tag : Nat) : Option (Nat × CamCapture) :=
  [0, 1].findSome? (fun p => ((s.cam p).captures.find? (fun x => decide (x.ring = ring ∧ x.tag = tag))).map (fun x => (p, x)))

/-- A capture ends. -/
def endCapture (port : Nat) (x : CamCapture) (status : Nat) (s : State) : State :=
  let s := s.withCam port { s.cam port with captures := (s.cam port).captures.erase x }
  s.finishLong x.ring x.tag (answer status (leBytes 4 (x.seq.getD 0) ++ leBytes 4 x.dropped))

/-- CAM_CAPTURE_DONE (R267): the frame has closed and its lines are at DEST. -/
def execCamCaptureDone (o : OpRef) (s : State) : Result :=
  .next (withOp o 0x0091 (fun s =>
    match findCapture s o.ring o.tag with
    | none => s
    | some (p, x) => match x.closed with
      | none => s
      | some late => endCapture p x (if late then stTimeout else stOk) s) s)

end Sys2Proof.Machine
end

