-- ==== Sys2Proof/Machine/Keeping.lean ====
section
/-! DEFINITION. Machine/Keeping.lean: colour keeping: the target (R271 to R273), samples (R270), keeping intervals and steps (R274 to
R276), KEEP_CONFIG ENABLE and DISABLE (R283), KEEP_TARGET (R272). -/

namespace Sys2Proof.Machine

open Sys2Proof

/-! ## The keep record (R283) -/

/-- The defaults of R283. INTERVAL 0 stands for 100 m at LINE_PITCH. -/
def defaultKeep : KeepRecord :=
  { interval := 0, stepMax := 50, range := 1200, deadband := 20, domMin := 410, otherMax := 41, unifTol := 256, minSamples := 16,
    minCover := 128 }

def orDefault (v d : Nat) : Nat := if v = 0 then d else v

/-- The record that 64 bytes state, with its defaults resolved. -/
def keepRecordOf (r : List Byte) : KeepRecord :=
  { interval := field r 0 4, stepMax := orDefault (field r 4 2) 50, range := orDefault (field r 6 2) 1200, deadband := field r 8 2,
    domMin := orDefault (field r 10 2) 410, otherMax := field r 12 2, unifTol := orDefault (field r 14 2) 256,
    minSamples := orDefault (field r 16 2) 16, minCover := orDefault (field r 18 1) 128 }

def keepRecordOk (r : List Byte) : Bool :=
  let k := keepRecordOf r
  decide ((k.interval = 0 ∨ 65536 ≤ k.interval) ∧ k.stepMax ≤ 50 ∧ 100 ≤ k.range ∧ k.range ≤ 1200 ∧ k.deadband ≤ 100 ∧ k.domMin ≤ 4095
      ∧ k.otherMax ≤ 4095 ∧ k.unifTol ≤ 4095)
    && (List.range 45).all (fun i => decide (field r (19 + i) 1 = 0))

/-- The record in force for a bar: the default one while keeping is disabled. -/
def keepRec (s : State) (b : Nat) : KeepRecord := if (s.keepBar b).enabled then (s.keepBar b).record else defaultKeep

/-- INTERVAL in lines: 0 stands for 100 m. -/
def intervalLines (s : State) (k : KeepRecord) : Nat :=
  if k.interval = 0 then 100000000000 * 65536 / max 1 s.web.motion.linePitch else k.interval

/-! ## The target (R271, R273) -/

def targetSize : Nat := 891712
def targetNum (s : State) (o w : Nat) : Nat := leNat (mread zeroByte s.keep.target o w)
def barValid (s : State) : Nat := targetNum s 4 1

/-- Where the record of paper (55,296 + zone) or of a bucket (6,912 × bar + 16 × zone + bucket) lies. -/
def targetOff (k : Nat) : Nat := if k < 55296 then 6976 + 16 * k else 64 + 16 * (k - 55296)

def paperKey (z : Nat) : Nat := 55296 + z
def bucketKey (b z j : Nat) : Nat := 6912 * b + 16 * z + j

def targetLab (s : State) (k : Nat) : Int × Int × Int :=
  ((targetNum s (targetOff k) 2 : Int), signed 2 (targetNum s (targetOff k + 2) 2), signed 2 (targetNum s (targetOff k + 4) 2))
def targetE (s : State) (k : Nat) : Nat := targetNum s (targetOff k + 6) 2
def targetCount (s : State) (k : Nat) : Nat := targetNum s (targetOff k + 8) 4

/-- Insert a bucket by its EMEAN. -/
def insertByE (s : State) (k : Nat) : List Nat → List Nat
  | [] => [k]
  | x :: l => if targetE s k < targetE s x then k :: x :: l else x :: insertByE s k l

/-- Buckets with COUNT ≥ 4 in ascending EMEAN. -/
def curveBuckets (s : State) (b z : Nat) : List Nat :=
  (((List.range 16).map (bucketKey b z)).filter (fun k => decide (4 ≤ targetCount s k))).foldl (fun l k => insertByE s k l) []

/-- A target curve: paper, the Lab of the highest bucket, and the points (strength, E in 1/8) from paper on. Strengths are kept times the
length of u's vector, which every use of them divides out. -/
structure Curve where
  paper : Int × Int × Int
  top : Int × Int × Int
  points : List (Int × Nat)
deriving DecidableEq, Repr

/-- (Lab - Lab_paper) · (Lab_top - Lab_paper): the strength s, times the length of the vector from paper to the highest bucket (R273). -/
def strength (lab paper top : Int × Int × Int) : Int :=
  (lab.1 - paper.1) * (top.1 - paper.1) + (lab.2.1 - paper.2.1) * (top.2.1 - paper.2.1) + (lab.2.2 - paper.2.2) * (top.2.2 - paper.2.2)

/-- A point goes on the curve when its strength is greater than that of the point below it. -/
def addPoint (l : List (Int × Nat)) (p : Int × Nat) : List (Int × Nat) :=
  match l.getLast? with
  | none => [p]
  | some q => if q.1 < p.1 then l ++ [p] else l

/-- The target curve of a bar and zone, none when it has fewer than three points (R273). -/
def targetCurve (s : State) (b z : Nat) : Option Curve :=
  let ks := curveBuckets s b z
  match ks.getLast? with
  | none => none
  | some k =>
    let paper := targetLab s (paperKey z)
    let top := targetLab s k
    let points := (ks.map (fun k => (strength (targetLab s k) paper top, targetE s k))).foldl addPoint [(0, 0)]
    if points.length < 3 then none else some { paper := paper, top := top, points := points }

/-- e at which the curve, linear between points, reaches a strength: a numerator and a denominator, in 1/8. -/
def curveTone : List (Int × Nat) → Int → Int × Nat
  | p :: q :: l, sm =>
    if sm ≤ q.1 ∨ l = [] then ((p.2 : Int) * (q.1 - p.1) + ((q.2 : Int) - p.2) * (sm - p.1), (q.1 - p.1).toNat)
    else curveTone (q :: l) sm
  | _, _ => (0, 1)

/-! ## Samples (R270) -/

/-- The print-position span of a vision block, in 1/256 line times the period. -/
def spanOf (s : State) (c : CamContext) (pos : Int) : Int × Int :=
  let p : Nat := max 1 s.web.period
  let half : Nat := 128 * c.visLines * c.linePeriod * nsT
  (pos * p - half, pos * p + half)

/-- Where a block begins and ends, in 1/256 line. -/
def FeedBlock.lo (f : FeedBlock) : Int := ((256 * (f.page + 64 * f.block) : Nat) : Int)
def FeedBlock.hi (f : FeedBlock) : Int := f.lo + 256 * f.lines

/-- How much of a span, scaled by `p`, a block covers. -/
def FeedBlock.overlap (f : FeedBlock) (p : Nat) (a b : Int) : Nat := (min b (p * f.hi) - max a (p * f.lo)).toNat

def ringBlocks (s : State) : List FeedBlock := s.keep.feed.filterMap (·.2)

/-- The blocks of a span with their overlaps: within one page, at most two, covering all of it. -/
def spanBlocks (s : State) (a b : Int) : Option (List (FeedBlock × Nat)) :=
  let p := max 1 s.web.period
  let l : List (FeedBlock × Nat) := (ringBlocks s).filterMap (fun f => if f.overlap p a b = 0 then none else some (f, f.overlap p a b))
  match l with
  | [] => none
  | x :: _ =>
    if l.length ≤ 2 ∧ l.all (fun y => decide (y.1.page = x.1.page)) ∧ (((l.map (·.2)).foldl (· + ·) 0 : Nat) : Int) = b - a then some l else none

/-- The ring has overwritten the block in which a span begins (KEEP_STALE). -/
def spanStale (s : State) (a : Int) : Bool :=
  decide ((ringBlocks s).length = 16384) && (ringBlocks s).all (fun f => decide (a < (max 1 s.web.period : Nat) * f.lo))

/-- Overlap-weighted sum of TMEAN of a bar and zone, and the total overlap. -/
def meanT (s : State) (l : List (FeedBlock × Nat)) (b z : Nat) : Nat :=
  (l.map (fun x => x.2 * (x.1.entry s (432 * b + z) % 4096))).foldl (· + ·) 0
def totalOverlap (l : List (FeedBlock × Nat)) : Nat := (l.map (·.2)).foldl (· + ·) 0

/-- Some scheduled bar's entry of the zone carries DISTURBED, RAMP or NONUNIFORM. -/
def blocksFlagged (s : State) (l : List (FeedBlock × Nat)) (z : Nat) : Bool :=
  l.any (fun x => (maskList x.1.barMask 8).any (fun b => decide (4096 ≤ x.1.entry s (432 * b + z))))

/-- The record covers enough of the zone on every camera line. -/
def coversEnough (c : CamContext) (r : ZoneRec) (minCover : Nat) : Bool := decide (minCover * c.visLines * 65536 ≤ r.pixels * c.pitch)

/-- The bar that dominates a zone of some blocks (R270), without the target's rule. -/
def dominant (s : State) (c : CamContext) (r : ZoneRec) (l : List (FeedBlock × Nat)) (f : FeedBlock) : Option Nat :=
  let w := totalOverlap l
  (maskList f.barMask 8).find? (fun b =>
    let k := keepRec s b
    decide (k.domMin * w ≤ meanT s l b r.zone) && coversEnough c r k.minCover
      && (maskList f.barMask 8).all (fun o => decide (o = b) || decide (meanT s l o r.zone ≤ k.otherMax * w)))

/-- E_fed = T̄ × G × K̄ / 2^30, in 1/8. -/
def fedTone (s : State) (l : List (FeedBlock × Nat)) (f : FeedBlock) (b z : Nat) : Frac :=
  let g := tget (fun _ => 0x8000) f.gains (432 * b + z)
  let k := tget (fun _ => 0x800000) f.columns (432 * b + z)
  frac ((8 * meanT s l b z * g * k : Nat) : Int) (totalOverlap l * 256 * 2 ^ 30)

def BucketSum.zero : BucketSum := { l := 0, a := 0, b := 0, e := Frac.zero, weight := 0, count := 0 }

def bucketGet (t : Tab BucketSum) (k : Nat) : BucketSum := tget (fun _ => BucketSum.zero) t k

/-- A sample adds to a bucket of KEEP_TARGET CAPTURE. -/
def BucketSum.add (x : BucketSum) (lab : Int × Int × Int) (e : Frac) (w : Nat) : BucketSum :=
  { l := x.l + lab.1 * w, a := x.a + lab.2.1 * w, b := x.b + lab.2.2 * w, e := x.e.add (e.scale w), weight := x.weight + w,
    count := x.count + 1 }

/-- The capture takes a sample of one of its pages. -/
def captureSample (f : FeedBlock) (key : Nat) (r : ZoneRec) (e : Frac) (s : State) : State :=
  match s.keep.capture with
  | none => s
  | some o =>
    if f.jobId ≠ o.jobId ∨ f.pageIndex < o.first ∨ o.first + o.count ≤ f.pageIndex ∨ f.page < o.accepted then s
    else
      let sums := tput (fun _ => BucketSum.zero) o.sums key ((bucketGet o.sums key).add r.lab e r.pixels)
      s.withKeep { s.keep with capture := some { o with sums := sums } }

/-- A bucket's index for a tone in 1/8 (R271). -/
def bucketOf (e : Frac) : Nat := min 15 (e.num / ((2048 * e.den : Nat) : Int)).toNat

def accOf (k : KeepBar) (z : Nat) : ZoneAcc := tget (fun _ => ZoneAcc.reset) k.acc z

/-- A zone without a valid target is logged once as TARGET_THIN (R273). -/
def thinTarget (b z : Nat) (s : State) : State :=
  let k := s.keepBar b
  if tget (fun _ => false) k.thinLogged z then s
  else (s.withKeepBar b { k with thinLogged := tput (fun _ => false) k.thinLogged z true }).report 0x4003
    (logKey (some b) none none none) 0 (leBytes 2 z)

/-- rho = e_fed / e_m. Where the curve gives e_m = 0 the manual has no ratio: a free value (log 11). -/
def rhoOf (points : List (Int × Nat)) (sm : Int) (e : Frac) (s : State) : Frac × State :=
  let (n, d) := curveTone points sm
  if n ≤ 0 then (frac (Config.freeNat s.draws) (Config.freeNat (s.draws + 1) + 1), s.withDraws (s.draws + 2))
  else (frac (e.num * d) (e.den * n.toNat), s)

/-- A sample enters the open interval of a bar with keeping enabled. -/
def keepSample (b : Nat) (r : ZoneRec) (e : Frac) (s : State) : State :=
  let k := s.keepBar b
  if !k.enabled ∨ k.intervalStart = none ∨ s.dev ≠ .run ∨ !bit (barValid s) b then s
  else match targetCurve s b r.zone with
    | none => thinTarget b r.zone s
    | some c =>
      let sm := strength r.lab c.paper c.top
      if sm < 0 ∨ (c.points.getLast?.map (·.1)).getD 0 < sm then s.count 27
      else
        let (rho, s) := rhoOf c.points sm e s
        let a := accOf k r.zone
        let a : ZoneAcc := { count := a.count + 1, weight := a.weight + r.pixels, sum := a.sum.add (rho.scale r.pixels) }
        s.withKeepBar b { k with acc := tput (fun _ => ZoneAcc.reset) k.acc r.zone a }

/-- A zone record is matched to the feed (R270). -/
def matchRecord (c : CamContext) (r : ZoneRec) (s : State) : State :=
  let (a, e) := spanOf s c r.pos
  match spanBlocks s a e with
  | none => if spanStale s a then s.count 26 else s
  | some l => match l with
    | [] => s
    | x :: _ =>
      let f := x.1
      let s := s.share (l.flatMap (fun y => spanSubs s (feedAddr s y.1.slot) 7168))
      if blocksFlagged s l r.zone ∨ l.any (fun y => y.1.pattern.isSome) then s
      else if (maskList f.barMask 8).all (fun b => decide (meanT s l b r.zone = 0)) then
        (if coversEnough c r (keepRec s 0).minCover then captureSample f (paperKey r.zone) r Frac.zero s else s)
      else match dominant s c r l f with
        | none => s
        | some b =>
          let e := fedTone s l f b r.zone
          keepSample b r e (captureSample f (bucketKey b r.zone (bucketOf e)) r e s)

/-- ZONE_RECORD_SAMPLE (R270): firmware takes the oldest zone record of a port. -/
def execZoneRecordSample (port t : Nat) (s : State) : Result :=
  let s := s.at t
  let p := s.cam port
  match p.vision with
  | [] => .next s
  | r :: rest =>
    let s := s.withCam port { p with vision := rest }
    match p.ctx with
    | none => .next s
    | some c => .next (if s.dev = .run ∨ s.dev = .drain then matchRecord c r s else s)

/-! ## Keeping intervals (R274, R275) -/

/-- What the end of an interval gives one zone: TO′, the ΔG of step 3, and which of the record's counts it enters. -/
structure ZoneStep where
  gain : Nat
  delta : Int
  held : Bool
  inBand : Bool
  atRange : Bool
deriving DecidableEq, Repr

/-- R274: TO′ from TO, the committed gain at ENABLE and the samples of the interval. -/
def zoneStep (r : KeepRecord) (gRef gain : Nat) (a : ZoneAcc) : ZoneStep :=
  if a.count < r.minSamples ∨ a.weight = 0 then { gain := gain, delta := 0, held := true, inBand := false, atRange := false }
  else
    let one := a.weight * a.sum.den
    let err : Int := a.sum.num - (one : Int)
    if 10000 * err.natAbs < r.deadband * one then { gain := gain, delta := 0, held := false, inBand := true, atRange := false }
    else
      let most : Int := ((gain * r.stepMax / 10000 : Nat) : Int)
      let d := clampInt (-most) most (roundDiv (gain * err) one)
      let lo : Int := ((ceilDiv (gRef * (10000 - r.range)) 10000 : Nat) : Int)
      let hi : Int := ((gRef * (10000 + r.range) / 10000 : Nat) : Int)
      let g := clampInt lo hi (gain + d)
      { gain := min 65535 g.toNat, delta := d, held := false, inBand := false, atRange := decide (gain + d ≤ lo ∨ hi ≤ gain + d) }

/-- TO of a zone: the gain of the bank in force. -/
def zoneTo (s : State) (b z : Nat) : Nat := s.tabNum 1 b (16 + 2 * z) 2

def allSteps (s : State) (b : Nat) : List (Nat × Nat × ZoneStep) :=
  let k := s.keepBar b
  (List.range 432).map (fun z => (z, zoneTo s b z, zoneStep k.record (tget (fun _ => 0x8000) k.gRef z) (zoneTo s b z) (accOf k z)))

/-- ΔG / TO in 0.01 %, signed and rounded to nearest (DESIGN CHOICE, log 93), of the zone where it is largest. -/
def greatestStep (l : List (Nat × Nat × ZoneStep)) : Int :=
  (l.map (fun x => roundDiv (10000 * x.2.2.delta) (max 1 x.2.1))).foldl (fun m v => if m.natAbs < v.natAbs then v else m) 0

/-- A zone at the range limit is logged once. -/
def logRange (b : Nat) (s : State) (z : Nat) : State :=
  let k := s.keepBar b
  if tget (fun _ => false) k.rangeLogged z then s
  else (s.withKeepBar b { k with rangeLogged := tput (fun _ => false) k.rangeLogged z true }).report 0x4004
    (logKey (some b) none none none) 0 (leBytes 2 z)

/-- When an open interval ends: after INTERVAL lines, or where the earlier step took effect. -/
def intervalEnd (s : State) (b : Nat) : Option Nat :=
  let k := s.keepBar b
  k.intervalStart.map (fun a => max (a + intervalLines s k.record) k.lastStep)

/-- The firmware writes TO′ of every zone into the shadow bank with RAMP set (R275). -/
def writeGains (b : Nat) (gains : Tab Nat) (s : State) : State :=
  let t := s.table 1 b
  let bytes := leBytes 2 1 ++ (List.range 432).flatMap (fun z => leBytes 2 (tget (fun _ => 0x8000) gains z))
  let put (m : Mem) (e : Nat × Byte) : Mem := tput (tableDefault 1) m (if e.1 < 2 then e.1 else e.1 + 14) e.2
  s.withTable 1 b (t.withBank t.shadow ((List.zip (List.range 866) bytes).foldl put (t.bank t.shadow)))

/-- It commits them when at least one zone changed; each committed gain goes into the checkpoint with its boundary. -/
def commitStep (b : Nat) (gains : Tab Nat) (s : State) : State :=
  let s := writeGains b gains s
  if (s.keepBar b).stepped = 0 then s.withKeepBar b { s.keepBar b with computed := none }
  else match effectiveBoundary s 0 with
  | none => s
  | some (x, _) =>
    let t := s.table 1 b
    let s := firmwareCommit 1 b s
    let s := s.withBoot { s.boot with checkpoint := { s.boot.checkpoint with
      zoneGains := tput (fun _ => (0, [])) s.boot.checkpoint.zoneGains b (x.pos, t.bank t.shadow) } }
    s.withKeepBar b { s.keepBar b with stepAt := some x.pos, computed := none }

/-- The end of a bar's interval: TO′ of every zone. -/
def endInterval (b stop : Nat) (s : State) : State :=
  let k := s.keepBar b
  let l := allSteps s b
  let changed := (l.filter (fun x => decide (x.2.2.gain ≠ x.2.1))).length
  let gains := l.foldl (fun t x => tput (fun _ => 0x8000) t x.1 x.2.2.gain) []
  let s := ((l.filter (fun x => x.2.2.atRange)).map (·.1)).foldl (logRange b) s
  s.withKeepBar b { s.keepBar b with
    intervalStart := some stop, intervals := k.intervals + 1, acc := [], stepped := changed,
    held := (l.filter (fun x => x.2.2.held)).length, atRange := (l.filter (fun x => x.2.2.atRange)).length,
    inBand := (l.filter (fun x => x.2.2.inBand)).length, maxStep := greatestStep l,
    samples := (k.acc.map (fun e => e.2.count)).foldl (· + ·) 0, computed := some gains }

/-- KEEP_INTERVAL_END (R274, R275): the interval ends once its end has come and no earlier step waits for its boundary; the gains are
committed when ZONE_GAIN is not locked, or by a later occurrence once the lock is released. -/
def execKeepIntervalEnd (bar t : Nat) (s : State) : Result :=
  let s := s.at t
  let k := s.keepBar bar
  if 7 < bar ∨ !k.enabled ∨ s.dev ≠ .run ∨ k.stepAt.isSome then .next s
  else
    let s := match k.computed, intervalEnd s bar with
      | none, some e => if e ≤ s.web.webPos then endInterval bar e s else s
      | _, _ => s
    match (s.keepBar bar).computed with
    | none => .next s
    | some g => .next (if isLocked s 1 bar then s else commitStep bar g s)

/-! ## KEEP_CONFIG ENABLE and DISABLE (R283) -/

def camContexts (s : State) : List CamContext := [0, 1].filterMap (fun p => (s.cam p).enabled)

def keepEnableBody (mask record : Nat) (s : State) : State × Answer :=
  match s.dmaBad record 64 with
  | some a => (s.dmaFault a, refuse stDataUe)
  | none =>
    let r := s.dmaRead record 64
    let bars := maskList mask 8
    if s.dev ∉ [.idle, .armed, .run] then (s, refuse stWrongState)
    else if !keepRecordOk r ∨ (camContexts s).any (fun c => decide (1040000 * 256 < c.camDist)) then (s, refuse stBadParam)
    else if bars.any (fun b => !bit (barValid s) b) then (s, refuse stWrongState)
    else if !(camContexts s).any (fun c => bit c.outputs 2) then (s, refuse stNoResource)
    else (bars.foldl (fun s b => s.withKeepBar b { s.keepBar b with
        enabled := true, record := keepRecordOf r, intervals := 0, acc := [], rangeLogged := [], thinLogged := [], ownedUntil := none,
        computed := none,
        gRef := (List.range 432).foldl (fun t z => tput (fun _ => 0x8000) t z (zoneTo s b z)) [],
        intervalStart := if s.dev = .run then some (s.web.webPos + 1) else none }) s, refuse stOk)

/-- KEEP_CONFIG ENABLE (R283). -/
def execKeepConfigEnable (h : Hdr) (barMask record : Nat) (s : State) : Result :=
  .next (hostCmd (.keepConfigEnable (unstarted h) barMask record) h (cmdOf 0x00A0 0) (keepEnableBody barMask record) s)

def keepDisableBody (mask : Nat) (s : State) : State × Answer :=
  ((maskList mask 8).foldl (fun s b => s.withKeepBar b { s.keepBar b with
    enabled := false, intervalStart := none, acc := [], computed := none, ownedUntil := (s.keepBar b).stepAt }) s, refuse stOk)

/-- KEEP_CONFIG DISABLE (R276, R283): no further steps; a step that is pending still takes effect, and ZONE_GAIN returns to host software
after its boundary. -/
def execKeepConfigDisable (h : Hdr) (barMask : Nat) (s : State) : Result :=
  .next (hostCmd (.keepConfigDisable (unstarted h) barMask) h (cmdOf 0x00A0 1) (keepDisableBody barMask) s)

/-! ## KEEP_TARGET (R272) -/

/-- Some named bar has keeping enabled. -/
def keepOn (s : State) (mask : Nat) : Bool := (maskList mask 8).any (fun b => (s.keepBar b).enabled)

def captureStart (h : Hdr) (mask first count : Nat) (s : State) : State :=
  if s.dev ≠ .run ∨ keepOn s mask then s.finishLong h.ring h.tag (refuse stWrongState)
  else if count = 0 ∨ s.run.pages.any (fun p => decide (p.jobId = s.run.jobId ∧ first ≤ p.pageIndex ∧ p.start ≤ s.web.webPos)) then
    s.finishLong h.ring h.tag (refuse stBadParam)
  else if s.keep.capture.isSome then s.finishLong h.ring h.tag (refuse stBusy)
  else
    let o : CaptureOp := { ring := h.ring, tag := h.tag, barMask := mask % 256, first := first, count := count,
                           accepted := s.web.webPos, jobId := s.run.jobId, sums := [], lastDone := none, lastEnd := 0 }
    s.withKeep { s.keep with capture := some o }

/-- KEEP_TARGET CAPTURE (R272). -/
def execKeepTargetCapture (h : Hdr) (barMask first count : Nat) (s : State) : Result :=
  .next (hostLong (.keepTargetCapture (unstarted h) barMask first count) h (cmdOf 0x00A1 0) (captureStart h barMask first count) s)

/-- EMEAN in 1/8: a free value above what its 16 bits hold (log 11). -/
def meanTone (e : Frac) (weight : Nat) : Nat :=
  let d := e.den * weight
  if 65535 * (d : Int) < e.num then Config.wideMean e.num d % 65536 else (quotient e.num d).toNat

/-- The record of a bucket or of paper. -/
def bucketRecord (x : BucketSum) : List Byte :=
  if x.weight = 0 then List.replicate 16 0
  else leBytes 2 (quotient x.l x.weight).toNat ++ leInt 2 (quotient x.a x.weight) ++ leInt 2 (quotient x.b x.weight)
    ++ leBytes 2 (meanTone x.e x.weight) ++ leBytes 4 x.count ++ [0, 0, 0, 0]

/-- Put bytes in the target. -/
def putTarget (o : Nat) (bs : List Byte) (s : State) : State := s.withKeep { s.keep with target := mwrite zeroByte s.keep.target o bs }

/-- The target takes the named bars and the paper of a capture. -/
def storeCapture (o : CaptureOp) (s : State) : State :=
  let keys := (List.range 432).map paperKey
    ++ (maskList o.barMask 8).flatMap (fun b => (List.range 6912).map (fun j => 6912 * b + j))
  let s := keys.foldl (fun s k => putTarget (targetOff k) (bucketRecord (bucketGet o.sums k)) s) s
  let valid := maskOf ((List.range 8).filter (fun b => bit (barValid s) b || bit o.barMask b))
  putTarget 0 (leBytes 2 0x4B54 ++ leBytes 2 1 ++ leBytes 1 valid ++ [0, 0, 0] ++ leBytes 4 o.jobId ++ leBytes 4 o.first ++ leBytes 4 o.count
    ++ leBytes 8 (taiSec s.base) ++ List.replicate 36 0) s

/-- The web position now, in 1/256 line. -/
def phaseNow (s : State) : Nat := if s.web.running then phaseAt s s.base else 256 * s.web.webPos

/-- A print position has passed every vision camera (R253, R272). -/
def visionPassed (s : State) (line : Nat) : Bool :=
  (camContexts s).all (fun c => !bit c.outputs 2 || decide (256 * line + c.camDist ≤ phaseNow s))

/-- The last page's final print position has passed every vision camera. -/
def capturePassed (s : State) (o : CaptureOp) : Bool := o.lastDone.isSome && visionPassed s o.lastEnd

/-- The capture that an event names. -/
def withCapture (o : OpRef) (f : CaptureOp → State → State) (s : State) : State :=
  withOp o 0x00A1 (fun s => match s.keep.capture with
    | none => s
    | some x => if x.ring = o.ring ∧ x.tag = o.tag then f x s else s) s

def dropCapture (s : State) : State := s.withKeep { s.keep with capture := none }

/-- KEEP_TARGET_CAPTURE_DONE (R272). -/
def execKeepTargetCaptureDone (o : OpRef) (s : State) : Result :=
  .next (withCapture o (fun x s =>
    if capturePassed s x then (dropCapture (storeCapture x s)).finishLong o.ring o.tag (refuse stOk) else s) s)

/-- KEEP_TARGET_CAPTURE_TIMEOUT (R272): 60 s after the last page's PAGE_DONE; nothing changes. -/
def execKeepTargetCaptureTimeout (o : OpRef) (s : State) : Result :=
  .next (withCapture o (fun x s => match x.lastDone with
    | none => s
    | some t => if t + 60 * secT ≤ s.clk.elapsed then (dropCapture s).finishLong o.ring o.tag (refuse stTimeout) else s) s)

def targetLoadBody (mask addr : Nat) (s : State) : State × Answer :=
  if keepOn s mask then (s, refuse stWrongState)
  else match s.dmaBad addr targetSize with
    | some a => (s.dmaFault a, refuse stDataUe)
    | none =>
      let bs := s.dmaRead addr targetSize
      if field bs 0 2 ≠ 0x4B54 ∨ field bs 2 2 ≠ 1 then (s, refuse stBadParam)
      else (s.withKeep { s.keep with target := mwrite zeroByte [] 0 bs }, refuse stOk)

/-- KEEP_TARGET LOAD (R272): a full target replaces every bar's; keeping must be disabled for the named bars. -/
def execKeepTargetLoad (h : Hdr) (barMask addr : Nat) (s : State) : Result :=
  .next (hostCmd (.keepTargetLoad (unstarted h) barMask addr) h (cmdOf 0x00A1 1) (targetLoadBody barMask addr) s)

def targetReadBody (addr : Nat) (s : State) : State × Answer :=
  if !s.host.linkUp then (s, refuse stDataUe)
  else (s.dmaWrite addr (mread zeroByte s.keep.target 0 targetSize), refuse stOk)

/-- KEEP_TARGET READ (R272). -/
def execKeepTargetRead (h : Hdr) (addr : Nat) (s : State) : Result :=
  .next (hostCmd (.keepTargetRead (unstarted h) addr) h (cmdOf 0x00A1 2) (targetReadBody addr) s)

def targetClearBody (mask : Nat) (s : State) : State × Answer :=
  if keepOn s mask then (s, refuse stWrongState)
  else (putTarget 4 (leBytes 1 (maskOf ((List.range 8).filter (fun b => bit (barValid s) b && !bit mask b)))) s, refuse stOk)

/-- KEEP_TARGET CLEAR (R272). -/
def execKeepTargetClear (h : Hdr) (barMask : Nat) (s : State) : Result :=
  .next (hostCmd (.keepTargetClear (unstarted h) barMask) h (cmdOf 0x00A1 3) (targetClearBody barMask) s)

end Sys2Proof.Machine
end

