-- ==== Sys2Proof/Machine/Ladder.lean ====
section
/-! DEFINITION. Machine/Ladder.lean: ladder and registration declarations (R278), ladder checks (R277, R279, R280), key-head registration
(R281, R282). -/

namespace Sys2Proof.Machine

open Sys2Proof

/-! ## Declarations (R278) -/

def declOf (r : List Byte) : Decl :=
  { descriptor := field r 0 4, kind := field r 4 1, barMask := field r 5 1, refBar := field r 6 1, confirm := orDefault (field r 7 1) 2,
    firstLine := field r 8 4, step := field r 12 2, dash := field r 14 2, space := field r 16 2, missPct := orDefault (field r 18 1) 30,
    weakPct := orDefault (field r 19 1) 70, devTol := orDefault (field r 20 2) 3, x := (List.range 8).map (fun i => field r (24 + 4 * i) 4) }

/-- A registration mark lies within the key head's columns, outside every stitch zone and edge zone. -/
def markPlaced (s : State) (d : Decl) (b : Nat) : Bool :=
  match s.press with
  | none => false
  | some p =>
    let key := (p.bar b).keySlot
    let lo := nth 0 d.x b
    let f := (s.slotDesc b key).f
    let n := s.nozzles b key
    let others := (s.fittedSlots b).filter (fun o => decide (o ≠ key))
    let leftmost := others.all (fun o => decide (f ≤ (s.slotDesc b o).f))
    let rightmost := others.all (fun o => decide ((s.slotDesc b o).f + s.nozzles b o ≤ f + n))
    decide (f + (if leftmost then (p.bar b).leftW else 0) ≤ lo ∧ lo + d.step + (if rightmost then (p.bar b).rightW else 0) ≤ f + n)
      && others.all (fun o => decide (lo + d.step ≤ (s.slotDesc b o).f ∨ (s.slotDesc b o).f + s.nozzles b o ≤ lo))

/-- The ranges of R278. -/
def declOk (s : State) (d : Decl) : Bool :=
  if d.kind = 0 then
    decide (16 ≤ d.step ∧ d.step ≤ 256 ∧ d.step % 8 = 0 ∧ 8 ≤ d.dash ∧ d.dash ≤ 64 ∧ d.dash % 2 = 0 ∧ 8 ≤ d.space ∧ d.space ≤ 256
      ∧ d.confirm ≤ 8 ∧ d.missPct ≤ 99 ∧ d.missPct < d.weakPct ∧ d.weakPct ≤ 99 ∧ d.devTol ≤ 16)
  else
    decide (d.kind = 1 ∧ 64 ≤ d.step ∧ d.step ≤ 1024 ∧ 64 ≤ d.dash ∧ d.dash ≤ 1024 ∧ d.refBar ≤ 7)
      && (maskList d.barMask 8).all (markPlaced s d)

def declRsv (r : List Byte) : Bool := decide (field r 22 2 ≠ 0 ∨ field r 56 8 ≠ 0)

def ladderBody (record : Nat) (s : State) : State × Answer :=
  match s.dmaBad record 64 with
  | some a => (s.dmaFault a, refuse stDataUe)
  | none =>
    let r := s.dmaRead record 64
    let d := declOf r
    if d.kind = 0xFF then
      (s.withKeep { s.keep with decls := s.keep.decls.filter (fun x => decide (x.descriptor ≠ d.descriptor)) }, refuse stOk)
    else if declRsv r ∨ !declOk s d then (s, refuse stBadParam)
    else
      let same (x : Decl) : Bool := decide (x.descriptor = d.descriptor ∧ x.kind = d.kind)
      if s.keep.decls.any same then
        (s.withKeep { s.keep with decls := s.keep.decls.map (fun x => if same x then d else x) }, refuse stOk)
      else if 8 ≤ s.keep.decls.length then (s, refuse stNoResource)
      else (s.withKeep { s.keep with decls := s.keep.decls ++ [d] }, refuse stOk)

/-- KEEP_CONFIG LADDER (R278). -/
def execKeepConfigLadder (h : Hdr) (record : Nat) (s : State) : Result :=
  .next (hostCmd (.keepConfigLadder (unstarted h) record) h (cmdOf 0x00A0 2) (ladderBody record) s)

/-! ## LADDER_RESET (R280) -/

/-- Slot, row and nozzle of every word of a bar's shadow bank with SOURCE LADDER. -/
def ladderWords (s : State) (b : Nat) : List (Nat × Nat × Nat) :=
  let t := s.table 5 b
  (((List.range 24).flatMap (fun sl => [0, 1].flatMap (fun row => (List.range (s.nozzles b sl)).map (fun j => (sl, row, j)))))).filter
    (fun x => decide (wordSource (t.num 5 t.shadow (wordOff x.1 x.2.1 x.2.2) 2) = 3))

/-- One bar: its ladder findings go, and it is replanned with PLAN_AUTO. -/
def resetLadder (slot : Nat) (s : State) (b : Nat) : State :=
  let words := (ladderWords s b).filter (fun x => decide (slot = 0xFF ∨ x.1 = slot))
  let s := words.foldl (fun s x => setNozzle b x.1 x.2.1 x.2.2 0 3 0 s) s
  if planAuto s b then
    let s := ((s.link.toPlan.filter (fun p => decide (p.1 = b))).map (·.2)).foldl (syncWord b) s
    let s := planAll b (words.map (fun x => (x.1, x.2.1, nozzleOf (s.nozzles b x.1) (orderDesc s b x.1) x.2.2))) s
    if nozzleDiffers s b then firmwareCommit 5 b s else s
  else s

def ladderResetBody (mask slot : Nat) (s : State) : State × Answer :=
  if 23 < slot ∧ slot ≠ 0xFF then (s, refuse stBadParam)
  else if (maskList mask 8).any (isLocked s 5) then (s, refuse stBusy)
  else ((maskList mask 8).foldl (resetLadder slot) s, refuse stOk)

/-- KEEP_CONFIG LADDER_RESET (R280). -/
def execLadderReset (h : Hdr) (barMask slot : Nat) (s : State) : Result :=
  .next (hostCmd (.ladderReset (unstarted h) barMask slot) h (cmdOf 0x00A0 3) (ladderResetBody barMask slot) s)

/-! ## Ladder dashes (R277, R279, R280) -/

/-- A dash as evaluated: its bar, slot, row and nozzle, its column, and its page. -/
structure Dash where
  bar : Nat
  slot : Nat
  row : Nat
  nozzle : Nat
  col : Nat
  page : Nat
deriving DecidableEq, Repr

/-- The parity of the lines that the dash's row fires (R151). -/
def Dash.parity (x : Dash) (s : State) : Nat := (x.row + x.page + s.coarse x.bar x.slot) % 2

/-- The first image line of the dash: of its column's rung and its parity (R277). -/
def Dash.firstOf (x : Dash) (s : State) (d : Decl) : Nat :=
  let rung := (((x.col : Int) - (nth 0 d.x 0 : Nat)) % (d.step : Int)).toNat
  d.firstLine + (2 * rung + x.parity s) * (2 * d.dash + d.space)

/-- The lines of the dash (R277). -/
def Dash.lines (x : Dash) (s : State) (d : Decl) : List Nat :=
  ((List.range (2 * d.dash)).map (fun m => x.firstOf s d + m)).filter (fun k => decide (k % 2 = x.parity s))

/-- The feed blocks of the dash's lines, where the page was treated as declared. -/
def Dash.blocks (x : Dash) (s : State) (d : Decl) : List FeedBlock :=
  (ringBlocks s).filter (fun f => decide (f.page = x.page ∧ f.pattern = some d.descriptor)
    && (x.lines s d).any (fun k => decide (k / 64 = f.block)))

/-- The context whose camera covers the dash's column. -/
def Dash.camera (x : Dash) (s : State) : Option CamContext :=
  (camContexts s).find? (fun c => bit c.outputs 2 && decide (c.column 0 ≤ x.col ∧ (x.col : Int) ≤ c.column (c.pixels - 1)))

/-- The print value at contone 255 under the page's gains. -/
def Dash.fullValue (x : Dash) (s : State) (f : FeedBlock) : Nat :=
  let k := 432 * x.bar + x.col / 256
  printValue (toneOf s x.bar x.page 255) (tget (fun _ => 0x8000) f.gains k)
    (s.liveNum 2 x.bar x.page (2 * x.col) 2 0x8000) (s.headerNum 0 x.bar x.page 2 2)

/-- The cases of R280 in which a dash is not evaluated. -/
def Dash.skipped (x : Dash) (s : State) (d : Decl) (c : CamContext) (fs : List FeedBlock) : Bool :=
  decide (wordState (s.liveNum 5 x.bar x.page (wordOff x.slot x.row x.nozzle) 2 0x1800) ≠ 0)
    || decide (d.step * 65536 < 3 * c.pitch)
    || fs.any (fun f => decide (x.fullValue s f < s.headerNum 4 x.bar x.page 4 2))
    || fs.any (fun f => bit (f.entry s (432 * x.bar + x.col / 256)) 12)

/-! ### Window rows -/

/-- The window rows that the firmware has. -/
def seenRows (s : State) : List WindowRow := s.keep.rows ++ (s.cam 0).windows ++ (s.cam 1).windows

/-- The pixels of window rows with print positions from `p0` up to before `p1`, in 1/256 line, and places from `lo` up to before `hi` across
the web, in 2^-16 column: position, place and value of each. -/
def pixelsIn (s : State) (p0 p1 lo hi : Int) : List (Int × Int × Nat) :=
  ((seenRows s).filter (fun r => decide (p0 ≤ r.pos ∧ r.pos < p1))).flatMap (fun r =>
    ((List.zip (List.range r.vals.length) r.vals).map (fun v => (r.pos, r.first + ((v.1 * r.pitch : Nat) : Int), v.2))).filter
      (fun x => decide (lo ≤ x.2.1 ∧ x.2.1 < hi)))

/-- L* of a zone's paper in 1/256: the target's, and a free value where it holds none (log 93). -/
def paperLight (s : State) (z : Nat) : Nat :=
  if targetCount s (paperKey z) = 0 then Config.paperL z else (targetLab s (paperKey z)).1.toNat

/-- L*_paper - L* of a pixel whose value is L* × 2.55, in 1/65,280 (R263, R279). -/
def pixelDark (s : State) (z v : Nat) : Int := 255 * (paperLight s z : Int) - 25600 * v

/-- The pixels of a dash: within ±STEP / 2 columns of its own, over the camera lines of its rung and parity (R277, R279). -/
def Dash.pixels (x : Dash) (s : State) (d : Decl) : List (Int × Int × Nat) :=
  let k := x.page + x.firstOf s d
  pixelsIn s ((256 * k : Nat) : Int) ((256 * (k + 2 * d.dash) : Nat) : Int) (65536 * ((x.col : Int) - (d.step / 2 : Nat)))
    (65536 * ((x.col : Int) + (d.step / 2 : Nat) + 1))

/-- The darkness A of a dash, and the sum of darkness times columns from the nozzle's own, whose quotient by A is x̂ - x; none where no
window row shows it (R279). A pixel's column is that of R262. -/
def Dash.measure (x : Dash) (s : State) (d : Decl) : Option (Int × Int) :=
  let px := x.pixels s d
  let dark (v : Nat) : Int := pixelDark s (x.col / 256) v
  if px = [] then none
  else some (sumInt (px.map (fun p => dark p.2.2)), sumInt (px.map (fun p => dark p.2.2 * (p.2.1 / 65536 - x.col))))

/-- The dash as it is evaluated: none where R280 or the cameras leave it out. -/
def Dash.evaluated (x : Dash) (s : State) (d : Decl) : Option (Int × Int) :=
  match x.camera s, x.blocks s d with
  | none, _ => none
  | _, [] => none
  | some c, fs => if x.skipped s d c fs then none else x.measure s d

def insertInt (v : Int) : List Int → List Int
  | [] => [v]
  | x :: l => if v ≤ x then v :: x :: l else x :: insertInt v l

/-- Twice the median: of an even number of values the sum of the two in the middle (DESIGN CHOICE, log 93). -/
def twiceMedian (l : List Int) : Int :=
  let o := l.foldl (fun o v => insertInt v o) []
  (o[(o.length - 1) / 2]?).getD 0 + (o[o.length / 2]?).getD 0

/-- The dash of a nozzle. -/
def dashOf (s : State) (bar slot row nozzle page : Nat) : Dash :=
  { bar := bar, slot := slot, row := row, nozzle := nozzle, page := page,
    col := (s.slotDesc bar slot).f + nozzleOf (s.nozzles bar slot) (orderDesc s bar slot) nozzle }

/-- Twice A_ref: over all dashes evaluated for the same bar and row in the ladder. -/
def Dash.twiceRef (x : Dash) (s : State) (d : Decl) : Int :=
  twiceMedian ((s.fittedSlots x.bar).flatMap (fun sl => (List.range (s.nozzles x.bar sl)).filterMap (fun j =>
    ((dashOf s x.bar sl x.row j x.page).evaluated s d).map (·.1))))

/-- The classes of R279: 0 Good, 1 Missing, 2 Deviating, 3 Weak. -/
def dashClass (d : Decl) (darkness ref2 : Int) (deviates : Bool) : Nat :=
  if 200 * darkness < d.missPct * ref2 then 1
  else if deviates then 2
  else if 200 * darkness < d.weakPct * ref2 then 3
  else 0

/-- Is x̂ more than DEV_TOL columns off? Where the darkness is 0 there is no centroid: a free value (log 93). -/
def dashDeviates (d : Decl) (a m : Int) (s : State) : Bool × State :=
  if a = 0 then ((s.draw 2).1 == 1, (s.draw 2).2) else (decide (d.devTol * a.natAbs < m.natAbs), s)

/-- STATE and CAP that a class gives (R165). -/
def classState (c : Nat) : Nat × Nat := if c = 1 then (2, 0) else if c = 2 then (3, 0) else (1, 2)

/-- Whose finding it is: in a stitch zone the head's that owns more than 75 % of the dash's lines. -/
inductive Attribution where
  | mine | other | nobody
deriving DecidableEq, Repr

def Dash.attribution (x : Dash) (s : State) (d : Decl) : Attribution :=
  let zs := (zonesOf s x.bar x.page x.slot).filter (fun z => z.holds x.col)
  if zs = [] then .mine
  else
    let ls := x.lines s d
    let n := (ls.filter (fun k => owns s x.bar x.page x.slot k x.col zs)).length
    if 3 * ls.length < 4 * n then .mine else if 4 * n < ls.length then .other else .nobody

def streakKey (x : Dash) : Nat := 245760 * x.bar + 10240 * x.slot + 5120 * x.row + x.nozzle

/-- A finding that has been confirmed is applied under R165. With PLAN_AUTO it is planned and committed at once, or by NOZZLE_PLAN where
NOZZLE is locked. -/
def applyFinding (x : Dash) (cls : Nat) (s : State) : State :=
  let (st, cap) := classState cls
  let s := takeFinding x.bar x.slot x.row x.nozzle (nozzleWord st cap 0 0 3) s
  let p := (x.bar, x.slot, x.row, x.nozzle)
  if p ∉ s.link.toPlan ∨ isLocked s 5 x.bar then s
  else
    let s := s.withLink { s.link with toPlan := s.link.toPlan.erase p }
    let s := planAll x.bar [(x.slot, x.row, nozzleOf (s.nozzles x.bar x.slot) (orderDesc s x.bar x.slot) x.nozzle)] s
    if nozzleDiffers s x.bar && !commitWaits s x.bar then firmwareCommit 5 x.bar s else s

/-- The class a nozzle shows in one more ladder; a finding counts once it has shown in CONFIRM consecutive ladders. A ladder counts once. -/
def takeClass (x : Dash) (d : Decl) (cls : Nat) (s : State) : State :=
  let (was, n, page) := tget (fun _ => (0, 0, 0)) s.keep.streaks (streakKey x)
  if page = x.page + 1 then s
  else
    let n := if cls = 0 then 0 else if was = cls then n + 1 else 1
    let s := s.withKeep { s.keep with streaks := tput (fun _ => (0, 0, 0)) s.keep.streaks (streakKey x) (cls, n, x.page + 1) }
    if cls ≠ 0 ∧ d.confirm ≤ n then applyFinding x cls s else s

/-- What the class of a dash does: in a stitch zone it is attributed to one head or to none (R280). -/
def attributeClass (x : Dash) (d : Decl) (cls : Nat) (s : State) : State :=
  match x.attribution s d with
  | .mine => takeClass x d cls s
  | .other => s
  | .nobody =>
    if cls = 0 then s
    else s.report 0x200A (logKey (some x.bar) (some x.slot) none none) 0 (leBytes 1 x.row ++ leBytes 4 x.col)

/-- LADDER_DASH (R279, R280): the firmware evaluates one dash from the window rows. A dash that no window row shows yet is left. -/
def execLadderDash (declaration bar slot row nozzle page : Nat) (s : State) : Result :=
  match s.keep.decls[declaration]? with
  | none => .next s
  | some d =>
    let x := dashOf s bar slot row nozzle page
    let fs := x.blocks s d
    match x.camera s with
    | none => .next s
    | some c =>
      if d.kind ≠ 0 ∨ !bit d.barMask bar ∨ 7 < bar ∨ 1 < row ∨ !s.fitted bar slot ∨ s.nozzles bar slot ≤ nozzle ∨ fs = [] then .next s
      else if x.skipped s d c fs then .next (s.count 28)
      else match x.measure s d with
      | none => .next s
      | some (a, m) =>
        let ref := x.twiceRef s d
        let (dev, s) := dashDeviates d a m s
        .next (attributeClass x d (dashClass d a ref dev) s)

/-! ## REG_MEASURE (R281, R282) -/

def regBegin (h : Hdr) (flags rep record : Nat) (s : State) : State :=
  if rep = 0 ∨ 64 < rep ∨ 1 < flags then s.finishLong h.ring h.tag (refuse stBadParam)
  else if s.keep.reg.isSome then s.finishLong h.ring h.tag (refuse stBusy)
  else
    let o : RegOp := { ring := h.ring, tag := h.tag, flags := flags, rep := rep, record := record, seen := [] }
    s.withKeep { s.keep with reg := some o }

/-- KEEP_CONFIG REG_MEASURE (R281). -/
def execRegMeasure (h : Hdr) (flags rep record : Nat) (s : State) : Result :=
  .next (hostLong (.regMeasure (unstarted h) flags rep record) h (cmdOf 0x00A0 4) (regBegin h flags rep record) s)

/-- What is measured of one bar: δA, δF and the pages used. -/
structure RegBar where
  dA : Int
  dF : Int
  pages : Nat
deriving DecidableEq, Repr

/-- The centroid of a bar's mark on a page: along the web in 1/256 line, across it in 1/256 column; none where no mark shows. The window
reaches half the mark's size beyond it (DESIGN CHOICE, log 93). -/
def markCentroid (s : State) (r : RegPage) (b : Nat) : Option (Int × Int) :=
  let d := r.decl
  let x : Int := (nth 0 d.x b : Nat)
  let k : Int := ((r.start + d.firstLine : Nat) : Int)
  let px := pixelsIn s (256 * k - 128 * d.dash) (256 * (k + d.dash) + 128 * d.dash) (65536 * x - 32768 * d.step)
    (65536 * (x + d.step) + 32768 * d.step)
  let dark (p : Int × Int × Nat) : Int := pixelDark s (p.2.1 / 65536 / 256).toNat p.2.2
  let a := sumInt (px.map dark)
  if !r.rows ∨ a ≤ 0 then none
  else some (quotient (sumInt (px.map (fun p => dark p * p.1))) a.toNat, quotient (sumInt (px.map (fun p => dark p * p.2.1))) (256 * a.toNat))

/-- δA and δF of a bar on a page. -/
def markOffset (s : State) (b : Nat) (r : RegPage) : Option (Int × Int) :=
  let d := r.decl
  if !bit d.barMask b then none
  else match markCentroid s r b, markCentroid s r d.refBar with
    | some m, some o => some (m.1 - o.1, m.2 - o.2 - 256 * ((nth 0 d.x b : Nat) - (nth 0 d.x d.refBar : Nat) : Int))
    | _, _ => none

/-- The averages over the pages that show the marks (R281). -/
def regBar (s : State) (pages : List RegPage) (b : Nat) : RegBar :=
  let l := pages.filterMap (markOffset s b)
  if l = [] then { dA := 0, dF := 0, pages := 0 }
  else { dA := quotient (sumInt (l.map (·.1))) l.length, dF := quotient (sumInt (l.map (·.2))) l.length, pages := l.length }

/-- One bar's 16 bytes, and with APPLY what is done for it (R281, R282). -/
def regResult (apply : Bool) (refBar : Nat) (m : Nat → RegBar) (r : State × List Byte) (b : Nat) : State × List Byte :=
  let (s, out) := r
  let m := m b
  let eligible := apply && decide (b ≠ refBar ∧ m.pages ≠ 0)
  let fits := shiftFits s b m.dA
  let applied := eligible && fits
  let press := eligible && (!fits || decide (roundDiv m.dF 256 ≠ 0))
  let flags := bitNat (m.pages = 0) + 2 * bitNat press + 4 * bitNat applied
  (if applied then takeShift s (b, m.dA) else s,
    out ++ leInt 4 m.dA ++ leInt 4 m.dF ++ leBytes 2 m.pages ++ leBytes 2 flags ++ [0, 0, 0, 0])

/-- The measurement ends: results at RECORD. -/
def regEnd (o : RegOp) (s : State) : State :=
  let refBar := (o.seen.head?.map (fun r => r.decl.refBar)).getD 0
  let m := regBar s o.seen
  let (s, out) := (List.range 8).foldl (regResult (bit o.flags 0) refBar m) (s.withKeep { s.keep with reg := none }, [])
  if s.host.linkUp then (s.dmaWrite o.record out).finishLong o.ring o.tag (refuse stOk)
  else s.finishLong o.ring o.tag (refuse stDataUe)

/-- The cameras have seen REPEAT registration pages: the last of them has passed every vision camera, or the clock stands. -/
def regSeen (s : State) (o : RegOp) : Bool :=
  decide (o.rep ≤ o.seen.length) && (!s.web.running || o.seen.all (fun r => !r.rows || visionPassed s (r.start + r.length)))

/-- REG_MEASURE_DONE (R281, R282). -/
def execRegMeasureDone (o : OpRef) (s : State) : Result :=
  .next (withOp o 0x00A0 (fun s => match s.keep.reg with
    | none => s
    | some x => if x.ring = o.ring ∧ x.tag = o.tag ∧ regSeen s x then regEnd x s else s) s)

end Sys2Proof.Machine
end

