-- ==== Sys2Proof/Machine/Network.lean ====
section
/-! DEFINITION. Machine/Network.lean: the two network paths (R385 to R389), the time base's sources and slews (R390, R393, R394),
TIME_CONFIG (R395, R396). -/

namespace Sys2Proof.Machine

open Sys2Proof

/-! ## Paths (R385, R386) -/

def State.netPort (s : State) (p : Nat) : NetPort := tget (fun _ => NetPort.reset) s.net.ports p

def State.withPort (s : State) (p : Nat) (x : NetPort) : State :=
  s.withNet { s.net with ports := tput (fun _ => NetPort.reset) s.net.ports p x }

def portUp (s : State) (p : Nat) : Bool := decide (p ≤ 1) && decide ((s.netPort p).mode ≠ 0) && (s.netPort p).up

def anyPortUp (s : State) : Bool := portUp s 0 || portUp s 1

/-- Counters of a path: 0 RX_FRAMES, 1 TX_FRAMES, 2 WRONG_LAN, 3 DUP_DISCARD, 4 RX_ERR, 5 FEC_UNCORRECTED, 6 LINK_DOWNS, 7 RX_OTHER; they
saturate (R396). -/
def countPort (p i : Nat) (s : State) : State :=
  let x := s.netPort p
  s.withPort p { x with counters := nput x.counters i (sat 4 (nget x.counters i + 1)) }

/-- A frame goes out on one path, when that is up. -/
def sendOn (p : Nat) (f : TxFrame) (s : State) : State :=
  if portUp s p then
    let s := countPort p 1 s
    s.withPort p { s.netPort p with lastTx := some f }
  else s

/-- LSDU size of a frame: the payload with the trailer's 6 bytes; 370 of a heartbeat. The length of the other frames, which other standards
set, is free (log 72). -/
def lsduSize : TxKind → Nat
  | .heartbeat _ _ payload => payload.length + 6
  | .supervision => Config.lsduSize 0
  | .arpReply _ => Config.lsduSize 1
  | .echoReply _ => Config.lsduSize 2
  | .delayReq _ _ => 0
  | .pdelayReq _ _ => 0
  | .pdelayResp _ _ => 0
  | .pdelayRespFollowUp _ _ => 0

/-- The trailer of the copy on a path: LAN identifier 0xA on path A and 0xB on path B (R387). -/
def trailerOf (k : TxKind) (seq p : Nat) : Trailer := { seq := seq, lan := 0xA + p, size := lsduSize k, suffix := 0x88FB }

/-- A frame other than a PTP message goes out on both paths with one sequence number (R387). -/
def sendBoth (k : TxKind) (s : State) : State :=
  let n := s.net.prpSeq
  let s := s.withNet { s.net with prpSeq := (n + 1) % 65536 }
  sendOn 1 { kind := k, trailer := some (trailerOf k n 1) } (sendOn 0 { kind := k, trailer := some (trailerOf k n 0) } s)

/-- NETWORK_PORT_LINK (R385): block lock, and FEC alignment lock under RS-FEC, gained or lost. -/
def execNetworkPortLink (path : Nat) (up : Bool) (t : Nat) (s : State) : Result :=
  let s := s.at t
  let x := s.netPort path
  if 1 < path ∨ x.mode = 0 ∨ x.up = up then .next s
  else
    let s := s.withPort path { x with up := up }
    .next (if up then s else countPort path 6 s)

/-- ARP_REQUEST (R386): answered for the device's own address. -/
def execArpRequest (path targetIp t : Nat) (s : State) : Result :=
  let s := s.at t
  .next (if portUp s path ∧ targetIp = s.net.ipv4 then sendBoth (.arpReply targetIp) s else s)

/-- ICMP_ECHO_REQUEST (R386). -/
def execIcmpEchoRequest (path targetIp t : Nat) (s : State) : Result :=
  let s := s.at t
  .next (if portUp s path ∧ targetIp = s.net.ipv4 then sendBoth (.echoReply targetIp) s else s)

/-! ## Parallel redundancy (R387, R388) -/

/-- PRP_SUPERVISION (R387): every 2 s. -/
def execPrpSupervision (t : Nat) (s : State) : Result :=
  let s := s.at t
  let due : Bool := match s.net.supervisedAt with
    | none => true
    | some x => decide (x + 2 * secT ≤ s.clk.elapsed)
  .next (if due && anyPortUp s then sendBoth .supervision (s.withNet { s.net with supervisedAt := some s.clk.elapsed }) else s)

/-- The entry with the oldest last frame. -/
def oldestEntry (l : List DupEntry) : Option DupEntry :=
  l.foldl (fun m e => match m with
    | none => some e
    | some x => if e.last < x.last then some e else m) none

/-- The duplicate-discard table after one more frame, and whether that is a second copy within 400 ms. -/
def dupCheck (now : Time) (source seq : Nat) (l : List DupEntry) : List DupEntry × Bool :=
  let fresh (x : Nat × Time) : Bool := decide (now < x.2 + 400 * msT)
  match l.find? (fun e => decide (e.source = source)) with
  | some e =>
    let seqs := e.seqs.filter fresh
    let dup := seqs.any (fun x => decide (x.1 = seq))
    let e' : DupEntry := { source := source, last := now, seqs := if dup then seqs else seqs ++ [(seq, now)] }
    (l.map (fun x => if x.source = source then e' else x), dup)
  | none =>
    let l := if l.length < 64 then l else match oldestEntry l with
      | none => l
      | some x => l.erase x
    (l ++ [{ source := source, last := now, seqs := [(seq, now)] }], false)

/-- The device uses a frame: ARP and echo requests for its address, supervision frames, heartbeats of its own press (R386). -/
def frameUsed (s : State) : RxContent → Bool
  | .arp ip => decide (ip = s.net.ipv4)
  | .echo ip => decide (ip = s.net.ipv4)
  | .supervision => true
  | .heartbeat press => match s.net.lead.config with
    | some c => decide (c.pressId = press)
    | none => false
  | .other => false
  | .damaged => false
  | .fecLost => false

/-- A frame of up to 1,536 bytes without errors is accepted: duplicates are discarded, and what is delivered and not used counts as RX_OTHER,
as a longer one does. -/
def acceptFrame (path source seq lan : Nat) (trailer : Bool) (length : Nat) (content : RxContent) (s : State) : State :=
  let s := countPort path 0 s
  if 1536 < length then countPort path 7 s
  else
    let s := if trailer ∧ lan ≠ 0xA + path then countPort path 2 s else s
    let (table, dup) := if trailer then dupCheck s.clk.elapsed source seq s.net.dup else (s.net.dup, false)
    let s := s.withNet { s.net with dup := table }
    if dup then countPort path 3 s else if frameUsed s content then s else countPort path 7 s

/-- PRP_FRAME_RECEIVE (R386, R388, R396): a frame other than a PTP message arrives; what it asks for comes with the row of its own. -/
def execPrpFrameReceive (path source seq lan : Nat) (trailer : Bool) (length : Nat) (content : RxContent) (t : Nat) (s : State) : Result :=
  let s := s.at t
  .next (if !portUp s path then s
    else match content with
      | .damaged => countPort path 4 s
      | .fecLost => if (s.netPort path).mode = 1 then countPort path 5 s else s
      | c => acceptFrame path source seq lan trailer length c s)

/-! ## Tracked domains and the source of the time base (R390, R393, R394) -/

def State.domain (s : State) (d : Nat) : PtpDomain := tget (fun _ => PtpDomain.reset) s.net.domains d

def State.withDomain (s : State) (d : Nat) (x : PtpDomain) : State :=
  s.withNet { s.net with domains := tput (fun _ => PtpDomain.reset) s.net.domains d x }

def PtpDomain.on (x : PtpDomain) : Bool := decide (x.number ≤ 127)

def TimeSource.code : TimeSource → Nat
  | .freeRun => 0
  | .tracked0 => 1
  | .tracked1 => 2
  | .holdover => 3

def trackedSource (d : Nat) : TimeSource := if d = 0 then .tracked0 else .tracked1

def tracking (s : State) : Bool := decide (s.clk.source = .tracked0 ∨ s.clk.source = .tracked1)

/-- The domain that disciplines the time base. -/
def disciplining (s : State) : Option Nat :=
  match s.clk.source with
  | .tracked0 => some 0
  | .tracked1 => some 1
  | _ => none

/-- The servo's latest estimate of the time base's offset from the domain's grandmaster, in 2^-16 ns. -/
def PtpDomain.estimateNow (x : PtpDomain) : Int := x.filtered.head?.getD 0

/-- The frequency correction that the servo of a domain has come to, in ppb. -/
def PtpDomain.freq (x : PtpDomain) : Int := Config.servoFreq x.bandwidth x.offsets

/-- What has been slewed in so far becomes part of the offset, and the rest is dropped. -/
def Clk.fold (c : Clk) : Clk :=
  match c.slew with
  | none => c
  | some (d, since) => { c with offset := c.offset + slewed d (c.elapsed - since), slew := none }

/-- The DCO's correction stays within 200 ppm (R390). -/
def clampRate (r : Int) : Int := max (-200000) (min 200000 r)

/-- The corrections of the last 60 s: those that began in them, and the one in force at their beginning. -/
def recentRates (now : Time) : List (Time × Int) → List (Time × Int)
  | [] => []
  | x :: l => if now ≤ x.1 + 60 * secT then x :: recentRates now l else [x]

/-- The DCO moves to a correction, at 1 ppm per ms while the line clock runs (R394), and at once otherwise. What it has added so far becomes
part of the offset. -/
def Clk.steer (c : Clk) (running : Bool) (r : Int) : Clk :=
  let r := clampRate r
  let span := c.elapsed - c.rateSince
  { c with
    offset := c.offset + dcoGain c.rateWas c.rate span, rateWas := if running then dcoRate c.rateWas c.rate span else r, rate := r,
    rateSince := c.elapsed, rates := recentRates c.elapsed ((c.elapsed, r) :: c.rates) }

/-- The sum of the corrections up to `stop`, each times the span for which it held since `start`. -/
def rateSum (start : Time) : Time → List (Time × Int) → Int
  | _, [] => 0
  | stop, x :: l => x.2 * (stop - max start x.1 : Nat) + rateSum start (min stop x.1) l

/-- The mean correction of the last 60 s, or since the first one (R390). -/
def Clk.meanRate (c : Clk) : Int :=
  let start := max (c.elapsed - 60 * secT) ((c.rates.getLast?.map (·.1)).getD c.elapsed)
  if c.elapsed ≤ start then c.rate else roundDiv (rateSum start c.elapsed c.rates) (c.elapsed - start)

/-- A step of the time base moves the outputs' instants: a ONCE instant passed over is cancelled and logged, a PERIODIC output goes on with
its first instant after the step (R399). -/
def stepTout (before : Nat) (s : State) (k : Nat) : State :=
  let x := s.tout k
  if x.prog.mode = 1 ∧ x.nextPulse ≠ 0 ∧ before < x.nextPulse ∧ x.nextPulse ≤ s.base then
    (s.withTout k { x with nextPulse := 0 }).report 0x3008 (logKey none none none none) k []
  else if x.prog.mode = 2 ∧ x.prog.period ≠ 0 then
    let n := if s.base < x.prog.start then x.prog.start else x.prog.start + ((s.base - x.prog.start) / x.prog.period + 1) * x.prog.period
    s.withTout k { x with nextPulse := n }
  else s

/-- The time base steps by d; instants of it that the line clock has noted step with it (R254). -/
def stepBase (d : Int) (s : State) : State :=
  let before := s.base
  let s := s.withClk { s.clk with offset := s.clk.offset + d, steps := s.clk.steps + 1 }
  let moved (t : Nat) : Nat := ((t : Int) + d).toNat
  let s := s.withWeb { s.web with history := s.web.history.map (fun x => (x.1, moved x.2.1, x.2.2)), stoppedAt := moved s.web.stoppedAt }
  let s := [0, 1].foldl (fun s k => s.withDomain k { s.domain k with
    offsets := (s.domain k).offsets.map (· + d), filtered := (s.domain k).filtered.map (· + d) }) s
  (List.range 8).foldl (stepTout before) s

/-- A difference is removed: slewed while the line clock runs, or where it is 1 µs or less; else stepped (R394). -/
def removeDifference (d : Int) (s : State) : State :=
  let s := s.withClk s.clk.fold
  if !s.web.running ∧ usT < d.natAbs then stepBase d s
  else if d = 0 then s
  else s.withClk { s.clk with slew := some (d, s.clk.elapsed) }

/-- The source of the time base changes, or its grandmaster: TIME_SWITCH, a log entry, and the difference between the two estimates is
removed. A time base that has never been set is set at once. -/
def switchSource (new : TimeSource) (d : Int) (s : State) : State :=
  let old := s.clk.source
  let fresh := decide (old = .freeRun) && !s.clk.taiValid
  let valid := s.clk.taiValid || decide (new = .tracked0 ∨ new = .tracked1)
  let s := s.withClk { s.clk with source := new, taiValid := valid }
  let s := (s.raise 15).report 0x3009 (logKey none none none none) 0 (leBytes 1 old.code ++ leBytes 1 new.code ++ leInt 8 d)
  let s := s.withClk (s.clk.steer s.web.running (match new with
    | .tracked0 => (s.domain 0).freq
    | .tracked1 => (s.domain 1).freq
    | .holdover => s.clk.meanRate
    | .freeRun => 0))
  if fresh then stepBase d (s.withClk s.clk.fold) else removeDifference d s

/-- The difference between the estimate of a domain and that of what disciplines the time base now, measured from the time base as it stands. -/
def differenceTo (s : State) (d : Nat) : Int :=
  (match disciplining s with
    | none => 0
    | some o => (s.domain o).estimateNow) - (s.domain d).estimateNow

/-- R393: PREFER disciplines while it holds an estimate, and the other domain otherwise; a preferred domain that has regained its
estimate while the other disciplines takes over after 10 s. -/
def selectSource (s : State) : State :=
  let holds (d : Nat) : Bool := (s.domain d).estimate
  let p := s.clk.prefer
  let other := 1 - p
  let switch (d : Nat) : State := if s.clk.source = trackedSource d then s else switchSource (trackedSource d) (differenceTo s d) s
  if holds p ∧ !(s.clk.source = trackedSource other ∧ holds other ∧ s.clk.elapsed < (s.domain p).heldSince + 10 * secT) then switch p
  else if holds other then switch other
  else if tracking s then switchSource .holdover 0 s
  else s

/-- PREFERRED_DOMAIN_RETURN (R393). -/
def execPreferredDomainReturn (t : Nat) (s : State) : Result := .next (selectSource (s.at t))

/-- TIME_SLEW_END (R394): D has been slewed out. -/
def execTimeSlewEnd (t : Nat) (s : State) : Result :=
  let s := s.at t
  match s.clk.slew with
  | none => .next s
  | some (d, since) => .next (if d.natAbs ≤ (s.clk.elapsed - since) / 100000 then s.withClk s.clk.fold else s)

/-! ## TIME_CONFIG (R395, R396) -/

def setMode (p mode : Nat) (s : State) : State :=
  let x := s.netPort p
  if x.mode = mode then s else s.withPort p { x with mode := mode, up := false }

def netBody (modeA modeB vlan ipv4 netmask : Nat) (s : State) : State × Answer :=
  let same := decide ((s.netPort 0).mode = modeA ∧ (s.netPort 1).mode = modeB ∧ s.net.vlan = vlan ∧ s.net.ipv4 = ipv4 ∧ s.net.netmask = netmask)
  if 3 < modeA ∨ 3 < modeB ∨ bit vlan 12 then (s, refuse stBadParam)
  else if s.dev ≠ .idle ∧ !same then (s, refuse stWrongState)
  else
    let s := setMode 1 modeB (setMode 0 modeA s)
    (s.withNet { s.net with vlan := vlan, ipv4 := ipv4, netmask := netmask }, refuse stOk)

/-- TIME_CONFIG NET (R385, R395). -/
def execTimeConfigNet (h : Hdr) (modeA modeB vlan ipv4 netmask : Nat) (s : State) : Result :=
  .next (hostCmd (.timeConfigNet (unstarted h) modeA modeB vlan ipv4 netmask) h (cmdOf 0x00D0 0)
    (netBody modeA modeB vlan ipv4 netmask) s)

def domainBody (index number transport delay bandwidth : Nat) (asymA asymB : Int) (s : State) : State × Answer :=
  if 1 < index ∨ (127 < number ∧ number ≠ 0xFF) ∨ 1 < transport ∨ 1 < delay ∨ 3 < bandwidth then (s, refuse stBadParam)
  else
    let x := s.domain index
    if x.number = number ∧ x.transport = transport ∧ x.delayMech = delay ∧ x.bandwidth = bandwidth ∧ x.asymA = asymA ∧ x.asymB = asymB then
      (s, refuse stOk)
    else
      let x : PtpDomain := { PtpDomain.reset with number := number, transport := transport, delayMech := delay, bandwidth := bandwidth,
                                                  asymA := asymA, asymB := asymB, txSeq := x.txSeq }
      (selectSource (s.withDomain index x), refuse stOk)

/-- TIME_CONFIG DOMAIN (R395): a domain that changes loses its estimate. -/
def execTimeConfigDomain (h : Hdr) (index number transport delay bandwidth : Nat) (asymA asymB : Int) (s : State) : Result :=
  .next (hostCmd (.timeConfigDomain (unstarted h) index number transport delay bandwidth asymA asymB) h (cmdOf 0x00D0 1)
    (domainBody index number transport delay bandwidth asymA asymB) s)

def preferBody (index : Nat) (s : State) : State × Answer :=
  if 1 < index then (s, refuse stBadParam)
  else (selectSource (s.withClk { s.clk with prefer := index }), refuse stOk)

/-- TIME_CONFIG PREFER (R393). -/
def execTimeConfigPrefer (h : Hdr) (index : Nat) (s : State) : Result :=
  .next (hostCmd (.timeConfigPrefer (unstarted h) index) h (cmdOf 0x00D0 2) (preferBody index) s)

def setTimeBody (sec ns : Nat) (s : State) : State × Answer :=
  if tracking s ∨ s.web.running then (s, refuse stWrongState)
  else if 999999999 < ns then (s, refuse stBadParam)
  else
    let s := s.withClk s.clk.fold
    let d : Int := ((sec * secT + ns * nsT : Nat) : Int) - (s.base : Int)
    ((stepBase d s).withClk { (stepBase d s).clk with taiValid := true }, refuse stOk)

/-- TIME_CONFIG SET_TIME (R390, R395). -/
def execSetTime (h : Hdr) (sec ns : Nat) (s : State) : Result :=
  .next (hostCmd (.setTime (unstarted h) sec ns) h (cmdOf 0x00D0 3) (setTimeBody sec ns) s)

/-- STATE of a domain (R396). -/
def PtpDomain.stateCode (x : PtpDomain) : Nat := if !x.on then 0 else if x.selected.isNone then 1 else if x.estimate then 3 else 2

/-- The delay in force: that of the selected master's path. -/
def PtpDomain.delayNow (x : PtpDomain) : Option Nat :=
  match x.selected with
  | none => none
  | some a => tget (fun _ => none) x.delays a.path

/-- The 28 bytes of a tracked domain. -/
def domainStatus (s : State) (d : Nat) : List Byte :=
  let x := s.domain d
  let gm := match x.selected with
    | none => 0
    | some a => a.gmIdentity
  let path := match x.selected with
    | none => 0
    | some a => a.path
  let age := match x.syncAt with
    | none => 0
    | some t => (s.clk.elapsed - t) / msT
  leBytes 8 gm ++ leBytes 1 x.stateCode ++ leBytes 1 path ++ [0, 0] ++ leInt 4 (roundDiv x.estimateNow nsT)
    ++ leBytes 4 (x.delayNow.getD 0 / nsT) ++ leInt 4 x.freq ++ leBytes 4 age

def netLinks (s : State) : Nat := bitNat (portUp s 0) + 2 * bitNat (portUp s 1)

def netStatus (s : State) : List Byte :=
  let counters (p : Nat) : List Byte := (List.range 8).flatMap (fun i => leBytes 4 (nget (s.netPort p).counters i))
  leBytes 6 Config.macAddress ++ leBytes 1 (netLinks s) ++ [0] ++ counters 0 ++ counters 1 ++ domainStatus s 0 ++ domainStatus s 1

def netStatusBody (dest : Nat) (s : State) : State × Answer :=
  if !s.host.linkUp then (s, refuse stDataUe) else (s.dmaWrite dest (netStatus s), refuse stOk)

/-- TIME_CONFIG STATUS (R396). -/
def execTimeConfigStatus (h : Hdr) (dest : Nat) (s : State) : Result :=
  .next (hostCmd (.timeConfigStatus (unstarted h) dest) h (cmdOf 0x00D0 4) (netStatusBody dest) s)

end Sys2Proof.Machine
end

