-- ==== Sys2Proof/Machine/Ptp.lean ====
section
/-! DEFINITION. Machine/Ptp.lean: PTP messages of the tracked domains: master selection, delay measurement, the servo's estimate (R391,
R392). -/

namespace Sys2Proof.Machine

open Sys2Proof

/-! ## Reception -/

/-- A PTP message of a tracked domain arrives on a path that is up; one of no tracked domain counts as RX_OTHER. -/
def ptpReceive (domain path t : Nat) (f : PtpDomain → State → State) (s : State) : Result :=
  let s := s.at t
  if !portUp s path then .next s
  else
    let s := countPort path 0 s
    .next (if domain ≤ 1 ∧ (s.domain domain).on then f (s.domain domain) s else countPort path 7 s)

/-- The message comes from the selected master, on its path. -/
def fromMaster (x : PtpDomain) (path sender : Nat) : Bool :=
  match x.selected with
  | none => false
  | some a => decide (a.path = path ∧ a.sender = sender)

/-! ## Estimates (R392) -/

/-- A domain loses its estimate; R393 chooses again. -/
def loseEstimate (d : Nat) (s : State) : State :=
  let x := s.domain d
  selectSource (s.withDomain d { x with estimate := false, offsets := [], filtered := [] })

/-- R392: the filtered offset has stayed within 1 µs, that is no two of the last 16 differ by more (DEDUCED, log 12), with a master and a
delay. -/
def holdsEstimate (x : PtpDomain) : Bool :=
  x.selected.isSome && x.delayNow.isSome && decide (x.filtered.length = 16)
    && x.filtered.all (fun v => x.filtered.all (fun w => decide ((v - w).natAbs ≤ usT)))

/-- One measured offset goes through the servo. A tracked domain that disciplines the time base corrects it. -/
def takeOffset (d : Nat) (off : Int) (s : State) : State :=
  let x := s.domain d
  let offsets := (off :: x.offsets).take 16
  let x := { x with offsets := offsets, filtered := (Config.servoOffset x.bandwidth offsets :: x.filtered).take 16 }
  let held := holdsEstimate x
  let s := s.withDomain d { x with estimate := held, heldSince := if held ∧ !x.estimate then s.clk.elapsed else x.heldSince }
  let s := if disciplining s = some d ∧ held then
      s.withClk ({ s.clk with offset := s.clk.offset + Config.servoCorrection x.bandwidth offsets }.steer s.web.running x.freq)
    else s
  if held ≠ x.estimate then selectSource s else s

/-- The correction of a path's asymmetry, in 2^-16 ns (from ps). -/
def PtpDomain.asym (x : PtpDomain) (path : Nat) : Int := roundDiv ((if path = 0 then x.asymA else x.asymB) * 65536) 1000

/-- A Sync with its origin is complete: the offset, where a delay has been measured. -/
def syncComplete (d path origin arrival : Nat) (s : State) : State :=
  let x := { s.domain d with syncOrigin := origin, syncArrival := arrival, pendingSync := none }
  let s := s.withDomain d x
  match x.delayNow with
  | none => s
  | some delay => takeOffset d ((arrival : Int) - origin - delay - x.asym path) s

/-! ## Master selection (R391) -/

/-- What the default best master clock algorithm compares, in its order; on a tie, path A. -/
def announceKey (a : Announce) : List Nat :=
  [a.priority1, a.clockClass, a.clockAccuracy, a.variance, a.priority2, a.gmIdentity, a.stepsRemoved, a.sender, a.path]

def lexLess : List Nat → List Nat → Bool
  | x :: xs, y :: ys => if x < y then true else if y < x then false else lexLess xs ys
  | [], _ :: _ => true
  | _, [] => false

/-- The best of the qualified masters. -/
def bestMaster (l : List Master) : Option Announce :=
  (l.filter (fun m => m.qualified)).foldl (fun b m => match b with
    | none => some m.announce
    | some x => if lexLess (announceKey m.announce) (announceKey x) then some m.announce else b) none

/-- An Announce has not timed out: fewer than three intervals have passed. -/
def Master.live (m : Master) (now : Time) : Bool := decide (now < m.last + 3 * m.announce.interval)

/-- The domain selects its master; a change of grandmaster identity is a loss of the estimate. -/
def selectMaster (d : Nat) (s : State) : State :=
  let x := s.domain d
  let new := bestMaster (x.masters.filter (fun m => m.live s.clk.elapsed))
  let gm (a : Option Announce) : Option Nat := a.map (·.gmIdentity)
  let s := s.withDomain d { x with selected := new }
  if gm new = gm x.selected then s else loseEstimate d s

/-- The masters heard, after one more Announce. A sender qualifies with a second one within four intervals. -/
def hearMaster (now : Time) (a : Announce) (l : List Master) : List Master :=
  let same (m : Master) : Bool := decide (m.announce.path = a.path ∧ m.announce.sender = a.sender)
  match l.find? same with
  | some m => l.map (fun y => if y = m then { announce := a, last := now, qualified := m.qualified || decide (now ≤ m.last + 4 * a.interval) } else y)
  | none => l ++ [{ announce := a, last := now, qualified := false }]

/-- PTP_ANNOUNCE (R391). -/
def execPtpAnnounce (a : Announce) (t : Nat) (s : State) : Result :=
  ptpReceive a.domain a.path t (fun x s =>
    selectMaster a.domain (s.withDomain a.domain { x with masters := hearMaster s.clk.elapsed a x.masters })) s

/-! ## Sync and Follow_Up -/

/-- The interval that a Sync states. -/
def syncSpan (n : Nat) : Nat := secT * 2 ^ n / 128

/-- PTP_SYNC (R391, R392): one-step, or two-step with a Follow_Up to come. -/
def execPtpSync (domain path sender seq origin arrival logInterval : Nat) (twoStep : Bool) (t : Nat) (s : State) : Result :=
  ptpReceive domain path t (fun x s =>
    if !fromMaster x path sender then s
    else
      let s := s.withDomain domain { x with syncAt := some s.clk.elapsed, syncInterval := syncSpan logInterval,
                                            pendingSync := if twoStep then some (path, seq, arrival) else none }
      if twoStep then s else syncComplete domain path origin arrival s) s

/-- PTP_FOLLOW_UP (R391). -/
def execPtpFollowUp (domain path sender seq origin t : Nat) (s : State) : Result :=
  ptpReceive domain path t (fun x s =>
    match x.pendingSync with
    | none => s
    | some (p, n, arrival) => if fromMaster x path sender ∧ p = path ∧ n = seq then syncComplete domain path origin arrival s else s) s

/-! ## Delay (R391) -/

def setDelay (d path : Nat) (delay : Int) (s : State) : State :=
  let x := s.domain d
  s.withDomain d { x with delays := tput (fun _ => none) x.delays path (some delay.toNat) }

/-- DELAY_REQ_SEND (R391): in an end-to-end domain, to the selected master on its path. -/
def execDelayReqSend (domain path t : Nat) (s : State) : Result :=
  let s := s.at t
  let x := s.domain domain
  let toMaster : Bool := match x.selected with
    | none => false
    | some a => decide (a.path = path)
  if 1 < domain ∨ !x.on ∨ x.delayMech ≠ 0 ∨ !toMaster ∨ x.syncAt.isNone ∨ !portUp s path then .next s
  else
    let s := s.withDomain domain { x with delayReq := some (x.txSeq, path, s.base), txSeq := (x.txSeq + 1) % 65536 }
    .next (sendOn path { kind := .delayReq domain x.txSeq, trailer := none } s)

/-- PTP_DELAY_RESP (R391): half of the two ways together, master to device of the latest Sync and device to master. -/
def execPtpDelayResp (domain path sender seq received t : Nat) (s : State) : Result :=
  ptpReceive domain path t (fun x s =>
    match x.delayReq with
    | none => s
    | some (n, p, sent) =>
      if n ≠ seq ∨ p ≠ path ∨ !fromMaster x path sender then s
      else
        let s := s.withDomain domain { x with delayReq := none }
        setDelay domain path ((((x.syncArrival : Int) - x.syncOrigin) + ((received : Int) - sent)) / 2) s) s

/-- PDELAY_REQ_SEND (R391): every 1 s in a peer-to-peer domain. -/
def execPdelayReqSend (domain path t : Nat) (s : State) : Result :=
  let s := s.at t
  let x := s.domain domain
  let due : Bool := match tget (fun _ => none) x.pdelayReq path with
    | none => true
    | some (_, _, at_) => decide (at_ + secT ≤ s.clk.elapsed)
  if 1 < domain ∨ !x.on ∨ x.delayMech ≠ 1 ∨ !due ∨ !portUp s path then .next s
  else
    let s := s.withDomain domain { x with
      pdelayReq := tput (fun _ => none) x.pdelayReq path (some (x.txSeq, s.base, s.clk.elapsed))
      pdelayRx := tput (fun _ => none) x.pdelayRx path none, txSeq := (x.txSeq + 1) % 65536 }
    .next (sendOn path { kind := .pdelayReq domain x.txSeq, trailer := none } s)

/-- PTP_PDELAY_REQ (R391): answered with a two-step response. -/
def execPtpPdelayReq (domain path _sender seq t : Nat) (s : State) : Result :=
  ptpReceive domain path t (fun x s =>
    if x.delayMech ≠ 1 then s
    else sendOn path { kind := .pdelayRespFollowUp domain seq, trailer := none }
      (sendOn path { kind := .pdelayResp domain seq, trailer := none } s)) s

/-- PTP_PDELAY_RESP (R391): the response brings the receipt stamp of the request, its follow-up the stamp of the response, and with it the
delay: half of what the answer took beyond the answering side's own time. -/
def execPtpPdelayResp (domain path _sender seq : Nat) (followUp : Bool) (stamp t : Nat) (s : State) : Result :=
  ptpReceive domain path t (fun x s =>
    match tget (fun _ => none) x.pdelayReq path with
    | none => s
    | some (n, sent, _) =>
      if n ≠ seq then s
      else if !followUp then
        s.withDomain domain { x with pdelayRx := tput (fun _ => none) x.pdelayRx path (some (stamp, s.base)) }
      else match tget (fun _ => none) x.pdelayRx path with
        | none => s
        | some (received, arrival) =>
          let s := s.withDomain domain { x with pdelayRx := tput (fun _ => none) x.pdelayRx path none }
          setDelay domain path ((((arrival : Int) - sent) - ((stamp : Int) - received)) / 2) s) s

/-! ## Loss (R392) -/

/-- The Announce of the selected master has timed out. -/
def masterSilent (s : State) (x : PtpDomain) : Bool :=
  match x.selected with
  | none => false
  | some a => !x.masters.any (fun m => decide (m.announce.path = a.path ∧ m.announce.sender = a.sender) && m.live s.clk.elapsed)

/-- No Sync has come in four Sync intervals. -/
def syncSilent (s : State) (x : PtpDomain) : Bool :=
  match x.syncAt with
  | none => false
  | some t => decide (t + 4 * x.syncInterval ≤ s.clk.elapsed)

/-- PTP_ESTIMATE_LOSS (R392). -/
def execPtpEstimateLoss (domain t : Nat) (s : State) : Result :=
  let s := s.at t
  let x := s.domain domain
  if 1 < domain then .next s
  else if masterSilent s x then
    let s := s.withDomain domain { x with masters := x.masters.filter (fun m => m.live s.clk.elapsed) }
    .next (loseEstimate domain (selectMaster domain s))
  else .next (if syncSilent s x then loseEstimate domain s else s)

end Sys2Proof.Machine
end

