-- ==== Sys2Proof/Machine/Lead.lean ====
section
/-! DEFINITION. Machine/Lead.lean: the lead role, heartbeats, the lease, arbitration, handoff and what a lead tells the press (R245 to
R247, R400 to R412). -/

namespace Sys2Proof.Machine

open Sys2Proof

def State.withLead (s : State) (x : LeadUnit) : State := s.withNet { s.net with lead := x }

/-- The device's own index in the press. -/
def ownIndex (s : State) : Nat :=
  match s.press with
  | none => 0
  | some p => p.index

def State.peer (s : State) (i : Nat) : Option Peer := tget (fun _ => none) s.net.lead.peers i

/-! ## Health (R404) -/

def heardSince (s : State) (limit : Time) (t : Option Time) : Bool :=
  match t with
  | none => false
  | some x => decide (s.clk.elapsed ≤ x + limit)

/-- A valid heartbeat of the device has come on some path within the last 6 ms. -/
def heardPeer (s : State) (i : Nat) : Bool :=
  match s.peer i with
  | none => false
  | some x => heardSince s (6 * msT) x.lastA || heardSince s (6 * msT) x.lastB

/-- HEALTHY (R404). -/
def healthy (s : State) : Bool :=
  decide (s.dev ∈ [.idle, .armed, .run, .drain]) && tracking s
    && (List.range 4).all (fun i => (s.peer i).isNone || heardPeer s i)

/-- HEALTH_S restarts when HEALTHY clears. -/
def noteHealth (s : State) : State :=
  s.withLead { s.net.lead with healthySince := if healthy s then some (s.net.lead.healthySince.getD s.clk.elapsed) else none }

def healthSeconds (s : State) : Nat :=
  match s.net.lead.healthySince with
  | none => 0
  | some t => (s.clk.elapsed - t) / secT

/-! ## The heartbeat payload (R402) -/

/-- The next page positions: those fixed and not yet placed, and those that follow. -/
def positionsAhead (s : State) : Nat → Option PagePos → List PagePos
  | 0, _ => []
  | _, none => []
  | n + 1, some p => p :: positionsAhead s n (following s p)

def nextPositions (s : State) : List PagePos :=
  if s.dev = .run ∨ s.dev = .drain ∨ s.run.startArmed then
    (s.run.pages.filter (fun p => !p.placed) ++ positionsAhead s 8 (nextPos s)).take 8
  else []

def pendingBytes (p : PagePos) : List Byte := leBytes 8 p.start ++ leBytes 4 p.pageIndex ++ leBytes 2 p.seqEntry ++ [0, 0]

/-- P_ENC as an update shows it, as in the run record. -/
def pEncOut (s : State) : PEnc → Nat × State
  | .value num den => (roundDivNat num (max 1 den), s)
  | _ => s.draw (2 ^ 64)

/-- UPDATE. -/
def updateBytes (s : State) : List Byte × State :=
  match s.net.lead.leadUpdate with
  | none => (List.replicate 32 0, s)
  | some u =>
    let (e, s) := pEncOut s u.pEnc
    (leBytes 2 u.seq ++ leBytes 6 0 ++ leBytes 8 u.effective ++ leBytes 8 u.period ++ leBytes 8 e, s)

/-- START_REC. -/
def startBytes (s : State) : List Byte :=
  if s.net.lead.startRec then
    taiBytes s.run.tRun ++ leBytes 4 s.run.leadIn ++ leBytes 4 s.run.firstPage ++ leBytes 8 s.run.p0 ++ [0, 0, 0, 0]
  else List.replicate 32 0

/-- FLAGS. -/
def hbFlags (s : State) (c : LeadConfig) : Nat :=
  let L := s.net.lead
  let isLead := decide (L.role = .lead)
  bitNat L.release + 2 * bitNat c.eligible + 4 * bitNat c.home + 8 * bitNat (healthy s)
    + 16 * bitNat (L.stopReq.isSome && !isLead) + 32 * bitNat (isLead && L.startRec) + 64 * bitNat (isLead && L.stopAt.isSome)
    + 128 * bitNat (isLead && L.stopNow)

/-- What only the lead fills: UPDATE, START_REC, RUN_RECORD, PENDING; and the handoff fields. -/
def leadBytes (s : State) : List Byte × State :=
  if s.net.lead.role = .lead then
    let (u, s) := updateBytes s
    (u ++ startBytes s ++ padTo 96 (s.boot.checkpoint.runRecord.getD []) ++ padTo 128 ((nextPositions s).flatMap pendingBytes), s)
  else (List.replicate 288 0, s)

/-- The 364 bytes of the heartbeat that the device sends. -/
def heartbeatPayload (s : State) (c : LeadConfig) : List Byte × State :=
  let L := s.net.lead
  let handoff := if L.role = .lead then L.handoff else none
  let dst := match handoff with
    | none => 0xFF
    | some h => h.target
  let stopB := if L.role = .lead then L.stopAt.getD 0 else L.stopReq.getD 0
  let (lead, s) := leadBytes s
  let body := leBytes 4 c.pressId ++ leBytes 1 1 ++ leBytes 1 (ownIndex s) ++ leBytes 1 L.role.code ++ leBytes 1 s.dev.code
    ++ leBytes 4 L.hbSeq ++ leBytes 4 (if L.role = .none then 0 else L.epoch)
    ++ (if L.role = .lead then taiBytes L.leaseEnd else leBytes 12 0) ++ leBytes 1 (hbFlags s c) ++ leBytes 1 (netLinks s)
    ++ leBytes 2 (sat 2 (healthSeconds s)) ++ leBytes 8 s.web.webPos ++ taiBytes s.base ++ leBytes 1 dst ++ leBytes 3 0 ++ leBytes 8 stopB
    ++ lead ++ leBytes 8 (match handoff with
      | none => 0
      | some h => h.boundary)
  (body ++ leBytes 4 (crc32c body), s)

/-! ## Changing the role (R405 to R409) -/

/-- LEAD_CHANGE, with its log entry. -/
def leadChange (i epoch : Nat) (s : State) : State :=
  (s.raise 10).report 0x300B (logKey none none none none) 0 (leBytes 1 i ++ leBytes 4 epoch)

/-- The lead ends the run at a boundary that a follower asks for: that one while it is 10 ms ahead, else, with no end yet, the next that
is (R412). -/
def adoptStop (b : Nat) (s : State) : State :=
  if s.dev ≠ .run ∧ s.dev ≠ .drain then s
  else if stopAhead s b then (if earlierEnd s b then stopAtBoundary b s else s)
  else if s.run.stop = .none then stopAtBoundary (endOfPage s) s
  else s

/-- The device takes the lead with an epoch: its lease begins now, and its trim windows start anew (R245, R406, R408, R409). -/
def becomeLead (epoch : Nat) (s : State) : State :=
  let L := s.net.lead
  let stopAt := match s.run.stop with
    | .atBoundary b => some b
    | _ => none
  let s := s.withLead { L with
    role := .lead, epoch := epoch, epochSeen := max L.epochSeen epoch, leaseEnd := s.base + 40 * msT, renewedAt := s.clk.elapsed
    leadIndex := some (ownIndex s), release := false, verdictEpoch := none, handoff := none, stopAt := stopAt, stopNow := false
    startRec := false }
  let s := s.withWeb { s.web with windowStart := s.base, encoders := s.web.freshEncoders }
  let s := leadChange (ownIndex s) epoch s
  let s := if s.web.motion.trim = 1 then s else s.report 0x3004 (logKey none none none none) 0 []
  match s.net.lead.stopReq with
  | some b => adoptStop b s
  | none => s

/-- The device follows a lead; LEAD_CHANGE the first time. A verdict of an epoch that a lead holds has been overtaken. -/
def followLead (i epoch leaseEnd : Nat) (s : State) : State :=
  let L := s.net.lead
  let known := decide (L.role = .follower ∧ L.leadIndex = some i)
  let verdict := match L.verdictEpoch with
    | some e => if e ≤ epoch then none else some e
    | none => none
  let s := s.withLead { L with
    role := .follower, leadIndex := some i, epoch := epoch, epochSeen := max L.epochSeen epoch, leaseEnd := leaseEnd, release := false
    verdictEpoch := verdict }
  if known then s else leadChange i epoch s

/-- A handoff takes effect: the old lead's lease ends, and the target's begins with EPOCH plus 1 (R409). -/
def applyHandoff (dst : Nat) (s : State) : State :=
  let epoch := s.net.lead.epoch + 1
  if dst = ownIndex s then becomeLead epoch s
  else
    let at_ := if s.net.lead.role = .lead then some s.clk.elapsed else s.net.lead.transferAt
    let s := s.withLead { s.net.lead with handoff := none, transferAt := at_ }
    followLead dst epoch (s.base + 40 * msT) s

/-- The first page boundary whose tick lies at least 10 ms ahead. -/
def handoffBoundary (s : State) : Nat :=
  match findBoundary s (10 * msT / max 1 s.web.period + 8)
      (fun x => decide (s.web.webPos < x.pos ∧ s.base + 10 * msT ≤ tickAt s x.pos)) (fun _ => false) with
  | some b => b.pos
  | none => (stopBoundary s).getD 0

/-- The lead announces a handoff. -/
def startHandoff (dst : Nat) (s : State) : State :=
  s.withLead { s.net.lead with handoff := some { target := dst, boundary := if s.web.running then handoffBoundary s else 0 } }

/-- A handoff's target: an eligible, HEALTHY follower heard within the last 6 ms. -/
def mayLead (s : State) (i : Nat) : Bool :=
  match s.peer i with
  | none => false
  | some x => decide (x.role = 2) && bit x.flags 1 && bit x.flags 3 && heardPeer s i

/-! ## Host commands -/

def leadConfigBody (home switchBack eligible pressId groupMac : Nat) (s : State) : State × Answer :=
  if s.net.lead.role = .solo ∨ s.press.isNone then (s, refuse stWrongState)
  else if 1 < home ∨ 1 < switchBack ∨ 1 < eligible ∨ pressId = 0 then (s, refuse stBadParam)
  else
    let c : LeadConfig := { home := decide (home = 1), manual := decide (switchBack = 1), eligible := decide (eligible = 1),
                            pressId := pressId, groupMac := groupMac }
    (s.withLead { s.net.lead with config := some c, hbLast := some ((s.base - 250 * usT * ownIndex s) / msT) }, refuse stOk)

/-- LEAD_CONFIG (R400, R401). -/
def execLeadConfig (h : Hdr) (home switchBack eligible pressId groupMac : Nat) (s : State) : Result :=
  .next (hostCmd (.leadConfig (unstarted h) home switchBack eligible pressId groupMac) h (cmdOf 0x00E0 0)
    (leadConfigBody home switchBack eligible pressId groupMac) s)

def leadTransferBody (h : Hdr) (toIndex : Nat) (orphan : Bool) (s : State) : State × Option Answer :=
  if s.net.lead.role ≠ .lead then (s, some (refuse stWrongState))
  else if !mayLead s toIndex then (s, some (refuse stLeadDenied))
  else if s.net.lead.handoff.isSome then (s, some (refuse stBusy))
  else
    let s := startHandoff toIndex (s.withLead { s.net.lead with autoSuspended := false, transferAt := none })
    (s.addWait orphan h (cmdOf 0x00E1 0) (.leadTransfer toIndex (s.net.lead.epoch + 1)), none)

/-- LEAD_TRANSFER (R400, R409). -/
def execLeadTransfer (h : Hdr) (toIndex : Nat) (s : State) : Result :=
  .next (hostWait (.leadTransfer (unstarted h) toIndex) h (cmdOf 0x00E1 0) (leadTransferBody h toIndex) s)

def isTransfer (w : Wait) : Bool :=
  match w.kind with
  | .leadTransfer _ _ => true
  | _ => false

/-- LEAD_TRANSFER_TIMEOUT (R409): 100 ms after the handoff. -/
def execLeadTransferTimeout (t : Nat) (s : State) : Result :=
  let s := s.at t
  match s.net.lead.transferAt, s.host.waits.find? isTransfer with
  | some x, some w =>
    .next (if x + 100 * msT ≤ s.clk.elapsed then
        ((s.withLead { s.net.lead with transferAt := none }).endWait w (refuse stTimeout)).settle w.ring
      else s)
  | _, _ => .next s

/-- The home lead that the device knows of. -/
def homeIndex (s : State) : Option Nat :=
  match s.net.lead.config with
  | some c => if c.home then some (ownIndex s) else (List.range 4).find? (fun i => match s.peer i with
    | some x => bit x.flags 2
    | none => false)
  | none => none

/-- The device holds an unexpired lease of another device. -/
def foreignLease (s : State) : Bool :=
  match s.net.lead.leadIndex with
  | some i => decide (i ≠ ownIndex s ∧ s.base < s.net.lead.leaseEnd)
  | none => false

/-- A lead releases the role: it shows RELEASE and ROLE FOLLOWER (R408). -/
def releaseLead (s : State) : State :=
  if s.net.lead.role ≠ .lead then s
  else
    let at_ := if s.net.lead.handoff.isSome then some s.clk.elapsed else s.net.lead.transferAt
    s.withLead { s.net.lead with role := .follower, release := true, leadIndex := none, handoff := none, transferAt := at_ }

def verdictBody (leadIndex epoch : Nat) (s : State) : State × Answer :=
  let L := s.net.lead
  if L.role = .solo ∨ s.press.isNone then (s, refuse stWrongState)
  else if (3 < leadIndex ∧ leadIndex ≠ 0xFF) ∨ epoch ≤ L.epochSeen then (s, refuse stBadParam)
  else
    let named := decide (leadIndex ≤ 3)
    let s := s.withLead { L with verdictNone := !named, verdictEpoch := none
                                 autoSuspended := named && decide (homeIndex s ≠ some leadIndex) }
    if leadIndex ≠ ownIndex s then (releaseLead s, refuse stOk)
    else if s.net.lead.role = .lead then
      (s.withLead { s.net.lead with epoch := epoch, epochSeen := epoch, handoff := none
                                    leaseEnd := s.base + 40 * msT, renewedAt := s.clk.elapsed }, refuse stOk)
    else if foreignLease s then (s.withLead { s.net.lead with verdictEpoch := some epoch }, refuse stOk)
    else (becomeLead epoch s, refuse stOk)

/-- ARBITER_VERDICT (R400, R408). -/
def execArbiterVerdict (h : Hdr) (leadIndex epoch : Nat) (s : State) : Result :=
  .next (hostCmd (.arbiterVerdict (unstarted h) leadIndex epoch) h (cmdOf 0x00E2 0) (verdictBody leadIndex epoch) s)

/-! ## Sending (R402) -/

/-- The millisecond of the latest instant at which the device sends. -/
def hbInstant (s : State) : Nat := (s.base - 250 * usT * ownIndex s) / msT

/-- One heartbeat goes out. A handoff with HANDOFF_B 0 takes effect with the heartbeat that announces it. -/
def sendHeartbeat (c : LeadConfig) (s : State) : State :=
  let s := noteHealth s
  let (payload, s) := heartbeatPayload s c
  let L := s.net.lead
  let s := s.traceRec 7 (Config.traceUnit 7) (leBytes 4 L.hbSeq ++ leBytes 1 (ownIndex s) ++ leBytes 1 L.role.code ++ [0, 0])
  let s := sendBoth (.heartbeat c.groupMac s.net.vlan payload)
    (s.withLead { L with hbSeq := (L.hbSeq + 1) % 2 ^ 32, hbLast := some (hbInstant s) })
  match s.net.lead.handoff with
  | some h => if s.net.lead.role = .lead ∧ h.boundary = 0 then applyHandoff h.target s else s
  | none => s

/-- HEARTBEAT_SEND (R402). -/
def execHeartbeatSend (t : Nat) (s : State) : Result :=
  let s := s.at t
  match s.net.lead.config, s.net.lead.hbLast with
  | some c, some n => .next (if s.dev ∈ statesUp ∧ s.press.isSome ∧ s.net.lead.role ≠ .solo ∧ n < hbInstant s then sendHeartbeat c s else s)
  | _, _ => .next s

/-! ## Receiving (R403) -/

/-- A period update of the lead that has come after its tick: it applies from the next tick, and what was missed is spread over the
next 256 periods (R247). -/
def lateUpdate (u : PeriodUpdate) (s : State) : State :=
  let m := s.web.webPos + 1 - u.effective
  let p := clampPeriod s u.period
  let missed : Int := (m : Int) * ((p : Int) - s.web.nominal)
  let step := missed / 256
  let reached : Int := (clampPeriod s ((p : Int) + step).toNat : Int) - p
  (s.withWeb { s.web with pEnc := u.pEnc, trims := [(s.web.webPos + 1, u.period)], late := s.web.late ++ [(s.web.webPos + 1, step)] }).report
    0x3005 (logKey none none none none) 0 (leBytes 4 m ++ leInt 8 (missed - 256 * reached))

/-- SEQ is newer, modulo 2^16, than the last accepted. -/
def updateNewer (s : State) (seq : Nat) : Bool :=
  let d := (seq + 65536 - s.web.lastUpdateSeq % 65536) % 65536
  s.net.lead.leadUpdate.isNone || decide (0 < d ∧ d < 32768)

/-- UPDATE of the lead's heartbeat (R247). -/
def takeUpdate (hb : Heartbeat) (s : State) : State :=
  if hb.updPeriod = 0 ∨ !updateNewer s hb.updSeq then s
  else
    let u : PeriodUpdate := { seq := hb.updSeq, effective := hb.updEffective, period := hb.updPeriod
                              pEnc := if hb.updPEnc = 0 then .unset else .value hb.updPEnc 1 }
    let s := s.withLead { s.net.lead with leadUpdate := some u }
    let s := s.withWeb { s.web with lastUpdateSeq := u.seq }
    if s.web.running then
      (if s.web.webPos < u.effective then s.withWeb { s.web with updates := s.web.updates ++ [u] } else lateUpdate u s)
    else if s.run.startArmed ∨ s.boot.rejoin.isSome then s.withWeb { s.web with updates := s.web.updates ++ [u] }
    else s

/-- START of the lead's heartbeat (R411). -/
def takeStart (hb : Heartbeat) (s : State) : State :=
  if bit hb.flags 5 ∧ s.dev = .armed ∧ !s.run.startArmed ∧ s.run.rejoinAt.isNone ∧ hb.startTRun ≠ 0
      ∧ field hb.runRecord 8 8 = imgId s.activeImage ∧ field hb.runRecord 16 4 = s.run.jobId then
    let s := s.withRun { s.run with startArmed := true, tRun := hb.startTRun, leadIn := hb.startLeadIn, p0 := hb.startP0 }
    sendFirstProgs (saveRecord (firstPos s) (hb.startTRun + hb.startLeadIn * hb.startP0) hb.startP0 s)
  else s

/-- STOP_AT and STOP_NOW of the lead's heartbeat (R412). -/
def takeStop (hb : Heartbeat) (s : State) : State :=
  let s := if bit hb.flags 6 ∧ (s.dev = .run ∨ s.dev = .drain) ∧ earlierEnd s hb.stopB then stopAtBoundary hb.stopB s else s
  let standing : Bool := match s.run.stop with
    | .now _ => true
    | _ => false
  if !bit hb.flags 7 ∨ standing then s
  else if s.dev = .armed then (if s.run.startArmed then enterIdle s else s)
  else if s.dev = .run ∨ s.dev = .drain ∨ (s.dev = .fault ∧ s.fault ≠ .fatal) then stopNow s
  else s

/-- HANDOFF_TO and HANDOFF_B of the lead's heartbeat (R409). -/
def takeHandoff (hb : Heartbeat) (s : State) : State :=
  if hb.handoffTo = 0xFF then s.withLead { s.net.lead with handoff := none }
  else if hb.handoffB = 0 then applyHandoff hb.handoffTo s
  else s.withLead { s.net.lead with handoff := some { target := hb.handoffTo, boundary := hb.handoffB } }

/-- A RUN_REJOIN with SOURCE LEAD takes the record of the lead's heartbeat (R381). -/
def takeRejoin (hb : Heartbeat) (s : State) : State :=
  match s.boot.rejoin with
  | some o => if o.source = 0 ∧ o.record.isNone then (rejoinRecord o hb.runRecord s).settle o.ring else s
  | none => s

/-- What the heartbeat of the lead that the device follows tells. -/
def takeLead (hb : Heartbeat) (s : State) : State :=
  let s := s.withLead { s.net.lead with leadRecord := some hb.runRecord, leadPending := hb.pending.filter (fun e => decide (e.1 ≠ 0)) }
  takeRejoin hb (takeHandoff hb (takeStop hb (takeUpdate hb (takeStart hb s))))

/-- LEAD_TRANSFER answers OK when the target claims LEAD with the new epoch. -/
def transferDone (hb : Heartbeat) (s : State) : State :=
  match s.host.waits.find? (fun w => decide (w.kind = .leadTransfer hb.index hb.epoch)) with
  | some w => ((s.withLead { s.net.lead with transferAt := none }).endWait w (refuse stOk)).settle w.ring
  | none => s

/-- The claim of another lead comes before the device's own role or the lead that it follows (R406, R407). -/
def claimPrevails (hb : Heartbeat) (s : State) : Bool :=
  let L := s.net.lead
  if L.role = .lead then decide (L.epoch < hb.epoch ∨ (L.epoch = hb.epoch ∧ hb.index < ownIndex s))
  else match L.leadIndex with
    | some i => decide (L.epoch < hb.epoch ∨ hb.index ≤ i) || !foreignLease s
    | none => true

/-- A heartbeat that claims LEAD. -/
def takeClaim (hb : Heartbeat) (s : State) : State :=
  if !claimPrevails hb s then s
  else
    let L := s.net.lead
    let planned := match L.handoff with
      | some h => decide (h.target = hb.index ∧ hb.epoch = L.epoch + 1)
      | none => false
    let s := if L.role = .lead ∧ !planned then
        s.report 0x300C (logKey none none none none) 0 (leBytes 1 hb.index ++ leBytes 4 hb.epoch)
      else s
    let s := if L.role = .lead then
        s.withLead { s.net.lead with handoff := none, transferAt := if L.handoff.isSome then some s.clk.elapsed else L.transferAt }
      else s
    takeLead hb (transferDone hb (followLead hb.index hb.epoch hb.leaseEnd s))

/-- What a lead does about the heartbeat of a follower: a stop asked for, and AUTO switch-back (R410, R412). -/
def takeFollower (c : LeadConfig) (hb : Heartbeat) (s : State) : State :=
  let s := if bit hb.flags 4 then adoptStop hb.stopB s else s
  if !c.manual ∧ !c.home ∧ !s.net.lead.autoSuspended ∧ s.net.lead.handoff.isNone ∧ bit hb.flags 2 ∧ bit hb.flags 3 ∧ 10 ≤ hb.healthS
      ∧ mayLead s hb.index then startHandoff hb.index s
  else s

/-- RELEASE of the lead that was followed ends its lease, and a verdict that waits for it takes effect (R408). -/
def takeRelease (hb : Heartbeat) (s : State) : State :=
  if bit hb.flags 0 ∧ s.net.lead.leadIndex = some hb.index ∧ s.net.lead.role ≠ .lead then
    let s := s.withLead { s.net.lead with leaseEnd := min s.net.lead.leaseEnd s.base }
    match s.net.lead.verdictEpoch with
    | some e => becomeLead e s
    | none => s
  else s

/-- A second device names itself home (R401). -/
def homeConflict (c : LeadConfig) (hb : Heartbeat) (s : State) : Bool :=
  bit hb.flags 2 && (c.home || (List.range 4).any (fun i => decide (i ≠ hb.index) && (match s.peer i with
    | some x => bit x.flags 2
    | none => false)))

/-- The first copy of a valid heartbeat. -/
def takeHeartbeat (c : LeadConfig) (old : Option Peer) (hb : Heartbeat) (s : State) : State :=
  let told := match old with
    | some x => bit x.flags 2
    | none => false
  let s := if homeConflict c hb s ∧ !told then s.report 0x300D (logKey none none none none) 0 (leBytes 1 hb.index) else s
  let s := takeRelease hb s
  if hb.role = 1 then takeClaim hb s
  else if s.net.lead.role = .lead then takeFollower c hb s
  else s

/-- A valid heartbeat: the copy's time is kept for its path; the second copy of one does nothing more. -/
def hearHeartbeat (c : LeadConfig) (path : Nat) (hb : Heartbeat) (s : State) : State :=
  let old := s.peer hb.index
  let lastA := if path = 0 then some s.clk.elapsed else (old.bind (·.lastA))
  let lastB := if path = 0 then (old.bind (·.lastB)) else some s.clk.elapsed
  let x : Peer := { lastA := lastA, lastB := lastB, seq := hb.seq, role := hb.role, epoch := hb.epoch, leaseEnd := hb.leaseEnd,
                    flags := hb.flags, healthS := hb.healthS }
  let s := noteHealth s
  let s := s.withLead { s.net.lead with peers := tput (fun _ => none) s.net.lead.peers hb.index (some x) }
  let s := s.traceRec 7 (Config.traceUnit 7) (leBytes 4 hb.seq ++ leBytes 1 hb.index ++ leBytes 1 hb.role ++ [1, 0])
  let again := match old with
    | some o => decide (o.seq = hb.seq ∧ o.role = hb.role)
    | none => false
  if again then s else takeHeartbeat c old hb s

/-- HEARTBEAT_RECEIVE (R401, R403, R406 to R412). -/
def execHeartbeatReceive (path : Nat) (hb : Heartbeat) (sameMac : Bool) (t : Nat) (s : State) : Result :=
  let s := s.at t
  match s.net.lead.config, s.press with
  | some c, some p =>
    if !portUp s path ∨ s.dev ∉ statesUp ∨ s.net.lead.role = .solo then .next s
    else if hb.pressId ≠ c.pressId ∨ hb.version ≠ 1 ∨ !hb.crcOk ∨ p.devices ≤ hb.index then .next s
    else if hb.index = p.index then
      .next (if sameMac then s else s.report 0x300E (logKey none none none none) 0 (leBytes 1 hb.index))
    else if hb.role = 1 ∧ hb.epoch < s.net.lead.epochSeen then
      .next (s.report 0x300F (logKey none none none none) 0 (leBytes 1 hb.index ++ leBytes 4 hb.epoch))
    else .next (hearHeartbeat c path hb s)
  | _, _ => .next s

/-! ## The lease (R405, R406, R408) -/

/-- May a lead renew? -/
def mayRenew (s : State) : Bool :=
  decide (s.dev ∈ [.idle, .armed, .run, .drain]) && s.clk.taiValid && decide (s.clk.source ≠ .freeRun) && anyPortUp s

/-- LEASE_RENEW (R405): every 8 ms. -/
def execLeaseRenew (t : Nat) (s : State) : Result :=
  let s := s.at t
  let L := s.net.lead
  .next (if L.role = .lead ∧ L.renewedAt + 8 * msT ≤ s.clk.elapsed ∧ mayRenew s then
      s.withLead { L with leaseEnd := s.base + 40 * msT, renewedAt := s.clk.elapsed }
    else s)

/-- LEASE_LOST (R405): 1 ms before LEASE_END. -/
def execLeaseLost (t : Nat) (s : State) : Result :=
  let s := s.at t
  let L := s.net.lead
  if L.role ≠ .lead ∨ s.base + msT < L.leaseEnd then .next s
  else
    let at_ := if L.handoff.isSome then some s.clk.elapsed else L.transferAt
    .next ((s.withLead { L with role := .none, leadIndex := none, handoff := none, transferAt := at_ }).report 0x300A
      (logKey none none none none) 0 (leBytes 4 L.epoch))

/-- Eligible devices with a lower index heard within the last 6 ms. -/
def eligibleBelow (s : State) : Nat :=
  ((List.range (ownIndex s)).filter (fun i => heardPeer s i && (match s.peer i with
    | some x => bit x.flags 1
    | none => false))).length

/-- May a follower take the lead role (R406)? -/
def mayTake (s : State) (c : LeadConfig) : Bool :=
  let L := s.net.lead
  decide (L.role = .follower) && c.eligible && s.clk.taiValid && decide (s.clk.source ≠ .freeRun) && !L.verdictNone
    && (match L.leadIndex with
      | none => false
      | some i => !heardPeer s i && decide (L.leaseEnd + 4 * msT * eligibleBelow s ≤ s.base))

/-- TAKEOVER (R406). -/
def execTakeover (t : Nat) (s : State) : Result :=
  let s := s.at t
  match s.net.lead.config with
  | none => .next s
  | some c => .next (if mayTake s c then becomeLead (s.net.lead.epochSeen + 1) s else s)

/-- HANDOFF (R409): the handoff boundary has come, or the line clock has stopped before it. -/
def execHandoff (t : Nat) (s : State) : Result :=
  let s := s.at t
  match s.net.lead.handoff with
  | none => .next s
  | some h => .next (if h.boundary ≠ 0 ∧ (s.net.lead.role = .lead ∨ s.net.lead.role = .follower)
      ∧ (!s.web.running ∨ h.boundary ≤ s.web.webPos) then applyHandoff h.target s else s)

/-- VERDICT_LEASE_END (R408). -/
def execVerdictLeaseEnd (t : Nat) (s : State) : Result :=
  let s := s.at t
  match s.net.lead.verdictEpoch with
  | none => .next s
  | some e => .next (if s.net.lead.role ≠ .lead ∧ !foreignLease s then becomeLead e s else s)

end Sys2Proof.Machine
end

