-- ==== Sys2Proof/Machine/Press.lean ====
section
/-! DEFINITION. Machine/Press.lean: PRESS_CONFIG (R203, R232, R338, R339, R400, R436). -/

namespace Sys2Proof.Machine

open Sys2Proof

/-! ## The press description (R232, R339) -/

/-- The motion record at byte 32. -/
def motionOf (bs : List Byte) : Motion :=
  { trim := field bs 32 1, encSel := field bs 33 1, encFilter := field bs 34 1, speedPolicy := field bs 35 1, countLen0 := field bs 36 4
    countLen1 := field bs 40 4, dir := field bs 44 1, linePitch := field bs 48 4, errLimit := field bs 52 2, checkTol := field bs 54 2
    markFilter := field bs 56 2 }

def barRecBase (b : Nat) : Nat := 64 + 608 * b
def slotRecBase (b sl : Nat) : Nat := barRecBase b + 32 + 24 * sl

def barDescOf (bs : List Byte) (b : Nat) : BarDesc :=
  let o := barRecBase b
  { pressCol0 := field bs o 4, keySlot := field bs (o + 4) 1, leftW := field bs (o + 6) 2, rightW := field bs (o + 8) 2
    leftBias := fieldInt bs (o + 10) 2, rightBias := fieldInt bs (o + 12) 2, leftKind := field bs (o + 14) 1
    rightKind := field bs (o + 15) 1, aKey := fieldInt bs (o + 16) 4, fKey := field bs (o + 20) 4 }

def slotDescOf (bs : List Byte) (b sl : Nat) : SlotDesc :=
  let o := slotRecBase b sl
  { q := field bs o 1, d := fieldInt bs (o + 4) 4, g := fieldInt bs (o + 8) 4, a := fieldInt bs (o + 12) 4, f := field bs (o + 16) 4 }

/-- The description that 4,928 bytes state; bars outside BAR_MASK describe nothing. -/
def pressOf (bs : List Byte) : Press :=
  let mask := field bs 14 1
  let bars := maskList mask 8
  { index := field bs 12 1, devices := field bs 13 1, barMask := mask, gateFilter := field bs 16 2, motion := motionOf bs
    bars := bars.foldl (fun t b => tput (fun _ => BarDesc.reset) t b (barDescOf bs b)) []
    slots := bars.foldl (fun t b => (List.range 24).foldl (fun t sl =>
      tput (fun _ => SlotDesc.reset) t (slotIx b sl) (slotDescOf bs b sl)) t) []
    digest := field (sha384 bs) 0 8 }

/-! ## Its checks (R338): the offset of a field, and whether it fails -/

/-- A value is 0 where that means a default, or lies in its range. -/
def zeroOr (lo hi v : Nat) : Bool := decide (v = 0 ∨ (lo ≤ v ∧ v ≤ hi))

def headerFails (bs : List Byte) : List (Nat × Bool) :=
  let f := field bs
  [(0, decide (f 0 4 ≠ 0x53455250)), (4, decide (f 4 2 ≠ 1)), (6, decide (f 6 2 ≠ 0)), (8, decide (f 8 4 ≠ 4928)),
   (12, decide (3 < f 12 1 ∨ f 13 1 ≤ f 12 1)), (13, decide (f 13 1 = 0 ∨ 4 < f 13 1)), (15, decide (f 15 1 ≠ 0)),
   (16, !zeroOr 10 500 (f 16 2)), (18, decide (f 18 14 ≠ 0))]

/-- R232. -/
def motionFails (bs : List Byte) : List (Nat × Bool) :=
  let m := motionOf bs
  [(32, decide (1 < m.trim)), (33, decide (2 < m.encSel)), (34, decide (10 < m.encFilter)), (35, decide (2 < m.speedPolicy)),
   (36, decide (m.countLen0 = 0 ∧ (m.encSel = 0 ∨ m.encSel = 2))), (40, decide (m.countLen1 = 0 ∧ (m.encSel = 1 ∨ m.encSel = 2))),
   (44, decide (3 < m.dir)), (45, decide (field bs 45 3 ≠ 0)), (48, decide (m.linePitch = 0)), (52, !zeroOr 50 65535 m.errLimit),
   (54, !zeroOr 1 1000 m.checkTol), (56, !zeroOr 10 500 m.markFilter), (58, decide (field bs 58 6 ≠ 0))]

/-- Reserved fields of a bar record, whether or not its bar is in BAR_MASK. -/
def reservedFails (bs : List Byte) (b : Nat) : List (Nat × Bool) :=
  let o := barRecBase b
  [(o + 5, decide (field bs (o + 5) 1 ≠ 0)), (o + 24, decide (field bs (o + 24) 8 ≠ 0))]
    ++ (List.range 24).flatMap (fun sl =>
      let p := slotRecBase b sl
      [(p + 1, decide (field bs (p + 1) 3 ≠ 0)), (p + 20, decide (field bs (p + 20) 4 ≠ 0))])

/-- An edge zone, as R157 has it: width, bias and kind with their offsets. -/
def edgeFails (ow w ob : Nat) (bias : Int) (ok kind : Nat) : List (Nat × Bool) :=
  [(ow, !zeroOr 32 256 w), (ow, decide ((w = 0) ≠ (kind = 0))), (ob, decide (w / 4 < bias.natAbs)), (ok, decide (2 < kind))]

/-- The other fields of the record of a bar in BAR_MASK. -/
def barFails (bs : List Byte) (b : Nat) : List (Nat × Bool) :=
  let o := barRecBase b
  let x := barDescOf bs b
  let fitted := (List.range 24).filter (fun sl => decide ((slotDescOf bs b sl).q ≠ 0xFF))
  [(o, decide (442367 < x.pressCol0)), (o + 4, decide (x.keySlot ∉ fitted)), (o + 20, decide (110591 < x.fKey))]
    ++ edgeFails (o + 6) x.leftW (o + 10) x.leftBias (o + 14) x.leftKind
    ++ edgeFails (o + 8) x.rightW (o + 12) x.rightBias (o + 15) x.rightKind
    ++ fitted.flatMap (fun sl =>
      let p := slotRecBase b sl
      let y := slotDescOf bs b sl
      [(p, decide (23 < y.q) || fitted.any (fun i => decide (i < sl ∧ (slotDescOf bs b i).q = y.q))), (p + 12, decide (y.a < 0)),
       (p + 16, decide (110591 < y.f))])

/-- The offset of the first failing field. -/
def pressFail (bs : List Byte) : Option Nat :=
  let all := headerFails bs ++ motionFails bs ++ (List.range 8).flatMap (fun b =>
    reservedFails bs b ++ (if bit (field bs 14 1) b then barFails bs b else []))
  all.foldl (fun m x => if x.2 then (match m with
    | none => some x.1
    | some o => some (min o x.1)) else m) none

/-! ## Putting it in force -/

/-- PD6 to PD9 that a BAR_MASK needs (R435). -/
def pressDomains (mask : Nat) : Nat :=
  (if mask % 16 = 0 then 0 else 2 ^ 6 + 2 ^ 8) + (if mask / 16 % 16 = 0 then 0 else 2 ^ 7 + 2 ^ 9)

def switchDomain (on : Nat) (s : State) (d : Nat) : State :=
  let ready := bit on d && bit s.boot.domainsReady d
  s.withBoot { s.boot with domains := setBit s.boot.domains d (bit on d), domainsReady := setBit s.boot.domainsReady d ready }

/-- The group of a bar as R203 has it in IDLE. -/
def pressGroup (mask : Nat) (s : State) (g : Nat) : State :=
  if bit mask g then idleGroup g s
  else offGroup g s

/-- The results of earlier HEAD_SCANs are cleared. -/
def clearHeads (s : State) : State :=
  s.withLink { s.link with slots := s.link.slots.foldl (fun t e => tput (fun _ => Slot.reset) t e.1 { e.2 with head := none }) s.link.slots }

/-- The description replaces the one in force. The device has no role yet in its press, or is SOLO (R400). -/
def installPress (p : Press) (s : State) : State :=
  let s := clearHeads { s with press := some p }
  let s := s.withLead { s.net.lead with
    role := if p.devices = 1 then .solo else .none, leadIndex := none, handoff := none, verdictEpoch := none, release := false }
  (List.range 8).foldl (pressGroup p.barMask) ([6, 7, 8, 9].foldl (switchDomain (pressDomains p.barMask)) s)

/-- Something uses the groups. -/
def groupsInUse (s : State) : Bool :=
  s.link.scan.isSome || s.link.survey.isSome || s.link.load.isSome || s.thermal.op.isSome || s.boot.rejoin.isSome || prbsActive s 255

def pressBody (h : Hdr) (source length : Nat) (orphan : Bool) (s : State) : State × Option Answer :=
  if length ≠ 4928 then (s, some (refuse stBadLength))
  else if groupsInUse s then (s, some (refuse stBusy))
  else match s.dmaBad source 4928 with
    | some a => (s.dmaFault a, some (refuse stDataUe))
    | none =>
      let bs := s.dmaRead source 4928
      match pressFail bs with
      | some o => (s, some (answer stBadParam (leBytes 8 0 ++ leBytes 4 o)))
      | none =>
        let p := pressOf bs
        let s := installPress p s
        let need := pressDomains p.barMask
        let result := leBytes 8 p.digest
        if (maskList need 12).all (bit s.boot.domainsReady) then (s, some (answer stOk result))
        else (s.addWait orphan h (cmdOf 0x0030 0) (.domain need result), none)

/-- PRESS_CONFIG (R338): with domains to switch on, it answers when they are ready (R436). -/
def execPressConfig (h : Hdr) (source length : Nat) (s : State) : Result :=
  .next (hostWait (.pressConfig (unstarted h) source length) h (cmdOf 0x0030 0) (pressBody h source length) s)

end Sys2Proof.Machine
end

