-- ==== Sys2Proof/Machine/Regs.lean ====
section
/-! DEFINITION. Machine/Regs.lean: the register window: what every register reads as, the snapshot groups, the latching of 64-bit
values, and writes (R322, R347 to R361). -/

namespace Sys2Proof.Machine

open Sys2Proof

/-! ## Identity and state (R352) -/

def hi32 (v : Nat) : Nat := v / 2 ^ 32 % 2 ^ 32

def stateRegister (s : State) : Nat :=
  s.dev.code + 16 * s.net.lead.role.code + 256 * banksField s + 4096 * s.fault.code + 65536 * s.boot.maint.code

def identityRegister (s : State) (o : Nat) : Nat :=
  match o with
  | 0x000 => 0x8240
  | 0x004 => Config.deviceRev % 256 + 256 * 3 + 65536 * indexField s
  | 0x008 => s.boot.fwVersion
  | 0x00C => s.boot.ucodeVersion
  | 0x010 => stateRegister s
  | 0x014 => s.boot.source.code + 16 * bitNat s.boot.retained + 65536 * s.regs.hotResets
  | 0x018 => s.regs.scratch.toNat
  | _ => 0

/-! ## Rings (R353, R354) -/

/-- A doorbell; CMD_TAIL and REPLY_HEAD are write-only and read 0. -/
def doorbellRegister (s : State) (ring o : Nat) : Nat :=
  match o with
  | 8 => (s.ring ring).cmdHead
  | 12 => (s.ring ring).replyTail
  | _ => 0

def ringRegister (s : State) (ring o : Nat) : Nat :=
  let g := s.ring ring
  match o with
  | 0x00 => g.cmdBase % 2 ^ 32
  | 0x04 => hi32 g.cmdBase
  | 0x08 => g.replyBase % 2 ^ 32
  | 0x0C => hi32 g.replyBase
  | 0x10 => bitNat g.enabled + 256 * g.log2 + 65536 * g.vector
  | 0x14 => g.coalN + 65536 * g.coalUs
  | 0x18 => g.owed + 65536 * (s.host.longOps.filter (fun o => decide (o.ring = ring) && !o.orphan)).length
  | _ => 0

/-! ## Events, Plume, MSI-X (R356, R357) -/

def eventRegister (s : State) (o : Nat) : Nat :=
  let p := s.host.plume
  match o with
  | 0x00 => s.host.evtStatus.toNat
  | 0x04 => s.host.evtEnable.toNat
  | 0x08 => s.host.matchStatus.toNat
  | 0x0C => maskOf ((List.range 8).filter (fun k => decide ((s.comparator k).mode ≠ 0)))
  | 0x14 => p.tail
  | 0x18 => bitNat p.enabled + 256 * p.log2 + 65536 * p.vector
  | 0x1C => p.lost
  | _ => 0

def msixRegister (e : Msix) (o : Nat) : Nat :=
  match o with
  | 0 => e.addr % 2 ^ 32
  | 4 => hi32 e.addr
  | 8 => e.data
  | _ => bitNat e.masked

/-! ## Snapshots (R349, R358, R359) -/

/-- The time snapshot group. -/
def timeValues (s : State) : List (Nat × Nat) :=
  [(0x0, taiSec s.base % 2 ^ 32), (0x4, hi32 (taiSec s.base)), (0x8, taiNs s.base), (0xC, taiFrac s.base)]

def timeRegister (s : State) (o : Nat) : Nat :=
  match o with
  | 0x10 => s.clk.source.code + 16 * bitNat s.clk.slew.isSome + 256 * bitNat (s.domain 0).estimate + 512 * bitNat (s.domain 1).estimate
      + 4096 * bitNat s.clk.taiValid
  | 0x14 => (s.domain 0).number + 256 * (s.domain 1).number
  | _ => if o < 0x10 then (tget (fun _ => (0 : Word32)) s.regs.timeGroup o).toNat else 0

/-- E in nm, saturating. -/
def lengthNm (s : State) : Nat := unsigned 4 (max (-2147483647) (min 2147483647 (s.web.lengthErr / 256)))

/-- The run snapshot group. -/
def runValues (s : State) : List (Nat × Nat) :=
  let w := s.web
  [(0x00, w.webPos % 2 ^ 32), (0x04, hi32 w.webPos), (0x08, taiSec w.tickTime % 2 ^ 32), (0x0C, hi32 (taiSec w.tickTime)),
   (0x10, taiNs w.tickTime), (0x14, taiFrac w.tickTime), (0x18, w.period % 2 ^ 32), (0x1C, hi32 w.period)]
  ++ [(0x20, lengthNm s), (0x24, jobField s), (0x28, s.run.pagePlaced), (0x30, s.run.gapStartPos % 2 ^ 32),
   (0x34, hi32 s.run.gapStartPos), (0x38, s.run.gapStartPage), (0x40, s.run.pageDonePos % 2 ^ 32), (0x44, hi32 s.run.pageDonePos)]
  ++ [(0x48, s.run.pageDonePage), (0x50, taiSec s.run.tRun % 2 ^ 32), (0x54, hi32 (taiSec s.run.tRun)), (0x58, taiNs s.run.tRun),
   (0x5C, bitNat w.running + 2 * bitNat w.ticked + 256 * fireMask s + 65536 * latchMask s)]

/-- A register of the run group that no read has latched since the reset. -/
def runReset (o : Nat) : Word32 := if o = 0x28 ∨ o = 0x38 ∨ o = 0x48 then 0xFFFFFFFF else 0

def runRegister (s : State) (o : Nat) : Nat :=
  if o = 0x60 then inputLevels s else if o < 0x60 then (tget runReset s.regs.runGroup o).toNat else 0

/-! ## Log (R361) -/

/-- A register within a log entry's 64 bytes; an entry that is not there reads 0. -/
def entryRegister (e : Option LogEntry) (o : Nat) : Nat :=
  match e with
  | none => 0
  | some x => field x.toBytes o 4

def logRegister (s : State) (o : Nat) : Nat :=
  if o = 0 then s.log.next
  else if o = 4 then s.log.overflow
  else if o = 8 then bitNat s.log.first.isSome
  else if 0x40 ≤ o ∧ o < 0x80 then entryRegister s.log.first (o - 0x40)
  else if 0x1000 ≤ o ∧ o < 0x5000 then entryRegister (s.log.slot ((o - 0x1000) / 64)) ((o - 0x1000) % 64)
  else 0

/-! ## Reading (R347, R348, R351) -/

/-- The counter region: the low word as it counts, the high word as the latest read of the low word latched it. -/
def counterRegister (s : State) (o : Nat) : Nat :=
  if o % 8 = 0 then s.counter ((o - 0x40000) / 8) % 2 ^ 32 else (tget (fun _ => (0 : Word32)) s.regs.lowLatch (o - 4)).toNat

/-- The register at an offset that is a multiple of 4; a reserved offset reads 0. -/
def readRegister (s : State) (o : Nat) : Nat :=
  if o < 0x1000 then identityRegister s o
  else if o < 0x1400 then doorbellRegister s ((o - 0x1000) / 16) (o % 16)
  else if 0x2000 ≤ o ∧ o < 0x3000 then
    (if o % 64 = 4 ∨ o % 64 = 12 then (tget (fun _ => (0 : Word32)) s.regs.lowLatch (o - 4)).toNat
    else ringRegister s ((o - 0x2000) / 64) (o % 64))
  else if 0x4000 ≤ o ∧ o < 0x5000 then eventRegister s (o - 0x4000)
  else if 0x8000 ≤ o ∧ o < 0x8500 then msixRegister (s.msixEntry ((o - 0x8000) / 16)) (o % 16)
  else if 0x9000 ≤ o ∧ o < 0x9010 then bits s.host.pba.toNat (8 * (o - 0x9000)) 32
  else if 0x10000 ≤ o ∧ o < 0x11000 then timeRegister s (o - 0x10000)
  else if 0x20000 ≤ o ∧ o < 0x21000 then runRegister s (o - 0x20000)
  else if 0x40000 ≤ o ∧ o < 0x42000 then counterRegister s o
  else if 0x200000 ≤ o ∧ o < 0x205000 then logRegister s (o - 0x200000)
  else 0

/-- The high word that a read of a low word latches, outside the snapshot groups: a counter, or a base of a ring. -/
def latchedHigh (s : State) (o : Nat) : Option Nat :=
  if 0x40000 ≤ o ∧ o < 0x42000 ∧ o % 8 = 0 then some (hi32 (s.counter ((o - 0x40000) / 8)))
  else if 0x2000 ≤ o ∧ o < 0x3000 ∧ (o % 64 = 0 ∨ o % 64 = 8) then some (ringRegister s ((o - 0x2000) / 64) (o % 64 + 4))
  else none

/-- The read returns the register, and with it the next one, as an aligned read of 8 bytes does. -/
def returnRead (o : Nat) (s : State) : State :=
  s.withRegs { s.regs with readData := BitVec.ofNat 64 (readRegister s o + 2 ^ 32 * readRegister s (o + 4)), readEp := false }

/-! ## The trace window (R362) -/

/-- Offset of LOW_WORD_READ at which the trace window begins (DESIGN CHOICE, log 94). -/
def traceWindowBase : Nat := 16777216

/-- Device address of the trace buffer (R289). -/
def traceBase (s : State) : Nat := reservedBase s.dram.cfg.config + 0x08700000

/-- The trace window beyond the buffer: the trace status. -/
def traceStatus (s : State) (o : Nat) : Nat :=
  match o with
  | 0x400000 => s.trace.write
  | 0x400004 => s.trace.wraps
  | 0x400008 => bitNat s.trace.stopped
  | _ => 0

/-- A read of the trace buffer, as a request of the HOST class: 0 with the EP bit of a burst that cannot be used. -/
def readTrace (o : Nat) (err : ReadErr) (s : State) : State :=
  let a := traceBase s + o
  let (s, good) := readBurst (physAddr s.dram.cfg.config s.dram.cfg.map a) err (s.share [subchOf s a])
  let n := if o % 8 = 0 then 8 else 4
  s.withRegs { s.regs with readData := if good then BitVec.ofNat 64 (leNat (mread zeroByte s.trace.buffer o n)) else 0, readEp := !good }

/-- A read of the trace window. -/
def readTraceWindow (o : Nat) (err : ReadErr) (s : State) : State :=
  if o < 0x400000 then readTrace o err s
  else s.withRegs { s.regs with readData := BitVec.ofNat 64 (traceStatus s o + 2 ^ 32 * traceStatus s (o + 4)), readEp := false }

/-! ## Reads that latch (R348, R349) -/

/-- A snapshot group as the latch holds it. -/
def latchGroup (d : Nat → Word32) (l : List (Nat × Nat)) : Tab Word32 := l.foldl (fun t x => tput d t x.1 (BitVec.ofNat 32 x.2)) []

def readTimeGroup (s : State) : State :=
  returnRead 0x10000 (s.withRegs { s.regs with timeGroup := latchGroup (fun _ => 0) (timeValues s) })

/-- TIME_SEC_LO_READ (R358). -/
def execTimeSecLoRead (t : Nat) (s : State) : Result :=
  let s := s.at t
  if !s.host.linkUp then .next s else .next (readTimeGroup s)

def readRunGroup (s : State) : State :=
  returnRead 0x20000 (s.withRegs { s.regs with runGroup := latchGroup runReset (runValues s) })

/-- WEB_POS_LO_READ (R359). -/
def execWebPosLoRead (t : Nat) (s : State) : Result :=
  let s := s.at t
  if !s.host.linkUp then .next s else .next (readRunGroup s)

/-- A read of the register window at an offset: the first register of a group latches the group, a low word its high word. -/
def readWindow (offset : Nat) (s : State) : State :=
  if offset = 0x10000 then readTimeGroup s
  else if offset = 0x20000 then readRunGroup s
  else match latchedHigh s offset with
    | some v => returnRead offset (s.withRegs { s.regs with
        lowLatch := tput (fun _ => (0 : Word32)) s.regs.lowLatch offset (BitVec.ofNat 32 v) })
    | none => returnRead offset s

/-- LOW_WORD_READ (R347, R348, R362). -/
def execLowWordRead (offset : Nat) (err : ReadErr) (s : State) : Result :=
  if !s.host.linkUp ∨ offset % 4 ≠ 0 then .next s
  else if offset < 0x400000 then .next (readWindow offset s)
  else if traceWindowBase ≤ offset ∧ offset < 2 * traceWindowBase then .next (readTraceWindow (offset - traceWindowBase) err s)
  else .next s

/-! ## Writing (R322, R347, R352 to R357) -/

/-- A base address with one of its words replaced; bits [11:0] are reserved. -/
def baseWord (b : Nat) (high : Bool) (v : Nat) : Nat :=
  if high then b % 2 ^ 32 + 2 ^ 32 * v else hi32 b * 2 ^ 32 + v / 4096 * 4096

/-- Ring 0's block, while the ring is not enabled. -/
def writeRing0 (o v : Nat) (s : State) : State :=
  let g := s.ring 0
  if g.enabled then s
  else match o with
    | 0x00 => s.withRing 0 { g with cmdBase := baseWord g.cmdBase false v }
    | 0x04 => s.withRing 0 { g with cmdBase := baseWord g.cmdBase true v }
    | 0x08 => s.withRing 0 { g with replyBase := baseWord g.replyBase false v }
    | 0x0C => s.withRing 0 { g with replyBase := baseWord g.replyBase true v }
    | 0x10 => writeRing0Control v s
    | 0x14 => s.withRing 0 { g with coalN := v % 65536, coalUs := v / 65536 }
    | _ => s

/-- A word of an MSI-X table entry. -/
def writeMsixWord (vector o v : Nat) (s : State) : State :=
  let e := s.msixEntry vector
  match o with
  | 0 => writeMsix vector { e with addr := hi32 e.addr * 2 ^ 32 + v } s
  | 4 => writeMsix vector { e with addr := e.addr % 2 ^ 32 + 2 ^ 32 * v } s
  | 8 => writeMsix vector { e with data := v } s
  | _ => writeMsix vector { e with masked := bit v 0 } s

/-- A whole register is written; one that is RO, or reserved, ignores it. -/
def writeRegister (o v : Nat) (s : State) : State :=
  if o = 0x018 then s.withRegs { s.regs with scratch := BitVec.ofNat 32 v }
  else if 0x1000 ≤ o ∧ o < 0x1400 then
    (let ring := (o - 0x1000) / 16
    if o % 16 = 0 then writeCmdTail ring (v % 65536) s else if o % 16 = 4 then writeReplyHead ring (v % 65536) s else s)
  else if 0x2000 ≤ o ∧ o < 0x2040 then writeRing0 (o - 0x2000) v s
  else if o = 0x4000 then writeEvtStatus v s
  else if o = 0x4008 then writeMatchStatus v s
  else if o = 0x4010 then writePlumeHead (v % 65536) s
  else if 0x8000 ≤ o ∧ o < 0x8500 then writeMsixWord ((o - 0x8000) / 16) (o % 16) v s
  else s

/-- The byte enables of the four bytes of a register, as a write of 8 bytes from `offset` on has them. -/
def enablesOf (offset bytes o : Nat) : List Bool :=
  (List.range 4).map (fun i => decide (offset ≤ o + i ∧ o + i < offset + 8) && bit bytes (o + i - offset))

/-- The registers that a write touches. -/
def touched (offset bytes : Nat) : List Nat :=
  let first := offset / 4 * 4
  [first, first + 4, first + 8].filter (fun o => (enablesOf offset bytes o).any id)

/-- REGISTER_WRITE (R347): every register covered wholly is written, the lower offset first; a write that covers some register in part
is ignored as a whole and counted once. -/
def execRegisterWrite (offset bytes : Nat) (value : Word64) (s : State) : Result :=
  let regs := touched offset bytes
  if !s.host.linkUp ∨ 0x400000 ≤ offset then .next s
  else if regs.any (fun o => !(enablesOf offset bytes o).all id) then .next (s.count 31)
  else .next (regs.foldl (fun s o => writeRegister o (value.toNat / 2 ^ (8 * (o - offset)) % 2 ^ 32) s) s)

end Sys2Proof.Machine
end

