-- ==== Sys2Proof/Machine/Packet.lean ====
section
/-! DEFINITION. Machine/Packet.lean: command packets as host memory holds them, and their fetch (R318 to R320, R324, R325). -/

namespace Sys2Proof.Machine

open Sys2Proof

/-! ## What a packet spells: the parameter tables of the commands -/

/-- The header with a reserved field of the parameters that is not 0: `l` lists those fields by offset and width. -/
def reserved (h : Hdr) (p : List Byte) (l : List (Nat × Nat)) : Hdr :=
  { h with paramRsv := l.any (fun x => decide (field p x.1 x.2 ≠ 0)) }

/-- NOP to RING_CONFIG, EVENT_CONFIG, and the firmware commands (R323, R331, R332, R336, R374 to R376). -/
def spellBase (h : Hdr) (p : List Byte) (opcode op : Nat) : Option Instr :=
  let f := field p
  match opcode with
  | 0x0001 => some (.nop h)
  | 0x0002 => some (.identify h)
  | 0x0003 => some (.getStatus h)
  | 0x0004 => some (.getProgress (reserved h p [(1, 1)]) (f 0 1) (f 2 2))
  | 0x0005 => some (.abort (reserved h p [(1, 1)]) (f 0 1) (f 2 2))
  | 0x0010 =>
    let h := reserved h p [(28, 4)]
    match f 1 1 with
    | 0 => some (.ringConfigDisable h (f 0 1))
    | 1 => some (.ringConfigEnable h (f 0 1) (f 2 1) (f 3 1) (f 4 2) (f 6 2) (f 8 8) (f 16 8))
    | 2 => some (.plumeEnable h (f 2 1) (f 3 1) (f 4 2) (f 6 2) (f 8 8) (f 24 4))
    | 3 => some (.plumeDisable h)
    | _ => none
  | 0x0011 =>
    match op with
    | 0 => some (.eventConfigEnable h (f 4 4))
    | 1 => some (.eventConfigComparator (reserved h p [(3, 1)]) (f 1 1) (f 2 1) (f 8 8) (f 16 4))
    | _ => none
  | 0x0020 => some (.imageUpdateBegin (reserved h p [(1, 3), (8, 8)]) op (f 4 4))
  | 0x0021 => some (.imageUpdateData (reserved h p [(16, 8)]) (f 0 4) (f 4 4) (f 8 8))
  | 0x0022 =>
    let h := reserved h p [(1, 7)]
    match op with
    | 0 => some (.imageUpdateCommitActivate h)
    | 1 => some (.imageUpdateCommitConfirm h)
    | 2 => some (.imageUpdateCommitRollback h)
    | _ => none
  | _ => none

/-- The press, the schedule, the store and runs (R60 to R110, R338, R340, R341, R380). -/
def spellRun (h : Hdr) (p : List Byte) (opcode : Nat) : Option Instr :=
  let f := field p
  match opcode with
  | 0x0030 => some (.pressConfig (reserved h p [(12, 4)]) (f 0 8) (f 8 4))
  | 0x0031 => some (.headScan (reserved h p [(1, 7)]) (f 0 1) (f 8 8))
  | 0x0040 => some (.schedLoad h (f 0 8) (f 8 4))
  | 0x0041 => some (.schedCheck h (f 0 4))
  | 0x0042 => some (.schedActivate h (f 0 4) (f 4 4) (f 8 8))
  | 0x0050 => some (.storeAlloc (reserved h p [(6, 2), (12, 4)]) (f 0 1) (f 1 1) (f 2 1) (f 3 1) (f 4 2) (f 8 4) (f 16 8))
  | 0x0051 => some (.storeWrite (reserved h p [(2, 2)]) (f 0 1) (f 1 1) (f 4 4) (f 8 8) (f 16 4) (f 20 4))
  | 0x0052 => some (.storeFree (reserved h p [(1, 3)]) (f 0 1) (f 4 4))
  | 0x0053 => some (.pageReady h (f 0 4) (f 4 4) (f 8 4) (f 12 4))
  | 0x0060 => some (.runArm (reserved h p [(7, 1), (14, 2)]) (f 0 4) (f 4 2) (f 6 1) (f 8 4) (f 12 2))
  | 0x0061 => some (.runStart (reserved h p [(2, 2), (20, 4)]) (f 0 1) (f 1 1) (f 4 4) (f 8 8) (f 16 4) (f 24 8))
  | 0x0062 => some (.runStop (reserved h p [(1, 7)]) (f 0 1) (f 8 8))
  | 0x0063 => some (.runRejoin (reserved h p [(1, 1), (4, 4)]) (f 0 1) (f 2 2) (f 8 8))
  | 0x0068 =>
    let h := reserved h p [(5, 3)]
    if f 0 4 = 0 then some (.gateRelease h (f 4 1) (f 8 8)) else some (.commit h (f 0 4) (f 4 1) (f 8 8))
  | 0x0070 => some (.tableWrite (reserved h p [(3, 1), (12, 4)]) (f 0 1) (f 1 1) (f 2 1) (f 4 4) (f 8 4) (f 16 8) [])
  | 0x0071 => some (.tableRead (reserved h p [(3, 1), (12, 4)]) (f 0 1) (f 1 1) (f 2 1) (f 4 4) (f 8 4) (f 16 8) [])
  | _ => none

/-- Nozzles, cameras, keeping, scrubbing and calibration (R166, R215, R250, R267, R272, R283, R311, R342, R424, R425). -/
def spellUnit (h : Hdr) (p : List Byte) (opcode op : Nat) : Option Instr :=
  let f := field p
  match opcode with
  | 0x0080 => some (.nozzleSurvey (reserved h p [(2, 2), (10, 6)]) (f 0 1) (f 1 1) (f 4 4) (f 8 2))
  | 0x0081 =>
    let h := reserved h p [(9, 7)]
    if f 3 1 = 3 then some (.restoreSlot h (f 0 1) (f 1 1))
    else some (.nozzleMask h (f 0 1) (f 1 1) (f 2 1) (f 3 1) (f 4 2) (f 6 2) (f 8 1))
  | 0x0090 =>
    let h := reserved h p [(2, 6)]
    match f 1 1 with
    | 0 => some (.camConfigDisable h (f 0 1))
    | 1 => some (.camConfigEnable h (f 0 1) (f 8 8))
    | _ => none
  | 0x0091 => some (.camCapture (reserved h p [(2, 6)]) (f 0 1) (f 1 1) (f 8 8) (f 16 4))
  | 0x00A0 =>
    let h := reserved h p [(4, 4)]
    match op with
    | 0 => some (.keepConfigEnable h (f 1 1) (f 8 8))
    | 1 => some (.keepConfigDisable h (f 1 1))
    | 2 => some (.keepConfigLadder h (f 8 8))
    | 3 => some (.ladderReset h (f 1 1) (f 3 1))
    | 4 => some (.regMeasure h (f 2 1) (f 3 1) (f 8 8))
    | _ => none
  | 0x00A1 =>
    let h := reserved h p [(2, 2), (12, 4)]
    match op with
    | 0 => some (.keepTargetCapture h (f 1 1) (f 4 4) (f 8 4))
    | 1 => some (.keepTargetLoad h (f 1 1) (f 16 8))
    | 2 => some (.keepTargetRead h (f 16 8))
    | 3 => some (.keepTargetClear h (f 1 1))
    | _ => none
  | 0x00B0 =>
    let h := reserved h p [(2, 2)]
    match op with
    | 0 => some (.scrubRange h (f 1 1) (f 8 8) (f 16 8) (f 24 8))
    | 1 => some (.scrubRangePatrol h (f 4 4))
    | _ => none
  | 0x00C0 =>
    let h := reserved h p (if op < 4 then [(6, 2), (12, 4)] else [])
    match op with
    | 0 => some (.calRunCalibrate h (f 1 1) (f 2 1) (f 3 1) (f 8 4))
    | 1 => some (.prbsStart h (f 2 1) (f 3 1) (f 4 1) (f 5 1))
    | 2 => some (.prbsRead h (f 2 1) (f 3 1) (f 5 1) [])
    | 3 => some (.prbsStop h (f 2 1) (f 3 1))
    | 4 => some (.calRunSetup h (f 8 8))
    | 5 => some (.calRunStatus h (f 8 8))
    | _ => none
  | _ => none

/-- Network, lead, observation and codec (R122, R129, R366, R395, R397, R401, R408, R409, R430, R446, R451, R453). -/
def spellOther (h : Hdr) (p : List Byte) (opcode op : Nat) : Option Instr :=
  let f := field p
  match opcode with
  | 0x00D0 =>
    match op with
    | 0 => some (.timeConfigNet (reserved h p [(3, 1), (6, 2), (16, 16)]) (f 1 1) (f 2 1) (f 4 2) (f 8 4) (f 12 4))
    | 1 => some (.timeConfigDomain (reserved h p [(6, 2), (16, 16)]) (f 1 1) (f 2 1) (f 3 1) (f 4 1) (f 5 1) (fieldInt p 8 4) (fieldInt p 12 4))
    | 2 => some (.timeConfigPrefer (reserved h p [(2, 30)]) (f 1 1))
    | 3 => some (.setTime (reserved h p [(1, 7), (20, 12)]) (f 8 8) (f 16 4))
    | 4 => some (.timeConfigStatus (reserved h p [(1, 23)]) (f 24 8))
    | _ => none
  | 0x00D1 => some (.toutProgram (reserved h p [(20, 4)]) (f 0 1) (f 1 1) (f 2 1) (f 3 1) (f 4 4) (f 8 8) (f 16 4) (f 24 8))
  | 0x00E0 => some (.leadConfig (reserved h p [(3, 1), (14, 2)]) (f 0 1) (f 1 1) (f 2 1) (f 4 4) (f 8 6))
  | 0x00E1 => some (.leadTransfer (reserved h p [(1, 7)]) (f 0 1))
  | 0x00E2 => some (.arbiterVerdict (reserved h p [(1, 3), (8, 8)]) (f 0 1) (f 4 4))
  | 0x00F0 =>
    let h := reserved h p [(1, 3), (12, 4)]
    match op with
    | 0 => some (.logReadRead h (f 4 4) (f 8 4) (f 16 8))
    | 1 => some (.logReadAck h (f 4 4))
    | 2 => some (.logReadStatus h)
    | 3 => some (.logReadFatal h (f 4 4) (f 8 4) (f 16 8))
    | 4 => some (.clearFirst h)
    | _ => none
  | 0x00F1 => some (.counterSnapshot (reserved h p [(5, 3)]) (f 0 2) (f 2 2) (f 4 1) (f 8 8))
  | 0x00F2 =>
    let h := reserved h p [(10, 2), (24, 8)]
    match op with
    | 0 => some (.traceFilterStop h)
    | 1 => some (.traceFilterStart h (f 1 1) (f 2 1) (f 3 1) (f 4 4) (f 8 2) (f 12 4) (f 16 8))
    | _ => none
  | 0x0100 => some (.compress h (f 0 8) (f 8 4) (f 12 2) (f 14 2) (f 16 1) (f 17 1) (f 18 1) (f 19 1) (f 20 4) (f 24 8))
  | 0x0101 => some (.decompressTest (reserved h p [(2, 6)]) (f 0 1) (f 1 1) (f 8 8) (f 16 8))
  | 0x0110 =>
    let h := reserved h p [(2, 2)]
    match op with
    | 0 => some (.sensorExclude h (f 1 1) (f 4 4))
    | 1 => some (.sensorInclude h (f 1 1))
    | _ => none
  | 0x0120 => some (.deviceReset (reserved h p [(1, 7)]) (f 0 1))
  | _ => none

/-- The command that a packet's opcode and parameters spell. -/
def spell (h : Hdr) (opcode op : Nat) (p : List Byte) : Option Instr :=
  if opcode < 0x30 then spellBase h p opcode op
  else if opcode < 0x80 then spellRun h p opcode
  else if opcode < 0xD0 then spellUnit h p opcode op
  else spellOther h p opcode op

/-- A packet of 64 bytes as it is kept once fetched (R324, R325). -/
def packetOf (ring : Nat) (bs : List Byte) : Fetched × Nat :=
  let opcode := field bs 0 2
  let p := bs.drop 8
  let op := field p 0 1
  let len := field bs 6 1
  let info := cmdInfo opcode op
  let size := match info with
    | some c => c.size
    | none => 0
  let h : Hdr := { ring := ring, tag := field bs 2 2, flags := field bs 4 2, paramLen := len
                   rsv := decide (field bs 7 1 ≠ 0 ∨ field p size (min len 56 - size) ≠ 0), paramRsv := false, t := 0 }
  let need := match info with
    | some c => c.need
    | none => 1
  (match spell h opcode op p with
    | some i => .cmd i
    | none => .bad h opcode op, need)

/-! ## Fetching (R319, R320) -/

/-- Entries are fetched up to CMD_TAIL while the free reply entries, less those owed, are enough. An entry whose read fails stays where
it is (R316). -/
def fetchEntries (ring : Nat) : Nat → State → State
  | 0, s => s
  | n + 1, s =>
    let g := s.ring ring
    if g.cmdHead = g.cmdTail then s
    else
      let a := g.cmdBase + 64 * g.cmdHead
      match s.dmaBad a 64 with
      | some b => s.dmaFault b
      | none =>
        let (x, need) := packetOf ring (s.dmaRead a 64)
        if g.free < g.owed + need then s
        else fetchEntries ring n (s.withRing ring { g with
          cmdHead := (g.cmdHead + 1) % g.entries, owed := g.owed + need, fetched := g.fetched ++ [x] })

/-- COMMAND_FETCH (R319, R320). -/
def execCommandFetch (ring t : Nat) (s : State) : Result :=
  let s := s.at t
  .next (if 63 < ring ∨ !ringServed s ring ∨ !s.host.linkUp then s else (fetchEntries ring (s.ring ring).entries s).settle ring)

end Sys2Proof.Machine
end

