-- ==== Sys2Proof/Machine/Abort.lean ====
section
/-! DEFINITION. Machine/Abort.lean: ABORT (R61, R128, R219, R267, R311, R332, R375). -/

namespace Sys2Proof.Machine

open Sys2Proof

/-! ## Targets that have started -/

/-- HEAD_SCAN: its groups go back to LS, and no head result changes. -/
def abortScan (o : LongOp) (s : State) : State :=
  match s.link.scan with
  | none => s
  | some x =>
    let bars := scanBars s x.barMask
    let s := bars.foldl (fun s g => s.withGroup g { s.group g with enumAt := none }) (s.withLink { s.link with scan := none })
    (sleepGroups bars s).finishLong o.ring o.tag (refuse stAborted)

/-- SCHED_LOAD leaves the bank as it was; SCHED_CHECK leaves it unchecked (R61). -/
def abortSched (o : LongOp) (s : State) : State :=
  match s.run.schedOp with
  | none => s
  | some x =>
    let s := (s.withBank s.spare { s.bank s.spare with loaded := x.wasLoaded, checked := x.wasChecked }).withSchedOp none
    s.finishLong o.ring o.tag (refuse stAborted)

/-- RUN_ARM leaves the device in IDLE with its groups back in LS. -/
def abortArm (o : LongOp) (s : State) : State :=
  match s.link.load with
  | none => s
  | some l => (armAbandon l s).finishLong o.ring o.tag (refuse stAborted)

/-- RUN_REJOIN: back to IDLE, from ARMED too. -/
def abortRejoin (s : State) : State := if s.dev = .armed then enterIdle s else rejoinFail (refuse stAborted) s

/-- CAL_RUN: targets not begun are dropped, and the groups it woke sleep. -/
def abortCal (o : LongOp) (s : State) : State :=
  match s.thermal.op with
  | none => s
  | some _ =>
    let s := restGroups (s.withThermal { s.thermal with op := none })
    s.finishLong o.ring o.tag (refuse stAborted)

/-- NOZZLE_SURVEY and SCRUB_RANGE under their own rules (R219, R311). -/
def abortSurvey (s : State) : State :=
  match s.link.survey with
  | some v => surveyAbort v s
  | none => s

def abortScrub (s : State) : State :=
  match s.dram.scrub with
  | some x => scrubAbort x s
  | none => s

def abortCapture (o : LongOp) (s : State) : State :=
  match findCapture s o.ring o.tag with
  | some (p, x) => endCapture p x stAborted s
  | none => s

def abortCodec (o : LongOp) (s : State) : State :=
  match codecOp s o.ring o.tag with
  | some x => codecAbort x s
  | none => s

/-- A long operation that runs ends with ABORTED. -/
def abortRunning (o : LongOp) (s : State) : State :=
  let s := match o.opcode with
    | 0x0021 => dataAbort s
    | 0x0031 => abortScan o s
    | 0x0040 => abortSched o s
    | 0x0041 => abortSched o s
    | 0x0060 => abortArm o s
    | 0x0063 => abortRejoin s
    | 0x0080 => abortSurvey s
    | 0x0091 => abortCapture o s
    | 0x00A0 => (s.withKeep { s.keep with reg := none }).finishLong o.ring o.tag (refuse stAborted)
    | 0x00A1 => (dropCapture s).finishLong o.ring o.tag (refuse stAborted)
    | 0x00B0 => abortScrub s
    | 0x00C0 => abortCal o s
    | _ => abortCodec o s
  if (s.liveOp o.ring o.tag).isSome then s.finishLong o.ring o.tag (refuse stAborted) else s

/-! ## Targets that have not started -/

/-- A long operation as fetched: its header and opcode. -/
def longOf : Instr → Option (Hdr × Nat)
  | .imageUpdateData h _ _ _ => some (h, 0x0021)
  | .imageUpdateCommitActivate h => some (h, 0x0022)
  | .imageUpdateCommitConfirm h => some (h, 0x0022)
  | .imageUpdateCommitRollback h => some (h, 0x0022)
  | .headScan h _ _ => some (h, 0x0031)
  | .schedLoad h _ _ => some (h, 0x0040)
  | .schedCheck h _ => some (h, 0x0041)
  | .runArm h _ _ _ _ _ => some (h, 0x0060)
  | .runRejoin h _ _ _ => some (h, 0x0063)
  | .nozzleSurvey h _ _ _ _ => some (h, 0x0080)
  | .camCapture h _ _ _ _ => some (h, 0x0091)
  | .regMeasure h _ _ _ => some (h, 0x00A0)
  | .keepTargetCapture h _ _ _ => some (h, 0x00A1)
  | .scrubRange h _ _ _ _ => some (h, 0x00B0)
  | .calRunCalibrate h _ _ _ _ => some (h, 0x00C0)
  | .prbsStart h _ _ _ _ => some (h, 0x00C0)
  | .prbsRead h _ _ _ _ => some (h, 0x00C0)
  | .prbsStop h _ _ => some (h, 0x00C0)
  | .calRunSetup h _ => some (h, 0x00C0)
  | .calRunStatus h _ => some (h, 0x00C0)
  | .compress h _ _ _ _ _ _ _ _ _ _ => some (h, 0x0100)
  | .decompressTest h _ _ _ _ => some (h, 0x0101)
  | _ => none

/-- The long operation that a fetched entry is. -/
def longFetched : Fetched → Option (Hdr × Nat)
  | .cmd i => longOf i
  | .bad h opcode op => match cmdInfo opcode op with
    | some c => if c.long then some (h, opcode) else none
    | none => none

/-- The fetched long operation of a TAG. -/
def waitingOp (g : Ring) (tag : Nat) : Option (Fetched × Nat) :=
  g.fetched.findSome? (fun x => match longFetched x with
    | some (h, opcode) => if h.tag = tag then some (x, opcode) else none
    | none => none)

/-- It ends with ABORTED as its only reply, and its other owed entry is released. -/
def abortWaiting (ring tag : Nat) (x : Fetched) (opcode : Nat) (s : State) : State :=
  let g := s.ring ring
  let s := s.withRing ring { g with fetched := g.fetched.erase x }
  (s.oweLess ring 1).finalShort false ring tag opcode (refuse stAborted)

/-! ## ABORT -/

/-- `own` is the ring of the ABORT itself. -/
def abortBody (own ring tag : Nat) (s : State) : State × Answer :=
  let settled (s : State) : State := if ring = own then s else s.settle ring
  match s.liveOp ring tag with
  | some o =>
    if o.opcode = 0x0022 then (s, refuse stWrongState) else (settled (abortRunning o s), answer stOk (leBytes 1 1))
  | none => match waitingOp (s.ring ring) tag with
    | some (x, opcode) =>
      if opcode = 0x0022 then (s, refuse stWrongState) else (settled (abortWaiting ring tag x opcode s), answer stOk (leBytes 1 1))
    | none => (s, refuse stBadParam)

/-- ABORT (R332). -/
def execAbort (h : Hdr) (ring tag : Nat) (s : State) : Result :=
  .next (hostCmd (.abort (unstarted h) ring tag) h (cmdOf 0x0005 0) (abortBody h.ring ring tag) s)

end Sys2Proof.Machine
end

