-- ==== Sys2Proof/Machine/Answers.lean ====
section
/-! DEFINITION. Machine/Answers.lean: lane switches, lane loss and other alerts, the ACK blocks of the HDMs and the time-outs of a table
load and of a calibration answer (R64, R69, R81, R191, R194, R198 to R200, R421, R422), CAL_RUN and PRBS (R204, R342, R423, R424),
and the calibration events (R414 to R421). -/

namespace Sys2Proof.Machine

open Sys2Proof

/-! ## Lane switches (R198, R422) -/

/-- A lane has come back from DS at the end of its calibration: a lane lost meanwhile takes DS, and the group sleeps if it is to. -/
def laneBack (g : Nat) (s : State) : State :=
  match s.loop g with
  | none => s
  | some x =>
    if x.phase ≠ .returning then s
    else
      let s := s.withLoop g none
      let s := match x.lost with
        | some l => s.withGroup g { s.group g with dsLane := some l }
        | none => s
      if x.sleep then sleepDown g s else resumeLoads (beginWanted s)

/-- The switch of a group takes effect. -/
def takeSwitch (g : Nat) (w : LaneSwitch) (s : State) : State :=
  let s := s.withGroup g { s.group g with dsLane := if w.toDs then some w.lane else none, switch := none }
  match s.loop g with
  | none => s
  | some x =>
    match x.phase with
    | .toDs => sendEnter g x s
    | .returning => if w.toDs then announceSwitch g x.lane false s else laneBack g s
    | _ => s

/-- LANE_SWITCH (R198): the announced switch takes effect. -/
def execLaneSwitch (group t : Nat) (s : State) : Result :=
  let s := s.at t
  match (s.group group).switch with
  | none => .next s
  | some w => .next (if switchDue s w then takeSwitch group w s else s)

/-- A lane is lost while a lane is in calibration (R422): the run ends with CAL_ABORT_STATE, and the lost lane takes DS when the
other returns. -/
def loseInLoop (g lane : Nat) (x : LoopCal) (s : State) : State :=
  if lane < 4 ∧ lane ≠ x.lane ∧ x.lost.isNone then
    let s := (s.count (barCounter g 10)).report 0x2003 (logKey (some g) none (some lane) none) 0 []
    let s := abortLoop g (s.withGroup g { s.group g with failedLane := some lane })
    match s.loop g with
    | some y => s.withLoop g (some { y with lost := some lane })
    | none => s
  else s

/-- ALERT LANE_LOST of a group. -/
def takeLaneLost (g lane : Nat) (s : State) : State :=
  match s.loop g with
  | some x => loseInLoop g lane x s
  | none => loseLane g lane s

/-- ALERT_LANE_LOST (R199, R422). -/
def execAlertLaneLost (u : Up) (lane : Nat) (s : State) : Result :=
  let s := s.at u.t
  .next (if u.group < 8 then takeLaneLost u.group lane (s.traceUp u 0xC3 (2 + 256 * (lane % 8))) else s)

/-- ALERT (R194): BUF_OVERRUN and VSUP_FAULT ask nothing of the device beyond the trace; the causes with rules of their own act as
those rows do. -/
def execAlert (u : Up) (cause lane due : Nat) (s : State) : Result :=
  let s := (s.at u.t).traceUp u 0xC3 (cause % 256 + 2 ^ 8 * (lane % 8) + 2 ^ 11 * (due % 65536))
  .next (if cause % 256 = 1 ∧ s.fitted u.group u.slot then takeCut u.group u.slot (due % 65536) false s
    else if cause % 256 = 2 ∧ u.group < 8 then takeLaneLost u.group (lane % 8) s
    else s)

/-! ## ACK (R191, R194) -/

/-- The first load of a slot that is still to be confirmed. -/
def loadOf (o : LoadOp) (k : Nat) : Option (Nat × Nat) := o.outstanding.find? (fun p => decide (p.1 = k))

/-- Bits that the VALUE of a SLOT_PARAMS load must hold: H in [7:0] and FINE_R in [24:16] (R192). -/
def paramsValue (s : State) (classes b sl : Nat) : Nat :=
  let f := loadFine s classes b sl
  trailTicks f (s.rowSpacing b sl) % 256 + 65536 * (trailRest f (s.rowSpacing b sl) % 512)

/-- The ACK of TABLE_END: a load is confirmed by OK; anything else leaves it outstanding (log 41). -/
def tableAck (b sl status value : Nat) (s : State) : State :=
  match s.link.load with
  | none => s
  | some o =>
    match loadOf o (slotIx b sl) with
    | none => s
    | some p =>
      let echo := value % 256 + 65536 * bits value 16 9
      if status ≠ 0 ∨ o.waiting ∨ (p.2 = 0 ∧ echo ≠ paramsValue s o.classes b sl) then s
      else
        let o := { o with outstanding := o.outstanding.erase p, loaded := o.loaded + 1 }
        let s := s.withLink { s.link with load := some o }
        let base := if o.opcode = 0x63 then 5000 else 0
        let s := s.progressTo o.ring o.tag (base + (10000 - base) * o.loaded / max 1 (o.loaded + o.outstanding.length))
        if o.outstanding ≠ [] then s
        else if o.opcode = 0x68 then commitLoaded s.endLoads
        else if o.opcode = 0x42 then activateLoaded s.endLoads
        else s

/-- The ACK of a CAL block (R200). -/
def calAck (g status : Nat) (s : State) : State :=
  match s.loop g with
  | none => s
  | some x =>
    match x.phase with
    | .entering => if status = 0 then startGen g x.lane 0 (s.withLoop g (some { x with phase := .sweeping, since := s.clk.elapsed }))
        else abortLoop g s
    | .sweeping => if status = 0 then s else abortLoop g s
    | .exiting => if status = 0 then (
          let s := confirmLoop g x s
          let x := { x with result := none }
          if x.lane < 4 then returnLane g x s
          else laneBack g (s.withLoop g (some { x with phase := .returning }))) else abortLoop g s
    | _ => s

/-- What an ACK answers: KIND is the TYPE of a TABLE_END or CAL block, or the OP of a CMD. -/
def takeAck (b sl : Nat) (a : AckBody) (s : State) : State :=
  match a.kind with
  | 0x5A => tableAck b sl a.status a.value s
  | 0x78 => calAck b a.status s
  | 0x01 => if a.status = 0 then enumAck b a.value s else s
  | 0x02 => if a.status = 0 then rejoinAdvance (hmemAck b sl s) else s
  | 0x03 => surveyAck b sl a.status s
  | 0x05 => tabsAck b sl a.status s
  | _ => s

/-- ACK (R194). -/
def execAck (u : Up) (body : AckBody) (s : State) : Result :=
  let s := (s.at u.t).traceUp u 0xE1 (body.kind % 256 + 2 ^ 8 * (body.status % 256) + 2 ^ 16 * (body.value % 2 ^ 32))
  .next (takeAck u.group u.slot body s)

/-! ## Time-outs -/

/-- ENUM_TIMEOUT (R340): 100 ms without the end of the enumeration; every slot of the group is missing. -/
def execEnumTimeout (group t : Nat) (s : State) : Result :=
  let s := s.at t
  match s.link.scan, (s.group group).enumAt with
  | some o, some a =>
    if s.clk.elapsed < a + 100 * msT then .next s
    else
      let s := s.withGroup group { s.group group with enumAt := none }
      .next (rejoinAdvance (scanProgress
        (s.withLink { s.link with scan := some { o with silent := tput (fun _ => false) o.silent group true } })))
  | _, _ => .next s

/-- A load was not confirmed in 100 ms: what its command does. -/
def loadTimedOut (o : LoadOp) (b sl : Nat) (s : State) : State :=
  if o.opcode = 0x68 then commitTimeout o b sl s.endLoads
  else if o.opcode = 0x42 then activateTimeout o b sl s.endLoads
  else if o.opcode = 0x63 then (rejoinFail (answer stTimeout (leBytes 1 b ++ leBytes 1 sl)) s).settle o.ring
  else
    ((armAbandon o s).finishLong o.ring o.tag (answer stTimeout (leBytes 1 b ++ leBytes 1 sl))).settle o.ring

/-- TABLE_LOAD_TIMEOUT (R64, R69, R81, R381). -/
def execTableLoadTimeout (bar slot t : Nat) (s : State) : Result :=
  let s := s.at t
  match s.link.load with
  | none => .next s
  | some o => .next (if !o.waiting ∧ o.since + 100 * msT ≤ s.clk.elapsed ∧ (loadOf o (slotIx bar slot)).isSome then
      loadTimedOut o bar slot s else s)

/-- Limits of the answers of R200: 20 µs for LOOP_ENTER and LOOP_EXIT, 2 µs after a dwell of 10 µs for LOOP_COUNT. -/
def answerLate (s : State) (x : LoopCal) : Bool :=
  match x.phase with
  | .entering => decide (x.since + 20 * usT ≤ s.clk.elapsed)
  | .sweeping => decide (x.since + 12 * usT ≤ s.clk.elapsed)
  | .exiting => x.result.isSome && decide (x.since + 20 * usT ≤ s.clk.elapsed)
  | _ => false

/-- CAL_ANSWER_TIMEOUT (R200): the run ends with CAL_ABORT_STATE; the lane stays on DS until LOOP_EXIT is answered. -/
def execCalAnswerTimeout (group t : Nat) (s : State) : Result :=
  let s := s.at t
  match s.loop group with
  | none => .next s
  | some x => .next (if answerLate s x then abortLoop group s else s)

/-! ## CAL_RUN (R342, R423, R424) -/

/-- The targets that CALIBRATE of LANES names. -/
def laneTargets (groupMask laneMask : Nat) : List Nat :=
  let groups := maskList groupMask 8
  groups.flatMap (fun g => (if laneMask = 0 then [] else
    (maskList laneMask 5).flatMap (fun l => [8 * g + l, 128 + 8 * g + l]) ++ [8 * g + 5]
      ++ (if bit laneMask 5 then [8 * g + 6] else []) ++ [8 * g + 7])) ++ (List.range 8).map (fun k => 92 + k)

def sensorTargets (sensorMask : Nat) : List Nat := (maskList sensorMask 28).map (fun i => 64 + i)

/-- Targets of a CAL_RUN begin; the groups they use wake. -/
def calBegin (ring tag : Nat) (todo : List Nat) (groups : List Nat) (s : State) : State :=
  let woken := groups.filter (fun g => decide ((s.group g).down = .ls))
  let s := woken.foldl (fun s g => wakeDown g s) s
  let op : CalOp := { ring := ring, tag := tag, todo := todo, counts := [], firstBad := 0xFFFF, total := todo.length, woken := woken }
  beginWanted (s.withThermal { s.thermal with op := some op })

def calibrateBegin (h : Hdr) (target groupMask laneMask sensorMask : Nat) (s : State) : State :=
  let groups := if target = 0 then maskList groupMask 8 else []
  if 1 < target ∨ (target = 0 ∧ 64 ≤ laneMask) ∨ 256 ≤ groupMask ∨ (target = 1 ∧ 2 ^ 28 ≤ sensorMask) then
    s.finishLong h.ring h.tag (refuse stBadParam)
  else if s.thermal.op.isSome ∨ groups.any (groupHeld s) ∨ s.link.scan.isSome then s.finishLong h.ring h.tag (refuse stBusy)
  else calBegin h.ring h.tag (if target = 0 then laneTargets groupMask laneMask else sensorTargets sensorMask) groups s

/-- CAL_RUN CALIBRATE (R423). -/
def execCalRunCalibrate (h : Hdr) (target groupMask laneMask sensorMask : Nat) (s : State) : Result :=
  .next (hostLong (.calRunCalibrate (unstarted h) target groupMask laneMask sensorMask) h (cmdOf 0x00C0 0)
    (calibrateBegin h target groupMask laneMask sensorMask) s)

/-- The most severe outcome counted, in the order of R423. -/
def worstOutcome (counts : Tab Nat) : CalOut :=
  if nget counts 2 ≠ 0 then .implausible else if nget counts 3 ≠ 0 then .abort else if nget counts 1 ≠ 0 then .disagree else .ok

/-- Every named target is done. -/
def calFinish (o : CalOp) (s : State) : State :=
  let s := restGroups (s.withThermal { s.thermal with op := none })
  s.finishLong o.ring o.tag (answer (worstOutcome o.counts).status
    ((List.range 4).flatMap (fun i => leBytes 2 (sat 2 (nget o.counts i))) ++ leBytes 2 o.firstBad))

/-- CAL_RUN_CALIBRATE_DONE (R423), and the end of the calibrations of SETUP (R424). -/
def execCalRunCalibrateDone (o : OpRef) (s : State) : Result :=
  .next (withOp o 0x00C0 (fun s =>
    match s.thermal.op with
    | none => s
    | some x => if x.ring = o.ring ∧ x.tag = o.tag ∧ x.todo = [] ∧ x.woken.all (fun g => (s.loop g).isNone) then calFinish x s else s) s)

/-- The four remote input records. -/
def remoteOf (bs : List Byte) (i : Nat) : RemoteCfg :=
  { kind := field bs (16 + 12 * i) 1, offset := fieldInt bs (18 + 12 * i) 2, paramA := field bs (20 + 12 * i) 4,
    paramB := field bs (24 + 12 * i) 2 }

/-- The ranges of R424. The parameters of an input that is OFF are not used. -/
def remoteOk (r : RemoteCfg) : Bool :=
  decide (-500 ≤ r.offset ∧ r.offset ≤ 500) && (match r.kind with
    | 0 => true
    | 1 => decide (996147 ≤ r.paramA ∧ r.paramA ≤ 1153434 ∧ r.paramB ≤ 1000)
    | 2 => decide (100 ≤ r.paramA ∧ r.paramA ≤ 1000000 ∧ 2000 ≤ r.paramB ∧ r.paramB ≤ 6000)
    | _ => false)

def thermalRecordOk (bs : List Byte) : Bool :=
  decide (field bs 0 2 = 0x4854 ∧ field bs 2 1 = 1 ∧ field bs 3 1 ≤ 2 ∧ (field bs 4 2 = 0 ∨ (10 ≤ field bs 4 2 ∧ field bs 4 2 ≤ 200))
    ∧ field bs 6 10 = 0)
  && (List.range 4).all (fun i => remoteOk (remoteOf bs i) && decide (field bs (17 + 12 * i) 1 = 0 ∧ field bs (26 + 12 * i) 2 = 0))

/-- The thermal record is stored, and every remote input whose KIND changed is calibrated. -/
def setupBegin (h : Hdr) (addr : Nat) (s : State) : State :=
  if s.dev ≠ .idle then s.finishLong h.ring h.tag (refuse stWrongState)
  else if s.thermal.op.isSome then s.finishLong h.ring h.tag (refuse stBusy)
  else match s.dmaBad addr 64 with
    | some a => (s.dmaFault a).finishLong h.ring h.tag (refuse stDataUe)
    | none =>
      let bs := s.dmaRead addr 64
      if !thermalRecordOk bs then s.finishLong h.ring h.tag (refuse stBadParam)
      else
        let old (i : Nat) : RemoteCfg := tget (fun _ => RemoteCfg.reset) s.thermal.remotes i
        let todo := ((List.range 4).filter (fun i => decide ((old i).kind ≠ (remoteOf bs i).kind))).map (fun i => 88 + i)
        let remotes := (List.range 4).foldl (fun t i => tput (fun _ => RemoteCfg.reset) t i (remoteOf bs i)) s.thermal.remotes
        let s := s.withThermal { s.thermal with sourceCfg := field bs 3 1, deltaT := field bs 4 2, remotes := remotes }
        calBegin h.ring h.tag todo [] s

/-- CAL_RUN SETUP (R424). -/
def execCalRunSetup (h : Hdr) (addr : Nat) (s : State) : Result :=
  .next (hostLong (.calRunSetup (unstarted h) addr) h (cmdOf 0x00C0 4) (setupBegin h addr) s)

/-! ## PRBS tests (R204, R342) -/

/-- Bits of the lane mask of a CAL block and its UP bit, from LANE_MASK. -/
def prbsBlk (op lane laneMask pattern q : Nat) : Blk := calBlk op lane (laneMask % 32) pattern (bits laneMask 5 1) q

def prbsStartBody (h : Hdr) (groupMask laneMask pattern addr : Nat) (s : State) : State :=
  let groups := maskList groupMask 8
  if 256 ≤ groupMask ∨ laneMask = 0 ∨ 64 ≤ laneMask ∨ laneMask % 32 = 31 ∨ 1 < pattern ∨ 23 < addr then
    s.finishLong h.ring h.tag (refuse stBadParam)
  else if s.dev ≠ .idle then s.finishLong h.ring h.tag (refuse stWrongState)
  else if s.link.scan.isSome ∨ s.link.survey.isSome ∨ s.thermal.op.isSome ∨ groups.any (fun g => (s.loop g).isSome) then
    s.finishLong h.ring h.tag (refuse stBusy)
  else
    let s := groups.foldl (fun s g =>
      let s := (wakeDown g s).sendBlocks g [prbsBlk 0x10 0 laneMask pattern addr]
      let x := s.group g
      let up := bit laneMask 5
      let s := s.withGroup g { x with
        prbsLanes := laneMask, prbsPattern := pattern, u0Seen := 0, u0Reg := 0, u0Errors := 0,
        locked := x.locked && !up, goodRun := if up then 0 else x.goodRun, window := if up then [] else x.window }
      (maskList laneMask 5).foldl (fun s l => startGen g l pattern s) s) s
    s.finishLong h.ring h.tag (refuse stOk)

/-- CAL_RUN PRBS_START (R204, R342). -/
def execPrbsStart (h : Hdr) (groupMask laneMask pattern addr : Nat) (s : State) : Result :=
  .next (hostLong (.prbsStart (unstarted h) groupMask laneMask pattern addr) h (cmdOf 0x00C0 1)
    (prbsStartBody h groupMask laneMask pattern addr) s)

/-- The counts that PRBS_READ returns: those HDM ADDR of the lowest named group answered for the first four lanes set, or the
device's own U0 count. -/
def prbsReadBody (h : Hdr) (groupMask laneMask addr : Nat) (counts : List Nat) (s : State) : State :=
  let groups := maskList groupMask 8
  if groups = [] ∨ 256 ≤ groupMask ∨ 64 ≤ laneMask ∨ 23 < addr then s.finishLong h.ring h.tag (refuse stBadParam)
  else if s.dev ≠ .idle then s.finishLong h.ring h.tag (refuse stWrongState)
  else if bit laneMask 5 then
    s.finishLong h.ring h.tag (answer stOk (groups.head?.elim [] (fun g => leBytes 4 (sat 4 (s.group g).u0Errors))))
  else
    let lanes := (maskList laneMask 5).take 4
    let s := groups.take 1 |>.foldl (fun s g => lanes.foldl (fun s l => s.sendBlocks g [calBlk 0x12 l 0 0 0 addr]) s) s
    s.finishLong h.ring h.tag (answer stOk (lanes.flatMap (fun l => leBytes 4 (sat 4 (nth 0 counts l)))))

/-- CAL_RUN PRBS_READ (R342): the counts come with the HDM's answer, and not in the packet. -/
def execPrbsRead (h : Hdr) (groupMask laneMask addr : Nat) (counts : List Nat) (s : State) : Result :=
  .next (hostLong (.prbsRead (unstarted h) groupMask laneMask addr []) h (cmdOf 0x00C0 2)
    (prbsReadBody h groupMask laneMask addr counts) s)

/-- Lanes under test return to block mode, and the group sleeps when none is left. -/
def prbsStopGroup (laneMask : Nat) (s : State) (g : Nat) : State :=
  let x := s.group g
  let left := maskOf ((maskList x.prbsLanes 6).filter (fun i => !bit laneMask i))
  if x.prbsLanes = 0 then s
  else
    let s := s.sendBlocks g [prbsBlk 0x11 0 laneMask x.prbsPattern 0]
    let s := (maskList laneMask 5).foldl (fun s l => stopGen g l s) (s.withGroup g { s.group g with prbsLanes := left })
    if left = 0 then sleepDown g s else s

def prbsStopBody (h : Hdr) (groupMask laneMask : Nat) (s : State) : State :=
  if 256 ≤ groupMask ∨ 64 ≤ laneMask then s.finishLong h.ring h.tag (refuse stBadParam)
  else if s.dev ≠ .idle then s.finishLong h.ring h.tag (refuse stWrongState)
  else ((maskList groupMask 8).foldl (prbsStopGroup laneMask) s).finishLong h.ring h.tag (refuse stOk)

/-- CAL_RUN PRBS_STOP (R204, R342). -/
def execPrbsStop (h : Hdr) (groupMask laneMask : Nat) (s : State) : Result :=
  .next (hostLong (.prbsStop (unstarted h) groupMask laneMask) h (cmdOf 0x00C0 3) (prbsStopBody h groupMask laneMask) s)

/-! ## Calibration events (R414, R415, R417 to R421) -/

/-- R414, R421: a target becomes pending when its cluster has moved by more than ΔT, and one given up when it has moved so since the
third failure. -/
def evaluateTarget (s : State) (c : Nat) : State :=
  let x := s.target c
  let m := median s (clusterOf c)
  let moved (r : Int) : Bool := decide (deltaT s < (m - r).natAbs)
  let x := match x.gaveUp with
    | some r => if moved r then { x with gaveUp := none, failures := 0, pending := true } else x
    | none => x
  let x := match x.reference with
    | some r => if moved r then { x with pending := true } else x
    | none => x
  s.withTarget c x

/-- CAL_EVALUATION (R414, R415): once per second. -/
def execCalEvaluation (t : Nat) (s : State) : Result :=
  let s := s.at t
  .next (if s.dev = .boot ∨ s.clk.elapsed < s.thermal.evaluatedAt + secT then s
    else beginWanted (calCodes.foldl evaluateTarget (s.withThermal { s.thermal with evaluatedAt := s.clk.elapsed })))

/-- CAL_RETRY (R421): 10 s after a failure. -/
def execCalRetry (target t : Nat) (s : State) : Result :=
  let s := s.at t
  let x := s.target target
  match x.retryAt with
  | none => .next s
  | some r => .next (if r ≤ s.clk.elapsed then beginWanted (s.withTarget target { x with retryAt := none, pending := true }) else s)

/-- CAL_MEASUREMENT_DONE (R417, R418, R420): the next setting is tried, or m1 and m2 are compared and the outcome applied. -/
def execCalMeasurementDone (target : Nat) (value : Int) (stateOk : Bool) (t : Nat) (s : State) : Result :=
  .next (resumeLoads (beginWanted (measureStep target value stateOk (s.at t))))

end Sys2Proof.Machine
end

