-- ==== Sys2Proof/Machine/Dispatch.lean ====
section
/-! DEFINITION. Machine/Dispatch.lean: one arm for each command, a direct call of its meaning. -/

namespace Sys2Proof.Machine

open Sys2Proof

def exec (i : Instr) (s : State) : Host.Outcome State Fault Refusal :=
  match i with
  | .nop h => Sys2Proof.Machine.execNop h s
  | .identify h => Sys2Proof.Machine.execIdentify h s
  | .getStatus h => Sys2Proof.Machine.execGetStatus h s
  | .getProgress h ring tag => Sys2Proof.Machine.execGetProgress h ring tag s
  | .abort h ring tag => Sys2Proof.Machine.execAbort h ring tag s
  | .ringConfigEnable h ring log2 vector coalN coalUs cmdBase replyBase => Sys2Proof.Machine.execRingConfigEnable h ring log2 vector coalN coalUs cmdBase replyBase s
  | .ringConfigDisable h ring => Sys2Proof.Machine.execRingConfigDisable h ring s
  | .plumeEnable h log2 vector coalN coalUs base interval => Sys2Proof.Machine.execPlumeEnable h log2 vector coalN coalUs base interval s
  | .plumeDisable h => Sys2Proof.Machine.execPlumeDisable h s
  | .eventConfigEnable h mask => Sys2Proof.Machine.execEventConfigEnable h mask s
  | .eventConfigComparator h index mode w period => Sys2Proof.Machine.execEventConfigComparator h index mode w period s
  | .imageUpdateBegin h target length => Sys2Proof.Machine.execImageUpdateBegin h target length s
  | .imageUpdateData h offset length source => Sys2Proof.Machine.execImageUpdateData h offset length source s
  | .imageUpdateDataDone o => Sys2Proof.Machine.execImageUpdateDataDone o s
  | .imageUpdateCommitActivate h => Sys2Proof.Machine.execImageUpdateCommitActivate h s
  | .imageUpdateCommitDone o => Sys2Proof.Machine.execImageUpdateCommitDone o s
  | .imageUpdateCommitConfirm h => Sys2Proof.Machine.execImageUpdateCommitConfirm h s
  | .imageUpdateCommitRollback h => Sys2Proof.Machine.execImageUpdateCommitRollback h s
  | .pressConfig h source length => Sys2Proof.Machine.execPressConfig h source length s
  | .headScan h barMask dest => Sys2Proof.Machine.execHeadScan h barMask dest s
  | .headScanDone o => Sys2Proof.Machine.execHeadScanDone o s
  | .schedLoad h addr length => Sys2Proof.Machine.execSchedLoad h addr length s
  | .schedLoadDone o => Sys2Proof.Machine.execSchedLoadDone o s
  | .schedCheck h flags => Sys2Proof.Machine.execSchedCheck h flags s
  | .schedCheckDone o => Sys2Proof.Machine.execSchedCheckDone o s
  | .schedActivate h jobId first boundary => Sys2Proof.Machine.execSchedActivate h jobId first boundary s
  | .storeAlloc h kind bank bar layer context count dest => Sys2Proof.Machine.execStoreAlloc h kind bank bar layer context count dest s
  | .storeWrite h target flags handle source length offset => Sys2Proof.Machine.execStoreWrite h target flags handle source length offset s
  | .storeFree h kind handle => Sys2Proof.Machine.execStoreFree h kind handle s
  | .pageReady h jobId first count descriptor => Sys2Proof.Machine.execPageReady h jobId first count descriptor s
  | .runArm h jobId seqEntry policy firstPage fenceLead => Sys2Proof.Machine.execRunArm h jobId seqEntry policy firstPage fenceLead s
  | .runArmDone o => Sys2Proof.Machine.execRunArmDone o s
  | .runStart h mode mark leadIn sec ns period => Sys2Proof.Machine.execRunStart h mode mark leadIn sec ns period s
  | .runStop h mode boundary => Sys2Proof.Machine.execRunStop h mode boundary s
  | .runRejoin h source minPages record => Sys2Proof.Machine.execRunRejoin h source minPages record s
  | .runRejoinArmed o => Sys2Proof.Machine.execRunRejoinArmed o s
  | .rejoinBoundary => Sys2Proof.Machine.execRejoinBoundary s
  | .commit h classes barMask boundary => Sys2Proof.Machine.execCommit h classes barMask boundary s
  | .gateRelease h barMask boundary => Sys2Proof.Machine.execGateRelease h barMask boundary s
  | .tableWrite h cls bar bank offset length host errs => Sys2Proof.Machine.execTableWrite h cls bar bank offset length host errs s
  | .tableRead h cls bar bank offset length host errs => Sys2Proof.Machine.execTableRead h cls bar bank offset length host errs s
  | .nozzleSurvey h barMask rows slotMask tmax => Sys2Proof.Machine.execNozzleSurvey h barMask rows slotMask tmax s
  | .nozzleSurveyDone o => Sys2Proof.Machine.execNozzleSurveyDone o s
  | .nozzleMask h bar slot row op first count cap => Sys2Proof.Machine.execNozzleMask h bar slot row op first count cap s
  | .restoreSlot h bar slot => Sys2Proof.Machine.execRestoreSlot h bar slot s
  | .camConfigEnable h port record => Sys2Proof.Machine.execCamConfigEnable h port record s
  | .camConfigDisable h port => Sys2Proof.Machine.execCamConfigDisable h port s
  | .camCapture h port stage dest size => Sys2Proof.Machine.execCamCapture h port stage dest size s
  | .camCaptureDone o => Sys2Proof.Machine.execCamCaptureDone o s
  | .keepConfigEnable h barMask record => Sys2Proof.Machine.execKeepConfigEnable h barMask record s
  | .keepConfigDisable h barMask => Sys2Proof.Machine.execKeepConfigDisable h barMask s
  | .keepConfigLadder h record => Sys2Proof.Machine.execKeepConfigLadder h record s
  | .ladderReset h barMask slot => Sys2Proof.Machine.execLadderReset h barMask slot s
  | .regMeasure h flags rep record => Sys2Proof.Machine.execRegMeasure h flags rep record s
  | .regMeasureDone o => Sys2Proof.Machine.execRegMeasureDone o s
  | .keepTargetCapture h barMask first count => Sys2Proof.Machine.execKeepTargetCapture h barMask first count s
  | .keepTargetCaptureDone o => Sys2Proof.Machine.execKeepTargetCaptureDone o s
  | .keepTargetCaptureTimeout o => Sys2Proof.Machine.execKeepTargetCaptureTimeout o s
  | .keepTargetLoad h barMask addr => Sys2Proof.Machine.execKeepTargetLoad h barMask addr s
  | .keepTargetRead h addr => Sys2Proof.Machine.execKeepTargetRead h addr s
  | .keepTargetClear h barMask => Sys2Proof.Machine.execKeepTargetClear h barMask s
  | .scrubRange h memory start length dest => Sys2Proof.Machine.execScrubRange h memory start length dest s
  | .scrubRangeDone o found superseded => Sys2Proof.Machine.execScrubRangeDone o found superseded s
  | .scrubRangePatrol h period => Sys2Proof.Machine.execScrubRangePatrol h period s
  | .calRunCalibrate h target groupMask laneMask sensorMask => Sys2Proof.Machine.execCalRunCalibrate h target groupMask laneMask sensorMask s
  | .calRunCalibrateDone o => Sys2Proof.Machine.execCalRunCalibrateDone o s
  | .prbsStart h groupMask laneMask pattern addr => Sys2Proof.Machine.execPrbsStart h groupMask laneMask pattern addr s
  | .prbsRead h groupMask laneMask addr counts => Sys2Proof.Machine.execPrbsRead h groupMask laneMask addr counts s
  | .prbsStop h groupMask laneMask => Sys2Proof.Machine.execPrbsStop h groupMask laneMask s
  | .calRunSetup h addr => Sys2Proof.Machine.execCalRunSetup h addr s
  | .calRunStatus h addr => Sys2Proof.Machine.execCalRunStatus h addr s
  | .timeConfigNet h modeA modeB vlan ipv4 netmask => Sys2Proof.Machine.execTimeConfigNet h modeA modeB vlan ipv4 netmask s
  | .timeConfigDomain h index number transport delay bandwidth asymA asymB => Sys2Proof.Machine.execTimeConfigDomain h index number transport delay bandwidth asymA asymB s
  | .timeConfigPrefer h index => Sys2Proof.Machine.execTimeConfigPrefer h index s
  | .setTime h sec ns => Sys2Proof.Machine.execSetTime h sec ns s
  | .timeConfigStatus h dest => Sys2Proof.Machine.execTimeConfigStatus h dest s
  | .toutProgram h output mode flags source width startSec startNs period => Sys2Proof.Machine.execToutProgram h output mode flags source width startSec startNs period s
  | .leadConfig h home switchBack eligible pressId groupMac => Sys2Proof.Machine.execLeadConfig h home switchBack eligible pressId groupMac s
  | .leadTransfer h toIndex => Sys2Proof.Machine.execLeadTransfer h toIndex s
  | .leadTransferTimeout t => Sys2Proof.Machine.execLeadTransferTimeout t s
  | .arbiterVerdict h leadIndex epoch => Sys2Proof.Machine.execArbiterVerdict h leadIndex epoch s
  | .logReadRead h first count dest => Sys2Proof.Machine.execLogReadRead h first count dest s
  | .logReadAck h first => Sys2Proof.Machine.execLogReadAck h first s
  | .logReadStatus h => Sys2Proof.Machine.execLogReadStatus h s
  | .logReadFatal h first count dest => Sys2Proof.Machine.execLogReadFatal h first count dest s
  | .clearFirst h => Sys2Proof.Machine.execClearFirst h s
  | .counterSnapshot h first count mode dest => Sys2Proof.Machine.execCounterSnapshot h first count mode dest s
  | .traceFilterStart h mode output barMask sources triggerCode post startPos => Sys2Proof.Machine.execTraceFilterStart h mode output barMask sources triggerCode post startPos s
  | .traceFilterStop h => Sys2Proof.Machine.execTraceFilterStop h s
  | .compress h source stride tileCols tileRows format planes options coverCh firstTile chain => Sys2Proof.Machine.execCompress h source stride tileCols tileRows format planes options coverCh firstTile chain s
  | .compressDone o => Sys2Proof.Machine.execCompressDone o s
  | .decompressTest h kind layer source dest => Sys2Proof.Machine.execDecompressTest h kind layer source dest s
  | .decompressTestDone o => Sys2Proof.Machine.execDecompressTestDone o s
  | .sensorExclude h input ackSeq => Sys2Proof.Machine.execSensorExclude h input ackSeq s
  | .sensorInclude h input => Sys2Proof.Machine.execSensorInclude h input s
  | .deviceReset h kind => Sys2Proof.Machine.execDeviceReset h kind s
  | .commandFetch ring t => Sys2Proof.Machine.execCommandFetch ring t s
  | .replyCoalesceTimeout ring t => Sys2Proof.Machine.execReplyCoalesceTimeout ring t s
  | .cmdTailWrite ring value => Sys2Proof.Machine.execCmdTailWrite ring value s
  | .replyHeadWrite ring value => Sys2Proof.Machine.execReplyHeadWrite ring value s
  | .ring0EnableWrite value => Sys2Proof.Machine.execRing0EnableWrite value s
  | .evtStatusClear value => Sys2Proof.Machine.execEvtStatusClear value s
  | .matchStatusClear value => Sys2Proof.Machine.execMatchStatusClear value s
  | .plumeHeadWrite value => Sys2Proof.Machine.execPlumeHeadWrite value s
  | .msixVectorUnmask vector addr data => Sys2Proof.Machine.execMsixVectorUnmask vector addr data s
  | .timeSecLoRead t => Sys2Proof.Machine.execTimeSecLoRead t s
  | .webPosLoRead t => Sys2Proof.Machine.execWebPosLoRead t s
  | .lowWordRead offset err => Sys2Proof.Machine.execLowWordRead offset err s
  | .registerWrite offset bytes value => Sys2Proof.Machine.execRegisterWrite offset bytes value s
  | .porN held t => Sys2Proof.Machine.execPorN held t s
  | .supplyDrop rail millivolts held t => Sys2Proof.Machine.execSupplyDrop rail millivolts held t s
  | .resetN held t => Sys2Proof.Machine.execResetN held t s
  | .watchdogExpiry core fed t => Sys2Proof.Machine.execWatchdogExpiry core fed t s
  | .fatalError cause t => Sys2Proof.Machine.execFatalError cause t s
  | .fatalRecordWritten complete t => Sys2Proof.Machine.execFatalRecordWritten complete t s
  | .boot t srEntered timing straps errs => Sys2Proof.Machine.execBoot t srEntered timing straps errs s
  | .perstN t => Sys2Proof.Machine.execPerstN t s
  | .pcieHotReset t => Sys2Proof.Machine.execPcieHotReset t s
  | .clockLoss pll t => Sys2Proof.Machine.execClockLoss pll t s
  | .powerDomainReady domain t => Sys2Proof.Machine.execPowerDomainReady domain t s
  | .lineClockTick pipe => Sys2Proof.Machine.execLineClockTick pipe s
  | .tRunTick => Sys2Proof.Machine.execTRunTick s
  | .lineClockStopNow => Sys2Proof.Machine.execLineClockStopNow s
  | .runCue bar page cue errs => Sys2Proof.Machine.execRunCue bar page cue errs s
  | .readDataReturn bar layer context err => Sys2Proof.Machine.execReadDataReturn bar layer context err s
  | .decodeCue bar page cue errs => Sys2Proof.Machine.execDecodeCue bar page cue errs s
  | .toneCue bar page cue errs => Sys2Proof.Machine.execToneCue bar page cue errs s
  | .screenCue bar page cue errs => Sys2Proof.Machine.execScreenCue bar page cue errs s
  | .mapCue bar page cue errs => Sys2Proof.Machine.execMapCue bar page cue errs s
  | .sendCue bar page cue errs => Sys2Proof.Machine.execSendCue bar page cue errs s
  | .energyCue bar page cue errs => Sys2Proof.Machine.execEnergyCue bar page cue errs s
  | .endCue bar page => Sys2Proof.Machine.execEndCue bar page s
  | .fence start errs => Sys2Proof.Machine.execFence start errs s
  | .commitWindowClose boundary => Sys2Proof.Machine.execCommitWindowClose boundary s
  | .pageBoundary => Sys2Proof.Machine.execPageBoundary s
  | .gapStart start => Sys2Proof.Machine.execGapStart start s
  | .pageDone start => Sys2Proof.Machine.execPageDone start s
  | .tableCopyDone t => Sys2Proof.Machine.execTableCopyDone t s
  | .lineMatch comparator => Sys2Proof.Machine.execLineMatch comparator s
  | .plumeSummary => Sys2Proof.Machine.execPlumeSummary s
  | .idleDeviceSummary t => Sys2Proof.Machine.execIdleDeviceSummary t s
  | .geyserWindow record => Sys2Proof.Machine.execGeyserWindow record s
  | .retrainWindow record mr4 => Sys2Proof.Machine.execRetrainWindow record mr4 s
  | .srWindowEntry gapStart index => Sys2Proof.Machine.execSrWindowEntry gapStart index s
  | .srWindowExit gapStart index => Sys2Proof.Machine.execSrWindowExit gapStart index s
  | .idleRefresh subch rank t => Sys2Proof.Machine.execIdleRefresh subch rank t s
  | .idleRetrain channel mr4 t => Sys2Proof.Machine.execIdleRetrain channel mr4 t s
  | .srIdleEntry channel t => Sys2Proof.Machine.execSrIdleEntry channel t s
  | .dynamicShareRequest cls addr write data enables err t => Sys2Proof.Machine.execDynamicShareRequest cls addr write data enables err t s
  | .scrubRead memory addr err superseded t => Sys2Proof.Machine.execScrubRead memory addr err superseded t s
  | .wearHarvest t => Sys2Proof.Machine.execWearHarvest t s
  | .nozzlePlan bar t => Sys2Proof.Machine.execNozzlePlan bar t s
  | .credit u count due => Sys2Proof.Machine.execCredit u count due s
  | .telem u temp vsup flags seq => Sys2Proof.Machine.execTelem u temp vsup flags seq s
  | .alertTAbs u due isPartial => Sys2Proof.Machine.execAlertTAbs u due isPartial s
  | .alertLaneLost u lane => Sys2Proof.Machine.execAlertLaneLost u lane s
  | .alert u cause lane due => Sys2Proof.Machine.execAlert u cause lane due s
  | .survey u nozzle row res => Sys2Proof.Machine.execSurvey u nozzle row res s
  | .hmem u word data => Sys2Proof.Machine.execHmem u word data s
  | .ack u body => Sys2Proof.Machine.execAck u body s
  | .tableLoadTimeout bar slot t => Sys2Proof.Machine.execTableLoadTimeout bar slot t s
  | .enumTimeout group t => Sys2Proof.Machine.execEnumTimeout group t s
  | .telemNowTimeout bar slot t => Sys2Proof.Machine.execTelemNowTimeout bar slot t s
  | .surveySlotTimeout bar slot t => Sys2Proof.Machine.execSurveySlotTimeout bar slot t s
  | .calAnswerTimeout group t => Sys2Proof.Machine.execCalAnswerTimeout group t s
  | .laneSwitch group t => Sys2Proof.Machine.execLaneSwitch group t s
  | .creditAudit t => Sys2Proof.Machine.execCreditAudit t s
  | .gatingInputEdge input level held t => Sys2Proof.Machine.execGatingInputEdge input level held t s
  | .encoderCount enc a b held t => Sys2Proof.Machine.execEncoderCount enc a b held t s
  | .encoderIndex enc held t => Sys2Proof.Machine.execEncoderIndex enc held t s
  | .speedWindowEnd t => Sys2Proof.Machine.execSpeedWindowEnd t s
  | .markEdge input level held t => Sys2Proof.Machine.execMarkEdge input level held t s
  | .markMissing start => Sys2Proof.Machine.execMarkMissing start s
  | .periodUpdateEffective => Sys2Proof.Machine.execPeriodUpdateEffective s
  | .toutPulse output t => Sys2Proof.Machine.execToutPulse output t s
  | .toutPulseEnd output t => Sys2Proof.Machine.execToutPulseEnd output t s
  | .csi2FrameStart port vc number t => Sys2Proof.Machine.execCsi2FrameStart port vc number t s
  | .csi2FrameEnd port vc t => Sys2Proof.Machine.execCsi2FrameEnd port vc t s
  | .csi2LongPacket port vc dataType wordCount pixels crcOk headerOk t => Sys2Proof.Machine.execCsi2LongPacket port vc dataType wordCount pixels crcOk headerOk t s
  | .csi2ShortPacket port vc dataType headerOk t => Sys2Proof.Machine.execCsi2ShortPacket port vc dataType headerOk t s
  | .camFrameTimeout port t => Sys2Proof.Machine.execCamFrameTimeout port t s
  | .camLinePipeline t => Sys2Proof.Machine.execCamLinePipeline t s
  | .zoneRecordSample port t => Sys2Proof.Machine.execZoneRecordSample port t s
  | .ladderDash declaration bar slot row nozzle page => Sys2Proof.Machine.execLadderDash declaration bar slot row nozzle page s
  | .keepIntervalEnd bar t => Sys2Proof.Machine.execKeepIntervalEnd bar t s
  | .heartbeatSend t => Sys2Proof.Machine.execHeartbeatSend t s
  | .heartbeatReceive path hb sameMac t => Sys2Proof.Machine.execHeartbeatReceive path hb sameMac t s
  | .leaseRenew t => Sys2Proof.Machine.execLeaseRenew t s
  | .leaseLost t => Sys2Proof.Machine.execLeaseLost t s
  | .takeover t => Sys2Proof.Machine.execTakeover t s
  | .handoff t => Sys2Proof.Machine.execHandoff t s
  | .prpSupervision t => Sys2Proof.Machine.execPrpSupervision t s
  | .prpFrameReceive path source seq lan trailer length content t => Sys2Proof.Machine.execPrpFrameReceive path source seq lan trailer length content t s
  | .arpRequest path targetIp t => Sys2Proof.Machine.execArpRequest path targetIp t s
  | .icmpEchoRequest path targetIp t => Sys2Proof.Machine.execIcmpEchoRequest path targetIp t s
  | .networkPortLink path up t => Sys2Proof.Machine.execNetworkPortLink path up t s
  | .ptpAnnounce a t => Sys2Proof.Machine.execPtpAnnounce a t s
  | .ptpSync domain path sender seq origin arrival logInterval twoStep t => Sys2Proof.Machine.execPtpSync domain path sender seq origin arrival logInterval twoStep t s
  | .ptpFollowUp domain path sender seq origin t => Sys2Proof.Machine.execPtpFollowUp domain path sender seq origin t s
  | .ptpDelayResp domain path sender seq received t => Sys2Proof.Machine.execPtpDelayResp domain path sender seq received t s
  | .ptpPdelayReq domain path sender seq t => Sys2Proof.Machine.execPtpPdelayReq domain path sender seq t s
  | .ptpPdelayResp domain path sender seq followUp stamp t => Sys2Proof.Machine.execPtpPdelayResp domain path sender seq followUp stamp t s
  | .pdelayReqSend domain path t => Sys2Proof.Machine.execPdelayReqSend domain path t s
  | .ptpEstimateLoss domain t => Sys2Proof.Machine.execPtpEstimateLoss domain t s
  | .preferredDomainReturn t => Sys2Proof.Machine.execPreferredDomainReturn t s
  | .calEvaluation t => Sys2Proof.Machine.execCalEvaluation t s
  | .calRetry target t => Sys2Proof.Machine.execCalRetry target t s
  | .onDieSensorConversion readings t => Sys2Proof.Machine.execOnDieSensorConversion readings t s
  | .sensorEpisodeEnd sensor t => Sys2Proof.Machine.execSensorEpisodeEnd sensor t s
  | .remoteSensorConversion input raw t => Sys2Proof.Machine.execRemoteSensorConversion input raw t s
  | .tJEvaluation t => Sys2Proof.Machine.execTJEvaluation t s
  | .throttleOff t => Sys2Proof.Machine.execThrottleOff t s
  | .thermalRestart t => Sys2Proof.Machine.execThermalRestart t s
  | .logRecord t => Sys2Proof.Machine.execLogRecord t s
  | .followUpEnd t => Sys2Proof.Machine.execFollowUpEnd t s
  | .followUpTimeout t => Sys2Proof.Machine.execFollowUpTimeout t s
  | .rejoinRecordTimeout o => Sys2Proof.Machine.execRejoinRecordTimeout o s
  | .traceStartPosition => Sys2Proof.Machine.execTraceStartPosition s
  | .traceTriggerStop => Sys2Proof.Machine.execTraceTriggerStop s
  | .upstreamBlockLock group words t => Sys2Proof.Machine.execUpstreamBlockLock group words t s
  | .calMeasurementDone target value stateOk t => Sys2Proof.Machine.execCalMeasurementDone target value stateOk t s
  | .delayReqSend domain path t => Sys2Proof.Machine.execDelayReqSend domain path t s
  | .timeSlewEnd t => Sys2Proof.Machine.execTimeSlewEnd t s
  | .verdictLeaseEnd t => Sys2Proof.Machine.execVerdictLeaseEnd t s
  | .jtagInstructionLoad instruction t => Sys2Proof.Machine.execJtagInstructionLoad instruction t s
  | .pcieLinkUp t => Sys2Proof.Machine.execPcieLinkUp t s

end Sys2Proof.Machine
end

