-- ==== Sys2Proof/Safety.lean ====
section
/-! DEFINITION. Safety.lean: the terms in which statements about the machine are made: when a host command is accepted and what its
state is then, what a reply and a long operation are, and the invariants of the machine. -/

namespace Sys2Proof.Machine

open Sys2Proof

/-! ## Host commands -/

/-- A command of ring `h.ring` is fetched, starts at once and passes every check that precedes its own rules (R319, R320, R325,
R327): the ring is served and holds nothing fetched, it has reply entries enough, no predecessor keeps the command waiting, and its
packet fails no check. -/
def accepts (s : State) (h : Hdr) (c : CmdInfo) : Bool :=
  let g := s.ring h.ring
  ringServed s h.ring && decide (g.orphans = []) && decide (g.fetched = []) && decide (g.cmdHead = g.cmdTail)
    && decide (g.owed + c.need ≤ g.free) && mayStart s false h && (packetCheck s c h).isNone && !h.paramRsv

/-- The state in which an accepted command runs: its entry is fetched and its reply entries are owed. -/
def begun (s : State) (h : Hdr) (c : CmdInfo) : State :=
  let s := s.at h.t
  let g := s.ring h.ring
  let next := (g.cmdHead + 1) % g.entries
  s.withRing h.ring { g with cmdHead := next, cmdTail := next, owed := g.owed + c.need }

/-- An accepted long operation finds a place among the sixteen of R330. -/
def acceptsLong (s : State) (h : Hdr) (c : CmdInfo) : Bool := accepts s h c && decide (s.host.longOps.length < 16)

/-- The latest reply of a ring is the one described (R326). -/
def replied (s : State) (ring tag opcode status : Nat) (final : Bool) : Bool :=
  match (s.ring ring).last with
  | none => false
  | some r => decide (r.tag = tag ∧ r.opcode = opcode ∧ r.status = status) && (r.final == final)

/-- The latest reply of a ring is final and carries this result (R326). -/
def repliedWith (s : State) (ring tag opcode status : Nat) (result : List Byte) : Bool :=
  replied s ring tag opcode status true && (match (s.ring ring).last with
    | none => false
    | some r => decide (r.result = result))

/-- A long operation of this ring, tag and opcode runs and its work is complete, its ring is enabled and holds no fetched entry (R329). -/
def runsLong (s : State) (o : OpRef) (opcode : Nat) : Bool :=
  (match s.longOp o.ring o.tag with
    | none => false
    | some l => decide (l.opcode = opcode) && !l.orphan)
  && (s.ring o.ring).enabled && decide ((s.ring o.ring).fetched = []) && o.reach.isNone

/-- From `s` to `t` nothing has changed but what every command's reply writes: ring registers, host memory, messages with their pending
bits, and the trace; the elapsed time is that of `h`. -/
def hostOnly (s t : State) (h : Hdr) : Prop :=
  t = { s with
    host := { s.host with rings := t.host.rings, mem := t.host.mem, messages := t.host.messages, pba := t.host.pba }
    trace := t.trace, clk := (s.at h.t).clk }

/-- As `hostOnly`, for a command that reports to the log as well. -/
def hostAndLog (s t : State) (h : Hdr) : Prop := hostOnly (s.withLog t.log) t h

/-- Host memory after a command that writes `data` at `dest` and then its reply, 32 bytes in the entry at REPLY_TAIL (R321). -/
def delivered (s t : State) (ring dest : Nat) (data : List Byte) : Prop :=
  ∃ rep : List Byte, rep.length = 32 ∧ t.host.mem = mwrite zeroByte (mwrite zeroByte s.host.mem dest data)
    ((s.ring ring).replyBase + 32 * (s.ring ring).replyTail) rep

/-- As `hostOnly`, for a step of a long operation at elapsed time `u`: the list of running operations changes too. -/
def longFrame (s t : State) (u : Time) : Prop :=
  t = { s with
    host := { s.host with rings := t.host.rings, mem := t.host.mem, messages := t.host.messages, pba := t.host.pba
                          longOps := t.host.longOps }
    trace := t.trace, clk := (s.at u).clk }

/-- The long operation of an accepted packet runs, ACCEPTED is its ring's latest reply, and PROGRESS is 0 (R329). -/
def startedLong (s t : State) (h : Hdr) (c : CmdInfo) : Prop :=
  t.host.longOps = s.host.longOps ++ [{ ring := h.ring, tag := h.tag, opcode := c.opcode, orphan := false, progress := 0, pos := c.pos
                                        quiet := bit h.flags 1, skipped := false, lastProgress := 0, lastAt := max s.clk.elapsed h.t
                                        acceptedAt := max s.clk.elapsed h.t }]
  ∧ replied t h.ring h.tag c.opcode stAccepted false = true

/-- A long operation has ended: its final reply has this status, and it is no longer among those that run (R329). -/
def endedLong (s t : State) (o : OpRef) (opcode status : Nat) : Prop :=
  replied t o.ring o.tag opcode status true = true ∧ t.host.longOps.length + 1 = s.host.longOps.length

/-- As `endedLong`, with the result of the final reply. -/
def endedWith (s t : State) (o : OpRef) (opcode status : Nat) (result : List Byte) : Prop :=
  repliedWith t o.ring o.tag opcode status result = true ∧ t.host.longOps.length + 1 = s.host.longOps.length

/-! ## Cues -/

/-- A cue of one kind issues on image line `line` of the page position `p` (R52, R55, R66, R95): the position is played, the cue stands in
the frame program of the latest tick and has not issued in this frame, and the page has the line. -/
def cueIssues (s : State) (kind bar page : Nat) (cue : Word64) (p : PagePos) (line : Nat) : Bool :=
  decide (playedPage s page = some p ∧ (Cue.ofWord cue.toNat).kind = kind) && !(decide (kind ≤ 2) && fetchStopped s)
    && mayIssue s bar p cue.toNat && decide (cueLine s bar p (Cue.ofWord cue.toNat) = (line : Int) ∧ line < p.length)

/-- From `s` to `t` the cue has issued: it is noted, and of the units only the print path, the head links, counters, the feed history with what
of it stands in DRAM, log, events and the trace may have changed. -/
def cueIssued (s t : State) (bar page word : Nat) : Prop :=
  t.path.issued = s.path.issued ++ [(bar, page, word)]
    ∧ t = { s with
        path := t.path, link := t.link, counters := t.counters, keep := t.keep, log := t.log, trace := t.trace, draws := t.draws
        store := t.store, dram := t.dram
        run := { s.run with pages := t.run.pages }
        host := { s.host with evtStatus := t.host.evtStatus, messages := t.host.messages, pba := t.host.pba } }

/-- Blocks have left on group g from block time `start` of the frame on: each lane that carries blocks has its column of the striping, and DS
the lane that it substitutes for (R40, R180). -/
def sentOn (s t : State) (g start : Nat) (bs : List Blk) : Prop :=
  ∀ l ∈ blockLanes s g, ((t.group g).sent.filter (fun x => decide (x.lane = some l))).map (fun x => (x.time, x.blk))
    = laneColumn (s.group g).dsLane false (stripe (ceilDiv bs.length 4) start bs) l

/-! ## Resets -/

/-- What a reset leaves, whatever it keeps of DRAM (R364, R365): every unit at its reset value, flash, the boot state and MRAM as they were,
host memory and the messages sent so far as the host has them, elapsed time at `u` and the time base at 0. -/
def afterReset (s t : State) (source : ResetSource) (path : PowerPath) (u : Time) : Prop :=
  t.dev = .boot ∧ t.fault = .none ∧ t.press = none ∧ t.run = Run.reset ∧ t.web = Web.reset ∧ t.tables = Tables.reset ∧ t.cams = []
    ∧ t.net = Net.reset ∧ t.regs = RegWindow.reset ∧ t.counters = [] ∧ t.pending = s.pending
    ∧ t.clk = { Clk.reset with elapsed := max s.clk.elapsed u, offset := -((max s.clk.elapsed u : Nat) : Int) }
    ∧ t.host = { HostIf.reset with mem := t.host.mem, badReads := s.host.badReads, perstLow := s.host.perstLow, messages := t.host.messages }
    ∧ t.log = { LogUnit.reset with fatalRecords := t.log.fatalRecords } ∧ t.keep = { Keeping.reset with target := s.keep.target }
    ∧ t.boot.path = path ∧ t.boot.source = source ∧ t.boot.resetAt = max s.clk.elapsed u ∧ t.boot.resetOutN = false
    ∧ t.boot.xspiResetN = false ∧ t.boot.dramResetN = t.boot.warm ∧ t.boot.domains = 1 ∧ t.boot.domainsReady = 1
    ∧ t.boot.flash = s.boot.flash ∧ t.boot.preferred = s.boot.preferred ∧ t.boot.trial = s.boot.trial ∧ t.boot.tries = s.boot.tries
    ∧ t.boot.checkpoint = s.boot.checkpoint ∧ t.dram.repairs = s.dram.repairs ∧ t.link.rf = s.link.rf ∧ t.link.health = s.link.health

/-- A cold reset keeps nothing of DRAM. -/
def afterCold (s t : State) (source : ResetSource) (path : PowerPath) (u : Time) : Prop :=
  afterReset s t source path u ∧ t.boot.warm = false ∧ t.store = Store.reset ∧ t.dram.trained = false ∧ t.path.wearTotals = []
    ∧ t.trace.buffer = []

/-- A warm reset keeps DRAM with RETAIN set and DRAM trained; else it is as a cold one. -/
def afterWarm (s t : State) (source : ResetSource) (path : PowerPath) (u : Time) : Prop :=
  (s.dram.cfg.retain = true → s.dram.trained = true → afterReset s t source path u ∧ t.boot.warm = true ∧ t.dram.trained = true
    ∧ t.store = { Store.reset with dram := s.store.dram, poison := s.store.poison } ∧ t.path.wearTotals = s.path.wearTotals)
  ∧ (s.dram.cfg.retain = false ∨ s.dram.trained = false → afterCold s t source path u)

/-! ## Invariants -/

/-- Host memory and DRAM are in canonical form. -/
def memoryOk (s : State) : Bool := memWf s.host.mem && memWf s.store.dram

/-- The sparse tables that commands write by key are in canonical form: rings, groups, slots, bars, camera ports, keeping, the target,
table classes, wear, the DRAM controller's, calibration targets, training loops, sensors and
remote inputs, network ports and PTP domains, outputs, counters and decoder contexts. -/
def canonOk (s : State) : Bool :=
  memoryOk s && twf (fun _ => Ring.reset) s.host.rings && twf (fun _ => Group.reset) s.link.groups
    && twf (fun _ => Slot.reset) s.link.slots && twf (fun _ => Bar.reset) s.link.bars
    && twf (fun _ => CamPort.reset) s.cams && twf (fun _ => KeepBar.reset) s.keep.bars && memWf s.keep.target
    && twf (fun _ => TableSt.reset) s.tables.classes && twf (fun _ => 0) s.path.wear && twf (fun _ => 0) s.path.wearTotals
    && twf (fun _ => 0) s.dram.debt && twf (fun _ => 0) s.dram.debtAt && twf (fun _ => 0) s.dram.windowAt
    && twf (fun _ => CalTarget.reset) s.thermal.targets && twf (fun _ => none) s.thermal.loops && twf (fun _ => Sensor.reset) s.thermal.sensors
    && twf (fun _ => RemoteCfg.reset) s.thermal.remotes && twf (fun _ => NetPort.reset) s.net.ports
    && twf (fun _ => PtpDomain.reset) s.net.domains
    && twf (fun _ => 0) s.dram.taps && twf (fun _ => Channel.reset) s.dram.channels && twf (fun _ => Tout.reset) s.web.touts
    && twf (fun _ => 0) s.counters && twf (fun _ => Context.reset) s.path.contexts

/-- R338, R339, R232, R155: a press description in force names 1 to 4 devices with this one among them, has a line pitch, and the A of
every fitted slot is 0 or more. -/
def pressOk (s : State) : Bool :=
  match s.press with
  | none => true
  | some p => decide (1 ≤ p.devices ∧ p.devices ≤ 4 ∧ p.index < p.devices ∧ p.motion.linePitch ≠ 0)
      && p.slots.all (fun e => decide (e.2.q = 0xFF ∨ 0 ≤ e.2.a))

/-- R226: FIRE_EN of every bar is as its truth table has it. -/
def fireOk (s : State) : Bool := (List.range 8).all (fun b => (s.bar b).fireEn == fireEnValue s b)

end Sys2Proof.Machine
end

