-- ==== Sys2Proof/WellFormed.lean ====
section
/-! DEFINITION. WellFormed.lean: the operands that the manual gives a command: the widths of its parameter tables, and the ranges of the
numbers that name a unit. What a command does with a value outside its own rule's range is that rule's matter. -/

namespace Sys2Proof

/-- A number of `w` bytes. -/
def fits (w n : Nat) : Bool := decide (n < 2 ^ (8 * w))

/-- A signed number of `w` bytes. -/
def fitsInt (w : Nat) (n : Int) : Bool := decide (-(2 ^ (8 * w - 1) : Nat) ≤ n ∧ n < (2 ^ (8 * w - 1) : Nat))

/-- A number from 0 to `m`. -/
def upTo (m n : Nat) : Bool := decide (n ≤ m)

/-- R318, R324: the ring, TAG, FLAGS and PARAM_LEN of a packet. -/
def Hdr.ok (h : Hdr) : Bool := upTo 63 h.ring && fits 2 h.tag && fits 2 h.flags && fits 1 h.paramLen

/-- The ring and TAG of a long operation. -/
def OpRef.ok (o : OpRef) : Bool := upTo 63 o.ring && fits 2 o.tag

/-- R179: a lane group, and a slot or the code for the whole group. -/
def Up.ok (u : Up) : Bool := upTo 7 u.group && upTo 31 u.slot

/-- R194. -/
def AckBody.ok (a : AckBody) : Bool := fits 1 a.kind && fits 1 a.status && fits 4 a.value

/-- R225. -/
def GateInput.ok : GateInput → Bool
  | .bar g => upTo 7 g
  | .jam k => upTo 3 k
  | .media => true
  | .estop => true

/-- R301, R302: the bits that read inverted are symbols of a burst with bits of each, or bits of an SRAM word, none of them twice; the place
read is one of the memories. -/
def ReadErr.ok (e : ReadErr) : Bool :=
  e.flips.all (fun f => upTo 137 f.1 && fits 1 f.2 && decide (f.2 ≠ 0)) && decide ((e.flips.map (·.1)).Nodup)
    && e.source.all (fun a => upTo (2 ^ 37 - 1) a)

/-- An SRAM word at its byte address, and what befell its read. -/
def ReadErr.okSram (x : Nat × ReadErr) : Bool := upTo 100663295 x.1 && decide (x.1 % 16 = 0) && x.2.ok

/-- A DRAM burst at its device address, and what befell its read. -/
def ReadErr.okDram (x : Nat × ReadErr) : Bool := upTo (2 ^ 37 - 1) x.1 && decide (x.1 % 64 = 0) && x.2.ok

/-- R402. -/
def Heartbeat.ok (b : Heartbeat) : Bool :=
  fits 4 b.pressId && fits 1 b.version && fits 1 b.index && fits 1 b.role && fits 1 b.state && fits 4 b.seq && fits 4 b.epoch
    && fits 1 b.flags && fits 1 b.links && fits 2 b.healthS && fits 8 b.webPos && fits 1 b.handoffTo && fits 8 b.stopB
    && fits 2 b.updSeq && fits 8 b.updEffective && fits 8 b.updPeriod && fits 8 b.updPEnc && fits 4 b.startLeadIn
    && fits 4 b.startFirstPage && fits 8 b.startP0 && decide (b.runRecord.length = 96) && upTo 8 b.pending.length
    && b.pending.all (fun e => fits 8 e.1 && fits 4 e.2.1 && fits 2 e.2.2) && fits 8 b.handoffB

/-- R391. -/
def Announce.ok (a : Announce) : Bool :=
  upTo 1 a.path && fits 1 a.priority1 && fits 1 a.clockClass && fits 1 a.clockAccuracy && fits 2 a.variance && fits 1 a.priority2
    && fits 8 a.gmIdentity && fits 2 a.stepsRemoved

/-- Every operand of a command lies in its range. -/
def Instr.wellFormed : Instr → Bool
  | .nop h => h.ok
  | .identify h => h.ok
  | .getStatus h => h.ok
  | .getProgress h ring tag => h.ok && fits 1 ring && fits 2 tag
  | .abort h ring tag => h.ok && fits 1 ring && fits 2 tag
  | .ringConfigEnable h ring log2 vector coalN coalUs cmdBase replyBase => h.ok && fits 1 ring && fits 1 log2 && fits 1 vector && fits 2 coalN && fits 2 coalUs && fits 8 cmdBase && fits 8 replyBase
  | .ringConfigDisable h ring => h.ok && fits 1 ring
  | .plumeEnable h log2 vector coalN coalUs base interval => h.ok && fits 1 log2 && fits 1 vector && fits 2 coalN && fits 2 coalUs && fits 8 base && fits 4 interval
  | .plumeDisable h => h.ok
  | .eventConfigEnable h mask => h.ok && fits 4 mask
  | .eventConfigComparator h index mode w period => h.ok && fits 1 index && fits 1 mode && fits 8 w && fits 4 period
  | .imageUpdateBegin h target length => h.ok && fits 1 target && fits 4 length
  | .imageUpdateData h offset length source => h.ok && fits 4 offset && fits 4 length && fits 8 source
  | .imageUpdateDataDone o => o.ok
  | .imageUpdateCommitActivate h => h.ok
  | .imageUpdateCommitDone o => o.ok
  | .imageUpdateCommitConfirm h => h.ok
  | .imageUpdateCommitRollback h => h.ok
  | .pressConfig h source length => h.ok && fits 8 source && fits 4 length
  | .headScan h barMask dest => h.ok && fits 1 barMask && fits 8 dest
  | .headScanDone o => o.ok
  | .schedLoad h addr length => h.ok && fits 8 addr && fits 4 length
  | .schedLoadDone o => o.ok
  | .schedCheck h flags => h.ok && fits 4 flags
  | .schedCheckDone o => o.ok
  | .schedActivate h jobId first boundary => h.ok && fits 4 jobId && fits 4 first && fits 8 boundary
  | .storeAlloc h kind bank bar layer context count dest => h.ok && fits 1 kind && fits 1 bank && fits 1 bar && fits 1 layer && fits 2 context && fits 4 count && fits 8 dest
  | .storeWrite h target flags handle source length offset => h.ok && fits 1 target && fits 1 flags && fits 4 handle && fits 8 source && fits 4 length && fits 4 offset
  | .storeFree h kind handle => h.ok && fits 1 kind && fits 4 handle
  | .pageReady h jobId first count descriptor => h.ok && fits 4 jobId && fits 4 first && fits 4 count && fits 4 descriptor
  | .runArm h jobId seqEntry policy firstPage fenceLead => h.ok && fits 4 jobId && fits 2 seqEntry && fits 1 policy && fits 4 firstPage && fits 2 fenceLead
  | .runArmDone o => o.ok
  | .runStart h mode mark leadIn sec ns period => h.ok && fits 1 mode && fits 1 mark && fits 4 leadIn && fits 8 sec && fits 4 ns && fits 8 period
  | .runStop h mode boundary => h.ok && fits 1 mode && fits 8 boundary
  | .runRejoin h source minPages record => h.ok && fits 1 source && fits 2 minPages && fits 8 record
  | .runRejoinArmed o => o.ok
  | .rejoinBoundary => true
  | .commit h classes barMask boundary => h.ok && fits 4 classes && fits 1 barMask && fits 8 boundary
  | .gateRelease h barMask boundary => h.ok && fits 1 barMask && fits 8 boundary
  | .tableWrite h cls bar bank offset length host errs => errs.all ReadErr.okSram && h.ok && fits 1 cls && fits 1 bar && fits 1 bank && fits 4 offset && fits 4 length && fits 8 host
  | .tableRead h cls bar bank offset length host errs => errs.all ReadErr.okSram && h.ok && fits 1 cls && fits 1 bar && fits 1 bank && fits 4 offset && fits 4 length && fits 8 host
  | .nozzleSurvey h barMask rows slotMask tmax => h.ok && fits 1 barMask && fits 1 rows && fits 4 slotMask && fits 2 tmax
  | .nozzleSurveyDone o => o.ok
  | .nozzleMask h bar slot row op first count cap => h.ok && fits 1 bar && fits 1 slot && fits 1 row && fits 1 op && fits 2 first && fits 2 count && fits 1 cap
  | .restoreSlot h bar slot => h.ok && fits 1 bar && fits 1 slot
  | .camConfigEnable h port record => h.ok && fits 1 port && fits 8 record
  | .camConfigDisable h port => h.ok && fits 1 port
  | .camCapture h port stage dest size => h.ok && fits 1 port && fits 1 stage && fits 8 dest && fits 4 size
  | .camCaptureDone o => o.ok
  | .keepConfigEnable h barMask record => h.ok && fits 1 barMask && fits 8 record
  | .keepConfigDisable h barMask => h.ok && fits 1 barMask
  | .keepConfigLadder h record => h.ok && fits 8 record
  | .ladderReset h barMask slot => h.ok && fits 1 barMask && fits 1 slot
  | .regMeasure h flags rep record => h.ok && fits 1 flags && fits 1 rep && fits 8 record
  | .regMeasureDone o => o.ok
  | .keepTargetCapture h barMask first count => h.ok && fits 1 barMask && fits 4 first && fits 4 count
  | .keepTargetCaptureDone o => o.ok
  | .keepTargetCaptureTimeout o => o.ok
  | .keepTargetLoad h barMask addr => h.ok && fits 1 barMask && fits 8 addr
  | .keepTargetRead h addr => h.ok && fits 8 addr
  | .keepTargetClear h barMask => h.ok && fits 1 barMask
  | .scrubRange h memory start length dest => h.ok && fits 1 memory && fits 8 start && fits 8 length && fits 8 dest
  | .scrubRangeDone o found _ => o.ok && found.all (fun x => x.2.ok)
  | .scrubRangePatrol h period => h.ok && fits 4 period
  | .calRunCalibrate h target groupMask laneMask sensorMask => h.ok && fits 1 target && fits 1 groupMask && fits 1 laneMask && fits 4 sensorMask
  | .calRunCalibrateDone o => o.ok
  | .prbsStart h groupMask laneMask pattern addr => h.ok && fits 1 groupMask && fits 1 laneMask && fits 1 pattern && fits 1 addr
  | .prbsRead h groupMask laneMask addr counts => h.ok && fits 1 groupMask && fits 1 laneMask && fits 1 addr && counts.all (fits 4)
  | .prbsStop h groupMask laneMask => h.ok && fits 1 groupMask && fits 1 laneMask
  | .calRunSetup h addr => h.ok && fits 8 addr
  | .calRunStatus h addr => h.ok && fits 8 addr
  | .timeConfigNet h modeA modeB vlan ipv4 netmask => h.ok && fits 1 modeA && fits 1 modeB && fits 2 vlan && fits 4 ipv4 && fits 4 netmask
  | .timeConfigDomain h index number transport delay bandwidth asymA asymB => h.ok && fits 1 index && fits 1 number && fits 1 transport && fits 1 delay && fits 1 bandwidth && fitsInt 4 asymA && fitsInt 4 asymB
  | .timeConfigPrefer h index => h.ok && fits 1 index
  | .setTime h sec ns => h.ok && fits 8 sec && fits 4 ns
  | .timeConfigStatus h dest => h.ok && fits 8 dest
  | .toutProgram h output mode flags source width startSec startNs period => h.ok && fits 1 output && fits 1 mode && fits 1 flags && fits 1 source && fits 4 width && fits 8 startSec && fits 4 startNs && fits 8 period
  | .leadConfig h home switchBack eligible pressId groupMac => h.ok && fits 1 home && fits 1 switchBack && fits 1 eligible && fits 4 pressId && fits 6 groupMac
  | .leadTransfer h toIndex => h.ok && fits 1 toIndex
  | .leadTransferTimeout _ => true
  | .arbiterVerdict h leadIndex epoch => h.ok && fits 1 leadIndex && fits 4 epoch
  | .logReadRead h first count dest => h.ok && fits 4 first && fits 4 count && fits 8 dest
  | .logReadAck h first => h.ok && fits 4 first
  | .logReadStatus h => h.ok
  | .logReadFatal h first count dest => h.ok && fits 4 first && fits 4 count && fits 8 dest
  | .clearFirst h => h.ok
  | .counterSnapshot h first count mode dest => h.ok && fits 2 first && fits 2 count && fits 1 mode && fits 8 dest
  | .traceFilterStart h mode output barMask sources triggerCode post startPos => h.ok && fits 1 mode && fits 1 output && fits 1 barMask && fits 4 sources && fits 2 triggerCode && fits 4 post && fits 8 startPos
  | .traceFilterStop h => h.ok
  | .compress h source stride tileCols tileRows format planes options coverCh firstTile chain => h.ok && fits 8 source && fits 4 stride && fits 2 tileCols && fits 2 tileRows && fits 1 format && fits 1 planes && fits 1 options && fits 1 coverCh && fits 4 firstTile && fits 8 chain
  | .compressDone o => o.ok
  | .decompressTest h kind layer source dest => h.ok && fits 1 kind && fits 1 layer && fits 8 source && fits 8 dest
  | .decompressTestDone o => o.ok
  | .sensorExclude h input ackSeq => h.ok && fits 1 input && fits 4 ackSeq
  | .sensorInclude h input => h.ok && fits 1 input
  | .deviceReset h kind => h.ok && fits 1 kind
  | .commandFetch ring _ => upTo 63 ring
  | .replyCoalesceTimeout ring _ => upTo 64 ring
  | .cmdTailWrite ring value => upTo 63 ring && upTo (2 ^ 32 - 1) value
  | .replyHeadWrite ring value => upTo 63 ring && upTo (2 ^ 32 - 1) value
  | .ring0EnableWrite _ => true
  | .evtStatusClear _ => true
  | .matchStatusClear _ => true
  | .plumeHeadWrite _ => true
  | .msixVectorUnmask vector addr data => upTo 79 vector && upTo (2 ^ 64 - 1) addr && upTo (2 ^ 32 - 1) data
  | .timeSecLoRead _ => true
  | .webPosLoRead _ => true
  | .lowWordRead offset err => upTo 33554428 offset && err.ok
  | .registerWrite offset bytes _ => upTo 4194300 offset && upTo 255 bytes
  | .porN _ _ => true
  | .supplyDrop rail millivolts _ _ => upTo 8 rail && fits 2 millivolts
  | .resetN _ _ => true
  | .watchdogExpiry core _ _ => upTo 3 core
  | .fatalError _ _ => true
  | .fatalRecordWritten _ _ => true
  | .boot _ _ timing straps _ => timing.all (fits 2) && upTo 7 straps
  | .perstN _ => true
  | .pcieHotReset _ => true
  | .clockLoss _ _ => true
  | .powerDomainReady domain _ => upTo 11 domain
  | .lineClockTick _ => true
  | .tRunTick => true
  | .lineClockStopNow => true
  | .runCue bar _ _ errs => upTo 7 bar && errs.all ReadErr.okSram
  | .readDataReturn bar layer context err => upTo 7 bar && upTo 1 layer && upTo 255 context && err.ok
  | .decodeCue bar _ _ errs => upTo 7 bar && errs.all ReadErr.okSram
  | .toneCue bar _ _ errs => upTo 7 bar && errs.all ReadErr.okSram
  | .screenCue bar _ _ errs => upTo 7 bar && errs.all ReadErr.okSram
  | .mapCue bar _ _ errs => upTo 7 bar && errs.all ReadErr.okSram
  | .sendCue bar _ _ errs => upTo 7 bar && errs.all ReadErr.okSram
  | .energyCue bar _ _ errs => upTo 7 bar && errs.all ReadErr.okSram
  | .endCue bar _ => upTo 7 bar
  | .fence _ errs => errs.all ReadErr.okDram
  | .commitWindowClose _ => true
  | .pageBoundary => true
  | .gapStart _ => true
  | .pageDone _ => true
  | .tableCopyDone _ => true
  | .lineMatch comparator => upTo 7 comparator
  | .plumeSummary => true
  | .idleDeviceSummary _ => true
  | .geyserWindow record => upTo (2 ^ 16 - 1) record
  | .retrainWindow record mr4 => upTo (2 ^ 16 - 1) record && upTo (2 ^ 16 - 1) mr4
  | .srWindowEntry _ index => upTo (2 ^ 32 - 1) index
  | .srWindowExit _ index => upTo (2 ^ 32 - 1) index
  | .idleRefresh subch rank _ => upTo 7 subch && upTo 1 rank
  | .idleRetrain channel mr4 _ => upTo 3 channel && upTo (2 ^ 16 - 1) mr4
  | .srIdleEntry channel _ => upTo 3 channel
  | .dynamicShareRequest cls addr _ data enables err _ => err.ok && upTo 6 cls && upTo (2 ^ 37 - 1) addr && decide (data.length = 64) && decide (enables.length = 64)
  | .scrubRead memory addr err _ _ => err.ok && upTo 1 memory && upTo (2 ^ 37 - 1) addr
  | .wearHarvest _ => true
  | .nozzlePlan bar _ => upTo 7 bar
  | .credit u count due => u.ok && upTo 255 count && upTo (2 ^ 16 - 1) due
  | .telem u temp vsup flags seq => u.ok && fitsInt 2 temp && upTo (2 ^ 16 - 1) vsup && upTo 255 flags && upTo 255 seq
  | .alertTAbs u due _ => u.ok && upTo (2 ^ 16 - 1) due
  | .alertLaneLost u lane => u.ok && upTo 7 lane
  | .alert u cause lane due => u.ok && upTo 255 cause && upTo 7 lane && upTo (2 ^ 16 - 1) due
  | .survey u nozzle row res => u.ok && upTo 5119 nozzle && upTo 1 row && upTo (2 ^ 20 - 1) res
  | .hmem u word _ => u.ok && upTo 255 word
  | .ack u body => u.ok && body.ok
  | .tableLoadTimeout bar slot _ => upTo 7 bar && upTo 23 slot
  | .enumTimeout group _ => upTo 7 group
  | .telemNowTimeout bar slot _ => upTo 7 bar && upTo 23 slot
  | .surveySlotTimeout bar slot _ => upTo 7 bar && upTo 23 slot
  | .calAnswerTimeout group _ => upTo 7 group
  | .laneSwitch group _ => upTo 7 group
  | .creditAudit _ => true
  | .gatingInputEdge input _ _ _ => input.ok
  | .encoderCount enc _ _ _ _ => upTo 1 enc
  | .encoderIndex enc _ _ => upTo 1 enc
  | .speedWindowEnd _ => true
  | .markEdge input _ _ _ => upTo 3 input
  | .markMissing _ => true
  | .periodUpdateEffective => true
  | .toutPulse output _ => upTo 7 output
  | .toutPulseEnd output _ => upTo 7 output
  | .csi2FrameStart port vc number _ => upTo 1 port && upTo 3 vc && upTo (2 ^ 16 - 1) number
  | .csi2FrameEnd port vc _ => upTo 1 port && upTo 3 vc
  | .csi2LongPacket port vc dataType wordCount pixels _ _ _ => upTo 1 port && upTo 3 vc && upTo 63 dataType && upTo (2 ^ 16 - 1) wordCount && pixels.all (upTo 4095)
  | .csi2ShortPacket port vc dataType _ _ => upTo 1 port && upTo 3 vc && upTo 63 dataType
  | .camFrameTimeout port _ => upTo 1 port
  | .camLinePipeline _ => true
  | .zoneRecordSample port _ => upTo 1 port
  | .ladderDash declaration bar slot row nozzle _ => upTo 7 declaration && upTo 7 bar && upTo 23 slot && upTo 1 row && upTo 5119 nozzle
  | .keepIntervalEnd bar _ => upTo 7 bar
  | .heartbeatSend _ => true
  | .heartbeatReceive path hb _ _ => upTo 1 path && hb.ok
  | .leaseRenew _ => true
  | .leaseLost _ => true
  | .takeover _ => true
  | .handoff _ => true
  | .prpSupervision _ => true
  | .prpFrameReceive path source seq lan _ length _ _ =>
    upTo 1 path && upTo (2 ^ 48 - 1) source && upTo (2 ^ 16 - 1) seq && upTo 15 lan && upTo 65535 length
  | .arpRequest path targetIp _ => upTo 1 path && upTo (2 ^ 32 - 1) targetIp
  | .icmpEchoRequest path targetIp _ => upTo 1 path && upTo (2 ^ 32 - 1) targetIp
  | .networkPortLink path _ _ => upTo 1 path
  | .ptpAnnounce a _ => a.ok
  | .ptpSync domain path sender seq origin arrival logInterval _ _ => upTo 255 domain && upTo 1 path && upTo (2 ^ 80 - 1) sender && upTo (2 ^ 16 - 1) seq && upTo (2 ^ 96 - 1) origin && upTo (2 ^ 96 - 1) arrival && upTo 255 logInterval
  | .ptpFollowUp domain path sender seq origin _ => upTo 255 domain && upTo 1 path && upTo (2 ^ 80 - 1) sender && upTo (2 ^ 16 - 1) seq && upTo (2 ^ 96 - 1) origin
  | .ptpDelayResp domain path sender seq received _ => upTo 255 domain && upTo 1 path && upTo (2 ^ 80 - 1) sender && upTo (2 ^ 16 - 1) seq && upTo (2 ^ 96 - 1) received
  | .ptpPdelayReq domain path sender seq _ => upTo 255 domain && upTo 1 path && upTo (2 ^ 80 - 1) sender && upTo (2 ^ 16 - 1) seq
  | .ptpPdelayResp domain path sender seq _ stamp _ => upTo 255 domain && upTo 1 path && upTo (2 ^ 80 - 1) sender && upTo (2 ^ 16 - 1) seq && upTo (2 ^ 96 - 1) stamp
  | .pdelayReqSend domain path _ => upTo 1 domain && upTo 1 path
  | .ptpEstimateLoss domain _ => upTo 1 domain
  | .preferredDomainReturn _ => true
  | .calEvaluation _ => true
  | .calRetry target _ => upTo 255 target
  | .onDieSensorConversion readings _ => decide (readings.length = 24)
  | .sensorEpisodeEnd sensor _ => upTo 27 sensor
  | .remoteSensorConversion input raw _ => upTo 3 input && (match raw with
    | .ntc node reference => upTo (2 ^ 20 - 1) node && upTo 3 reference
    | _ => true)
  | .tJEvaluation _ => true
  | .throttleOff _ => true
  | .thermalRestart _ => true
  | .logRecord _ => true
  | .followUpEnd _ => true
  | .followUpTimeout _ => true
  | .rejoinRecordTimeout o => o.ok
  | .traceStartPosition => true
  | .traceTriggerStop => true
  | .upstreamBlockLock group _ _ => upTo 7 group
  | .calMeasurementDone target value _ _ => upTo 255 target && fitsInt 4 value
  | .delayReqSend domain path _ => upTo 1 domain && upTo 1 path
  | .timeSlewEnd _ => true
  | .verdictLeaseEnd _ => true
  | .jtagInstructionLoad instruction _ => upTo (2 ^ 32 - 1) instruction
  | .pcieLinkUp _ => true

end Sys2Proof
end

