-- ==== Sys2Proof/Certificates/Slice0/Obligations.lean ====
section
/-! DEFINITION. Certificates/Slice0/Obligations.lean: the statements about the machine, from the manual's numbered rules. `accepts` says
that a host command is fetched and passes every check that precedes its own rules; `hostOnly` that nothing changes but what its reply
writes. -/

open Sys2Proof Sys2Proof.Machine

/-- R334, R335: the three identity and status commands. -/
def Obligations.IdentityCommandsComplete : Prop :=
  (∀ (s : State) (h : Hdr), accepts s h (cmdOf 0x0001 0) = true →
    ∃ t, exec (.nop h) s = .next t ∧ repliedWith t h.ring h.tag 0x0001 stOk [] = true ∧ hostOnly s t h)
  ∧ (∀ (s : State) (h : Hdr), accepts s h (cmdOf 0x0002 0) = true →
    ∃ t, exec (.identify h) s = .next t ∧ repliedWith t h.ring h.tag 0x0002 stOk (leBytes 4 0x8240 ++ leBytes 1 Config.deviceRev ++ leBytes 1 3
        ++ leBytes 1 (match s.press with | none => 0xFF | some p => p.index) ++ leBytes 1 0 ++ leBytes 4 s.boot.fwVersion
        ++ leBytes 4 s.boot.ucodeVersion) = true ∧ hostOnly s t h)
  ∧ (∀ (s : State) (h : Hdr), accepts s h (cmdOf 0x0003 0) = true →
    ∃ t, exec (.getStatus h) s = .next t ∧ repliedWith t h.ring h.tag 0x0003 stOk (leBytes 1 s.dev.code ++ leBytes 1 s.net.lead.role.code
        ++ leBytes 1 (banksField s) ++ leBytes 1 s.fault.code ++ leBytes 4 (jobField s) ++ leBytes 8 s.web.webPos) = true
      ∧ hostOnly s t h)

/-- R331: what GET_PROGRESS takes and answers. -/
def Obligations.GetProgressAnswers : Prop :=
  (∀ (h : Hdr) (p : List Byte), spell h 0x0004 (field p 0 1) p
      = some (.getProgress { h with paramRsv := decide (field p 1 1 ≠ 0) } (field p 0 1) (field p 2 2)))
  ∧ (∀ (s : State) (h : Hdr) (ring tag : Nat) (o : LongOp), accepts s h (cmdOf 0x0004 0) = true →
    s.host.longOps.find? (fun o => decide (o.ring = ring ∧ o.tag = tag) && !o.orphan) = some o →
    ∃ t, exec (.getProgress h ring tag) s = .next t
      ∧ repliedWith t h.ring h.tag 0x0004 stOk (leBytes 2 o.opcode ++ leBytes 2 0
          ++ leBytes 4 ((max s.clk.elapsed h.t - o.acceptedAt) / msT)) = true
      ∧ (t.ring h.ring).last.map (fun r => (r.progress, r.pos)) = some (o.progress, o.pos)
      ∧ hostOnly s t h)
  ∧ (∀ (s : State) (h : Hdr) (ring tag : Nat), accepts s h (cmdOf 0x0004 0) = true →
    s.host.longOps.find? (fun o => decide (o.ring = ring ∧ o.tag = tag) && !o.orphan) = none →
    ∃ t, exec (.getProgress h ring tag) s = .next t ∧ repliedWith t h.ring h.tag 0x0004 stBadParam [] = true ∧ hostOnly s t h)

/-- R323, R343: the four operations of RING_CONFIG; R336, R244: the two operations of EVENT_CONFIG. -/
def Obligations.HostConfigCompletes : Prop :=
  (∀ (s : State) (h : Hdr) (ring log2 vector n us cb rb : Nat), accepts s h (cmdOf 0x0010 1) = true → 1 ≤ ring → ring ≤ 63 →
    4 ≤ log2 → log2 ≤ 12 → vector ≤ 63 → n ≤ 64 → us ≤ 1000 → cb % 4096 = 0 → rb % 4096 = 0 → (s.ring ring).enabled = false →
    ∃ t, exec (.ringConfigEnable h ring log2 vector n us cb rb) s = .next t ∧ repliedWith t h.ring h.tag 0x0010 stOk [] = true
      ∧ t.ring ring = { Ring.reset with enabled := true, cmdBase := cb, replyBase := rb, log2 := log2, vector := vector, coalN := n
                                        coalUs := us, phase := true, orphans := (s.ring ring).orphans }
      ∧ hostOnly s t h)
  ∧ (∀ (s : State) (h : Hdr) (ring : Nat), accepts s h (cmdOf 0x0010 0) = true → 1 ≤ ring → ring ≤ 63 → (s.ring ring).owed = 0 →
    canonOk s = true →
    ∃ t, exec (.ringConfigDisable h ring) s = .next t ∧ repliedWith t h.ring h.tag 0x0010 stOk [] = true
      ∧ (t.ring ring).enabled = false ∧ hostOnly s t h)
  ∧ (∀ (s : State) (h : Hdr) (log2 vector n us base every : Nat), accepts s h (cmdOf 0x0010 2) = true → 6 ≤ log2 → log2 ≤ 16 →
    vector ≤ 63 → n ≤ 64 → us ≤ 1000 → base % 4096 = 0 → (every = 0 ∨ (every % 64 = 0 ∧ 64 ≤ every ∧ every ≤ 1048576)) →
    s.host.plume.enabled = false →
    ∃ t, exec (.plumeEnable h log2 vector n us base every) s = .next t ∧ repliedWith t h.ring h.tag 0x0010 stOk [] = true
      ∧ t.host.plume = { Plume.reset with enabled := true, base := base, log2 := log2, vector := vector, coalN := n, coalUs := us
                                          interval := if every = 0 then 4096 else every, phase := true, seq := s.host.plume.seq
                                          snap := s.host.plume.snap, summaryAt := max s.clk.elapsed h.t }
      ∧ hostOnly (s.withHost { s.host with plume := t.host.plume }) t h)
  ∧ (∀ (s : State) (h : Hdr), accepts s h (cmdOf 0x0010 3) = true →
    ∃ t, exec (.plumeDisable h) s = .next t ∧ repliedWith t h.ring h.tag 0x0010 stOk [] = true
      ∧ hostOnly (s.withHost { s.host with plume := { s.host.plume with enabled := false } }) t h)
  ∧ (∀ (s : State) (h : Hdr) (mask : Nat), accepts s h (cmdOf 0x0011 0) = true → mask < 65536 →
    ∃ t, exec (.eventConfigEnable h mask) s = .next t ∧ repliedWith t h.ring h.tag 0x0011 stOk [] = true
      ∧ hostOnly (s.withHost { s.host with evtEnable := BitVec.ofNat 16 mask }) t h)
  ∧ (∀ (s : State) (h : Hdr) (k w period : Nat), accepts s h (cmdOf 0x0011 1) = true → k ≤ 7 →
    ∃ t, exec (.eventConfigComparator h k 0 w period) s = .next t ∧ repliedWith t h.ring h.tag 0x0011 stOk [] = true
      ∧ hostOnly (s.withComparator k Comparator.reset) t h)
  ∧ (∀ (s : State) (h : Hdr) (k w period : Nat), accepts s h (cmdOf 0x0011 1) = true → k ≤ 7 →
    s.web.webPos + 1 < w →
    ∃ t, exec (.eventConfigComparator h k 1 w period) s = .next t ∧ repliedWith t h.ring h.tag 0x0011 stOk [] = true
      ∧ hostOnly (s.withComparator k { mode := 1, period := period, w := w }) t h)
  ∧ (∀ (s : State) (h : Hdr) (k w period : Nat), accepts s h (cmdOf 0x0011 1) = true → k ≤ 7 → 1 ≤ period → period < 2 ^ 32 →
    ∃ t c, exec (.eventConfigComparator h k 2 w period) s = .next t ∧ repliedWith t h.ring h.tag 0x0011 stOk [] = true
      ∧ c.mode = 2 ∧ c.period = period ∧ s.web.webPos + 1 < c.w ∧ (∃ j, c.w = w + j * period)
      ∧ (c.w = w ∨ c.w ≤ s.web.webPos + 1 + period)
      ∧ hostOnly (s.withComparator k c) t h)

/-- R319, R353, R355, R356: the doorbell registers and ring 0's control register; R336, R356, R357, R323: status registers, MSI-X and coalescing. -/
def Obligations.HostRegisterWritesComplete : Prop :=
  (∀ (s : State) (r v : Nat), s.host.linkUp = true → r ≤ 63 → v < 65536 → (s.ring r).enabled = true → v < (s.ring r).entries →
    exec (.cmdTailWrite r v) s = .next (s.withRing r { s.ring r with cmdTail := v }))
  ∧ (∀ (s : State) (r v : Nat), s.host.linkUp = true → r ≤ 63 → v < 65536 → (s.ring r).enabled = true → (s.ring r).entries ≤ v →
    exec (.cmdTailWrite r v) s = .next ((s.count 30).report 0x6001 (logKey none none none none) r (leBytes 4 v)))
  ∧ (∀ (s : State) (r v : Nat), s.host.linkUp = true → r ≤ 63 → (s.ring r).enabled = false →
    exec (.cmdTailWrite r v) s = .next (s.count 30) ∧ exec (.replyHeadWrite r v) s = .next (s.count 30))
  ∧ (∀ (s : State) (r v : Nat), s.host.linkUp = true → r ≤ 63 → v < 65536 → (s.ring r).enabled = true → v < (s.ring r).entries →
    (v + (s.ring r).entries - (s.ring r).replyHead) % (s.ring r).entries ≤ (s.ring r).unread →
    exec (.replyHeadWrite r v) s = .next (s.withRing r { s.ring r with replyHead := v }))
  ∧ (∀ (s : State) (r v : Nat), s.host.linkUp = true → r ≤ 63 → v < 65536 → (s.ring r).enabled = true → v < (s.ring r).entries →
    (s.ring r).unread < (v + (s.ring r).entries - (s.ring r).replyHead) % (s.ring r).entries →
    exec (.replyHeadWrite r v) s = .next ((s.count 30).report 0x6001 (logKey none none none none) r (leBytes 4 v)))
  ∧ (∀ (s : State) (v : Word32), s.host.linkUp = true → s.host.plume.enabled = true → v.toNat < 65536 → v.toNat < 2 ^ s.host.plume.log2 →
    (v.toNat + 2 ^ s.host.plume.log2 - s.host.plume.head) % 2 ^ s.host.plume.log2 ≤ s.host.plume.used →
    exec (.plumeHeadWrite v) s = .next (s.withHost { s.host with plume := { s.host.plume with head := v.toNat } }))
  ∧ (∀ (s : State) (v : Word32), s.host.linkUp = true → s.host.plume.enabled = true → v.toNat < 65536 →
    s.host.plume.used < (v.toNat + 2 ^ s.host.plume.log2 - s.host.plume.head) % 2 ^ s.host.plume.log2 →
    exec (.plumeHeadWrite v) s = .next (s.count 30))
  ∧ (∀ (s : State) (v : Word32), s.host.linkUp = true → (s.ring 0).enabled = false → v.toNat.testBit 0 = true →
    4 ≤ v.toNat / 256 % 16 → v.toNat / 256 % 16 ≤ 12 →
    exec (.ring0EnableWrite v) s = .next (s.withRing 0 { Ring.reset with
      enabled := true, cmdBase := (s.ring 0).cmdBase, replyBase := (s.ring 0).replyBase, log2 := v.toNat / 256 % 16
      vector := v.toNat / 65536 % 64, coalN := (s.ring 0).coalN, coalUs := (s.ring 0).coalUs, phase := true
      orphans := (s.ring 0).orphans }))
  ∧ (∀ (s : State) (v : Word32), s.host.linkUp = true → (s.ring 0).enabled = true → exec (.ring0EnableWrite v) s = .next s)
  ∧ (∀ (s : State) (v : Word32), s.host.linkUp = true → (s.ring 0).enabled = false → v.toNat.testBit 0 = true →
    (v.toNat / 256 % 16 < 4 ∨ 12 < v.toNat / 256 % 16) →
    exec (.ring0EnableWrite v) s = .next ((s.withRing 0 { s.ring 0 with
      log2 := v.toNat / 256 % 16, vector := v.toNat / 65536 % 64 }).report 0x6002 (logKey none none none none) 0 []))
  ∧ (∀ (s : State) (v : Word32), s.host.linkUp = true → ∃ t, exec (.evtStatusClear v) s = .next t
    ∧ t = s.withHost { s.host with evtStatus := t.host.evtStatus }
    ∧ ∀ i, i < 16 → t.host.evtStatus.getLsbD i = (s.host.evtStatus.getLsbD i && !v.getLsbD i))
  ∧ (∀ (s : State) (v : Word32), s.host.linkUp = true → ∃ t, exec (.matchStatusClear v) s = .next t
    ∧ t = s.withHost { s.host with matchStatus := t.host.matchStatus }
    ∧ ∀ i, i < 8 → t.host.matchStatus.getLsbD i = (s.host.matchStatus.getLsbD i && !v.getLsbD i))
  ∧ (∀ (s : State) (k a d : Nat), s.host.linkUp = true → k ≤ 79 → a < 2 ^ 64 → d < 2 ^ 32 → s.host.pba.getLsbD k = true →
    ∃ t, exec (.msixVectorUnmask k a d) s = .next t
      ∧ t.msixEntry k = { addr := a, data := d, masked := false }
      ∧ t.host.pba.getLsbD k = false ∧ (∀ j, j ≠ k → t.host.pba.getLsbD j = s.host.pba.getLsbD j)
      ∧ t.host.messages = nput s.host.messages k (nget s.host.messages k + 1)
      ∧ t = s.withHost { s.host with msix := t.host.msix, pba := t.host.pba, messages := t.host.messages })
  ∧ (∀ (s : State) (k a d : Nat), s.host.linkUp = true → k ≤ 79 → a < 2 ^ 64 → d < 2 ^ 32 → s.host.pba.getLsbD k = false →
    ∃ t, exec (.msixVectorUnmask k a d) s = .next t ∧ t.msixEntry k = { addr := a, data := d, masked := false }
      ∧ t = s.withHost { s.host with msix := t.host.msix })
  ∧ (∀ (s : State) (r u : Nat), r ≤ 63 → (s.ring r).enabled = true → 0 < (s.ring r).unsignalled → (s.ring r).coalUs ≠ 0 →
    (s.ring r).oldest + (s.ring r).coalUs * usT ≤ max s.clk.elapsed u → (s.msixEntry (s.ring r).vector).masked = false →
    ∃ t, exec (.replyCoalesceTimeout r u) s = .next t ∧ (t.ring r).unsignalled = 0
      ∧ nget t.host.messages (s.ring r).vector = nget s.host.messages (s.ring r).vector + 1
      ∧ t = (s.at u).withHost { s.host with rings := t.host.rings, messages := t.host.messages })
  ∧ (∀ (s : State) (u : Nat), s.host.plume.enabled = true → 0 < s.host.plume.unsignalled → s.host.plume.coalUs ≠ 0 →
    s.host.plume.oldest + s.host.plume.coalUs * usT ≤ max s.clk.elapsed u → (s.msixEntry s.host.plume.vector).masked = false →
    exec (.replyCoalesceTimeout 64 u) s = .next ((s.at u).withHost { s.host with
      plume := { s.host.plume with unsignalled := 0 }
      messages := nput s.host.messages s.host.plume.vector (nget s.host.messages s.host.plume.vector + 1) }))

/-- R321, R326: where the reply of a command goes, and that nothing else of host memory is written. -/
def Obligations.ReplyStoresOnlyItsEntry : Prop :=
  ∀ (s t : State) (h : Hdr) (i : Instr) (c : CmdInfo) (ring tag mask first : Nat), canonOk s = true → s.host.linkUp = true →
    ((i, c) ∈ [(Instr.nop h, cmdOf 0x0001 0), (.identify h, cmdOf 0x0002 0), (.getStatus h, cmdOf 0x0003 0),
      (.getProgress h ring tag, cmdOf 0x0004 0), (.ringConfigDisable h ring, cmdOf 0x0010 0), (.eventConfigEnable h mask, cmdOf 0x0011 0),
      (.logReadAck h first, cmdOf 0x00F0 1), (.logReadStatus h, cmdOf 0x00F0 2), (.clearFirst h, cmdOf 0x00F0 4),
      (.traceFilterStop h, cmdOf 0x00F2 0)]) →
    accepts s h c = true → exec i s = .next t →
    ∀ a, (a < (s.ring h.ring).replyBase + 32 * (s.ring h.ring).replyTail
        ∨ (s.ring h.ring).replyBase + 32 * (s.ring h.ring).replyTail + 32 ≤ a) →
      tget zeroByte t.host.mem a = tget zeroByte s.host.mem a

/-- R446: the five operations of LOG_READ; R443, R444: how entries come to be written. -/
def Obligations.ErrorLogCompletes : Prop :=
  (∀ (s : State) (h : Hdr) (first count dest : Nat), accepts s h (cmdOf 0x00F0 0) = true → 1 ≤ count → count ≤ 256 →
    s.host.linkUp = true →
    ∃ t, exec (.logReadRead h first count dest) s = .next t
      ∧ repliedWith t h.ring h.tag 0x00F0 stOk (leBytes 4 (match heldEntries s first count with | [] => first | e :: _ => e.seq)
          ++ leBytes 4 (heldEntries s first count).length) = true
      ∧ delivered s t h.ring dest ((heldEntries s first count).flatMap LogEntry.toBytes) ∧ hostOnly s t h)
  ∧ (∀ (s : State) (h : Hdr) (first : Nat), accepts s h (cmdOf 0x00F0 1) = true → first ≤ s.log.next →
    ∃ t, exec (.logReadAck h first) s = .next t ∧ repliedWith t h.ring h.tag 0x00F0 stOk [] = true
      ∧ hostOnly (s.withLog { s.log with readMark := max s.log.readMark first }) t h)
  ∧ (∀ (s : State) (h : Hdr), accepts s h (cmdOf 0x00F0 2) = true →
    ∃ t, exec (.logReadStatus h) s = .next t ∧ repliedWith t h.ring h.tag 0x00F0 stOk
        (leBytes 2 (nget s.log.since 0) ++ leBytes 2 (nget s.log.since 1) ++ leBytes 2 (nget s.log.since 2) ++ leBytes 2 (nget s.log.since 3)
          ++ leBytes 2 (nget s.log.since 4) ++ leBytes 2 (nget s.log.since 5) ++ leBytes 4 s.log.readMark) = true ∧ hostOnly s t h)
  ∧ (∀ (s : State) (h : Hdr) (first count dest : Nat), accepts s h (cmdOf 0x00F0 3) = true → 1 ≤ count → count ≤ 16 →
    s.host.linkUp = true →
    ∃ t, exec (.logReadFatal h first count dest) s = .next t
      ∧ repliedWith t h.ring h.tag 0x00F0 stOk (leBytes 4 ((s.log.fatalRecords.drop first).take count).length
          ++ leBytes 4 s.log.fatalRecords.length) = true
      ∧ delivered s t h.ring dest (((s.log.fatalRecords.drop first).take count).flatMap (padTo 512)) ∧ hostOnly s t h)
  ∧ (∀ (s : State) (h : Hdr), accepts s h (cmdOf 0x00F0 4) = true →
    ∃ t, exec (.clearFirst h) s = .next t ∧ repliedWith t h.ring h.tag 0x00F0 stOk [] = true
      ∧ hostOnly (s.withLog { s.log with first := none, firstArrival := none, since := [] }) t h)
  ∧ (∀ (s : State) (u : Nat) (r : Report), headReport s.log.queue = some r → r.followAt = none → coalesceTarget ((s.at u).withLog { s.log with
      queue := s.log.queue.filter (fun x => x.arrival != r.arrival) }) r = none →
    ∃ t e, exec (.logRecord u) s = .next t ∧ t.log.next = (s.log.next + 1) % 2 ^ 32 ∧ t.log.slot (s.log.next % 256) = some e
      ∧ e.seq = s.log.next ∧ e.code = r.code ∧ e.severity = severityOf r.code ∧ e.key = r.key ∧ e.value = r.value ∧ e.fields = r.fields
      ∧ e.time = r.time ∧ e.webPos = r.webPos ∧ t.log.queue = s.log.queue.filter (fun x => x.arrival != r.arrival)
      ∧ t = { s with clk := (s.at u).clk, log := t.log, host := t.host, trace := t.trace, thermal := t.thermal })
  ∧ (∀ (s : State) (u : Nat) (r : Report), headReport (s.log.followUps.map (·.1)) = some r → coalesceTarget ((s.at u).withLog { s.log with
      followUps := s.log.followUps.filter (fun x => x.1.arrival != r.arrival)
      queue := s.log.queue.filter (fun x => x.arrival != r.arrival) }) r = none →
    ∃ t e, exec (.followUpEnd u) s = .next t ∧ t.log.next = (s.log.next + 1) % 2 ^ 32 ∧ t.log.slot (s.log.next % 256) = some e
      ∧ e.code = r.code ∧ e.fields = r.fields ∧ t.log.followUps = s.log.followUps.filter (fun x => x.1.arrival != r.arrival)
      ∧ t = { s with clk := (s.at u).clk, log := t.log, host := t.host, trace := t.trace, thermal := t.thermal })
  ∧ (∀ (s : State) (u : Nat) (r : Report), overdue (s.at u) = some r →
    coalesceTarget ((s.at u).withLog { s.log with followUps := s.log.followUps.filter (fun y => y.1.arrival != r.arrival)
                                                  queue := s.log.queue.filter (fun y => y.arrival != r.arrival) })
      { r with fields := r.fields.take 1 ++ List.replicate (r.fields.length - 1) 0xFF } = none →
    ∃ t e, exec (.followUpTimeout u) s = .next t ∧ t.log.next = (s.log.next + 1) % 2 ^ 32 ∧ t.log.slot (s.log.next % 256) = some e
      ∧ e.code = r.code ∧ e.fields = r.fields.take 1 ++ List.replicate (r.fields.length - 1) 0xFF
      ∧ t.log.followUps = s.log.followUps.filter (fun y => y.1.arrival != r.arrival)
      ∧ t.log.queue = s.log.queue.filter (fun y => y.arrival != r.arrival)
      ∧ t = { s with clk := (s.at u).clk, log := t.log, host := t.host, trace := t.trace, thermal := t.thermal })
  ∧ (∀ (s : State) (u v : Nat) (r : Report), headReport s.log.queue = some r → r.followAt = some v →
    exec (.logRecord u) s = .next ((s.at u).withLog { s.log with
      queue := s.log.queue.filter (fun x => x.arrival != r.arrival), followUps := s.log.followUps ++ [(r, v)] }))
  ∧ (∀ (s : State) (u : Nat) (r : Report), overdue (s.at u) = some r →
    ∃ v, r.followAt = some v ∧ v + 10 * msT ≤ max s.clk.elapsed u
      ∧ (r ∈ s.log.queue ∨ r ∈ s.log.followUps.map (·.1)))

/-- R453, R451: the trace filter and the counter snapshot. -/
def Obligations.TraceAndSnapshotComplete : Prop :=
  (∀ (s : State) (h : Hdr) (mode output bars sources code post at_ : Nat), accepts s h (cmdOf 0x00F2 1) = true → mode ≤ 2 → output ≤ 3 →
    bars ≤ 255 → sources ≤ 2047 → post ≤ 262143 →
    ∃ t, exec (.traceFilterStart h mode output bars sources code post at_) s = .next t
      ∧ replied t h.ring h.tag 0x00F2 stOk true = true
      ∧ t.trace.mode = mode ∧ t.trace.output = output ∧ t.trace.barMask = bars ∧ t.trace.sources = sources
      ∧ t.trace.triggerCode = code ∧ t.trace.post = post ∧ t.trace.armed = decide (at_ ≠ 0)
      ∧ (at_ ≠ 0 → t.trace.stopped = true ∧ t.trace.write = 0 ∧ t.trace.triggered = false)
      ∧ hostOnly s t h)
  ∧ (∀ (s : State) (h : Hdr), accepts s h (cmdOf 0x00F2 0) = true →
    ∃ t, exec (.traceFilterStop h) s = .next t ∧ replied t h.ring h.tag 0x00F2 stOk true = true
      ∧ t.trace = { s.trace with stopped := true, armed := false } ∧ hostOnly s t h)
  ∧ (∀ (s : State), s.trace.armed = true → s.web.running = true → s.trace.startPos ≤ s.web.webPos →
    exec .traceStartPosition s = .next (s.withTrace { s.trace with armed := false, stopped := false }))
  ∧ (∀ (s : State), s.trace.triggered = true → s.trace.postLeft = 0 → s.trace.stopped = false →
    exec .traceTriggerStop s = .next (s.withTrace { s.trace with stopped := true, armed := false }))
  ∧ (∀ (s : State) (h : Hdr) (first count mode dest : Nat), accepts s h (cmdOf 0x00F1 0) = true → 1 ≤ count → first + count ≤ 1024 →
    (mode = 0 ∨ (mode = 1 ∧ s.web.running = false)) → s.host.linkUp = true →
    ∃ t, exec (.counterSnapshot h first count mode dest) s = .next t ∧ repliedWith t h.ring h.tag 0x00F1 stOk [] = true
      ∧ delivered s t h.ring dest (snapshotBytes (s.at h.t) first count false) ∧ hostOnly s t h)
  ∧ (∀ (s : State) (h : Hdr) (first count dest : Nat), accepts s h (cmdOf 0x00F1 0) = true → 1 ≤ count → first + count ≤ 1024 →
    s.web.running = true →
    ∃ t, exec (.counterSnapshot h first count 1 dest) s = .next t
      ∧ t.host.waits = s.host.waits ++ [{ ring := h.ring, tag := h.tag, opcode := 0x00F1, orphan := false
                                          since := max s.clk.elapsed h.t, kind := .snapshot first count dest }])

/-- R347 to R349, R358, R359: the register window. -/
def Obligations.RegisterWindowCompletes : Prop :=
  (∀ (s : State) (o : Nat) (err : ReadErr), s.host.linkUp = true → o % 4 = 0 → o < 0x400000 → o ≠ 0x10000 → o ≠ 0x20000 →
    latchedHigh s o = none →
    exec (.lowWordRead o err) s = .next (s.withRegs { s.regs with
      readData := BitVec.ofNat 64 (readRegister s o + 2 ^ 32 * readRegister s (o + 4)), readEp := false }))
  ∧ (∀ (s : State) (i : Nat) (err : ReadErr), s.host.linkUp = true → i < 1024 → twf (fun _ => (0 : Word32)) s.regs.lowLatch = true →
    ∃ t, exec (.lowWordRead (0x40000 + 8 * i) err) s = .next t
      ∧ (tget (fun _ => (0 : Word32)) t.regs.lowLatch (0x40000 + 8 * i)) = BitVec.ofNat 32 (hi32 (s.counter i))
      ∧ t.regs.readData = BitVec.ofNat 64 (s.counter i % 2 ^ 32 + 2 ^ 32 * (hi32 (s.counter i) % 2 ^ 32))
      ∧ t = s.withRegs { s.regs with readData := t.regs.readData, lowLatch := t.regs.lowLatch, readEp := false })
  ∧ (∀ (s : State) (err : ReadErr), s.host.linkUp = true →
    exec (.lowWordRead (traceWindowBase + 0x400000) err) s = .next (s.withRegs { s.regs with
      readData := BitVec.ofNat 64 (s.trace.write + 2 ^ 32 * s.trace.wraps), readEp := false }))
  ∧ (∀ (s : State) (u : Nat), s.host.linkUp = true →
    ∃ t, exec (.timeSecLoRead u) s = .next t
      ∧ t.regs.readData = BitVec.ofNat 64 (taiSec (s.at u).base % 2 ^ 32 + 2 ^ 32 * (hi32 (taiSec (s.at u).base) % 2 ^ 32))
      ∧ readRegister t 0x10000 = taiSec (s.at u).base % 2 ^ 32 ∧ readRegister t 0x10004 = hi32 (taiSec (s.at u).base) % 2 ^ 32
      ∧ readRegister t 0x10008 = taiNs (s.at u).base % 2 ^ 32 ∧ readRegister t 0x1000C = taiFrac (s.at u).base % 2 ^ 32
      ∧ t = (s.at u).withRegs { s.regs with readData := t.regs.readData, timeGroup := t.regs.timeGroup, readEp := false })
  ∧ (∀ (s : State) (u : Nat), s.host.linkUp = true →
    ∃ t, exec (.webPosLoRead u) s = .next t
      ∧ t.regs.readData = BitVec.ofNat 64 (s.web.webPos % 2 ^ 32 + 2 ^ 32 * (hi32 s.web.webPos % 2 ^ 32))
      ∧ readRegister t 0x20000 = s.web.webPos % 2 ^ 32 ∧ readRegister t 0x20018 = s.web.period % 2 ^ 32
      ∧ readRegister t 0x20028 = s.run.pagePlaced % 2 ^ 32
      ∧ t = (s.at u).withRegs { s.regs with readData := t.regs.readData, runGroup := t.regs.runGroup, readEp := false })
  ∧ (∀ (s : State) (v : Word64), s.host.linkUp = true →
    exec (.registerWrite 0x018 0x0F v) s = .next (s.withRegs { s.regs with scratch := BitVec.ofNat 32 (v.toNat % 2 ^ 32) }))
  ∧ (∀ (s : State) (o : Nat) (v : Word64), s.host.linkUp = true → o < 0x400000 → o % 4 = 0 →
    exec (.registerWrite o 0x01 v) s = .next (s.count 31))
  ∧ (∀ (s : State) (o : Nat) (v : Word64), s.host.linkUp = true → o % 4 = 0 → (0x10000 ≤ o ∧ o < 0x60000) →
    exec (.registerWrite o 0x0F v) s = .next s)
  ∧ (∀ (s : State) (o : Nat) (v : Word64), s.host.linkUp = true → o % 4 = 0 → o < 0x400000 →
    exec (.registerWrite o 0x0F v) s = .next (writeRegister o (v.toNat % 2 ^ 32) s)
      ∧ exec (.registerWrite o 0xFF v) s
        = .next (writeRegister (o + 4) (v.toNat / 2 ^ 32 % 2 ^ 32) (writeRegister o (v.toNat % 2 ^ 32) s)))

/-- R319, R320: fetching one packet. -/
def Obligations.FetchTakesPackets : Prop :=
  (∀ (s : State) (r u : Nat) (i : Instr) (need : Nat), ringServed s r = true → r ≤ 63 → s.host.linkUp = true →
    (s.ring r).cmdTail = ((s.ring r).cmdHead + 1) % (s.ring r).entries → 2 ≤ (s.ring r).entries →
    (s.ring r).cmdHead < (s.ring r).entries →
    s.dmaBad ((s.ring r).cmdBase + 64 * (s.ring r).cmdHead) 64 = none → (s.ring r).fetched = [] →
    packetOf r (s.dmaRead ((s.ring r).cmdBase + 64 * (s.ring r).cmdHead) 64) = (.cmd i, need) →
    (s.ring r).owed + need ≤ (s.ring r).free →
    exec (.commandFetch r u) s = .next ((s.at u).withRing r { s.ring r with
      cmdHead := (s.ring r).cmdTail, owed := (s.ring r).owed + need, fetched := [.cmd i] }))
  ∧ (∀ (s : State) (r u : Nat), ringServed s r = true → r ≤ 63 → s.host.linkUp = true → (s.ring r).fetched = [] →
    s.dmaBad ((s.ring r).cmdBase + 64 * (s.ring r).cmdHead) 64 = none → (s.ring r).free ≤ (s.ring r).owed →
    exec (.commandFetch r u) s = .next (s.at u))

/-- R106 to R110: the image store's commands. The order in which frames and areas are taken is the model's choice (log entry 26). -/
def Obligations.StoreCommandsComplete : Prop :=
  (∀ (s : State) (h : Hdr) (bank bar layer context count dest : Nat) (p : Pool), accepts s h (cmdOf 0x0050 0) = true → bank ≤ 1 →
    1 ≤ count → count ≤ 65536 → dest % 4 = 0 → contextPool s bank bar layer context = some p → count ≤ (freeFrames s p).length →
    s.host.linkUp = true →
    ∃ t, exec (.storeAlloc h 0 bank bar layer context count dest) s = .next t
      ∧ repliedWith t h.ring h.tag 0x0050 stOk (leBytes 4 count) = true
      ∧ delivered s t h.ring dest (((freeFrames s p).take count).flatMap (leBytes 4))
      ∧ hostOnly (mirrorMaps (s.withStore { s.store with frames := s.store.frames ++ (freeFrames s p).take count })) t h)
  ∧ (∀ (s : State) (h : Hdr) (bank bar layer context count dest u : Nat), accepts s h (cmdOf 0x0050 1) = true →
    1 ≤ count → count ≤ 268435456 → fitFrom s (ceilDiv count 4096) (heapEnd s) 0 0 = some u →
    ∃ t, exec (.storeAlloc h 1 bank bar layer context count dest) s = .next t
      ∧ repliedWith t h.ring h.tag 0x0050 stOk (leBytes 4 u) = true
      ∧ hostOnly (mirrorMaps (s.withStore { s.store with areas := s.store.areas ++
          [{ handle := u, units := ceilDiv count 4096, bytes := 4096 * ceilDiv count 4096 }] })) t h)
  ∧ (∀ (s : State) (h : Hdr) (handle : Nat), accepts s h (cmdOf 0x0052 0) = true → handle ∈ s.store.frames → frameBusy s handle = false →
    ∃ t, exec (.storeFree h 0 handle) s = .next t ∧ repliedWith t h.ring h.tag 0x0052 stOk [] = true
      ∧ hostOnly (mirrorMaps (s.withStore { s.store with frames := s.store.frames.erase handle })) t h)
  ∧ (∀ (s : State) (h : Hdr) (handle : Nat) (a : Area), accepts s h (cmdOf 0x0052 1) = true → s.area handle = some a →
    areaLocked s handle = false →
    ∃ t, exec (.storeFree h 1 handle) s = .next t ∧ repliedWith t h.ring h.tag 0x0052 stOk [] = true
      ∧ hostOnly (mirrorMaps (s.withStore { s.store with areas := s.store.areas.erase a })) t h)
  ∧ (∀ (s : State) (h : Hdr) (flags handle source length layer : Nat), accepts s h (cmdOf 0x0051 0) = true → flags ≤ 1 → source % 64 = 0 →
    32 ≤ length → length ≤ 18464 → handle ∈ s.store.frames → frameLayer s handle = some layer → s.dmaBad source length = none →
    tileWriteCheck s (flags = 1) handle layer (s.dmaRead source length) = none →
    ∃ t, exec (.storeWrite h 0 flags handle source length 0) s = .next t ∧ repliedWith t h.ring h.tag 0x0051 stOk [] = true
      ∧ hostOnly (placeTile handle layer (s.dmaRead source length) ((s.at h.t).share [(handlePage handle).subch])) t h)
  ∧ (∀ (s : State) (h : Hdr) (handle source length offset : Nat) (a : Area), accepts s h (cmdOf 0x0051 1) = true → source % 64 = 0 →
    s.area handle = some a → 1 ≤ length → offset % 64 = 0 → offset + length ≤ a.bytes → areaLocked s handle = false →
    s.dmaBad source length = none →
    ∃ t, exec (.storeWrite h 1 0 handle source length offset) s = .next t ∧ repliedWith t h.ring h.tag 0x0051 stOk [] = true
      ∧ t.store = { s.store with
          dram := (s.devWrite (4096 * handle + offset) (padTo (64 * ceilDiv length 64) (s.dmaRead source length))).store.dram
          poison := clearBursts s.store.poison ((List.range (ceilDiv length 64)).map (fun i =>
            burstOf (physAddr s.dram.cfg.config s.dram.cfg.map (4096 * handle + offset + 64 * i)))) }
      ∧ hostOnly (((s.at h.t).share (spanSubs s (4096 * handle + offset) (64 * ceilDiv length 64))).withStore t.store) t h)

/-- R106: what the search for an area finds was free. -/
def Obligations.AllocatedAreaWasFree : Prop :=
  ∀ (s : State) (n u : Nat), 1 ≤ n → fitFrom s n (heapEnd s) 0 0 = some u →
    u + n ≤ heapEnd s ∧ ∀ i, i < n → heapUnit s (u + i) = true ∧ ∀ a ∈ s.store.areas, a.holds (u + i) = false

/-- R82, R105: what PAGE_READY binds, and its refusals in their order. -/
def Obligations.PageReadyBinds : Prop :=
  ∀ (s : State) (h : Hdr) (job first count d : Nat), accepts s h (cmdOf 0x0053 0) = true → count ≠ 0 → jobKnown s job = true →
    (s.area d).isSome = true →
    (rangePassed s job first count = true →
      ∃ t, exec (.pageReady h job first count d) s = .next t ∧ repliedWith t h.ring h.tag 0x0053 stWrongState [] = true ∧ hostOnly s t h)
    ∧ (rangePassed s job first count = false → 1024 ≤ s.run.ready.length →
      ∃ t, exec (.pageReady h job first count d) s = .next t ∧ repliedWith t h.ring h.tag 0x0053 stNoResource [] = true ∧ hostOnly s t h)
    ∧ (rangePassed s job first count = false → s.run.ready.length < 1024 →
      (descriptorSound s d = false ∨ ∃ x ∈ rangePrograms s job first count, descriptorFits s d x.1 x.2 = false) →
      ∃ t, exec (.pageReady h job first count d) s = .next t ∧ repliedWith t h.ring h.tag 0x0053 stBadParam [] = true ∧ hostOnly s t h)
    ∧ (rangePassed s job first count = false → s.run.ready.length < 1024 → descriptorSound s d = true →
      (∀ x ∈ rangePrograms s job first count, descriptorFits s d x.1 x.2 = true ∧ budgetMiss s d x.1 x.2 = none) →
      ∃ t, exec (.pageReady h job first count d) s = .next t ∧ repliedWith t h.ring h.tag 0x0053 stOk [] = true
        ∧ hostOnly (mirrorReady (s.withRun { s.run with ready := s.run.ready ++
            [{ jobId := job, first := first, count := count, descriptor := d, signature := descSignature s d }] })) t h)

/-- R60 to R62: loading and checking a schedule image; R63, R332: activation in IDLE, and ABORT. -/
def Obligations.ScheduleCommandsComplete : Prop :=
  (∀ (s : State) (h : Hdr) (addr length : Nat), acceptsLong s h (cmdOf 0x0040 0) = true → s.run.schedOp = none →
    s.run.oldBankBusy = false → s.run.activation = none →
    ∃ t, exec (.schedLoad h addr length) s = .next t ∧ startedLong s t h (cmdOf 0x0040 0)
      ∧ longFrame ((s.withBank s.spare { s.bank s.spare with loaded := false, checked := false }).withSchedOp
          (some { ring := h.ring, tag := h.tag, check := false, addr := addr, length := length, follow := false
                  wasLoaded := (s.bank s.spare).loaded, wasChecked := (s.bank s.spare).checked })) t h.t)
  ∧ (∀ (s : State) (o : OpRef) (x : SchedOp), runsLong s o 0x0040 = true → s.run.schedOp = some x → x.check = false → x.ring = o.ring →
    x.tag = o.tag → s.dmaBad x.addr x.length = none → loadCheck (mwrite zeroByte [] 0 ((s.dmaRead x.addr x.length).take 2097152))
      (s.dmaRead x.addr x.length) = none →
    ∃ t, exec (.schedLoadDone o) s = .next t ∧ endedLong s t o 0x0040 stOk
      ∧ longFrame ((s.withSchedOp none).withBank s.spare { Bank.reset with
          image := mwrite zeroByte [] 0 ((s.dmaRead x.addr x.length).take 2097152), length := min x.length 2097152, loaded := true }) t o.t)
  ∧ (∀ (s : State) (o : OpRef) (x : SchedOp) (st : Nat), runsLong s o 0x0040 = true → s.run.schedOp = some x → x.check = false →
    x.ring = o.ring → x.tag = o.tag → s.dmaBad x.addr x.length = none →
    loadCheck (mwrite zeroByte [] 0 ((s.dmaRead x.addr x.length).take 2097152)) (s.dmaRead x.addr x.length) = some st →
    ∃ t, exec (.schedLoadDone o) s = .next t ∧ endedLong s t o 0x0040 st
      ∧ longFrame ((s.withSchedOp none).withBank s.spare { Bank.reset with
          image := mwrite zeroByte [] 0 ((s.dmaRead x.addr x.length).take 2097152), length := min x.length 2097152, loaded := false }) t o.t)
  ∧ (∀ (s : State) (h : Hdr) (flags : Nat), acceptsLong s h (cmdOf 0x0041 0) = true → flags < 2 → s.run.schedOp = none →
    (s.bank s.spare).loaded = true → s.firstUnread (imgBarMask (s.bank s.spare).image) = none →
    ∃ t, exec (.schedCheck h flags) s = .next t ∧ startedLong s t h (cmdOf 0x0041 0)
      ∧ longFrame (s.withSchedOp (some { ring := h.ring, tag := h.tag, check := true, addr := 0, length := 0
                                         follow := decide (flags = 1), wasLoaded := true, wasChecked := false })) t h.t)
  ∧ (∀ (s : State) (o : OpRef) (x : SchedOp), runsLong s o 0x0041 = true → s.run.schedOp = some x → x.check = true → x.ring = o.ring →
    x.tag = o.tag → schedFailure s (s.bank s.spare).image (if x.follow then some s.activeImage else none) = none →
    ∃ t, exec (.schedCheckDone o) s = .next t ∧ endedWith s t o 0x0041 stOk (schedResult s (s.bank s.spare).image)
      ∧ longFrame ((s.withSchedOp none).withBank s.spare { s.bank s.spare with
          checked := true, follow := x.follow, pressDigest := pressDigest s
          slotN := slotCounts s (s.bank s.spare).image }) t o.t)
  ∧ (∀ (s : State) (o : OpRef) (x : SchedOp) (f : Fail), runsLong s o 0x0041 = true → s.run.schedOp = some x → x.check = true →
    x.ring = o.ring → x.tag = o.tag →
    schedFailure s (s.bank s.spare).image (if x.follow then some s.activeImage else none) = some f →
    ∃ t, exec (.schedCheckDone o) s = .next t ∧ endedWith s t o 0x0041 f.status f.toBytes
      ∧ longFrame ((s.withSchedOp none).withBank s.spare { s.bank s.spare with checked := false }) t o.t)
  ∧ (∀ (s : State) (h : Hdr) (job first boundary : Nat), accepts s h (cmdOf 0x0042 0) = true → s.dev = .idle → mayActivate s = true →
    ∃ t, exec (.schedActivate h job first boundary) s = .next t ∧ repliedWith t h.ring h.tag 0x0042 stOk [] = true
      ∧ t.run = s.swapBanks.run ∧ hostOnly { s with run := t.run, link := t.link, draws := t.draws } t h
      ∧ ∀ g, (t.group g).down = .l0 → (s.group g).down = .l0)
  ∧ (∀ (s : State) (h : Hdr) (job first boundary : Nat), accepts s h (cmdOf 0x0042 0) = true → mayActivate s = false →
    ∃ t, exec (.schedActivate h job first boundary) s = .next t ∧ repliedWith t h.ring h.tag 0x0042 stWrongState [] = true
      ∧ hostOnly s t h)
  ∧ (∀ (s : State) (h : Hdr) (o : LongOp) (x : SchedOp), accepts s h (cmdOf 0x0005 0) = true → s.host.longOps = [o] → o.opcode = 0x0040 →
    o.orphan = false → o.ring ≠ h.ring → (s.ring o.ring).enabled = true → (s.ring o.ring).fetched = [] → s.run.schedOp = some x →
    x.check = false → s.boot.commitOp = none →
    ∃ t, exec (.abort h o.ring o.tag) s = .next t ∧ repliedWith t h.ring h.tag 0x0005 stOk (leBytes 1 1) = true
      ∧ replied t o.ring o.tag 0x0040 stAborted true = true ∧ t.host.longOps = []
      ∧ t.run.schedOp = none ∧ t.run.banks = (s.withBank s.spare { s.bank s.spare with
          loaded := x.wasLoaded, checked := x.wasChecked }).run.banks)
  ∧ (∀ (s : State) (h : Hdr) (ring tag : Nat), accepts s h (cmdOf 0x0005 0) = true → s.liveOp ring tag = none →
    waitingOp (s.ring ring) tag = none →
    ∃ t, exec (.abort h ring tag) s = .next t ∧ repliedWith t h.ring h.tag 0x0005 stBadParam [] = true ∧ hostOnly s t h)

/-- R341: the table commands. -/
def Obligations.TableCommandsComplete : Prop :=
  (∀ (s : State) (h : Hdr) (cls bar off len host : Nat) (errs : List (Nat × ReadErr)), accepts s h (cmdOf 0x0070 0) = true → cls ≤ 9 →
    (bar ≤ 7 ∨ deviceWide cls = true) → spanOk cls off len = true → ¬(cls = 1 ∧ keepOwns s bar = true) → isLocked s cls bar = false →
    ¬(cls = 6 ∧ regHolds s = true) → s.dmaBad host len = none → canonOk s = true →
    twf (tableDefault cls) ((s.table cls bar).bank (s.table cls bar).shadow) = true →
    ∃ t, exec (.tableWrite h cls bar 0 off len host errs) s = .next t ∧ repliedWith t h.ring h.tag 0x0070 stOk [] = true
      ∧ (∀ i, i < len → tget (tableDefault cls) ((t.table cls bar).bank (s.table cls bar).shadow) (off + i) = nth 0 (s.dmaRead host len) i)
      ∧ (∀ a, (a < off ∨ off + len ≤ a) → tget (tableDefault cls) ((t.table cls bar).bank (s.table cls bar).shadow) a
          = tget (tableDefault cls) ((s.table cls bar).bank (s.table cls bar).shadow) a)
      ∧ hostOnly (placeTable cls bar off (s.dmaRead host len) errs (s.at h.t)) t h)
  ∧ (∀ (s : State) (h : Hdr) (bar off len host : Nat), accepts s h (cmdOf 0x0070 0) = true → bar ≤ 7 →
    s.dev = .idle → spanOk 17 off len = true → isLocked s 17 bar = false → s.dmaBad host len = none →
    lostBursts s (wearBase s + 8 * wearIx bar (off / 8)) len = [] →
    ∃ t, exec (.tableWrite h 17 bar 0 off len host []) s = .next t ∧ repliedWith t h.ring h.tag 0x0070 stOk [] = true
      ∧ t.path = { s.path with wearTotals := writeTotals bar (off / 8) (s.dmaRead host len) (len / 8) s.path.wearTotals }
      ∧ hostOnly { s with path := t.path, dram := t.dram } t h)
  ∧ (∀ (s : State) (h : Hdr) (cls bar bank off len host : Nat), accepts s h (cmdOf 0x0071 0) = true → (bar ≤ 7 ∨ deviceWide cls = true) →
    bank ≤ 1 → spanOk cls off len = true → s.host.linkUp = true →
    (9 < cls ∨ (s.table cls bar).poisoned (if bank = 1 then (s.table cls bar).live else (s.table cls bar).shadow) off len = false) →
    (cls = 17 → lostBursts s (wearBase s + 8 * wearIx bar (off / 8)) len = []) →
    ∃ t, exec (.tableRead h cls bar bank off len host []) s = .next t ∧ repliedWith t h.ring h.tag 0x0071 stOk [] = true
      ∧ delivered s t h.ring host ((List.range len).map (fun i => tableByte s cls bar bank (off + i)))
      ∧ (∀ i, i ≠ 21 → t.counter i = s.counter i) ∧ (cls ≠ 17 → t.dram = s.dram)
      ∧ hostOnly { s with counters := t.counters, dram := t.dram } t h)

/-- R76 to R81: COMMIT with classes. -/
def Obligations.CommitTakesEffect : Prop :=
  ∀ (s : State) (h : Hdr) (classes mask boundary : Nat), accepts s h cmdCommit = true → 1 ≤ classes → classes < 1024 →
    (bit classes 1 = true → (maskList mask 8).any (keepOwns s) = false) →
    ((bit classes 5 || bit classes 7) = true → s.press.isSome = true ∧ s.firstUnread mask = none) →
    (bit classes 6 = true → regHolds s = false) →
    (s.dev = .idle → contentCheck s (commitPairs classes mask) none = none →
      ∃ t, exec (.commit h classes mask boundary) s = .next t
        ∧ repliedWith t h.ring h.tag 0x0068 stOk (leBytes 8 0 ++ leBytes 4 0 ++ leBytes 2 0) = true
        ∧ hostOnly (commitAll (commitPairs classes mask) s) t h)
    ∧ (∀ b late, s.dev = .run → effectiveBoundary s boundary = some (b, late) →
      (commitPairs classes mask).any (fun p => isLocked s p.1 p.2) = false → contentCheck s (commitPairs classes mask) (some b.pos) = none →
      ∃ t, exec (.commit h classes mask boundary) s = .next t
        ∧ repliedWith t h.ring h.tag 0x0068 stOk (leBytes 8 b.pos ++ leBytes 4 b.index ++ leBytes 2 (bitNat late)) = true
        ∧ t.run = { s.run with commits := s.run.commits ++
            [{ classes := classes, barMask := mask, boundary := b.pos, closed := false, keep := false }] }
        ∧ t.tables = s.tables ∧ t.counters = (if late then (s.count 29).counters else s.counters))
    ∧ (∀ f, s.dev = .idle → contentCheck s (commitPairs classes mask) none = some f →
      ∃ t, exec (.commit h classes mask boundary) s = .next t ∧ repliedWith t h.ring h.tag 0x0068 stBadParam [] = true
        ∧ t.tables = s.tables ∧ t.run.commits = s.run.commits)

/-- R226, R227: FIRE_EN and the latches after an edge. -/
def Obligations.GatingEdgeSettlesFireEnable : Prop :=
  ∀ (s : State) (g : GateInput) (level : Bool) (held u : Nat), canonOk s = true →
    (held < gateFilterTime s → exec (.gatingInputEdge g level held u) s = .next (s.at u))
    ∧ (gateFilterTime s ≤ held → ∃ t, exec (.gatingInputEdge g level held u) s = .next t
      ∧ t.link.inputs = s.link.inputs.edge g level
      ∧ (∀ b, b < 8 → (t.bar b).fireEn = (runEnabled t && inputsClear t b && !(t.bar b).latch))
      ∧ (∀ b, b < 8 → s.dev ∈ [DevState.armed, .run, .drain] → inputsClear t b = false → (t.bar b).latch = true ∧ (t.bar b).fireEn = false)
      ∧ (∀ b, b < 8 → (s.bar b).latch = true → (t.bar b).latch = true)
      ∧ t.dev = s.dev ∧ t.run = s.run ∧ t.press = s.press ∧ t.tables = s.tables ∧ t.store = s.store ∧ t.web = s.web ∧ t.cams = s.cams)

/-- R228, R78: gate releases and the closing of a window. -/
def Obligations.GateReleaseAndWindowComplete : Prop :=
  (∀ (s : State) (h : Hdr) (mask boundary : Nat), accepts s h cmdCommit = true → s.dev = .idle →
    canonOk s = true →
    ∃ t, exec (.gateRelease h mask boundary) s = .next t
      ∧ repliedWith t h.ring h.tag 0x0068 stOk (leBytes 8 0 ++ leBytes 4 0 ++ leBytes 2 0) = true
      ∧ (∀ b, b < 8 → (t.bar b).latch = ((s.bar b).latch && !(bit mask b && inputsClear s b)))
      ∧ t.link.inputs = s.link.inputs ∧ t.dev = .idle ∧ t.run = s.run)
  ∧ (∀ (s : State) (h : Hdr) (mask boundary : Nat) (b : Boundary), accepts s h cmdCommit = true → s.dev = .run →
    effectiveBoundary s boundary = some (b, false) →
    ∃ t, exec (.gateRelease h mask boundary) s = .next t
      ∧ repliedWith t h.ring h.tag 0x0068 stOk (leBytes 8 b.pos ++ leBytes 4 b.index ++ leBytes 2 0) = true
      ∧ hostOnly (s.withRun { s.run with commits := s.run.commits ++
          [{ classes := 0, barMask := mask, boundary := b.pos, closed := false, keep := false }] }) t h)
  ∧ (∀ (s : State) (b cls bar : Nat) (k : PendingCommit), s.dev ∈ [DevState.run, .drain] → windowOpen s b = false → s.run.commits = [k] → k.boundary = b → k.closed = false → commitPairs k.classes k.barMask = [(cls, bar)] →
    isLocked s cls bar = false →
    ∃ t, exec (.commitWindowClose b) s = .next t
      ∧ t.run.commits = [{ k with closed := true }] ∧ t.run.locks = s.run.locks ++ [(cls, bar)]
      ∧ t.tables = { (s.withTable cls bar { s.table cls bar with live := (s.table cls bar).shadow, since := b }).tables with
          zoneCommits := t.tables.zoneCommits }
      ∧ (cls ≠ 1 → t.tables.zoneCommits = s.tables.zoneCommits))

/-- R68, R69: arming a run. -/
def Obligations.RunArmCompletes : Prop :=
  (∀ (s : State) (h : Hdr) (job seq policy first lead : Nat), acceptsLong s h (cmdOf 0x0060 0) = true → armCheck s seq policy lead = none →
    ∃ t, exec (.runArm h job seq policy first lead) s = .next t ∧ startedLong s t h (cmdOf 0x0060 0)
      ∧ t.run.jobId = job ∧ t.run.seqEntry = seq ∧ t.run.firstPage = first ∧ t.run.armPolicy = policy ∧ t.run.armLead = lead
      ∧ t.link.load.map (fun l => (l.ring, l.tag, l.opcode, l.outstanding)) = some (h.ring, h.tag, 0x60, slotLoads s s.scheduledBars)
      ∧ t.dev = s.dev ∧ t.press = s.press ∧ t.tables = s.tables)
  ∧ (∀ (s : State) (h : Hdr) (job seq policy first lead : Nat), acceptsLong s h (cmdOf 0x0060 0) = true → (2 < policy ∨ lead < 64) →
    ∃ t, exec (.runArm h job seq policy first lead) s = .next t ∧ repliedWith t h.ring h.tag 0x0060 stBadParam [] = true
      ∧ longFrame s t h.t)
  ∧ (∀ (s : State) (o : OpRef) (l : LoadOp), runsLong s o 0x0060 = true → s.link.load = some l → l.opcode = 0x60 → l.outstanding = [] →
    (s.bank s.run.active).poison = [] →
    ∃ t, exec (.runArmDone o) s = .next t
      ∧ endedWith s t o 0x0060 stOk (leBytes 8 (imgId s.activeImage) ++ leBytes 2 (l.loaded / 3))
      ∧ t.dev = .armed ∧ t.link.load = none ∧ t.run.ready = [] ∧ t.run.commits = [] ∧ t.run.pages = [] ∧ t.run.activation = none
      ∧ t.run.pageIndex = s.run.firstPage ∧ t.run.jobId = s.run.jobId)

/-- R70, R71, R73, R230: from ARMED to the ticks of a run. -/
def Obligations.RunStartsAndTicks : Prop :=
  (∀ (s : State) (h : Hdr) (mark leadIn sec ns period : Nat), accepts s h (cmdOf 0x0061 0) = true → s.devices ≤ 1 → 5 ≤ leadIn →
    leadIn ≤ 16777215 → period ≠ 0 → imgPMin s.activeImage ≤ period → period ≤ imgPMax s.activeImage → s.run.hdmStale = [] →
    s.run.startArmed = false → s.run.rejoinAt = none → s.run.startMark = none →
    (readyFor s s.run.jobId s.run.firstPage).isSome = true →
    ∃ t, exec (.runStart h 0 mark leadIn sec ns period) s = .next t
      ∧ repliedWith t h.ring h.tag 0x0061 stOk (taiBytes ((s.at h.t).base + msT)) = true
      ∧ t.run = { s.run with leadIn := leadIn, p0 := period, tRun := (s.at h.t).base + msT, startArmed := true, startMark := none }
      ∧ t.dev = s.dev ∧ t.web = s.web ∧ t.press = s.press ∧ t.tables = s.tables ∧ t.store = s.store)
  ∧ (∀ (s : State), s.dev = .armed → s.run.startArmed = true → s.net.lead.role ≠ .follower →
    ∃ t, exec .tRunTick s = .next t ∧ t.dev = .run ∧ t.web.running = true ∧ t.web.webPos = 0 ∧ t.web.tickTime = s.run.tRun
      ∧ t.web.period = s.run.p0 ∧ t.run.startArmed = false ∧ t.run.pages.length = 1
      ∧ t.run.pages.all (fun p => decide (p.start = s.run.leadIn ∧ p.pageIndex = s.run.firstPage) && !p.resolved && !p.placed) = true
      ∧ t.press = s.press ∧ t.store = s.store)
  ∧ (∀ (s : State) (pipe : Nat), s.dev = .run → s.web.running = true → imgLMin s.activeImage ≤ pipe + 2 → s.web.pEnc = .unset →
    s.web.lengthErr.natAbs < errLimit s.web.motion → (∀ w ∈ s.host.waits, ∀ f c d, w.kind ≠ .snapshot f c d) →
    ∃ t, exec (.lineClockTick pipe) s = .next t ∧ t.web.webPos = s.web.webPos + 1 ∧ t.web.tickTime = s.web.tickTime + s.web.period
      ∧ t.dev = .run ∧ t.press = s.press ∧ t.store = s.store ∧ t.path.issued = [])

/-- R83, R74, R75: the events of a page. -/
def Obligations.PageEventsComplete : Prop :=
  (∀ (s : State) (p : PagePos) (r : Ready), s.web.running = true → s.dev = .run → s.pageAt p.start = some p → p.resolved = false →
    p.fence s ≤ s.web.webPos → s.net.lead.stopReq = none → readyFor s p.jobId p.pageIndex = some r →
    s.devPoisoned (4096 * r.descriptor) 272 = false →
    ∃ t, exec (.fence p.start []) s = .next t ∧ t.run = (s.updPage p.start (fun _ => resolvePage s r.descriptor p)).run
      ∧ (resolvePage s r.descriptor p).descriptor = some r.descriptor ∧ (resolvePage s r.descriptor p).resolved = true
      ∧ t = { s with run := t.run, boot := t.boot })
  ∧ (∀ (s : State) (p : PagePos), boundaryDue s = true → s.dev = .run → s.run.commits = [] → s.run.activation = none → s.run.stop = .none →
    (∀ i, i < 8 → (s.keepBar i).stepAt = none) → s.pageAt s.web.webPos = some p → p.resolved = true → s.net.lead.leadPending = [] →
    ∃ t, exec .pageBoundary s = .next t ∧ t.run.pageIndex = p.nextIndex ∧ t.run.pagePlaced = p.pageIndex ∧ t.run.seqEntry = p.seqEntry
      ∧ t.run.pages = s.run.pages.map (fun q => if q.start = p.start then { p with placed := true } else q)
      ∧ t.dev = .run ∧ t.web = s.web ∧ t.press = s.press)
  ∧ (∀ (s : State) (p : PagePos), s.web.running = true → s.dev = .run →
    s.run.pages.find? (fun q => q.placed && decide (q.start = p.start)) = some p → 0 < p.gap → p.gapRaised = false →
    p.start + p.length ≤ s.web.webPos →
    ∃ t, exec (.gapStart p.start) s = .next t ∧ t.run.gapStartPos = p.start + p.length ∧ t.run.gapStartPage = p.pageIndex
      ∧ t.host.evtStatus = s.host.evtStatus ||| BitVec.ofNat 16 1
      ∧ t.run.pages = s.run.pages.map (fun q => if q.start = p.start then { q with gapRaised := true } else q)
      ∧ t = { s with run := t.run, host := t.host, trace := t.trace })
  ∧ (∀ (s : State) (p : PagePos), s.web.running = true → s.dev = .run →
    s.run.pages.find? (fun q => q.placed && decide (q.start = p.start)) = some p → p.done = false → p.doneAt s ≤ s.web.webPos →
    ∃ t, exec (.pageDone p.start) s = .next t ∧ t.run.pageDonePos = p.doneAt s ∧ t.run.pageDonePage = p.pageIndex
      ∧ t.host.evtStatus.getLsbD 2 = true ∧ t.dev = .run ∧ (∀ q ∈ t.run.pages, q.start = p.start → q.done = true))

/-- R95, R96, R79, R380: ends of runs, of copies, and RUN_REJOIN. -/
def Obligations.RunEndsAndRejoins : Prop :=
  (∀ (s : State) (h : Hdr) (mode boundary : Nat), accepts s h (cmdOf 0x0062 0) = true → mode ≤ 2 → s.dev = .armed →
    (s.host.waits = []) → s.boot.rejoin = none →
    ∃ t, exec (.runStop h mode boundary) s = .next t ∧ repliedWith t h.ring h.tag 0x0062 stOk (leBytes 8 0) = true
      ∧ t.dev = .idle ∧ t.web.running = false ∧ t.run.pages = [] ∧ t.run.commits = [] ∧ t.press = s.press)
  ∧ (∀ (s : State) (h : Hdr) (boundary : Nat), accepts s h (cmdOf 0x0062 0) = true → s.dev = .run → s.web.running = true →
    ∃ t, exec (.runStop h 2 boundary) s = .next t ∧ repliedWith t h.ring h.tag 0x0062 stOk (leBytes 8 (s.web.webPos + 1)) = true
      ∧ t.dev = .drain ∧ t.run.stop = .now (s.web.webPos + 6) ∧ t.web = s.web)
  ∧ (∀ (s : State) (h : Hdr) (boundary : Nat), accepts s h (cmdOf 0x0062 0) = true → s.dev = .run → s.net.lead.role ≠ .follower →
    boundaryFree s boundary = true → s.run.stop = .none →
    ∃ t, exec (.runStop h 1 boundary) s = .next t ∧ repliedWith t h.ring h.tag 0x0062 stOk (leBytes 8 boundary) = true
      ∧ t.dev = .drain ∧ t.run.stop = .atBoundary boundary
      ∧ t.run.pages = s.run.pages.filter (fun p => decide (p.start < boundary)) ∧ t.web = s.web)
  ∧ (∀ (s : State) (last : Nat), s.run.stop = .now last → s.web.running = true → last ≤ s.web.webPos →
    ∃ t, exec .lineClockStopNow s = .next t ∧ t.dev = .idle ∧ t.web.running = false ∧ t.run.stop = .none ∧ t.run.pages = []
      ∧ t.press = s.press)
  ∧ (∀ (s : State) (u : Nat) (c : TableCopy), s.run.copies.find? (fun c => c.begun) = some c →
    ∃ t, exec (.tableCopyDone u) s = .next t ∧ t.run.copies = s.run.copies.erase c
      ∧ t.run.locks = s.run.locks.filter (fun p => decide (p ∉ commitPairs c.classes c.barMask))
      ∧ (s.keep.shifts = [] → t = { s with clk := (s.at u).clk, run := t.run, tables := t.tables, boot := t.boot }))
  ∧ (∀ (s : State) (h : Hdr) (n record : Nat), acceptsLong s h (cmdOf 0x0063 0) = true → n ≠ 1 → n ≤ 65535 → s.press.isSome = true →
    1 < s.devices → s.link.scan = none → s.link.survey = none → s.link.load = none → s.thermal.op = none → s.boot.rejoin = none →
    prbsActive s (imgBarMask s.activeImage) = false →
    ∃ t, exec (.runRejoin h 0 n record) s = .next t ∧ startedLong s t h (cmdOf 0x0063 0)
      ∧ longFrame (s.withBoot { s.boot with
          rejoin := some { ring := h.ring, tag := h.tag, source := 0, minPages := if n = 0 then 2 else n, record := none
                           skipped := 0, boundary := 0 } }) t h.t)
  ∧ (∀ (s : State) (o : OpRef) (x : RejoinOp) (l : LongOp), runsLong s o 0x0063 = true → s.boot.rejoin = some x → x.ring = o.ring →
    x.tag = o.tag → x.source = 0 → x.record = none → s.longOp o.ring o.tag = some l →
    l.acceptedAt + 100 * msT ≤ max s.clk.elapsed o.t →
    ∃ t, exec (.rejoinRecordTimeout o) s = .next t ∧ endedWith s t o 0x0063 stTimeout [] ∧ t.boot.rejoin = none ∧ t.dev = s.dev)
  ∧ (∀ (s : State) (o : OpRef) (x : RejoinOp) (r : List Byte) (l : LoadOp) (p : PagePos) (n at_ : Nat), runsLong s o 0x0063 = true →
    s.boot.rejoin = some x → x.ring = o.ring → x.tag = o.tag → x.record = some r → s.link.load = some l → l.opcode = 0x63 →
    l.waiting = false → l.outstanding = [] → rejoinChoice (s.at o.t) x r = some (p, n, at_) →
    (s.bank s.run.active).poison = [] →
    ∃ t, exec (.runRejoinArmed o) s = .next t ∧ t.dev = .armed ∧ t.run.rejoinAt = some (p.start, at_) ∧ t.run.pages = [p]
      ∧ t.run.leadIn = p.start ∧ t.run.firstPage = p.pageIndex ∧ t.link.load = none)
  ∧ (∀ (s : State) (b at_ : Nat) (x : RejoinOp) (r : List Byte) (u : Nat), s.dev = .armed → s.run.rejoinAt = some (b, at_) →
    s.boot.rejoin = some x → x.record = some r → runsLong s { ring := x.ring, tag := x.tag, t := u } 0x0063 = true →
    ∃ t, exec .rejoinBoundary s = .next t ∧ replied t x.ring x.tag 0x0063 stOk true = true ∧ t.web.running = true ∧ t.web.webPos = b
      ∧ t.web.tickTime = at_ ∧ t.run.rejoinAt = none ∧ t.boot.rejoin = none ∧ (t.dev = .run ∨ t.dev = .drain))

/-- R178, R189, R198, R450: what the link's own events do. -/
def Obligations.LinkEventsComplete : Prop :=
  (∀ (s : State) (g u : Nat) (ws : List Word66), canonOk s = true → g ≤ 7 → (s.group g).locked = false → (s.group g).goodRun = 0 →
    bit (s.group g).prbsLanes 5 = false → ws.length = 64 → (∀ w ∈ ws, bit w.toNat 0 ≠ bit w.toNat 1) →
    ∃ t, exec (.upstreamBlockLock g ws u) s = .next t
      ∧ t.group g = { s.group g with locked := true, goodRun := 0, window := [], descr := (t.group g).descr }
      ∧ (∀ k, k ≠ g → t.group k = s.group k) ∧ (∀ i, i ≠ barCounter g 15 → t.counter i = s.counter i)
      ∧ t = ((s.at u).withLink { s.link with groups := t.link.groups }).withCounters t.counters)
  ∧ (∀ (s : State) (u : Up) (count due : Nat), canonOk s = true → s.fitted u.group u.slot = true → count ≤ 15 →
    (s.slot u.group u.slot).credit + count ≤ grantOf s u.group u.slot →
    ∃ t, exec (.credit u count due) s = .next t
      ∧ t.slot u.group u.slot = { s.slot u.group u.slot with credit := (s.slot u.group u.slot).credit + count }
      ∧ t = { s with clk := (s.at u.t).clk, trace := t.trace, link := { s.link with slots := t.link.slots } })
  ∧ (∀ (s : State) (a u : Nat), canonOk s = true → s.link.creditAuditAt = some a → a ≤ max s.clk.elapsed u →
    ∃ t, exec (.creditAudit u) s = .next t ∧ t.link.creditAuditAt = none
      ∧ (∀ b ∈ s.scheduledBars, ∀ sl ∈ s.fittedSlots b, t.slot b sl = { s.slot b sl with credit := grantOf s b sl })
      ∧ t = { s with clk := (s.at u).clk, log := t.log, link := { s.link with slots := t.link.slots, creditAuditAt := none } })
  ∧ (∀ (s : State) (g u : Nat) (w : LaneSwitch), (s.group g).switch = some w → switchDue (s.at u) w = true → s.loop g = none →
    exec (.laneSwitch g u) s = .next ((s.at u).withGroup g { s.group g with
      dsLane := if w.toDs then some w.lane else none, switch := none }))

/-- R194, R199, R223: alerts and acknowledgements. -/
def Obligations.AlertsAndAcksComplete : Prop :=
  (∀ (s : State) (u : Up) (lane : Nat), u.group < 8 → lane < 4 → s.loop u.group = none → (s.group u.group).dsLane = none →
    (s.group u.group).switch = none →
    ∃ t w, exec (.alertLaneLost u lane) s = .next t ∧ (t.group u.group).failedLane = some lane
      ∧ (t.group u.group).switch = some w ∧ w.lane = lane ∧ w.toDs = true
      ∧ t = { s with clk := (s.at u.t).clk, trace := t.trace, counters := t.counters, log := t.log, link := t.link, draws := t.draws })
  ∧ (∀ (s : State) (u : Up) (cause lane due : Nat), cause % 256 ≠ 1 → cause % 256 ≠ 2 →
    exec (.alert u cause lane due) s
      = .next ((s.at u.t).traceUp u 0xC3 (cause % 256 + 2 ^ 8 * (lane % 8) + 2 ^ 11 * (due % 65536))))
  ∧ (∀ (s : State) (u : Up) (due : Nat) (part : Bool), s.fitted u.group u.slot = true →
    ∃ t, exec (.alertTAbs u due part) s = .next t
      ∧ t.slot u.group u.slot = { s.slot u.group u.slot with tabsHeld := true }
      ∧ t.link = (s.withSlot u.group u.slot { s.slot u.group u.slot with tabsHeld := true }).link
      ∧ t.counters = (if part then ((s.count 8).count (barCounter u.group 8)).counters else s.counters)
      ∧ t.log = ((s.at u.t).report 0x2007 (logKey (some u.group) (some u.slot) none none) 0
          (leBytes 2 (due % 65536) ++ leBytes 1 (bitNat part))).log
      ∧ t = { s with clk := (s.at u.t).clk, trace := t.trace, counters := t.counters, log := t.log, link := t.link })
  ∧ (∀ (s : State) (u : Up) (value : Nat) (o : LoadOp) (p : Nat × Nat), s.link.load = some o → o.opcode = 0x60 → o.waiting = false →
    loadOf o (slotIx u.group u.slot) = some p → p.2 ≠ 0 →
    ∃ t, exec (.ack u { kind := 0x5A, status := 0, value := value }) s = .next t
      ∧ t.link = { s.link with load := some { o with outstanding := o.outstanding.erase p, loaded := o.loaded + 1 } }
      ∧ t.press = s.press ∧ t.dev = s.dev ∧ t.run = s.run)
  ∧ (∀ (s : State) (u : Up) (value : Nat) (o : ScanOp), s.link.scan = some o → (s.group u.group).enumAt.isSome = true →
    bit value 24 = false →
    ∃ t, exec (.ack u { kind := 0x01, status := 0, value := value }) s = .next t
      ∧ t.link = { s.link with scan := some { o with chain := tput (fun _ => none) o.chain (24 * u.group + bits value 0 5) (some value) } }
      ∧ t = { s with clk := (s.at u.t).clk, trace := t.trace, link := t.link })

/-- R340: from HEAD_SCAN to its end. Whether a head is misplaced is a free value (log entry 36). -/
def Obligations.HeadScanCompletes : Prop :=
  (∀ (s : State) (h : Hdr) (mask dest : Nat), acceptsLong s h (cmdOf 0x0031 0) = true → canonOk s = true → s.press.isSome = true → prbsActive s mask = false →
    s.link.scan = none → s.link.survey = none → s.thermal.op = none →
    ∃ t, exec (.headScan h mask dest) s = .next t ∧ startedLong s t h (cmdOf 0x0031 0)
      ∧ t.link.scan = some { ring := h.ring, tag := h.tag, barMask := mask, dest := dest, chain := [], words := [], done := [], silent := [] }
      ∧ (∀ g ∈ scanBars s mask, (t.group g).enumAt = some (max s.clk.elapsed h.t))
      ∧ longFrame { s with link := t.link, draws := t.draws } t h.t)
  ∧ (∀ (s : State) (u : Up) (word : Nat) (data : Word32) (o : ScanOp), s.link.scan = some o → (o.found u.group u.slot).isSome = true →
    ∃ t, exec (.hmem u word data) s = .next t
      ∧ t.link = { s.link with scan := some { o with
          words := tput (fun _ => []) o.words (24 * u.group + u.slot)
            (tput (fun _ => 0) (tget (fun _ => []) o.words (24 * u.group + u.slot)) word data) } }
      ∧ t = { s with clk := (s.at u.t).clk, trace := t.trace, link := t.link })
  ∧ (∀ (s : State) (g u a : Nat) (o : ScanOp), s.link.scan = some o → (s.group g).enumAt = some a → a + 100 * msT ≤ max s.clk.elapsed u →
    s.boot.rejoin = none →
    ∃ t, exec (.enumTimeout g u) s = .next t
      ∧ t.link = { (s.withGroup g { s.group g with enumAt := none }).link with
        scan := some { o with silent := tput (fun _ => false) o.silent g true } }
      ∧ t = { s with clk := (s.at u).clk, link := t.link, host := t.host, trace := t.trace })
  ∧ (∀ (s : State) (o : OpRef) (x : ScanOp), canonOk s = true → runsLong s o 0x0031 = true → s.link.scan = some x → x.ring = o.ring →
    x.tag = o.tag → (scanBars s x.barMask).all (groupScanned s x) = true →
    ∃ t, exec (.headScanDone o) s = .next t ∧ endedWith s t o 0x0031 stOk (scanCounts s x) ∧ t.link.scan = none
      ∧ (∀ b ∈ scanBars s x.barMask, ∀ sl ∈ s.fittedSlots b, (t.slot b sl).head = scannedHead s x b sl)
      ∧ t.press = s.press ∧ t.dev = s.dev ∧ t.run = s.run ∧ t.store = s.store ∧ t.path = s.path)

/-- R164, R166, R168: nozzle states, plans and restores. -/
def Obligations.NozzleCommandsComplete : Prop :=
  (∀ (s : State) (h : Hdr) (bar slot row op first count cap : Nat), accepts s h (cmdOf 0x0081 0) = true → canonOk s = true →
    twf (tableDefault 5) ((s.table 5 bar).bank (s.table 5 bar).shadow) = true → bar ≤ 7 → slot ≤ 23 → row ≤ 2 → op ≤ 2 →
    1 ≤ count → count ≤ 5120 → (op = 2 → cap ≤ 2) → first + count ≤ s.nozzles bar slot → s.nozzles bar slot ≤ 5120 →
    isLocked s 5 bar = false →
    ∃ t n, exec (.nozzleMask h bar slot row op first count cap) s = .next t
      ∧ repliedWith t h.ring h.tag 0x0081 stOk (leBytes 4 n) = true
      ∧ (∀ q j, (q = row ∨ (row = 2 ∧ q ≤ 1)) → q ≤ 1 → first ≤ j → j < first + count →
        healthPart (shadowWord t bar slot q j)
          = nozzleWord (if op = 0 then 3 else if op = 1 then 0 else 1) (if op = 0 then 0 else if op = 1 then 3 else cap) 0 0 4)
      ∧ (∀ c b, tableKey c b ≠ tableKey 5 bar → t.table c b = s.table c b)
      ∧ hostOnly ((s.withTables t.tables).withLink { s.link with health := t.link.health }) t h)
  ∧ (∀ (s : State) (bar u : Nat), canonOk s = true → twf (tableDefault 5) ((s.table 5 bar).bank (s.table 5 bar).shadow) = true →
    bar ≤ 7 → planAuto s bar = true → isLocked s 5 bar = false →
    ∃ t, exec (.nozzlePlan bar u) s = .next t
      ∧ (∀ sl q j, (bar, sl, q, j) ∉ s.link.toPlan → healthPart ((t.table 5 bar).num 5 (s.table 5 bar).shadow (wordOff sl q j) 2) = healthPart (shadowWord s bar sl q j))
      ∧ (∀ x ∈ t.link.toPlan, x.1 ≠ bar)
      ∧ t.press = s.press ∧ t.dev = s.dev ∧ t.store = s.store ∧ t.path = s.path)
  ∧ (∀ (s : State) (bar u : Nat), bar ≤ 7 → planAuto s bar = false →
    exec (.nozzlePlan bar u) s = .next ((s.at u).withLink { s.link with toPlan := s.link.toPlan.filter (fun p => decide (p.1 ≠ bar)) }))
  ∧ (∀ (s : State) (h : Hdr) (bar slot : Nat), accepts s h (cmdOf 0x0081 3) = true → bar ≤ 7 → slot ≤ 23 → s.fitted bar slot = true →
    isLocked s 5 bar = false →
    ((s.slot bar slot).withdrawn = none →
      ∃ t, exec (.restoreSlot h bar slot) s = .next t ∧ repliedWith t h.ring h.tag 0x0081 stOk (leBytes 4 0) = true ∧ hostOnly s t h)
    ∧ ((s.slot bar slot).withdrawn.isSome = true →
      ∃ t, exec (.restoreSlot h bar slot) s = .next t
        ∧ t.host.waits = s.host.waits ++ [{ ring := h.ring, tag := h.tag, opcode := 0x0081, orphan := false
                                            since := max s.clk.elapsed h.t, kind := .restoreTelem bar slot }]
        ∧ t.dev = s.dev ∧ t.tables = s.tables ∧ t.link.slots = s.link.slots))
  ∧ (∀ (s : State) (bar slot u : Nat) (w : Wait), restoreWait s (.restoreTelem bar slot) = some w → w.orphan = false →
    (s.ring w.ring).enabled = true → (s.ring w.ring).fetched = [] → w.since + msT ≤ max s.clk.elapsed u →
    ∃ t, exec (.telemNowTimeout bar slot u) s = .next t ∧ repliedWith t w.ring w.tag w.opcode stTimeout [] = true
      ∧ t.host.waits = s.host.waits.erase w ∧ t.link = s.link)

/-- R215 to R219, R170: surveys and wear. -/
def Obligations.SurveyAndWearComplete : Prop :=
  (∀ (s : State) (h : Hdr) (mask rows slotMask tmax : Nat), acceptsLong s h (cmdOf 0x0080 0) = true → 1 ≤ rows → rows ≤ 3 → slotMask < 2 ^ 24 →
    s.press.isSome = true → s.firstUnread mask = none → prbsActive s mask = false → s.link.survey = none → s.link.scan = none →
    s.thermal.op = none →
    ∃ t, exec (.nozzleSurvey h mask rows slotMask tmax) s = .next t ∧ startedLong s t h (cmdOf 0x0080 0)
      ∧ t.link.survey = some { ring := h.ring, tag := h.tag, rows := rows, tmax := if tmax = 0 then 400 else tmax
                               slots := (scanBars s mask).flatMap (fun b => ((s.fittedSlots b).filter (bit slotMask)).map (slotIx b))
                               checked := [], measuring := false, discarded := false, dropped := [], lost := 0 }
      ∧ longFrame { s with link := t.link, draws := t.draws } t h.t)
  ∧ (∀ (s : State) (u : Up) (nozzle row res : Nat) (o : SurveyOp) (v : SlotSurvey), s.link.survey = some o →
    (s.slot u.group u.slot).survey = some v →
    ∃ t, exec (.survey u nozzle row res) s = .next t
      ∧ t.link = (s.withSlot u.group u.slot { s.slot u.group u.slot with
          survey := some { v with results := v.results ++ [(nozzle, row, res)] } }).link
      ∧ t.dev = s.dev ∧ t.tables = s.tables ∧ t.run = s.run)
  ∧ (∀ (s : State) (bar slot u : Nat) (o : SurveyOp) (v : SlotSurvey), s.link.survey = some o → (s.slot bar slot).survey = some v →
    v.finished = false → v.startAt + secT ≤ max s.clk.elapsed u →
    exec (.surveySlotTimeout bar slot u) s = .next ((((s.at u).withSurvey (some { o with
      dropped := o.dropped ++ [slotIx bar slot], lost := o.lost + v.results.length, discarded := true })).withSlot bar slot
        { s.slot bar slot with survey := none }).report 0x200B (logKey (some bar) (some slot) none none) 0 []))
  ∧ (∀ (s : State) (o : OpRef) (v : SurveyOp), runsLong s o 0x0080 = true → s.link.survey = some v → v.ring = o.ring → v.tag = o.tag →
    (v.measuring = true ∨ v.slots = []) →
    (∀ k ∈ v.slots, k ∈ v.dropped ∨ (s.slot (k / 24) (k % 24)).survey.any (fun x => x.finished) = true) →
    ∃ t, exec (.nozzleSurveyDone o) s = .next t
      ∧ endedWith s t o 0x0080 (if v.discarded then stTimeout else stOk) (surveyStore v (s.at o.t)).2
      ∧ t.link.survey = none ∧ t.dev = s.dev ∧ t.press = s.press)
  ∧ (∀ (s : State) (u : Nat), canonOk s = true → lostBursts s (wearBase s) wearBytes = [] →
    ∃ t, exec (.wearHarvest u) s = .next t ∧ t.path.wear = [] ∧ t.path.lastHarvest = max s.clk.elapsed u
      ∧ (∀ k, nget t.path.wearTotals k = (if nget s.path.wear k = 0 then nget s.path.wearTotals k
          else sat 8 (nget s.path.wearTotals k + nget s.path.wear k)))
      ∧ t.dev = s.dev ∧ t.press = s.press ∧ t.store = s.store)

/-- R250 to R252, R267: the commands of the camera ports. -/
def Obligations.CameraCommandsComplete : Prop :=
  (∀ (s : State) (h : Hdr) (port record : Nat) (c : CamContext), accepts s h (cmdOf 0x0090 1) = true → port ≤ 1 →
    readContext s record = (c, false, none) → c.ok = true → priorityTaken s port c = false → (bit c.outputs 1 && engine1Busy s) = false →
    (bit s.boot.domainsReady 10 = true →
      ∃ t, exec (.camConfigEnable h port record) s = .next t
        ∧ repliedWith t h.ring h.tag 0x0090 stOk (leBytes 4 (s.cam port).frames) = true
        ∧ hostOnly ((giveEngines 2 (s.withCam port { s.cam port with next := some c, disabling := false })).withBoot
            { s.boot with domains := setBit s.boot.domains 10 true }) t h)
    ∧ (bit s.boot.domainsReady 10 = false →
      ∃ t, exec (.camConfigEnable h port record) s = .next t
        ∧ t.host.waits = s.host.waits ++ [{ ring := h.ring, tag := h.tag, opcode := 0x0090, orphan := false
                                            since := max s.clk.elapsed h.t, kind := .domain 1024 (leBytes 4 (s.cam port).frames) }]
        ∧ t.cams = (s.withCam port { s.cam port with next := some c, disabling := false }).cams
        ∧ t.boot = { s.boot with domains := setBit s.boot.domains 10 true }))
  ∧ (∀ (s : State) (h : Hdr) (port : Nat), accepts s h (cmdOf 0x0090 0) = true → port ≤ 1 → (s.cam port).frame.isSome = true →
    ∃ t, exec (.camConfigDisable h port) s = .next t ∧ repliedWith t h.ring h.tag 0x0090 stOk [] = true
      ∧ hostOnly (s.withCam port { s.cam port with next := none, disabling := true }) t h)
  ∧ (∀ (s : State) (h : Hdr) (port : Nat), accepts s h (cmdOf 0x0090 0) = true → canonOk s = true → port ≤ 1 →
    (s.cam port).frame = none →
    ∃ t, exec (.camConfigDisable h port) s = .next t ∧ repliedWith t h.ring h.tag 0x0090 stOk [] = true
      ∧ t.cam port = { s.cam port with ctx := none, next := none, disabling := false } ∧ t.cam (1 - port) = s.cam (1 - port)
      ∧ t.press = s.press ∧ t.dev = s.dev ∧ t.run = s.run)
  ∧ (∀ (s : State) (h : Hdr) (port stage dest size : Nat) (c : CamContext), acceptsLong s h (cmdOf 0x0091 0) = true → port ≤ 1 →
    stage ≤ 2 → (s.cam port).enabled = some c → c.frameLines * captureLineBytes c stage ≤ size →
    ∃ t, exec (.camCapture h port stage dest size) s = .next t ∧ startedLong s t h (cmdOf 0x0091 0)
      ∧ longFrame (s.withCam port { s.cam port with captures := (s.cam port).captures ++
          [{ ring := h.ring, tag := h.tag, stage := stage, dest := dest, seq := none, dropped := 0, closed := none }] }) t h.t)
  ∧ (∀ (s : State) (o : OpRef) (p : Nat) (x : CamCapture) (late : Bool), runsLong s o 0x0091 = true →
    findCapture s o.ring o.tag = some (p, x) → x.closed = some late →
    ∃ t, exec (.camCaptureDone o) s = .next t
      ∧ endedWith s t o 0x0091 (if late then stTimeout else stOk) (leBytes 4 (x.seq.getD 0) ++ leBytes 4 x.dropped)
      ∧ longFrame (s.withCam p { s.cam p with captures := (s.cam p).captures.erase x }) t o.t)

/-- R248, R249, R255, R259, R261: packets, frames and lines. -/
def Obligations.CameraFramesComplete : Prop :=
  (∀ (s : State) (port vc number u : Nat) (c : CamContext), canonOk s = true → cameraPowered s port = true → (s.cam port).ctx = some c →
    (s.cam port).next = none → (s.cam port).frame = none → vc = c.vcBase →
    ∃ t f, exec (.csi2FrameStart port vc number u) s = .next t ∧ (t.cam port).frame = some f ∧ f.seq = (s.cam port).frames % 2 ^ 32
      ∧ f.ctx = c ∧ f.csiFrame = number ∧ f.seen = 0 ∧ f.kept = 0 ∧ f.hist = [] ∧ f.openedAt = max s.clk.elapsed u
      ∧ (t.cam port).frames = (s.cam port).frames + 1 ∧ (t.cam port).ctx = some c ∧ (t.cam port).windows = []
      ∧ t = { s with clk := (s.at u).clk, cams := t.cams, keep := { s.keep with rows := t.keep.rows } })
  ∧ (∀ (s : State) (port vc wc u : Nat) (pixels : List Nat) (c : CamContext) (f : CamFrame), canonOk s = true → cameraPowered s port = true →
    (s.cam port).ctx = some c → (s.cam port).frame = some f → (s.cam port).part = none → c.exposures = 1 → vc = c.vcBase →
    wc = c.lineWords → f.seen < c.frameLines → c.priority = 0 →
    ∃ t, exec (.csi2LongPacket port vc c.typeCode wc pixels true true u) s = .next t
      ∧ (t.cam port).lineBuf = (s.cam port).lineBuf
          ++ [{ index := f.kept, seq := f.seq, exposures := [pixels], pos := printPosition (s.at u) c }]
      ∧ (t.cam port).frame.map (fun f => (f.seen, f.kept)) = some (f.seen + 1, f.kept + 1)
      ∧ t = { s with clk := (s.at u).clk, cams := t.cams })
  ∧ (∀ (s : State) (port vc u : Nat) (c : CamContext) (f : CamFrame), canonOk s = true → cameraPowered s port = true →
    (s.cam port).ctx = some c → (s.cam port).frame = some f → (s.cam port).closing = [] → vc = c.vcBase →
    ∃ t, exec (.csi2FrameEnd port vc u) s = .next t ∧ (t.cam port).frame = none
      ∧ (t.cam port).lineBuf = (s.cam port).lineBuf
      ∧ ((s.cam port).lineBuf.any (fun l => decide (l.seq = f.seq)) = false →
          (t.cam port).closing = [] ∧ t.host.evtStatus.getLsbD 12 = true)
      ∧ ((s.cam port).lineBuf.any (fun l => decide (l.seq = f.seq)) = true →
          (t.cam port).closing.map (fun x => (x.seq, x.why)) = [(f.seq, none)] ∧ t.host = s.host)
      ∧ t.dev = s.dev ∧ t.press = s.press ∧ t.run = s.run)
  ∧ (∀ (s : State) (port u : Nat) (c : CamContext) (f : CamFrame), canonOk s = true → cameraPowered s port = true →
    (s.cam port).ctx = some c → (s.cam port).frame = some f → (s.cam port).closing = [] →
    (s.cam port).lineBuf.any (fun l => decide (l.seq = f.seq)) = false →
    f.openedAt + 2 * c.frameLines * c.linePeriod * nsT ≤ max s.clk.elapsed u →
    ∃ t, exec (.camFrameTimeout port u) s = .next t ∧ (t.cam port).frame = none ∧ (t.cam port).closing = []
      ∧ t.host.evtStatus.getLsbD 12 = true ∧ t.dev = s.dev ∧ t.press = s.press ∧ t.run = s.run)
  ∧ (∀ (s : State) (port vc ty u : Nat), cameraPowered s port = true →
    exec (.csi2ShortPacket port vc ty false u) s = .next ((s.at u).count (camCounter port 1))
    ∧ exec (.csi2ShortPacket port vc ty true u) s
        = .next (if ty = 2 ∨ ty = 3 then s.at u else (s.at u).count (camCounter port 0)))
  ∧ (∀ (s : State) (u port : Nat) (c : CamContext) (f : CamFrame) (l : CamLine) (rest : List CamLine), canonOk s = true →
    port = (if linePriority s 1 = some 0 then 1 else 0) → (s.cam port).lineBuf = l :: rest → (s.cam port).ctx = some c →
    (s.cam port).frame = some f → f.seq = l.seq → (s.cam port).closing = [] →
    ∃ t, exec (.camLinePipeline u) s = .next t ∧ (t.cam port).lineBuf = rest ∧ t.cam (1 - port) = s.cam (1 - port)
      ∧ (t.cam port).frame.map (fun x => (x.seq, x.hist)) = some (f.seq, histLine f.ctx l f.hist)
      ∧ t.dev = s.dev ∧ t.press = s.press ∧ t.run = s.run)
  ∧ (∀ (s : State) (u port : Nat) (c : CamContext) (f : CamFrame) (l : CamLine) (rest : List CamLine), canonOk s = true →
    port = (if linePriority s 1 = some 0 then 1 else 0) → (s.cam port).lineBuf = l :: rest → (s.cam port).ctx = some c →
    (s.cam port).frame = none → (s.cam port).closing = [f] → f.seq = l.seq → rest.any (fun x => decide (x.seq = f.seq)) = false →
    ∃ t, exec (.camLinePipeline u) s = .next t ∧ (t.cam port).lineBuf = rest ∧ (t.cam port).closing = []
      ∧ t.host.evtStatus.getLsbD 12 = true ∧ t.dev = s.dev ∧ t.press = s.press ∧ t.run = s.run)

/-- R272, R283: keeping and its target. -/
def Obligations.KeepingCommandsComplete : Prop :=
  (∀ (s : State) (h : Hdr) (mask record : Nat), accepts s h (cmdOf 0x00A0 0) = true → canonOk s = true →
    s.dmaBad record 64 = none → s.dev ∈ [DevState.idle, .armed, .run] → keepRecordOk (s.dmaRead record 64) = true →
    (camContexts s).any (fun c => decide (1040000 * 256 < c.camDist)) = false →
    (maskList mask 8).all (fun b => bit (barValid s) b) = true → (camContexts s).any (fun c => bit c.outputs 2) = true →
    ∃ t, exec (.keepConfigEnable h mask record) s = .next t ∧ repliedWith t h.ring h.tag 0x00A0 stOk [] = true
      ∧ (∀ b ∈ maskList mask 8, (t.keepBar b).enabled = true ∧ (t.keepBar b).record = keepRecordOf (s.dmaRead record 64)
        ∧ (t.keepBar b).intervalStart = (if s.dev = .run then some (s.web.webPos + 1) else none) ∧ (t.keepBar b).acc = [])
      ∧ (∀ b, b ∉ maskList mask 8 → t.keepBar b = s.keepBar b)
      ∧ hostOnly (s.withKeep { s.keep with bars := t.keep.bars }) t h)
  ∧ (∀ (s : State) (h : Hdr) (mask : Nat), accepts s h (cmdOf 0x00A0 1) = true → canonOk s = true →
    ∃ t, exec (.keepConfigDisable h mask) s = .next t ∧ repliedWith t h.ring h.tag 0x00A0 stOk [] = true
      ∧ (∀ b ∈ maskList mask 8, t.keepBar b = { s.keepBar b with
          enabled := false, intervalStart := none, acc := [], computed := none, ownedUntil := (s.keepBar b).stepAt })
      ∧ (∀ b, b ∉ maskList mask 8 → t.keepBar b = s.keepBar b)
      ∧ hostOnly (s.withKeep { s.keep with bars := t.keep.bars }) t h)
  ∧ (∀ (s : State) (h : Hdr) (mask first count : Nat), acceptsLong s h (cmdOf 0x00A1 0) = true → s.dev = .run → keepOn s mask = false →
    count ≠ 0 → (∀ p ∈ s.run.pages, p.jobId = s.run.jobId → first ≤ p.pageIndex → s.web.webPos < p.start) → s.keep.capture = none →
    ∃ t, exec (.keepTargetCapture h mask first count) s = .next t ∧ startedLong s t h (cmdOf 0x00A1 0)
      ∧ longFrame (s.withKeep { s.keep with
          capture := some { ring := h.ring, tag := h.tag, barMask := mask % 256, first := first, count := count
                            accepted := s.web.webPos, jobId := s.run.jobId, sums := [], lastDone := none, lastEnd := 0 } }) t h.t)
  ∧ (∀ (s : State) (o : OpRef) (x : CaptureOp), runsLong s o 0x00A1 = true → s.keep.capture = some x → x.ring = o.ring → x.tag = o.tag →
    capturePassed (s.at o.t) x = true →
    ∃ t, exec (.keepTargetCaptureDone o) s = .next t ∧ endedWith s t o 0x00A1 stOk []
      ∧ t.keep.capture = none ∧ t.keep.target = (storeCapture x (s.at o.t)).keep.target ∧ t.keep.bars = s.keep.bars
      ∧ longFrame (s.withKeep t.keep) t o.t)
  ∧ (∀ (s : State) (o : OpRef) (x : CaptureOp) (a : Nat), runsLong s o 0x00A1 = true → s.keep.capture = some x → x.ring = o.ring →
    x.tag = o.tag → x.lastDone = some a → a + 60 * secT ≤ max s.clk.elapsed o.t →
    ∃ t, exec (.keepTargetCaptureTimeout o) s = .next t ∧ endedWith s t o 0x00A1 stTimeout []
      ∧ longFrame (s.withKeep { s.keep with capture := none }) t o.t)
  ∧ (∀ (s : State) (h : Hdr) (mask addr : Nat), accepts s h (cmdOf 0x00A1 1) = true → keepOn s mask = false →
    s.dmaBad addr targetSize = none → field (s.dmaRead addr targetSize) 0 2 = 0x4B54 → field (s.dmaRead addr targetSize) 2 2 = 1 →
    ∃ t, exec (.keepTargetLoad h mask addr) s = .next t ∧ repliedWith t h.ring h.tag 0x00A1 stOk [] = true
      ∧ hostOnly (s.withKeep { s.keep with target := mwrite zeroByte [] 0 (s.dmaRead addr targetSize) }) t h)
  ∧ (∀ (s : State) (h : Hdr) (addr : Nat), accepts s h (cmdOf 0x00A1 2) = true → s.host.linkUp = true →
    ∃ t, exec (.keepTargetRead h addr) s = .next t ∧ repliedWith t h.ring h.tag 0x00A1 stOk [] = true
      ∧ delivered s t h.ring addr (mread zeroByte s.keep.target 0 targetSize) ∧ hostOnly s t h)
  ∧ (∀ (s : State) (h : Hdr) (mask : Nat), accepts s h (cmdOf 0x00A1 3) = true → keepOn s mask = false → canonOk s = true →
    ∃ t, exec (.keepTargetClear h mask) s = .next t ∧ repliedWith t h.ring h.tag 0x00A1 stOk [] = true
      ∧ barValid t = maskOf ((List.range 8).filter (fun b => bit (barValid s) b && !bit mask b))
      ∧ hostOnly (s.withKeep { s.keep with target := t.keep.target }) t h)

/-- R270, R274, R275: samples and intervals. -/
def Obligations.KeepingIntervalsComplete : Prop :=
  (∀ (s : State) (port u : Nat) (r : ZoneRec) (rest : List ZoneRec), canonOk s = true → (s.cam port).vision = r :: rest →
    ∃ t, exec (.zoneRecordSample port u) s = .next t ∧ (t.cam port).vision = rest
      ∧ t = { s with clk := (s.at u).clk, cams := t.cams, keep := t.keep, counters := t.counters, log := t.log, dram := t.dram, draws := t.draws })
  ∧ (∀ (s : State) (bar e u : Nat), bar ≤ 7 → s.dev = .run → (s.keepBar bar).enabled = true → (s.keepBar bar).stepAt = none →
    (s.keepBar bar).computed = none → intervalEnd s bar = some e → e ≤ s.web.webPos → isLocked s 1 bar = true →
    ∃ t, exec (.keepIntervalEnd bar u) s = .next t ∧ (t.keepBar bar).intervalStart = some e
      ∧ (t.keepBar bar).intervals = (s.keepBar bar).intervals + 1 ∧ (t.keepBar bar).acc = []
      ∧ (t.keepBar bar).stepped = ((allSteps s bar).filter (fun x => decide (x.2.2.gain ≠ x.2.1))).length
      ∧ t = { s with clk := (s.at u).clk, keep := t.keep, log := t.log })
  ∧ (∀ (s : State) (bar u : Nat) (g : Tab Nat) (x : Boundary) (late : Bool), bar ≤ 7 → s.dev = .run → (s.keepBar bar).enabled = true →
    (s.keepBar bar).stepAt = none → (s.keepBar bar).computed = some g → isLocked s 1 bar = false →
    effectiveBoundary s 0 = some (x, late) →
    ((s.keepBar bar).stepped ≠ 0 →
      ∃ t, exec (.keepIntervalEnd bar u) s = .next t ∧ (t.keepBar bar).stepAt = some x.pos ∧ (t.keepBar bar).computed = none
        ∧ t.run.commits = s.run.commits ++ [{ classes := 2, barMask := 2 ^ bar, boundary := x.pos, closed := false, keep := true }]
        ∧ t.tables = (writeGains bar g s).tables ∧ t.dev = s.dev ∧ t.press = s.press ∧ t.web = s.web)
    ∧ ((s.keepBar bar).stepped = 0 →
      exec (.keepIntervalEnd bar u) s = .next ((writeGains bar g (s.at u)).withKeepBar bar { s.keepBar bar with computed := none })))

/-- R278 to R282: ladders and registration. -/
def Obligations.LadderCommandsComplete : Prop :=
  (∀ (s : State) (h : Hdr) (record : Nat), accepts s h (cmdOf 0x00A0 2) = true → s.dmaBad record 64 = none →
    let d := declOf (s.dmaRead record 64)
    (d.kind = 0xFF → ∃ t, exec (.keepConfigLadder h record) s = .next t ∧ repliedWith t h.ring h.tag 0x00A0 stOk [] = true
      ∧ hostOnly (s.withKeep { s.keep with decls := s.keep.decls.filter (fun x => decide (x.descriptor ≠ d.descriptor)) }) t h)
    ∧ (d.kind ≠ 0xFF → declRsv (s.dmaRead record 64) = false → declOk s d = true →
      (∃ x ∈ s.keep.decls, x.descriptor = d.descriptor ∧ x.kind = d.kind) →
      ∃ t, exec (.keepConfigLadder h record) s = .next t ∧ repliedWith t h.ring h.tag 0x00A0 stOk [] = true
      ∧ hostOnly (s.withKeep { s.keep with
          decls := s.keep.decls.map (fun x => if x.descriptor = d.descriptor ∧ x.kind = d.kind then d else x) }) t h)
    ∧ (d.kind ≠ 0xFF → declRsv (s.dmaRead record 64) = false → declOk s d = true →
      (∀ x ∈ s.keep.decls, ¬(x.descriptor = d.descriptor ∧ x.kind = d.kind)) → s.keep.decls.length < 8 →
      ∃ t, exec (.keepConfigLadder h record) s = .next t ∧ repliedWith t h.ring h.tag 0x00A0 stOk [] = true
      ∧ hostOnly (s.withKeep { s.keep with decls := s.keep.decls ++ [d] }) t h))
  ∧ (∀ (s : State) (h : Hdr) (mask slot : Nat), accepts s h (cmdOf 0x00A0 3) = true → (slot ≤ 23 ∨ slot = 0xFF) →
    (maskList mask 8).any (isLocked s 5) = false → (∀ b ∈ maskList mask 8, planAuto s b = false) →
    (∀ b ∈ maskList mask 8, ladderWords s b = []) →
    ∃ t, exec (.ladderReset h mask slot) s = .next t ∧ repliedWith t h.ring h.tag 0x00A0 stOk [] = true ∧ hostOnly s t h)
  ∧ (∀ (s : State) (h : Hdr) (bar slot row j : Nat), accepts s h (cmdOf 0x00A0 3) = true → canonOk s = true →
    twf (tableDefault 5) ((s.table 5 bar).bank (s.table 5 bar).shadow) = true → bar ≤ 7 → slot ≤ 23 → row ≤ 1 → j < s.nozzles bar slot →
    s.nozzles bar slot ≤ 5120 → isLocked s 5 bar = false → planAuto s bar = false → ladderWords s bar = [(slot, row, j)] →
    ∃ t, exec (.ladderReset h (2 ^ bar) slot) s = .next t ∧ repliedWith t h.ring h.tag 0x00A0 stOk [] = true
      ∧ healthPart (shadowWord t bar slot row j) = nozzleWord 0 3 0 0 0)
  ∧ (∀ (s : State) (k bar slot row nozzle page : Nat) (d : Decl) (c : CamContext) (a m : Int) (cls was n pg : Nat),
    s.keep.decls[k]? = some d → d.kind = 0 → bit d.barMask bar = true → bar ≤ 7 → row ≤ 1 → s.fitted bar slot = true →
    nozzle < s.nozzles bar slot → (dashOf s bar slot row nozzle page).camera s = some c →
    (dashOf s bar slot row nozzle page).blocks s d ≠ [] →
    ((dashOf s bar slot row nozzle page).skipped s d c ((dashOf s bar slot row nozzle page).blocks s d) = true →
      exec (.ladderDash k bar slot row nozzle page) s = .next (s.count 28))
    ∧ ((dashOf s bar slot row nozzle page).skipped s d c ((dashOf s bar slot row nozzle page).blocks s d) = false →
      (dashOf s bar slot row nozzle page).measure s d = some (a, m) → a ≠ 0 →
      cls = dashClass d a ((dashOf s bar slot row nozzle page).twiceRef s d) (decide (d.devTol * a.natAbs < m.natAbs)) →
      (dashOf s bar slot row nozzle page).attribution s d = .mine →
      tget (fun _ => (0, 0, 0)) s.keep.streaks (streakKey (dashOf s bar slot row nozzle page)) = (was, n, pg) → pg ≠ page + 1 →
      (cls = 0 ∨ (if was = cls then n + 1 else 1) < d.confirm) →
      exec (.ladderDash k bar slot row nozzle page) s = .next (s.withKeep { s.keep with
        streaks := tput (fun _ => (0, 0, 0)) s.keep.streaks (streakKey (dashOf s bar slot row nozzle page))
          (cls, (if cls = 0 then 0 else if was = cls then n + 1 else 1), page + 1) })))
  ∧ (∀ (s : State) (h : Hdr) (flags rep record : Nat), acceptsLong s h (cmdOf 0x00A0 4) = true → 1 ≤ rep → rep ≤ 64 → flags ≤ 1 →
    s.keep.reg = none →
    ∃ t, exec (.regMeasure h flags rep record) s = .next t ∧ startedLong s t h (cmdOf 0x00A0 4)
      ∧ longFrame (s.withKeep { s.keep with
          reg := some { ring := h.ring, tag := h.tag, flags := flags, rep := rep, record := record, seen := [] } }) t h.t)
  ∧ (∀ (s : State) (o : OpRef) (x : RegOp), runsLong s o 0x00A0 = true → s.keep.reg = some x →
    x.ring = o.ring → x.tag = o.tag → regSeen (s.at o.t) x = true → x.flags = 0 → s.host.linkUp = true →
    ∃ t, exec (.regMeasureDone o) s = .next t ∧ endedWith s t o 0x00A0 stOk []
      ∧ longFrame (s.withKeep { s.keep with reg := none }) t o.t)

/-- R121, R122, R126, R129: the codec's commands. -/
def Obligations.CodecCommandsComplete : Prop :=
  (∀ (s : State) (h : Hdr) (source stride cols rows format planes options cover first chain : Nat) (o : CodecOp),
    acceptsLong s h (cmdOf 0x0100 0) = true → s.store.codec = [] →
    o = { ring := h.ring, tag := h.tag, compress := true, engine := 2, source := source, stride := stride, tileCols := cols, tileRows := rows
          format := format, planes := planes, options := options, coverCh := cover, firstTile := first, chain := chain, kind := 0
          layer := 0, dest := 0,
          run := { CodeRun.reset with pos := { desc := chain, used := 0 }, index := first } } → compressOk o = true →
    ∃ t, exec (.compress h source stride cols rows format planes options cover first chain) s = .next t
      ∧ startedLong s t h (cmdOf 0x0100 0) ∧ longFrame (s.withStore { s.store with codec := [{ o with engine := 0 }] }) t h.t)
  ∧ (∀ (s : State) (o : OpRef) (x : CodecOp), runsLong s o 0x0100 = true → codecOp s o.ring o.tag = some x → x.engine ≠ 2 →
    s.thermal.throttle = false →
    ∃ t r, exec (.compressDone o) s = .next t
      ∧ r = (compressTiles x (x.total - x.run.index) x.run (s.at o.t)).2
      ∧ endedWith s t o 0x0100 (r.stop.getD stOk) (compressResult r) ∧ t.store.codec.length + 1 = s.store.codec.length
      ∧ t.dev = s.dev ∧ t.press = s.press ∧ t.store.dram = s.store.dram)
  ∧ (∀ (s : State) (h : Hdr) (kind layer source dest : Nat), acceptsLong s h (cmdOf 0x0101 0) = true → s.store.codec = [] → layer ≤ 1 →
    (kind = 0 ∨ (kind = 1 ∧ source ∈ s.store.frames)) →
    ∃ t, exec (.decompressTest h kind layer source dest) s = .next t ∧ startedLong s t h (cmdOf 0x0101 0)
      ∧ longFrame (s.withStore { s.store with codec :=
          [{ ring := h.ring, tag := h.tag, compress := false, engine := 0, source := source, stride := 0, tileCols := 0, tileRows := 0
             format := 0, planes := 0, options := 0, coverCh := 0, firstTile := 0, chain := 0, kind := kind, layer := layer
             dest := dest, run := CodeRun.reset }] }) t h.t)
  ∧ (∀ (s : State) (o : OpRef) (x : CodecOp) (c : Nat), runsLong s o 0x0101 = true → codecOp s o.ring o.tag = some x → x.engine ≠ 2 →
    s.thermal.throttle = false → x.kind = 0 → (testHost s x.source).crc = some c →
    ∃ t, exec (.decompressTestDone o) s = .next t
      ∧ endedWith s t o 0x0101 (testHost s x.source).status (leBytes 4 c ++ leBytes 2 (testHost s x.source).row ++ [0, 0]
          ++ leBytes 4 (testHost s x.source).offset)
      ∧ t.store.codec.length + 1 = s.store.codec.length ∧ t.dev = s.dev ∧ t.press = s.press ∧ t.store.dram = s.store.dram)

/-- R35, R36, R292 to R297: the DRAM's housekeeping. -/
def Obligations.DramHousekeepingCompletes : Prop :=
  (∀ (s : State) (k : Nat) (w : Window), canonOk s = true → openWindow s k 1 = some w → anyOverrun s = false →
    ∃ t, exec (.geyserWindow k) s = .next t ∧ nget t.dram.windowAt k = s.web.webPos + 1
      ∧ (∀ x ∈ windowRanks s w, nget t.dram.debt (rankIx x.1 x.2)
          = debtNow s x.1 x.2 - min (refreshesOwed s x.1 x.2) w.refreshes * refreshUnit s.dram.cfg)
      ∧ (∀ j, (∀ x ∈ windowRanks s w, rankIx x.1 x.2 ≠ j) → nget t.dram.debt j = nget s.dram.debt j)
      ∧ t = { s with trace := t.trace, dram := { s.dram with
          debt := t.dram.debt, debtAt := t.dram.debtAt, windowAt := t.dram.windowAt } })
  ∧ (∀ (s : State) (k : Nat) (w : Window), openWindow s k 1 = some w → anyOverrun s = true →
    exec (.geyserWindow k) s = .next (s.fatal .refreshOverrun))
  ∧ (∀ (s : State) (k mr4 c : Nat) (w : Window), canonOk s = true → openWindow s k 2 = some w → c < 4 → bit w.subchMask (2 * c) = true →
    bit w.subchMask (2 * c + 1) = true → (s.channel c).sr = .awake →
    ∃ t, exec (.retrainWindow k mr4) s = .next t ∧ (t.channel c).lastRetrain = s.clk.elapsed ∧ (t.channel c).zq = true
      ∧ (∀ j, (tget (fun _ => 0) t.dram.taps j - tget (fun _ => 0) s.dram.taps j).natAbs ≤ 1)
      ∧ t.store = s.store ∧ t.press = s.press ∧ t.dev = s.dev)
  ∧ (∀ (s : State) (c mr4 u : Nat), canonOk s = true → dramLive s = true → s.web.running = false → c < 4 → (s.channel c).sr = .awake →
    (s.channel c).lastRetrain + 50 * msT ≤ max s.clk.elapsed u →
    ∃ t, exec (.idleRetrain c mr4 u) s = .next t ∧ (t.channel c).lastRetrain = max s.clk.elapsed u
      ∧ (∀ j, (tget (fun _ => 0) t.dram.taps j - tget (fun _ => 0) s.dram.taps j).natAbs ≤ 1)
      ∧ t.store = s.store ∧ t.press = s.press ∧ t.dev = s.dev)
  ∧ (∀ (s : State) (h r u : Nat), canonOk s = true → dramLive s = true → s.web.running = false → h < 8 → r ∈ s.ranks →
    (s.channel (h / 2)).sr = .awake → refreshUnit s.dram.cfg ≤ debtNow (s.at u) h r →
    ∃ t, exec (.idleRefresh h r u) s = .next t ∧ nget t.dram.debt (rankIx h r) = debtNow (s.at u) h r - refreshUnit s.dram.cfg
      ∧ t = { s with clk := (s.at u).clk, dram := { s.dram with debt := t.dram.debt, debtAt := t.dram.debtAt } })
  ∧ (∀ (s : State) (gap i : Nat) (p : PagePos), canonOk s = true →
    s.run.pages.find? (fun q => q.placed && decide (q.start + q.length = gap)) = some p →
    s.web.running = true → dramLive s = true → i < gpSrCount (s.bank p.bank).image p.gapProg →
    gap + (gpSr (s.bank p.bank).image p.gapProg i).2.1 = s.web.webPos →
    ∃ t, exec (.srWindowEntry gap i) s = .next t
      ∧ (∀ c ∈ maskList (gpSr (s.bank p.bank).image p.gapProg i).1 4, (s.channel c).sr = .awake → (s.channel c).cancelled = false →
        t.channel c = { s.channel c with sr := .windowSr })
      ∧ t = { s with trace := t.trace, dram := { s.dram with debt := t.dram.debt, debtAt := t.dram.debtAt, channels := t.dram.channels } })
  ∧ (∀ (s : State) (gap i : Nat), canonOk s = true → s.web.running = false → (∀ c, c < 4 → (s.channel c).held = []) →
    ∃ t, exec (.srWindowExit gap i) s = .next t
      ∧ (∀ c, c < 4 → t.channel c = if (s.channel c).sr = .windowSr then { s.channel c with sr := .awake, cancelled := false }
          else s.channel c)
      ∧ t = { s with dram := { s.dram with debtAt := t.dram.debtAt, channels := t.dram.channels } })
  ∧ (∀ (s : State) (c u : Nat), canonOk s = true → s.dev = .idle → dramLive s = true → c < 4 → (s.channel c).sr = .awake →
    (s.channel c).lastRequest + (if s.dram.cfg.srIdle = 0 then 100 else s.dram.cfg.srIdle) * msT ≤ max s.clk.elapsed u →
    ∃ t, exec (.srIdleEntry c u) s = .next t ∧ t.channel c = { s.channel c with sr := .idleSr }
      ∧ t = { s with clk := (s.at u).clk, dram := { s.dram with
          debt := t.dram.debt, debtAt := t.dram.debtAt, channels := t.dram.channels } })

/-- R298, R304, R305, R309 to R312: the dynamic share and scrubbing. -/
def Obligations.DramShareAndScrubComplete : Prop :=
  (∀ (s : State) (cls a u : Nat) (data : List Byte) (err : ReadErr), dramLive s = true → cls ≤ 6 → a < dramCapacity s.dram.cfg.config →
    (cls = 2 → a < reservedBase s.dram.cfg.config) →
    (s.channel (subchOf s (a / 64 * 64) / 2)).sr = .awake → tokensHeld s (subchOf s (a / 64 * 64)) cls < classTokens cls →
    data.length = 64 →
    ∃ t, exec (.dynamicShareRequest cls a true data (List.replicate 64 true) err u) s = .next t
      ∧ t.store = ((s.devWrite (a / 64 * 64) data).withPoison (clearBursts s.store.poison
          [burstOf (physAddr s.dram.cfg.config s.dram.cfg.map (a / 64 * 64))])).store
      ∧ t = { s with clk := (s.at u).clk, dram := { s.dram with channels := t.dram.channels }, store := t.store })
  ∧ (∀ (s : State) (cls a u : Nat) (data : List Byte) (enables : List Bool), dramLive s = true → cls ≤ 6 → a < dramCapacity s.dram.cfg.config →
    (s.channel (subchOf s (a / 64 * 64) / 2)).sr = .awake → tokensHeld s (subchOf s (a / 64 * 64)) cls < classTokens cls →
    burstOf (physAddr s.dram.cfg.config s.dram.cfg.map (a / 64 * 64)) ∉ s.store.poison →
    ∃ t, exec (.dynamicShareRequest cls a false data enables .clean u) s = .next t
      ∧ t = { s with clk := (s.at u).clk, dram := { s.dram with channels := t.dram.channels } })
  ∧ (∀ (s : State) (cls a u : Nat) (wr : Bool) (data : List Byte) (enables : List Bool) (err : ReadErr), dramLive s = true → cls ≤ 6 →
    dramCapacity s.dram.cfg.config ≤ a → exec (.dynamicShareRequest cls a wr data enables err u) s = .fault .noSuchAddress)
  ∧ (∀ (s : State) (u : Nat) (sup : Bool), s.thermal.throttle = false → rangeOn s 0 = false → dramLive s = true →
    s.dram.scrubDram < dramCapacity s.dram.cfg.config →
    shareOpen s 6 [subchOf s s.dram.scrubDram] = true →
    burstOf (physAddr s.dram.cfg.config s.dram.cfg.map s.dram.scrubDram) ∉ s.store.poison →
    exec (.scrubRead 0 s.dram.scrubDram .clean sup u) s = .next (((s.at u).share [subchOf s s.dram.scrubDram]).withDram
      { ((s.at u).share [subchOf s s.dram.scrubDram]).dram with
        scrubDram := (s.dram.scrubDram + 64) % dramCapacity s.dram.cfg.config }))
  ∧ (∀ (s : State) (u : Nat) (err : ReadErr), s.thermal.throttle = false → rangeOn s 0 = false → dramLive s = true →
    s.dram.scrubDram < dramCapacity s.dram.cfg.config → s.dram.scrubDram < reservedBase s.dram.cfg.config + 0x08B10000 →
    shareOpen s 6 [subchOf s s.dram.scrubDram] = true →
    burstOf (physAddr s.dram.cfg.config s.dram.cfg.map s.dram.scrubDram) ∉ s.store.poison →
    burstOutcome s (physAddr s.dram.cfg.config s.dram.cfg.map s.dram.scrubDram) false err = .uncorrectable →
    ∃ t, exec (.scrubRead 0 s.dram.scrubDram err false u) s = .next t ∧ t.host.evtStatus.getLsbD 9 = true
      ∧ burstOf (physAddr s.dram.cfg.config s.dram.cfg.map s.dram.scrubDram) ∈ t.store.poison
      ∧ t.store.dram = s.store.dram ∧ t.dram.scrubDram = (s.dram.scrubDram + 64) % dramCapacity s.dram.cfg.config)
  ∧ (∀ (s : State) (h : Hdr) (memory start length dest : Nat), acceptsLong s h (cmdOf 0x00B0 0) = true → memory ≤ 1 →
    start % scrubUnit memory = 0 → length % scrubUnit memory = 0 → length ≠ 0 → start + length ≤ memoryBytes s memory → dest % 64 = 0 →
    s.dram.scrub = none →
    ∃ t, exec (.scrubRange h memory start length dest) s = .next t ∧ startedLong s t h (cmdOf 0x00B0 0)
      ∧ longFrame (s.withDram { s.dram with
          scrub := some { ring := h.ring, tag := h.tag, memory := memory, start := start, length := length, dest := dest
                          checked := 0, corrected := 0, bad := [] } }) t h.t)
  ∧ (∀ (s : State) (o : OpRef) (x : ScrubOp), runsLong s o 0x00B0 = true → s.dram.scrub = some x → x.ring = o.ring → x.tag = o.tag →
    s.thermal.throttle = false → wordsToMeet s x [] x.checked (x.length / scrubUnit x.memory) = [] →
    (x.memory = 0 → shareOpen s 6 (spanSubs s (x.start + 64 * x.checked) (64 * (x.length / 64 - x.checked))) = true) →
    ∃ t, exec (.scrubRangeDone o [] []) s = .next t
      ∧ endedWith s t o 0x00B0 stOk (leBytes 8 (x.length / scrubUnit x.memory) ++ leBytes 4 (sat 4 x.corrected)
          ++ leBytes 4 (sat 4 x.bad.length))
      ∧ t.dram = { s.dram with scrub := none, channels := t.dram.channels, debt := t.dram.debt, debtAt := t.dram.debtAt }
      ∧ (x.memory = 1 → t.dram = { s.dram with scrub := none }) ∧ t.store = s.store)
  ∧ (∀ (s : State) (h : Hdr) (period : Nat), accepts s h (cmdOf 0x00B0 1) = true → 1 ≤ period → period ≤ 168 →
    ∃ t, exec (.scrubRangePatrol h period) s = .next t ∧ repliedWith t h.ring h.tag 0x00B0 stOk [] = true
      ∧ hostOnly (s.withDram { s.dram with passHours := period }) t h)

/-- R342, R423 to R425: the operations of CAL_RUN. -/
def Obligations.CalRunCompletes : Prop :=
  (∀ (s : State) (h : Hdr) (target gm lm sm : Nat), acceptsLong s h (cmdOf 0x00C0 0) = true → s.thermal.op = none → s.link.scan = none →
    ((target = 0 ∧ lm < 64 ∧ gm < 256 ∧ (maskList gm 8).any (groupHeld s) = false) ∨ (target = 1 ∧ sm < 2 ^ 28 ∧ gm < 256)) →
    ∃ t op, exec (.calRunCalibrate h target gm lm sm) s = .next t ∧ t.thermal.op = some op ∧ op.ring = h.ring ∧ op.tag = h.tag
      ∧ op.total = (if target = 0 then laneTargets gm lm else sensorTargets sm).length ∧ t.dev = s.dev ∧ t.press = s.press
      ∧ ((target = 1 ∧ sm < 2 ^ 24) → op.todo = sensorTargets sm ∧ startedLong s t h (cmdOf 0x00C0 0)))
  ∧ (∀ (s : State) (o : OpRef) (x : CalOp), runsLong s o 0x00C0 = true → s.thermal.op = some x → x.ring = o.ring → x.tag = o.tag →
    x.todo = [] → x.woken.all (fun g => (s.loop g).isNone) = true →
    ∃ t, exec (.calRunCalibrateDone o) s = .next t
      ∧ endedWith s t o 0x00C0 (worstOutcome x.counts).status
          ((List.range 4).flatMap (fun i => leBytes 2 (sat 2 (nget x.counts i))) ++ leBytes 2 x.firstBad)
      ∧ t.thermal.op = none ∧ t.dev = s.dev ∧ t.press = s.press
      ∧ ((∀ g, g < 8 → s.loop g = none) →
        longFrame (((s.withThermal { s.thermal with op := none }).withLink t.link).withDraws t.draws) t o.t))
  ∧ (∀ (s : State) (h : Hdr) (addr : Nat), acceptsLong s h (cmdOf 0x00C0 4) = true → canonOk s = true → s.dev = .idle →
    s.thermal.op = none → s.dmaBad addr 64 = none → thermalRecordOk (s.dmaRead addr 64) = true →
    ∃ t op, exec (.calRunSetup h addr) s = .next t ∧ t.thermal.op = some op ∧ op.ring = h.ring ∧ op.tag = h.tag
      ∧ t.thermal.sourceCfg = field (s.dmaRead addr 64) 3 1 ∧ t.thermal.deltaT = field (s.dmaRead addr 64) 4 2
      ∧ (∀ i, i < 4 → t.remote i = remoteOf (s.dmaRead addr 64) i) ∧ t.dev = s.dev ∧ t.press = s.press)
  ∧ (∀ (s : State) (h : Hdr) (addr : Nat), acceptsLong s h (cmdOf 0x00C0 5) = true → s.host.linkUp = true →
    ∃ t, exec (.calRunStatus h addr) s = .next t ∧ repliedWith t h.ring h.tag 0x00C0 stOk [] = true ∧ longFrame s t h.t
      ∧ ∃ a b : List Byte, a.length = 32 ∧ b.length = 32 ∧ t.host.mem = mwrite zeroByte (mwrite zeroByte
          (mwrite zeroByte s.host.mem ((s.ring h.ring).replyBase + 32 * (s.ring h.ring).replyTail) a) addr (thermalBlock (s.at h.t)))
          ((s.ring h.ring).replyBase + 32 * (((s.ring h.ring).replyTail + 1) % (s.ring h.ring).entries)) b)
  ∧ (∀ (s : State) (h : Hdr) (gm lm pat addr : Nat), acceptsLong s h (cmdOf 0x00C0 1) = true → canonOk s = true → gm < 256 → 1 ≤ lm →
    lm < 64 → lm % 32 ≠ 31 → pat ≤ 1 → addr ≤ 23 → s.dev = .idle → s.link.scan = none → s.link.survey = none → s.thermal.op = none →
    (maskList gm 8).any (fun g => (s.loop g).isSome) = false →
    ∃ t, exec (.prbsStart h gm lm pat addr) s = .next t ∧ repliedWith t h.ring h.tag 0x00C0 stOk [] = true
      ∧ (∀ g ∈ maskList gm 8, (t.group g).prbsLanes = lm ∧ (t.group g).prbsPattern = pat ∧ (t.group g).u0Errors = 0
        ∧ (t.group g).u0Seen = 0 ∧ (t.group g).down = .l0 ∧ (∀ l ∈ maskList lm 5, nget (t.group g).gens l ≠ 0))
      ∧ (∀ g, g ∉ maskList gm 8 → t.group g = s.group g) ∧ longFrame ((s.withLink t.link).withDraws t.draws) t h.t)
  ∧ (∀ (s : State) (h : Hdr) (gm lm addr g : Nat) (rest counts : List Nat), acceptsLong s h (cmdOf 0x00C0 2) = true → gm < 256 →
    maskList gm 8 = g :: rest → lm < 64 → addr ≤ 23 → s.dev = .idle → bit lm 5 = true →
    ∃ t, exec (.prbsRead h gm lm addr counts) s = .next t
      ∧ repliedWith t h.ring h.tag 0x00C0 stOk (leBytes 4 (sat 4 (s.group g).u0Errors)) = true ∧ longFrame s t h.t)
  ∧ (∀ (s : State) (h : Hdr) (gm lm : Nat), acceptsLong s h (cmdOf 0x00C0 3) = true → canonOk s = true → gm < 256 → lm < 64 → s.dev = .idle →
    ∃ t, exec (.prbsStop h gm lm) s = .next t ∧ repliedWith t h.ring h.tag 0x00C0 stOk [] = true
      ∧ (∀ g ∈ maskList gm 8, ∀ i, i < 6 → bit (t.group g).prbsLanes i = (bit (s.group g).prbsLanes i && !bit lm i))
      ∧ longFrame ((s.withLink t.link).withDraws t.draws) t h.t)

/-- R200, R414, R417, R421, R69: calibration events and time-outs. -/
def Obligations.CalibrationEventsComplete : Prop :=
  (∀ (s : State) (c u : Nat) (r : Int), canonOk s = true → s.dev ≠ .boot → s.thermal.evaluatedAt + secT ≤ max s.clk.elapsed u → 64 ≤ c → c < 88 → (s.target c).running = false →
    (s.target c).gaveUp = none → (s.target c).retryAt = none → (s.target c).reference = some r →
    deltaT s < (median s (clusterOf c) - r).natAbs →
    ∃ t, exec (.calEvaluation u) s = .next t ∧ (t.target c).running = true ∧ (t.target c).pending = true ∧ t.dev = s.dev
      ∧ t.press = s.press)
  ∧ (∀ (s : State) (c r u : Nat), canonOk s = true → 64 ≤ c → c < 88 → (s.target c).running = false → (s.target c).gaveUp = none →
    (s.target c).retryAt = some r → r ≤ max s.clk.elapsed u →
    ∃ t, exec (.calRetry c u) s = .next t ∧ (t.target c).running = true ∧ (t.target c).retryAt = none ∧ t.dev = s.dev ∧ t.press = s.press)
  ∧ (∀ (s : State) (c u : Nat) (v : Int), canonOk s = true → 64 ≤ c → c < 88 → (s.target c).running = true → (s.target c).m1 = none →
    stateKept s c = true →
    ∃ t, exec (.calMeasurementDone c v true u) s = .next t ∧ (t.target c).m1 = some v ∧ (t.target c).running = true ∧ t.dev = s.dev)
  ∧ (∀ (s : State) (c u : Nat) (v m : Int), canonOk s = true → 64 ≤ c → c < 88 → (s.target c).running = true →
    (s.target c).m1 = some m → (s.target c).noSpan = false → (m - v).natAbs ≤ 3 → s.thermal.op = none →
    stateKept s c = true →
    ∃ t, exec (.calMeasurementDone c v true u) s = .next t ∧ (t.target c).running = false ∧ (t.target c).pending = false
      ∧ (t.target c).reference = some (median s (clusterOf c))
      ∧ ((m + v) % 2 = 0 → 2 * (t.target c).value = m + v)
      ∧ ((m + v) % 2 ≠ 0 → 2 * (t.target c).value = m + v + (if m < v then 1 else -1)) ∧ t.dev = s.dev)
  ∧ (∀ (s : State) (g u : Nat) (x : LoopCal), canonOk s = true → s.loop g = some x → answerLate (s.at u) x = true →
    ∃ t, exec (.calAnswerTimeout g u) s = .next t ∧ t.loop g = some { x with phase := .exiting, result := none
                                                                             since := if x.phase = .exiting then x.since else max s.clk.elapsed u }
      ∧ t.dev = s.dev ∧ t.press = s.press)
  ∧ (∀ (s : State) (bar slot u : Nat) (o : LoadOp), s.link.load = some o → o.opcode = 0x60 → o.waiting = false →
    o.since + 100 * msT ≤ max s.clk.elapsed u → (loadOf o (slotIx bar slot)).isSome = true →
    runsLong s { ring := o.ring, tag := o.tag, t := u } 0x0060 = true →
    ∃ t, exec (.tableLoadTimeout bar slot u) s = .next t
      ∧ endedWith s t { ring := o.ring, tag := o.tag, t := u } 0x0060 stTimeout (leBytes 1 bar ++ leBytes 1 slot)
      ∧ t.link.load = none ∧ longFrame ((s.withLink t.link).withDraws t.draws) t u)

/-- R426 to R433: the thermal unit. -/
def Obligations.ThermalUnitCompletes : Prop :=
  (∀ (s : State) (vs : List Int) (u : Nat), canonOk s = true → s.boot.path = .up → vs.length = 24 → (∀ v ∈ vs, -400 ≤ v ∧ v < 1200) →
    s.thermal.convertedAt + alwaysOnCycle ≤ max s.clk.elapsed u →
    ∃ t, exec (.onDieSensorConversion (vs.map some) u) s = .next t
      ∧ (∀ i, i < 24 → (t.sensor i).reading = nth 0 vs i ∧ (t.sensor i).broken = false)
      ∧ t = { s with clk := (s.at u).clk, thermal := { s.thermal with
          sensors := t.thermal.sensors, convertedAt := max s.clk.elapsed u } })
  ∧ (∀ (s : State) (vs : List Int) (u k : Nat), canonOk s = true → s.boot.path = .up → vs.length = 24 →
    s.thermal.convertedAt + alwaysOnCycle ≤ max s.clk.elapsed u → (∀ v ∈ vs, -400 ≤ v ∧ v ≤ 1500) → k < 8 → 2 ≤ ((List.range 3).filter (fun j => decide (1200 ≤ nth 0 vs (3 * k + j)))).length →
    ∃ t, exec (.onDieSensorConversion (vs.map some) u) s = .next t ∧ t.dev = .boot ∧ t.boot.shutdownRec.isSome = true
      ∧ t.boot.path = (if 2 ≤ (recentShutdowns (s.at u)).length then .lockout else .shutdown)
      ∧ t.boot.shutdowns = recentShutdowns (s.at u) ++ [max s.clk.elapsed u] ∧ t.link.inputs.thermalOk = false)
  ∧ (∀ (s : State) (i u a : Nat), (s.sensor i).inRangeSince = some a → (s.sensor i).episode = true → (s.sensor i).broken = false →
    a + 10 * secT ≤ max s.clk.elapsed u →
    exec (.sensorEpisodeEnd i u) s = .next ((s.at u).withSensor i { s.sensor i with episode := false, inRangeSince := none }))
  ∧ (∀ (s : State) (i u : Nat) (raw : RemoteRaw) (v : Int), i < 4 → (s.remote i).kind ≠ 0 → s.boot.path = .up →
    nget s.thermal.remoteAt i + 10 * msT ≤ max s.clk.elapsed u → remoteReading (s.remote i) raw = some v →
    ∃ x, exec (.remoteSensorConversion i raw u) s = .next (((s.at u).withThermal { s.thermal with
        remoteAt := nput s.thermal.remoteAt i (max s.clk.elapsed u) }).withSensor (24 + i) x) ∧ x.reading = v ∧ x.broken = false
      ∧ x.episode = (s.sensor (24 + i)).episode ∧ x.excluded = (s.sensor (24 + i)).excluded)
  ∧ (∀ (s : State) (i u : Nat) (raw : RemoteRaw), canonOk s = true → i < 4 → (s.remote i).kind ≠ 0 → s.boot.path = .up →
    nget s.thermal.remoteAt i + 10 * msT ≤ max s.clk.elapsed u → remoteReading (s.remote i) raw = none →
    ∃ t, exec (.remoteSensorConversion i raw u) s = .next t ∧ (t.sensor (24 + i)).reading = brokenReading
      ∧ (t.sensor (24 + i)).broken = true ∧ (t.sensor (24 + i)).episode = true ∧ (t.sensor (24 + i)).inRangeSince = none
      ∧ t.dev = s.dev ∧ t.press = s.press ∧ ((s.sensor (24 + i)).episode = true → t.log = s.log))
  ∧ (∀ (s : State) (u : Nat), s.boot.path = .up → s.thermal.judgedAt + msT ≤ max s.clk.elapsed u →
    ∃ t, exec (.tJEvaluation u) s = .next t ∧ t.thermal.tj = junction s
      ∧ t.thermal.warn = (if s.thermal.warn then decide (970 ≤ junction s) else decide (1000 ≤ junction s))
      ∧ t.thermal.throttle = (s.thermal.throttle || decide (1050 ≤ junction s))
      ∧ (s.thermal.throttle = true ∨ junction s < 1050 → t.cams = s.cams)
      ∧ t = { s with clk := (s.at u).clk, thermal := t.thermal, cams := t.cams, log := t.log, host := t.host, trace := t.trace })
  ∧ (∀ (s : State) (u a : Nat), canonOk s = true → s.thermal.belowSince = some a → s.thermal.throttle = true →
    a + secT ≤ max s.clk.elapsed u →
    ∃ t, exec (.throttleOff u) s = .next t ∧ t.thermal = { s.thermal with throttle := false, belowSince := none }
      ∧ t.dev = s.dev ∧ t.press = s.press
      ∧ ((s.cam 0).codeWait = [] → (s.cam 1).codeWait = [] → s.store.codec.all (fun o => decide (o.engine ≠ 2)) = true →
        (∀ k, k < 2 → t.cam k = { s.cam k with codeWait := [] }.setStaging 0)
        ∧ t = (((s.at u).withThermal { s.thermal with throttle := false, belowSince := none }).report 0x7004
            (logKey none none none none) 0 []).withCams t.cams))
  ∧ (∀ (s : State) (u a : Nat), s.boot.coolSince = some a → s.boot.path = .shutdown → a + 10 * secT ≤ max s.clk.elapsed u →
    ∃ t, exec (.thermalRestart u) s = .next t ∧ t = (s.at u).doReset .thermalRestart true .booting ∧ t.boot.path = .booting
      ∧ t.dev = .boot)
  ∧ (∀ (s : State) (h : Hdr) (i seq : Nat), accepts s h (cmdOf 0x0110 0) = true → i ≤ 3 → (s.sensor (24 + i)).brokenSeq = some seq →
    (s.sensor (24 + i)).broken = true →
    ∃ t, exec (.sensorExclude h i seq) s = .next t ∧ repliedWith t h.ring h.tag 0x0110 stOk [] = true
      ∧ hostAndLog (s.withSensor (24 + i) { s.sensor (24 + i) with excluded := true }) t h)
  ∧ (∀ (s : State) (h : Hdr) (i : Nat), accepts s h (cmdOf 0x0110 1) = true → i ≤ 3 →
    ∃ t, exec (.sensorInclude h i) s = .next t ∧ repliedWith t h.ring h.tag 0x0110 stOk [] = true
      ∧ hostOnly (s.withSensor (24 + i) { s.sensor (24 + i) with excluded := false }) t h)

/-- R385 to R388: the two network paths. -/
def Obligations.NetworkPathsComplete : Prop :=
  (∀ (s : State) (p u : Nat) (up : Bool), canonOk s = true → p ≤ 1 → (s.netPort p).mode ≠ 0 → (s.netPort p).up ≠ up →
    ∃ t, exec (.networkPortLink p up u) s = .next t ∧ (t.netPort p).up = up ∧ (t.netPort p).mode = (s.netPort p).mode
      ∧ t.netPort (1 - p) = s.netPort (1 - p) ∧ t = { s with clk := (s.at u).clk, net := { s.net with ports := t.net.ports } })
  ∧ (∀ (s : State) (p ip u : Nat), canonOk s = true → portUp s p = true → ip = s.net.ipv4 →
    (∃ t, exec (.arpRequest p ip u) s = .next t ∧ t.net.prpSeq = (s.net.prpSeq + 1) % 65536
      ∧ (t.netPort p).lastTx = some { kind := .arpReply ip, trailer := some (trailerOf (.arpReply ip) s.net.prpSeq p) }
      ∧ t = { s with clk := (s.at u).clk, net := { s.net with ports := t.net.ports, prpSeq := t.net.prpSeq } })
    ∧ (∃ t, exec (.icmpEchoRequest p ip u) s = .next t ∧ t.net.prpSeq = (s.net.prpSeq + 1) % 65536
      ∧ (t.netPort p).lastTx = some { kind := .echoReply ip, trailer := some (trailerOf (.echoReply ip) s.net.prpSeq p) }
      ∧ t = { s with clk := (s.at u).clk, net := { s.net with ports := t.net.ports, prpSeq := t.net.prpSeq } }))
  ∧ (∀ (s : State) (p ip u : Nat), ip ≠ s.net.ipv4 →
    exec (.arpRequest p ip u) s = .next (s.at u) ∧ exec (.icmpEchoRequest p ip u) s = .next (s.at u))
  ∧ (∀ (s : State) (u p : Nat), canonOk s = true → portUp s p = true →
    (∀ x, s.net.supervisedAt = some x → x + 2 * secT ≤ max s.clk.elapsed u) →
    ∃ t, exec (.prpSupervision u) s = .next t ∧ t.net.supervisedAt = some (max s.clk.elapsed u)
      ∧ t.net.prpSeq = (s.net.prpSeq + 1) % 65536
      ∧ (t.netPort p).lastTx = some { kind := .supervision, trailer := some (trailerOf .supervision s.net.prpSeq p) } ∧ t.dev = s.dev)
  ∧ (∀ (s : State) (p source seq lan length u : Nat) (content : RxContent), portUp s p = true → length ≤ 1536 →
    content ≠ .damaged → content ≠ .fecLost →
    ∃ t, exec (.prpFrameReceive p source seq lan true length content u) s = .next t
      ∧ t.net.dup = (dupCheck (max s.clk.elapsed u) source seq s.net.dup).1
      ∧ t = { s with clk := (s.at u).clk, net := { s.net with ports := t.net.ports, dup := t.net.dup } })
  ∧ (∀ (s : State) (p source seq lan length u : Nat) (trailer : Bool), canonOk s = true → portUp s p = true →
    ∃ t, exec (.prpFrameReceive p source seq lan trailer length .damaged u) s = .next t
      ∧ nget (t.netPort p).counters 4 = sat 4 (nget (s.netPort p).counters 4 + 1)
      ∧ t = { s with clk := (s.at u).clk, net := { s.net with ports := t.net.ports } })

/-- R390, R393 to R396: the time base's sources. -/
def Obligations.TimeConfigCompletes : Prop :=
  (∀ (s : State) (h : Hdr) (a b vlan ip mask : Nat), accepts s h (cmdOf 0x00D0 0) = true → canonOk s = true → a ≤ 3 → b ≤ 3 →
    bit vlan 12 = false → s.dev = .idle →
    ∃ t, exec (.timeConfigNet h a b vlan ip mask) s = .next t ∧ repliedWith t h.ring h.tag 0x00D0 stOk [] = true
      ∧ (t.netPort 0).mode = a ∧ (t.netPort 1).mode = b ∧ ((s.netPort 0).mode = a → t.netPort 0 = s.netPort 0)
      ∧ ((s.netPort 0).mode ≠ a → (t.netPort 0).up = false) ∧ ((s.netPort 1).mode = b → t.netPort 1 = s.netPort 1)
      ∧ ((s.netPort 1).mode ≠ b → (t.netPort 1).up = false)
      ∧ hostOnly (s.withNet { s.net with ports := t.net.ports, vlan := vlan, ipv4 := ip, netmask := mask }) t h)
  ∧ (∀ (s : State) (h : Hdr) (d : Nat), accepts s h (cmdOf 0x00D0 1) = true → d ≤ 1 → ((s.domain d).number ≤ 127 ∨ (s.domain d).number = 0xFF) →
    (s.domain d).transport ≤ 1 → (s.domain d).delayMech ≤ 1 → (s.domain d).bandwidth ≤ 3 →
    ∃ t, exec (.timeConfigDomain h d (s.domain d).number (s.domain d).transport (s.domain d).delayMech (s.domain d).bandwidth
        (s.domain d).asymA (s.domain d).asymB) s = .next t
      ∧ repliedWith t h.ring h.tag 0x00D0 stOk [] = true ∧ hostOnly s t h)
  ∧ (∀ (s : State) (h : Hdr) (d number transport delay bw : Nat) (asymA asymB : Int), accepts s h (cmdOf 0x00D0 1) = true →
    canonOk s = true → d ≤ 1 → (number ≤ 127 ∨ number = 0xFF) → transport ≤ 1 → delay ≤ 1 → bw ≤ 3 → (s.domain d).number ≠ number →
    ∃ t, exec (.timeConfigDomain h d number transport delay bw asymA asymB) s = .next t
      ∧ repliedWith t h.ring h.tag 0x00D0 stOk [] = true
      ∧ t.domain d = { PtpDomain.reset with number := number, transport := transport, delayMech := delay, bandwidth := bw, asymA := asymA
                                            asymB := asymB, txSeq := (s.domain d).txSeq }
      ∧ (tracking s = false → (s.domain (1 - d)).estimate = false → t.domain (1 - d) = s.domain (1 - d))
      ∧ t.dev = s.dev ∧ t.press = s.press)
  ∧ (∀ (s : State) (h : Hdr) (d : Nat), accepts s h (cmdOf 0x00D0 2) = true → d ≤ 1 →
    ∃ t, exec (.timeConfigPrefer h d) s = .next t ∧ repliedWith t h.ring h.tag 0x00D0 stOk [] = true ∧ t.clk.prefer = d
      ∧ ((s.domain 0).estimate = false → (s.domain 1).estimate = false → tracking s = false →
        hostOnly (s.withClk { s.clk with prefer := d }) t h))
  ∧ (∀ (s : State) (h : Hdr) (sec ns : Nat), accepts s h (cmdOf 0x00D0 3) = true → tracking s = false → s.web.running = false →
    ns ≤ 999999999 → 0 < (s.at h.t).base →
    ∃ t, exec (.setTime h sec ns) s = .next t ∧ repliedWith t h.ring h.tag 0x00D0 stOk [] = true ∧ t.base = sec * secT + ns * nsT
      ∧ t.clk.taiValid = true ∧ t.clk.elapsed = max s.clk.elapsed h.t ∧ t.dev = s.dev ∧ t.press = s.press)
  ∧ (∀ (s : State) (h : Hdr) (dest : Nat), accepts s h (cmdOf 0x00D0 4) = true → s.host.linkUp = true →
    ∃ t, exec (.timeConfigStatus h dest) s = .next t ∧ repliedWith t h.ring h.tag 0x00D0 stOk [] = true
      ∧ delivered s t h.ring dest (netStatus (s.at h.t)) ∧ hostOnly s t h)
  ∧ (∀ (s : State) (u : Nat), (s.domain s.clk.prefer).estimate = true → s.clk.prefer ≤ 1 → s.clk.source ≠ trackedSource s.clk.prefer →
    (s.domain s.clk.prefer).heldSince + 10 * secT ≤ max s.clk.elapsed u →
    ∃ t, exec (.preferredDomainReturn u) s = .next t ∧ t.clk.source = trackedSource s.clk.prefer ∧ t.clk.taiValid = true
      ∧ t.host.evtStatus.getLsbD 15 = true ∧ t.dev = s.dev ∧ t.press = s.press)
  ∧ (∀ (s : State) (u since : Nat) (d : Int), s.clk.slew = some (d, since) → d.natAbs ≤ (max s.clk.elapsed u - since) / 100000 →
    exec (.timeSlewEnd u) s = .next (s.withClk { (s.at u).clk with offset := s.clk.offset + d, slew := none }))

/-- R391, R392: PTP messages. Master selection and filter are the model's (log entry 72). -/
def Obligations.PtpMessagesComplete : Prop :=
  (∀ (s : State) (a : Announce) (u : Nat), canonOk s = true → portUp s a.path = true → a.domain ≤ 1 → (s.domain a.domain).on = true →
    ∃ t, exec (.ptpAnnounce a u) s = .next t
      ∧ (t.domain a.domain).masters = hearMaster (max s.clk.elapsed u) a (s.domain a.domain).masters ∧ t.dev = s.dev ∧ t.press = s.press)
  ∧ (∀ (s : State) (d p snd seq origin arr li u : Nat), canonOk s = true → portUp s p = true → d ≤ 1 → (s.domain d).on = true →
    fromMaster (s.domain d) p snd = true →
    (∃ t, exec (.ptpSync d p snd seq origin arr li true u) s = .next t ∧ (t.domain d).pendingSync = some (p, seq, arr)
      ∧ (t.domain d).syncAt = some (max s.clk.elapsed u) ∧ (t.domain d).offsets = (s.domain d).offsets)
    ∧ (∀ delay, (s.domain d).delayNow = some delay →
      ∃ (t : State) (k : Int), exec (.ptpSync d p snd seq origin arr li false u) s = .next t ∧ (t.domain d).syncOrigin = origin
        ∧ (t.domain d).syncArrival = arr ∧ (t.clk.steps = s.clk.steps → k = 0)
        ∧ (t.domain d).offsets = ((((arr : Int) - origin - delay - (s.domain d).asym p) :: (s.domain d).offsets).take 16).map (· + k)))
  ∧ (∀ (s : State) (d p snd seq origin arr delay u : Nat), canonOk s = true → portUp s p = true → d ≤ 1 → (s.domain d).on = true →
    fromMaster (s.domain d) p snd = true → (s.domain d).pendingSync = some (p, seq, arr) → (s.domain d).delayNow = some delay →
    ∃ (t : State) (k : Int), exec (.ptpFollowUp d p snd seq origin u) s = .next t ∧ (t.domain d).pendingSync = none
      ∧ (t.domain d).syncOrigin = origin ∧ (t.clk.steps = s.clk.steps → k = 0)
      ∧ (t.domain d).offsets = ((((arr : Int) - origin - delay - (s.domain d).asym p) :: (s.domain d).offsets).take 16).map (· + k))
  ∧ (∀ (s : State) (d p u : Nat) (m : Announce), canonOk s = true → portUp s p = true → d ≤ 1 → (s.domain d).on = true →
    (s.domain d).delayMech = 0 → (s.domain d).selected = some m → m.path = p → (s.domain d).syncAt.isSome = true →
    ∃ t, exec (.delayReqSend d p u) s = .next t ∧ (t.domain d).delayReq = some ((s.domain d).txSeq, p, (s.at u).base)
      ∧ (t.domain d).txSeq = ((s.domain d).txSeq + 1) % 65536
      ∧ (t.netPort p).lastTx = some { kind := .delayReq d (s.domain d).txSeq, trailer := none }
      ∧ t = { s with clk := (s.at u).clk, net := { s.net with ports := t.net.ports, domains := t.net.domains } })
  ∧ (∀ (s : State) (d p snd seq received sent u : Nat), canonOk s = true → portUp s p = true → d ≤ 1 → (s.domain d).on = true →
    fromMaster (s.domain d) p snd = true → (s.domain d).delayReq = some (seq, p, sent) →
    ∃ t, exec (.ptpDelayResp d p snd seq received u) s = .next t ∧ (t.domain d).delayReq = none
      ∧ tget (fun _ => none) (t.domain d).delays p = some ((((((s.domain d).syncArrival : Int) - (s.domain d).syncOrigin)
          + ((received : Int) - sent)) / 2).toNat))
  ∧ (∀ (s : State) (d p u : Nat), canonOk s = true → portUp s p = true → d ≤ 1 → (s.domain d).on = true → (s.domain d).delayMech = 1 →
    tget (fun _ => none) (s.domain d).pdelayReq p = none →
    ∃ t, exec (.pdelayReqSend d p u) s = .next t
      ∧ tget (fun _ => none) (t.domain d).pdelayReq p = some ((s.domain d).txSeq, (s.at u).base, max s.clk.elapsed u)
      ∧ (t.netPort p).lastTx = some { kind := .pdelayReq d (s.domain d).txSeq, trailer := none })
  ∧ (∀ (s : State) (d p snd seq u : Nat), canonOk s = true → portUp s p = true → d ≤ 1 → (s.domain d).on = true →
    (s.domain d).delayMech = 1 →
    ∃ t, exec (.ptpPdelayReq d p snd seq u) s = .next t
      ∧ (t.netPort p).lastTx = some { kind := .pdelayRespFollowUp d seq, trailer := none } ∧ t.net.domains = s.net.domains)
  ∧ (∀ (s : State) (d p snd seq sent at_ rec_ arr stamp u : Nat), canonOk s = true → portUp s p = true → d ≤ 1 → (s.domain d).on = true →
    tget (fun _ => none) (s.domain d).pdelayReq p = some (seq, sent, at_) → tget (fun _ => none) (s.domain d).pdelayRx p = some (rec_, arr) →
    ∃ t, exec (.ptpPdelayResp d p snd seq true stamp u) s = .next t
      ∧ tget (fun _ => none) (t.domain d).delays p = some (((((arr : Int) - sent) - ((stamp : Int) - rec_)) / 2).toNat))
  ∧ (∀ (s : State) (d u : Nat), canonOk s = true → d ≤ 1 → masterSilent (s.at u) (s.domain d) = false →
    syncSilent (s.at u) (s.domain d) = true →
    ∃ t, exec (.ptpEstimateLoss d u) s = .next t ∧ (t.domain d).estimate = false ∧ (t.domain d).offsets = [] ∧ t.dev = s.dev)

/-- R400, R405, R406, R408, R409: the lead role. -/
def Obligations.LeadRoleCompletes : Prop :=
  (∀ (s : State) (h : Hdr) (home sw el pid mac : Nat), accepts s h (cmdOf 0x00E0 0) = true → s.net.lead.role ≠ .solo → s.press.isSome = true →
    home ≤ 1 → sw ≤ 1 → el ≤ 1 → pid ≠ 0 →
    ∃ t, exec (.leadConfig h home sw el pid mac) s = .next t ∧ repliedWith t h.ring h.tag 0x00E0 stOk [] = true
      ∧ t.net.lead.config = some { home := decide (home = 1), manual := decide (sw = 1), eligible := decide (el = 1), pressId := pid
                                   groupMac := mac }
      ∧ t.net.lead.role = s.net.lead.role ∧ hostOnly (s.withNet t.net) t h)
  ∧ (∀ (s : State) (h : Hdr) (i : Nat), accepts s h (cmdOf 0x00E1 0) = true → s.net.lead.role = .lead → mayLead (s.at h.t) i = true →
    s.net.lead.handoff = none →
    ∃ t x, exec (.leadTransfer h i) s = .next t ∧ t.net.lead.handoff = some x ∧ x.target = i ∧ (s.web.running = false → x.boundary = 0)
      ∧ t.host.waits = s.host.waits ++ [{ ring := h.ring, tag := h.tag, opcode := 0x00E1, orphan := false
                                          since := max s.clk.elapsed h.t, kind := .leadTransfer i (s.net.lead.epoch + 1) }]
      ∧ t.net.lead.role = .lead ∧ t.dev = s.dev ∧ t.press = s.press)
  ∧ (∀ (s : State) (h : Hdr) (i : Nat), accepts s h (cmdOf 0x00E1 0) = true → s.net.lead.role ≠ .lead →
    ∃ t, exec (.leadTransfer h i) s = .next t ∧ repliedWith t h.ring h.tag 0x00E1 stWrongState [] = true ∧ hostOnly s t h)
  ∧ (∀ (s : State) (u x : Nat) (w : Wait), s.net.lead.transferAt = some x → s.host.waits.find? isTransfer = some w →
    x + 100 * msT ≤ max s.clk.elapsed u → w.orphan = false → (s.ring w.ring).enabled = true → (s.ring w.ring).fetched = [] →
    ∃ t, exec (.leadTransferTimeout u) s = .next t ∧ repliedWith t w.ring w.tag w.opcode stTimeout [] = true
      ∧ t.host.waits = s.host.waits.erase w ∧ t.net.lead = { s.net.lead with transferAt := none })
  ∧ (∀ (s : State) (h : Hdr) (i e : Nat), accepts s h (cmdOf 0x00E2 0) = true → s.net.lead.role = .lead → s.press.isSome = true → i ≤ 3 →
    i ≠ ownIndex s → s.net.lead.epochSeen < e →
    ∃ t, exec (.arbiterVerdict h i e) s = .next t ∧ repliedWith t h.ring h.tag 0x00E2 stOk [] = true
      ∧ t.net.lead.role = .follower ∧ t.net.lead.release = true ∧ t.net.lead.leadIndex = none ∧ hostOnly (s.withNet t.net) t h)
  ∧ (∀ (s : State) (u : Nat), s.net.lead.role = .lead → s.net.lead.renewedAt + 8 * msT ≤ max s.clk.elapsed u → mayRenew s = true →
    exec (.leaseRenew u) s = .next ((s.at u).withLead { s.net.lead with
      leaseEnd := (s.at u).base + 40 * msT, renewedAt := max s.clk.elapsed u }))
  ∧ (∀ (s : State) (u : Nat), s.net.lead.role = .lead → s.net.lead.leaseEnd ≤ (s.at u).base + msT →
    ∃ t, exec (.leaseLost u) s = .next t ∧ t.net.lead.role = .none ∧ t.net.lead.leadIndex = none ∧ t.net.lead.epoch = s.net.lead.epoch
      ∧ t = { s with clk := (s.at u).clk, net := t.net, log := t.log })
  ∧ (∀ (s : State) (u : Nat) (c : LeadConfig), s.net.lead.config = some c → mayTake (s.at u) c = true → s.net.lead.stopReq = none →
    ∃ t, exec (.takeover u) s = .next t ∧ t.net.lead.role = .lead ∧ t.net.lead.epoch = s.net.lead.epochSeen + 1
      ∧ t.net.lead.leaseEnd = (s.at u).base + 40 * msT ∧ t.net.lead.leadIndex = some (ownIndex s)
      ∧ t.host.evtStatus.getLsbD 10 = true ∧ t.dev = s.dev ∧ t.press = s.press ∧ t.run = s.run)
  ∧ (∀ (s : State) (u : Nat) (x : Handoff), s.net.lead.handoff = some x → x.boundary ≠ 0 → s.net.lead.role = .lead →
    (s.web.running = false ∨ x.boundary ≤ s.web.webPos) → x.target ≠ ownIndex s →
    ∃ t, exec (.handoff u) s = .next t ∧ t.net.lead.role = .follower ∧ t.net.lead.leadIndex = some x.target
      ∧ t.net.lead.epoch = s.net.lead.epoch + 1 ∧ t.net.lead.handoff = none ∧ t.host.evtStatus.getLsbD 10 = true ∧ t.run = s.run)
  ∧ (∀ (s : State) (u e : Nat), s.net.lead.verdictEpoch = some e → s.net.lead.role ≠ .lead → foreignLease (s.at u) = false →
    s.net.lead.stopReq = none →
    ∃ t, exec (.verdictLeaseEnd u) s = .next t ∧ t.net.lead.role = .lead ∧ t.net.lead.epoch = e ∧ t.net.lead.verdictEpoch = none
      ∧ t.dev = s.dev ∧ t.press = s.press)

/-- R402, R403, R407: heartbeats. -/
def Obligations.HeartbeatsComplete : Prop :=
  (∀ (s : State) (u n : Nat) (c : LeadConfig), s.net.lead.config = some c → s.net.lead.hbLast = some n → s.dev ∈ statesUp →
    s.press.isSome = true → s.net.lead.role ≠ .solo → n < hbInstant (s.at u) → s.net.lead.handoff = none →
    ∃ t, exec (.heartbeatSend u) s = .next t ∧ t.net.lead.hbSeq = (s.net.lead.hbSeq + 1) % 2 ^ 32
      ∧ t.net.lead.hbLast = some (hbInstant (s.at u)) ∧ t.net.lead.role = s.net.lead.role ∧ t.net.lead.epoch = s.net.lead.epoch
      ∧ t.net.prpSeq = (s.net.prpSeq + 1) % 65536 ∧ t.dev = s.dev ∧ t.press = s.press ∧ t.run = s.run)
  ∧ (∀ (s : State) (p u : Nat) (hb : Heartbeat) (mac : Bool) (c : LeadConfig) (pr : Press), s.net.lead.config = some c → s.press = some pr →
    portUp s p = true → s.dev ∈ statesUp → s.net.lead.role = .follower → hb.pressId = c.pressId → hb.version = 1 → hb.crcOk = true →
    hb.index < pr.devices → hb.index ≠ pr.index → hb.role = 2 → bit hb.flags 0 = false → bit hb.flags 2 = false →
    ∃ t x, exec (.heartbeatReceive p hb mac u) s = .next t ∧ t.peer hb.index = some x ∧ x.seq = hb.seq ∧ x.role = 2
      ∧ x.flags = hb.flags ∧ x.epoch = hb.epoch ∧ (if p = 0 then x.lastA else x.lastB) = some (max s.clk.elapsed u)
      ∧ t = { s with clk := (s.at u).clk, trace := t.trace, net := { s.net with lead := { s.net.lead with
          peers := t.net.lead.peers, healthySince := t.net.lead.healthySince } } })
  ∧ (∀ (s : State) (p u : Nat) (hb : Heartbeat) (mac : Bool) (c : LeadConfig) (pr : Press), s.net.lead.config = some c → s.press = some pr →
    portUp s p = true → s.dev ∈ statesUp → s.net.lead.role ≠ .solo → hb.pressId = c.pressId → hb.version = 1 → hb.crcOk = true →
    hb.index < pr.devices → hb.index ≠ pr.index → hb.role = 1 → hb.epoch < s.net.lead.epochSeen →
    exec (.heartbeatReceive p hb mac u) s = .next ((s.at u).report 0x300F (logKey none none none none) 0
      (leBytes 1 hb.index ++ leBytes 4 hb.epoch)))
  ∧ (∀ (s : State) (p u : Nat) (hb : Heartbeat) (mac : Bool) (c : LeadConfig) (pr : Press), s.net.lead.config = some c → s.press = some pr →
    (hb.pressId ≠ c.pressId ∨ hb.version ≠ 1 ∨ hb.crcOk = false ∨ pr.devices ≤ hb.index) →
    exec (.heartbeatReceive p hb mac u) s = .next (s.at u))

/-- R363 to R367, R457, R468, R469: resets and what they keep. -/
def Obligations.ResetsComplete : Prop :=
  (∀ (s : State) (held u : Nat), usT ≤ held → ∃ t, exec (.porN held u) s = .next t ∧ afterCold s t .porN .held u ∧ t.boot.porLow = true
    ∧ t.boot.jtag = 1 ∧ t.host.mem = s.host.mem ∧ t.host.messages = s.host.messages)
  ∧ (∀ (s : State) (rail mv held u : Nat), railLow rail mv = true → 2 * usT ≤ held →
    ∃ t, exec (.supplyDrop rail mv held u) s = .next t ∧ afterCold s t .porN .held u ∧ t.boot.supplyBad = true
      ∧ t.host.mem = s.host.mem ∧ t.host.messages = s.host.messages)
  ∧ (∀ (s : State) (held u : Nat), s.boot.porLow = false → s.boot.supplyBad = false → 2 * alwaysOnCycle ≤ held →
    ∃ t, exec (.resetN held u) s = .next t ∧ afterWarm s t .resetN .held u ∧ t.boot.resetLow = true
      ∧ ((∀ b, b < 8 → (s.bar b).fireEn = false) → t.host.mem = s.host.mem ∧ t.host.messages = s.host.messages))
  ∧ (∀ (s : State) (held u : Nat), s.boot.porLow = true ∨ s.boot.supplyBad = true → 2 * alwaysOnCycle ≤ held →
    exec (.resetN held u) s = .next { s with clk := (s.at u).clk, boot := { s.boot with resetLow := true } })
  ∧ (∀ (s : State) (rail mv held u : Nat), (held < usT → exec (.porN held u) s = .next (s.at u))
    ∧ (railLow rail mv = false ∨ held < 2 * usT → exec (.supplyDrop rail mv held u) s = .next (s.at u))
    ∧ (held < 2 * alwaysOnCycle → exec (.resetN held u) s = .next (s.at u)))
  ∧ (∀ (s : State) (core fed u : Nat), core < 4 → s.boot.path ∈ [PowerPath.up, .booting, .record] →
    max fed (nget s.boot.wdogFed core) + 100 * msT ≤ max s.clk.elapsed u →
    ∃ t, exec (.watchdogExpiry core fed u) s = .next t ∧ afterWarm s t .watchdog .booting u ∧ t.boot.wdogOut = true
      ∧ ((∀ b, b < 8 → (s.bar b).fireEn = false) → t.host.mem = s.host.mem ∧ t.host.messages = s.host.messages))
  ∧ (∀ (s : State) (core fed u : Nat), core < 4 → s.boot.path ∉ [PowerPath.up, .booting, .record] ∨
    max s.clk.elapsed u < max fed (nget s.boot.wdogFed core) + 100 * msT →
    exec (.watchdogExpiry core fed u) s = .next ((s.at u).withBoot { s.boot with
      wdogFed := nput s.boot.wdogFed core (max fed (nget s.boot.wdogFed core)) }))
  ∧ (∀ (s : State) (h : Hdr) (kind : Nat), accepts s h (cmdOf 0x0120 0) = true → s.host.linkUp = true → kind ≤ 1 →
    ∃ t, exec (.deviceReset h kind) s = .next t ∧ ((∀ b, b < 8 → (s.bar b).fireEn = false) → delivered s t h.ring 0 [])
      ∧ (kind = 0 → afterWarm s t .deviceReset .booting h.t)
      ∧ (kind = 1 → afterCold s t .deviceReset .booting h.t))
  ∧ (∀ (s : State) (u : Nat) (c : FatalCause), s.boot.fatal = some c → s.boot.path = .record →
    ∃ t, exec (.fatalRecordWritten true u) s = .next t ∧ t.log.fatalRecords = (s.boot.fatalRec :: s.log.fatalRecords).take 16
      ∧ (c ≠ .refreshOverrun → Pll.time ∉ s.boot.pllLost → afterWarm s t .fatal .booting u)
      ∧ ((c = .refreshOverrun ∨ Pll.time ∈ s.boot.pllLost) → afterCold s t .fatal .booting u)
      ∧ t.boot.wdogOut = true ∧ t.boot.fatal = none)
  ∧ (∀ (s : State) (u : Nat) (c : FatalCause), s.boot.fatal = some c → s.boot.path = .record →
    s.boot.fatalAt + 10 * msT ≤ max s.clk.elapsed u →
    ∃ t, exec (.fatalRecordWritten false u) s = .next t ∧ t.log.fatalRecords = s.log.fatalRecords ∧ t.boot.recordLost = true
      ∧ t.dev = .boot ∧ t.boot.path = .booting ∧ t.boot.source = .fatal)
  ∧ (∀ (s : State) (i u : Nat), 3 ≤ i → i ≤ 7 →
    ∃ t, exec (.jtagInstructionLoad i u) s = .next t ∧ afterCold s t s.boot.source .test u ∧ t.boot.jtag = i)
  ∧ (∀ (s : State) (i u : Nat), ¬(3 ≤ i % 256 ∧ i % 256 ≤ 7) →
    exec (.jtagInstructionLoad i u) s = .next { s with
      clk := (s.at u).clk, boot := { s.boot with jtag := jtagInstruction (i % 256) } })
  ∧ jtagInstruction 1 = 1 ∧ jtagInstruction 2 = 2 ∧ (∀ i, i = 0 ∨ 7 < i → jtagInstruction i = 0xFF)

/-- R369 to R373, R378: how a boot ends. -/
def Obligations.BootCompletes : Prop :=
  (∀ (s : State) (u straps : Nat) (sr : Bool) (timing : List Nat) (errs : List (Nat × ReadErr)), s.boot.path = .booting ∨ s.boot.path = .held →
    s.boot.resetAt + msT ≤ max s.clk.elapsed u → liveCopy s = none →
    ∃ t, exec (.boot u sr timing straps errs) s = .next t ∧ t.dev = .maint ∧ t.boot.path = .up ∧ t.boot.maint = .imageMissing
      ∧ t.boot.fwVersion = 0 ∧ t.boot.ucodeVersion = 0 ∧ t.dram.trained = false ∧ t.boot.porLow = false ∧ t.boot.resetLow = false
      ∧ t.store = s.store ∧ t.boot.flash = s.boot.flash)
  ∧ (∀ (s : State) (u straps : Nat) (sr : Bool) (timing : List Nat) (errs : List (Nat × ReadErr)), ¬(s.boot.path = .booting ∨ s.boot.path = .held) ∨
    max s.clk.elapsed u < s.boot.resetAt + msT → exec (.boot u sr timing straps errs) s = .next (s.at u))
  ∧ (∀ (s : State) (u straps k : Nat) (sr : Bool) (timing : List Nat) (errs : List (Nat × ReadErr)), s.boot.path = .booting ∨ s.boot.path = .held →
    s.boot.resetAt + msT ≤ max s.clk.elapsed u → liveCopy s = some k →
    let back : Bool := s.boot.trial && decide ((s.boot.source = .watchdog ∨ s.boot.source = .fatal) ∧ s.boot.tries = 3)
    let pref := if back then 1 - s.boot.preferred else s.boot.preferred
    let p := checkPair s pref
    ∃ t, exec (.boot u sr timing straps errs) s = .next t ∧ t.boot.path = .up ∧ t.boot.preferred = pref
      ∧ t.boot.trial = (s.boot.trial && !back)
      ∧ t.boot.tries = (if s.boot.trial && !back then min 3 (s.boot.tries + 1) else s.boot.tries)
      ∧ t.boot.fwVersion = p.fw ∧ t.boot.ucodeVersion = p.uc ∧ t.boot.domains = 0x83F ∧ t.boot.domainsReady = 0x83F
      ∧ t.boot.straps = (if s.boot.source = .porN then straps else s.boot.straps)
      ∧ (∀ (r : MaintReason) (st : Nat), p.fail = some (r, st) → t.dev = .maint ∧ t.boot.maint = r ∧ t.dram.trained = false)
      ∧ (p.fail = none → t.dev = .idle ∧ t.boot.resetOutN = true ∧ t.dram.trained = true
        ∧ t.boot.retained = mayRetain s sr (copyAt s k)
        ∧ (mayRetain s sr (copyAt s k) = false → t.store = Store.reset ∧ t.path.wearTotals = []
          ∧ t.dram.cfg = hotConfig (recordConfig (copyAt s k) timing))
        ∧ (mayRetain s sr (copyAt s k) = true → s.boot.checkpoint.mapBad = false → s.boot.checkpoint.ready = [] →
          t.store = { s.store with frames := s.boot.checkpoint.mapFrames, areas := s.boot.checkpoint.mapAreas })))

/-- R374 to R376: updates. -/
def Obligations.UpdatesComplete : Prop :=
  (∀ (s : State) (h : Hdr) (target length : Nat), accepts s h (cmdOf 0x0020 0) = true →
    (target = 1 ∧ length = 64) ∨ (target = 0 ∧ 256 ≤ length ∧ length ≤ 16777216) → s.boot.update = none →
    ∃ t, exec (.imageUpdateBegin h target length) s = .next t ∧ repliedWith t h.ring h.tag 0x0020 stOk [] = true
      ∧ hostOnly (s.withBoot { s.boot with update := some { target := target, length := length, written := 0, data := [] } }) t h)
  ∧ (∀ (s : State) (h : Hdr) (offset length source : Nat) (x : Update), acceptsLong s h (cmdOf 0x0021 0) = true →
    s.boot.update = some x → s.boot.dataOp = none → s.boot.commitOp = none → 0 < length → length ≤ 16777216 → offset = x.written →
    offset + length ≤ x.length →
    ∃ t, exec (.imageUpdateData h offset length source) s = .next t ∧ startedLong s t h (cmdOf 0x0021 0)
      ∧ longFrame (s.withBoot { s.boot with dataOp := some (h.ring, h.tag, offset, length, source) }) t h.t)
  ∧ (∀ (s : State) (o : OpRef) (offset length source : Nat) (x : Update), runsLong s o 0x0021 = true →
    s.boot.dataOp = some (o.ring, o.tag, offset, length, source) → s.boot.update = some x → 0 < length → s.dmaBad source length = none →
    let data := s.dmaRead source length
    ∃ t, exec (.imageUpdateDataDone o) s = .next t ∧ endedWith s t o 0x0021 stOk []
      ∧ (x.target = 1 → longFrame (s.withBoot { s.boot with dataOp := none, update := some { x with
          written := offset + length, data := x.data.take offset ++ data } }) t o.t)
      ∧ (x.target ≠ 1 → longFrame (s.withBoot { s.boot with
          dataOp := none, update := some { x with written := offset + length }
          flash := mwrite flashByte s.boot.flash (slotBase (1 - s.boot.preferred) + offset)
            (data ++ List.replicate ((4096 - (offset + length) % 4096) % 4096) 0xFF) }) t o.t))
  ∧ (∀ (s : State) (h : Hdr), acceptsLong s h (cmdOf 0x0022 0) = true → s.boot.update.isSome = true → s.boot.dataOp = none →
    s.boot.commitOp = none →
    ∃ t, exec (.imageUpdateCommitActivate h) s = .next t ∧ startedLong s t h (cmdOf 0x0022 0)
      ∧ longFrame (s.withBoot { s.boot with commitOp := some (h.ring, h.tag, 0) }) t h.t)
  ∧ (∀ (s : State) (o : OpRef) (n : Nat) (x : Update), runsLong s o 0x0022 = true → s.boot.commitOp = some (o.ring, o.tag, n) →
    s.boot.update = some x → x.target = 0 →
    ∃ t, exec (.imageUpdateCommitDone o) s = .next t ∧ endedWith s t o 0x0022 (packageStatus s x) []
      ∧ (packageStatus s x = stOk → longFrame (s.withBoot { s.boot with
          commitOp := none, update := none, preferred := 1 - s.boot.preferred, trial := true, tries := 0 }) t o.t)
      ∧ (packageStatus s x ≠ stOk → longFrame (s.withBoot { s.boot with commitOp := none, update := none }) t o.t))
  ∧ (∀ (s : State) (o : OpRef) (n : Nat) (x : Update), runsLong s o 0x0022 = true → s.boot.commitOp = some (o.ring, o.tag, n) →
    s.boot.update = some x → x.target = 1 → x.written = 64 → recordValid x.data = true →
    ∃ t, exec (.imageUpdateCommitDone o) s = .next t ∧ endedWith s t o 0x0022 stOk []
      ∧ longFrame (s.withBoot { s.boot with commitOp := none, update := none, flash := (writeRecord x.data s).boot.flash }) t o.t)
  ∧ (∀ (s : State) (h : Hdr), acceptsLong s h (cmdOf 0x0022 1) = true →
    ∃ t, exec (.imageUpdateCommitConfirm h) s = .next t ∧ repliedWith t h.ring h.tag 0x0022 stOk [] = true
      ∧ longFrame (s.withBoot { s.boot with trial := false }) t h.t)
  ∧ (∀ (s : State) (h : Hdr), acceptsLong s h (cmdOf 0x0022 2) = true →
    let fail := (checkPair s (1 - s.boot.preferred)).fail
    ∃ t, exec (.imageUpdateCommitRollback h) s = .next t
      ∧ repliedWith t h.ring h.tag 0x0022 (match fail with | none => stOk | some f => f.2) [] = true
      ∧ longFrame (if fail = none then s.withBoot { s.boot with preferred := 1 - s.boot.preferred, trial := false } else s) t h.t)

/-- R317, R350, R384, R472, R475, R447, R436: link, clocks and domains. -/
def Obligations.LinkAndPowerEventsComplete : Prop :=
  (∀ (s : State) (u : Nat) (c : Instr), c = .perstN u ∨ c = .pcieHotReset u ∨ c = .clockLoss .pcie u → s.host.linkUp = true →
    canonOk s = true →
    ∃ t, exec c s = .next t ∧ t.host.linkUp = false
      ∧ (∀ r, (t.ring r).enabled = false ∧ (t.ring r).fetched = [] ∧ (t.ring r).owed = 0)
      ∧ t.host.longOps = s.host.longOps.map (fun l => { l with orphan := true })
      ∧ t.host.waits = s.host.waits.map (fun w => { w with orphan := true }) ∧ t.host.msix = [] ∧ t.host.pba = 0
      ∧ t.host.plume.enabled = false ∧ t.host.mem = s.host.mem ∧ t.host.evtStatus = s.host.evtStatus
      ∧ t = { s with clk := (s.at u).clk, host := t.host, boot := { s.boot with pllLost := t.boot.pllLost }
                     regs := { s.regs with scratch := 0, hotResets := min 65535 (s.regs.hotResets + 1) } })
  ∧ (∀ (s : State) (u : Nat), ∃ t, exec (.perstN u) s = .next t ∧ t.host.perstLow = true)
  ∧ (∀ (s : State) (u : Nat), ∃ t, exec (.pcieHotReset u) s = .next t ∧ t.host.perstLow = s.host.perstLow ∧ t.boot = s.boot)
  ∧ (∀ (s : State) (u : Nat), ∃ t, exec (.clockLoss .pcie u) s = .next t ∧ Pll.pcie ∈ t.boot.pllLost)
  ∧ (∀ (s : State) (u : Nat), s.boot.path = .up ∨ s.boot.path = .booting →
    exec (.pcieLinkUp u) s = .next { s with
      clk := (s.at u).clk, host := { s.host with linkUp := true, perstLow := false }
      boot := { s.boot with pllLost := s.boot.pllLost.filter (fun p => p ≠ .pcie) } })
  ∧ (∀ (s : State) (u : Nat) (c : Instr) (x : FatalCause), (c = .fatalError x u ∧ (x = .refreshOverrun → anyOverrun (s.at u) = true)) ∨
    (∃ p : Pll, p ≠ .pcie ∧ c = .clockLoss p u ∧ x = .clockLoss) → s.boot.path = .up ∨ s.boot.path = .booting →
    ∃ t, exec c s = .next t ∧ t.boot.path = .record ∧ t.boot.fatal = some x ∧ t.boot.fatalAt = max s.clk.elapsed u
      ∧ t.boot.fatalRec.length = 512
      ∧ (s.dev ∈ [DevState.armed, .run, .drain] → t.dev = .fault ∧ t.fault = .fatal)
      ∧ (s.dev ∉ [DevState.armed, .run, .drain] → t.dev = s.dev ∧ t.fault = s.fault)
      ∧ t.store = s.store ∧ t.tables = s.tables ∧ t.press = s.press ∧ t.boot.flash = s.boot.flash)
  ∧ (∀ (s : State) (domain u : Nat), domain < 12 → bit s.boot.domains domain = true → s.host.waits = [] →
    exec (.powerDomainReady domain u) s = .next { s with
      clk := (s.at u).clk, boot := { s.boot with domainsReady := setBit s.boot.domainsReady domain true } })
  ∧ (∀ (s : State) (domain u mask : Nat) (w : Wait) (result : List Byte), domain < 12 → bit s.boot.domains domain = true →
    s.host.waits = [w] → w.kind = .domain mask result → w.orphan = false → (s.ring w.ring).enabled = true →
    (s.ring w.ring).fetched = [] → (∀ d ∈ maskList mask 12, d = domain ∨ bit s.boot.domainsReady d = true) →
    ∃ t, exec (.powerDomainReady domain u) s = .next t ∧ t.host.waits = [] ∧ repliedWith t w.ring w.tag w.opcode stOk result = true
      ∧ t.boot = { s.boot with domainsReady := setBit s.boot.domainsReady domain true })

/-- R242, R397 to R399: outputs. -/
def Obligations.OutputsComplete : Prop :=
  (∀ (s : State) (h : Hdr) (output mode flags source width sec ns period : Nat), accepts s h (cmdOf 0x00D1 0) = true →
    canonOk s = true → output ≤ 7 → mode ≤ 3 → flags ≤ 1 → (mode = 3 → source ≤ 7) →
    (mode ≠ 0 → width % 2 = 0 ∧ 4 ≤ width ∧ width ≤ 1000000000) → (mode = 1 ∨ mode = 2 → ns ≤ 999999999 ∧ s.clk.taiValid = true) →
    (mode = 2 → 100 * nsT ≤ period ∧ period ≤ 1000 * secT ∧ width * nsT < period) →
    (mode = 1 → (s.at h.t).base + 10 * usT ≤ sec * secT + ns * nsT) →
    let p : ToutProg := { mode := mode, activeLow := bit flags 0, source := source, width := width, start := sec * secT + ns * nsT
                          period := period, earliest := (s.at h.t).base + 10 * usT }
    ∃ t, exec (.toutProgram h output mode flags source width sec ns period) s = .next t
      ∧ repliedWith t h.ring h.tag 0x00D1 stOk [] = true
      ∧ t.tout output = (if (s.tout output).active then { s.tout output with waiting := some p }
        else { prog := p, waiting := none, active := false, endsAt := 0, nextPulse := firstInstant p ((s.at h.t).base + 10 * usT)
               pending := [] })
      ∧ (∀ k, k ≠ output → t.tout k = s.tout k) ∧ hostOnly (s.withWeb { s.web with touts := t.web.touts }) t h)
  ∧ (∀ (s : State) (output u : Nat) (x : Tout), s.tout output = x →
    (x.prog.mode = 1 → x.nextPulse ≠ 0 → x.nextPulse ≤ (s.at u).base →
      ∃ t, exec (.toutPulse output u) s = .next t
        ∧ t.tout output = { x with active := true, endsAt := max s.clk.elapsed u + x.prog.width * nsT, nextPulse := 0 }
        ∧ t = { s with clk := (s.at u).clk, web := { s.web with touts := t.web.touts } })
    ∧ (x.prog.mode = 2 → x.nextPulse ≤ (s.at u).base →
      ∃ t, exec (.toutPulse output u) s = .next t
        ∧ t.tout output = { x with
            active := true, endsAt := max s.clk.elapsed u + x.prog.width * nsT, nextPulse := x.nextPulse + x.prog.period }
        ∧ t = { s with clk := (s.at u).clk, web := { s.web with touts := t.web.touts } })
    ∧ (∀ pos : Int, x.prog.mode = 3 → s.web.running = true → x.pending.find? (fun p => decide (p ≤ (phaseAt s (s.at u).base : Int))) = some pos →
      ∃ t, exec (.toutPulse output u) s = .next t
        ∧ t.tout output = { x with
            active := true, endsAt := max s.clk.elapsed u + x.prog.width * nsT, pending := x.pending.erase pos }
        ∧ t = { s with clk := (s.at u).clk, web := { s.web with touts := t.web.touts } }))
  ∧ (∀ (s : State) (output u : Nat) (x : Tout), canonOk s = true → s.tout output = x → x.active = true → x.endsAt ≤ max s.clk.elapsed u →
    ∃ t, exec (.toutPulseEnd output u) s = .next t
      ∧ (x.waiting = none → t.tout output = { x with active := false })
      ∧ (∀ p, x.waiting = some p → t.tout output = { prog := p, waiting := none, active := false, endsAt := 0, nextPulse := firstInstant p (max p.earliest (s.at u).base)
                                                     pending := [] })
      ∧ t = { s with clk := (s.at u).clk, web := { s.web with touts := t.web.touts } })

/-- R233 to R235, R244 to R246: comparators, encoders and trimming. -/
def Obligations.MotionEventsComplete : Prop :=
  (∀ (s : State) (k : Nat), k ≤ 7 → s.web.webPos ≠ 0 → comparatorDue s k = true → ((s.comparator k).mode = 2 → (s.comparator k).period ≠ 0) →
    (∀ j, j ≤ 7 → j ≠ k → comparatorDue s j = false) →
    ∃ t, exec (.lineMatch k) s = .next t ∧ t.host.matchStatus = s.host.matchStatus ||| BitVec.ofNat 8 (2 ^ k)
      ∧ t.host.evtStatus = s.host.evtStatus ||| BitVec.ofNat 16 2
      ∧ t.comparator k = { s.comparator k with w := if (s.comparator k).mode = 2 then s.web.webPos + (s.comparator k).period else 0 }
      ∧ (∀ j, j ≠ k → t.comparator j = s.comparator j)
      ∧ t = { s with
          counters := t.counters, trace := t.trace, web := { s.web with comparators := t.web.comparators, touts := t.web.touts }
          host := { s.host with matchStatus := t.host.matchStatus, evtStatus := t.host.evtStatus, messages := t.host.messages
                                pba := t.host.pba } })
  ∧ (∀ (s : State) (enc u held : Nat) (a b : Bool), enc ≤ 1 → encoderFilter s ≤ held →
    windowOver s ((s.at (u + encoderFilter s)).clk.baseAt u) = false → (s.encoder enc).edges ≠ 0 →
    ((s.encoder enc).levelA = a ↔ (s.encoder enc).levelB ≠ b) → (s.encoder enc).overrate (encoderStamp u) = false →
    ∃ t, exec (.encoderCount enc a b held u) s = .next t
      ∧ t.encoder enc = { s.encoder enc with
          levelA := a, levelB := b, edges := (s.encoder enc).edges + 1
          count := (s.encoder enc).count + (if (s.encoder enc).countsUp a (bit s.web.motion.dir enc) then 1 else -1)
          lastAt := u / (2 * nsT) * (2 * nsT), lastEdge := some (u / (2 * nsT) * (2 * nsT)) }
      ∧ t = { s with clk := (s.at (u + encoderFilter s)).clk, web := { s.web with encoders := t.web.encoders } })
  ∧ (∀ (s : State) (enc u held : Nat) (a b : Bool), enc ≤ 1 → encoderFilter s ≤ held →
    windowOver s ((s.at (u + encoderFilter s)).clk.baseAt u) = false → (s.encoder enc).levelA ≠ a → (s.encoder enc).levelB ≠ b →
    ∃ t, exec (.encoderCount enc a b held u) s = .next t ∧ t.encoder enc = { s.encoder enc with levelA := a, levelB := b, bad := true }
      ∧ t.counter (10 + enc) = sat 8 (s.counter (10 + enc) + 1)
      ∧ t = { s with
          clk := (s.at (u + encoderFilter s)).clk, web := { s.web with encoders := t.web.encoders }, counters := t.counters })
  ∧ (∀ (s : State) (enc u held : Nat) (a b : Bool), enc ≤ 1 → encoderFilter s ≤ held →
    windowOver s ((s.at (u + encoderFilter s)).clk.baseAt u) = false → ((s.encoder enc).levelA = a ↔ (s.encoder enc).levelB ≠ b) →
    (s.encoder enc).overrate (encoderStamp u) = true →
    ∃ t, exec (.encoderCount enc a b held u) s = .next t ∧ (t.encoder enc).bad = true
      ∧ t.counter (12 + enc) = sat 8 (s.counter (12 + enc) + 1)
      ∧ t = { s with
          clk := (s.at (u + encoderFilter s)).clk, web := { s.web with encoders := t.web.encoders }, counters := t.counters })
  ∧ (∀ (s : State) (enc u held : Nat) (a b : Bool), held < encoderFilter s → exec (.encoderCount enc a b held u) s = .next (s.at u))
  ∧ (∀ (s : State) (enc u held : Nat), enc ≤ 1 → canonOk s = true → encoderFilter s ≤ held →
    ∃ t, exec (.encoderIndex enc held u) s = .next t ∧ t.counter (14 + enc) = (s.counter (14 + enc) + 1) % 2 ^ 32
      ∧ (∀ i, i ≠ 14 + enc → t.counter i = s.counter i)
      ∧ t = { s with clk := (s.at (u + encoderFilter s)).clk, counters := t.counters })
  ∧ (∀ (s : State) (u : Nat), windowOver s (s.at u).base = false → exec (.speedWindowEnd u) s = .next (s.at u))
  ∧ (∀ (s : State) (u : Nat), windowOver s (s.at u).base = true → trims s = false →
    ∃ t, exec (.speedWindowEnd u) s = .next t
      ∧ t = { s with
          clk := (s.at u).clk, log := t.log
          web := { s.web with encoders := s.web.freshEncoders, windowStart := s.web.windowStart + 100 * msT, eps := none } })
  ∧ (∀ (s : State) (u : Nat), windowOver s (s.at u).base = true → s.web.motion.trim = 1 → s.web.motion.encSel = 0 →
    (s.encoder 0).bad = false →
    let pe := pEncOf s.web.motion.linePitch ((s.encoder 0).speed s.web.motion.countLen0)
    let p := trimPeriod s pe
    let w := { s.web with
      encoders := s.web.freshEncoders, windowStart := s.web.windowStart + 100 * msT, pEnc := pe, eps := none }
    (s.net.lead.role = .solo → exec (.speedWindowEnd u) s = .next ((s.at u).withWeb { w with
      trims := if p = s.web.nominal then s.web.trims else s.web.trims ++ [(s.web.webPos + 2, p)] }))
    ∧ (s.net.lead.role = .lead → s.net.lead.handoff = none → p ≠ s.web.nominal →
      ∃ t x, exec (.speedWindowEnd u) s = .next t ∧ t.net.lead.leadUpdate = some x ∧ t.web.updates = s.web.updates ++ [x]
        ∧ x.seq = (s.web.lastUpdateSeq + 1) % 65536 ∧ x.period = p ∧ x.pEnc = pe
        ∧ x.effective = s.web.webPos + max 2 (ceilDiv (4 * msT) (max 1 s.web.nominal)) ∧ t.web.lastUpdateSeq = x.seq
        ∧ t.web.trims = s.web.trims ∧ t.web.period = s.web.period ∧ t.run = s.run))

/-- R71, R94, R238 to R241, R246: updates and marks. -/
def Obligations.UpdatesAndMarksComplete : Prop :=
  (∀ (s : State) (x : PeriodUpdate), s.web.running = true →
    (s.web.updates.filter (fun u => decide (u.effective ≤ s.web.webPos))).getLast? = some x →
    ∃ t, exec .periodUpdateEffective s = .next t
      ∧ t.web.period = (if lateSum s s.web.webPos = 0 then clampPeriod s x.period
          else clampPeriod s ((clampPeriod s x.period : Int) + lateSum s s.web.webPos).toNat)
      ∧ t = { s with
          trace := t.trace
          web := { s.web with
            period := t.web.period, nominal := clampPeriod s x.period, pEnc := x.pEnc
            updates := s.web.updates.filter (fun u => decide (s.web.webPos < u.effective))
            history := s.web.history.map (fun f => if f.1 = s.web.webPos then (f.1, f.2.1, t.web.period) else f) } })
  ∧ (∀ (s : State) (input u held : Nat) (level : Bool), s.dev = .armed → s.run.startMark = some input → s.web.running = false →
    markFilterTime s ≤ held →
    exec (.markEdge input level held u) s = .next { s with
      clk := (s.at (u + markFilterTime s)).clk
      run := { s.run with
        startMark := none, startArmed := true, tRun := (s.at (u + markFilterTime s)).clk.baseAt u / nsT * nsT + msT } })
  ∧ (∀ (s : State) (input u held : Nat) (level : Bool), held < markFilterTime s →
    exec (.markEdge input level held u) s = .next (s.at u))
  ∧ (∀ (s : State) (input u held wm : Nat) (p : PagePos), registers s = true → s.dev ≠ .armed → s.tabNum 8 0 0 1 = input →
    s.tabNum 8 0 12 4 = 0 → markFilterTime s ≤ held →
    markPosition s ((s.at (u + markFilterTime s)).clk.baseAt u / nsT * nsT) = some wm → markedPage s wm = some p →
    ∃ t, exec (.markEdge input (decide (s.tabNum 8 0 1 1 = 0)) held u) s = .next t ∧ t.web.eps = some (wm - markExpected s p)
      ∧ t = { s with
          clk := (s.at (u + markFilterTime s)).clk, log := t.log, run := { s.run with marked := s.run.marked ++ [p.start] }
          web := { s.web with marks := nput s.web.marks input wm, eps := t.web.eps, regActive := true } })
  ∧ (∀ (s : State) (input u held wm : Nat), registers s = true → s.dev ≠ .armed → s.tabNum 8 0 0 1 = input → markFilterTime s ≤ held →
    markPosition s ((s.at (u + markFilterTime s)).clk.baseAt u / nsT * nsT) = some wm → markedPage s wm = none →
    ∃ t, exec (.markEdge input (decide (s.tabNum 8 0 1 1 = 0)) held u) s = .next t ∧ t.counter 16 = sat 8 (s.counter 16 + 1)
      ∧ t = { s with
          clk := (s.at (u + markFilterTime s)).clk, counters := t.counters, web := { s.web with marks := nput s.web.marks input wm } })
  ∧ (∀ (s : State) (p : PagePos), s.posAt p.start = some p → registers s = true → s.tabNum 8 0 0 1 ≠ 0xFF → p.start ∉ s.run.marked →
    markExpected s p + captureWidth s ≤ (256 * s.web.webPos : Nat) →
    ∃ t, exec (.markMissing p.start) s = .next t ∧ t.counter 17 = sat 8 (s.counter 17 + 1)
      ∧ t = { s with
          counters := t.counters, web := { s.web with regActive := false }
          run := { s.run with marked := s.run.marked ++ [p.start] } })

/-- R30, R46, R52, R53, R85 to R88, R102, R117, R304: from cues to rows. -/
def Obligations.FetchAndDecodeCuesComplete : Prop :=
  (∀ (s : State) (bar page line : Nat) (cue : Word64) (p : PagePos), cueIssues s 1 bar page cue p line = true →
    let q := Cue.ofWord cue.toNat
    let m := (s.bank p.bank).image
    let r := contoneRow s p bar line
    let base := baseBurst m p.pageProg bar q.context q.layer (r / 64) q.part (r % 64 / 8)
    let sent (l : List Nat) (h : Nat) : List Inflight := l.map (fun i =>
      { bar := bar, layer := q.layer, context := q.context, page := p.start, group := 8 * (r / 64) + r % 64 / 8, part := q.part
        burst := base + i, phys := framePhys s.dram.cfg.config h (64 * (base + i)), data := s.frameRead h (64 * (base + i)) 64
        poisoned := s.burstPoisoned (framePhys s.dram.cfg.config h (64 * (base + i))) })
    ∃ t, exec (.runCue bar page cue []) s = .next t ∧ cueIssued s t bar page cue.toNat
      ∧ (∀ h, tileOf s p bar q.layer q.context (r / 64) = .frame h → q.layer = 0 → underFull s p bar q.context (r / 64) = false →
        t.path.inflight = s.path.inflight ++ sent (((List.range q.bursts).map (fun i => q.first + i)).filter (fun i =>
          decide (i < (budget m p.pageProg bar q.context (r / 64) (r % 64 / 8)).2))) h
        ∧ t.context bar 0 q.context = (s.context bar 0 q.context).turn p.start (r / 64) (r % 64 / 8))
      ∧ (∀ h, tileOf s p bar q.layer q.context (r / 64) = .frame h → q.layer = 1 → q.part = 1 →
        t.path.inflight = s.path.inflight ++ sent ((List.range q.bursts).map (fun i => q.first + i)) h
        ∧ t.context bar 1 q.context = (s.context bar 1 q.context).turn p.start (r / 64) (r % 64 / 8))
      ∧ ((∀ h, tileOf s p bar q.layer q.context (r / 64) ≠ .frame h) → t.path.inflight = s.path.inflight)
      ∧ t = { s with trace := t.trace, path := { s.path with
          issued := t.path.issued, inflight := t.path.inflight, contexts := t.path.contexts } })
  ∧ (∀ (s : State) (bar layer c : Nat) (e : Inflight), canonOk s = true →
    s.path.inflight.find? (fun e => decide (e.bar = bar ∧ e.layer = layer ∧ e.context = c)) = some e →
    ∃ t, exec (.readDataReturn bar layer c .clean) s = .next t ∧ t.path.inflight = s.path.inflight.erase e
      ∧ t.context bar layer c = (s.context bar layer c).take e (!e.poisoned)
      ∧ t.counter 21 = (if e.poisoned then sat 8 (s.counter 21 + 1) else s.counter 21)
      ∧ t = { s with path := { s.path with inflight := t.path.inflight, contexts := t.path.contexts }, counters := t.counters })
  ∧ (∀ (s : State) (bar page line c : Nat) (cue : Word64) (p : PagePos), cueIssues s 2 bar page cue p line = true →
    canonOk s = true → (Cue.ofWord cue.toNat).contexts = [c] → ctxUsed (s.bank p.bank).image bar (Cue.ofWord cue.toNat).layer c = true →
    let y := (Cue.ofWord cue.toNat).layer
    let row := contoneRow s p bar line
    let x := (s.context bar y c).turn p.start (row / 64) (row % 64 / 8)
    x.outs.all (fun o => decide (¬(o.page = p.start ∧ o.row = row))) = true →
    ∃ t, exec (.decodeCue bar page cue []) s = .next t ∧ cueIssued s t bar page cue.toNat
      ∧ (∀ (px cov : List Byte) (rest : List (List Byte × List Byte)), x.begun = true → x.failed = none →
        x.rows.drop (row % 8) = (px, cov) :: rest →
        (t.context bar y c).outs = { page := p.start, row := row, pixels := px, cov := cov } :: x.outs.take 1
        ∧ (t.context bar y c).good = px ∧ (t.context bar y c).goodCov = cov ∧ (t.context bar y c).concealing = none
        ∧ t.store = s.store ∧ t.keep = s.keep)
      ∧ (x.begun = false → tileOf s p bar y c (row / 64) = .empty →
        (t.context bar y c).outs = { page := p.start, row := row, pixels := blankRow, cov := blankCov } :: x.outs.take 1
        ∧ (t.context bar y c).concealing = none)
      ∧ (x.begun = false → tileOf s p bar y c (row / 64) = .absent → y = 0 → x.skipped = true →
        (t.context bar y c).outs = { page := p.start, row := row, pixels := blankRow, cov := blankCov } :: x.outs.take 1
        ∧ (t.context bar y c).concealing = none)
      ∧ (x.begun = false → tileOf s p bar y c (row / 64) = .absent → (y = 0 → x.skipped = false) →
        (t.context bar y c).outs = { page := p.start, row := row, pixels := x.good, cov := x.goodCov } :: x.outs.take 1
        ∧ (t.context bar y c).concealing = some .absent
        ∧ t.counter 1 = sat 8 (s.counter 1 + min (alongDiv (s.bank p.bank).image p.pageProg bar)
            (p.length - row * alongDiv (s.bank p.bank).image p.pageProg bar))
        ∧ (x.concealing = none → t.host.evtStatus = s.host.evtStatus ||| BitVec.ofNat 16 8 ∧ t.counter 0 = sat 8 (s.counter 0 + 1))))
  ∧ (∀ (s : State) (bar page : Nat) (p : PagePos), playedPage s page = some p → mayIssue s bar p 0 = true →
    ∃ t, exec (.endCue bar page) s = .next t
      ∧ t = { s with trace := t.trace, path := { s.path with issued := s.path.issued ++ [(bar, page, 0)] } })

/-- R136 to R145, R150 to R163, R173: from rows to slot lines. -/
def Obligations.ToneScreenMapCuesComplete : Prop :=
  (∀ (s : State) (bar page line : Nat) (cue : Word64) (p : PagePos), cueIssues s 3 bar page cue p line = true →
    let q := Cue.ofWord cue.toNat
    q.units = 1 → q.unit < 6912 → (∀ cls ∈ [0, 1, 3], s.loadLatch cls bar p.start = s) →
    (∀ cls, cls ≤ 2 → (s.table cls bar).poison ((s.table cls bar).bankFor p.start) = []) → findVals s bar p.start line (4 - q.lead) = none →
    ∃ t, exec (.toneCue bar page cue []) s = .next t ∧ cueIssued s t bar page cue.toNat
      ∧ (∀ x c, (unitComposites s p bar q.unit line)[x]? = some c → nget (t.vals bar p.start line (4 - q.lead)).print (16 * q.unit + x) =
        printValue (toneOf s bar p.start c) (lineGain s bar p.start (q.unit / 16) line)
          (s.liveNum 2 bar p.start (2 * (16 * q.unit + x)) 2 0x8000) (s.headerNum 0 bar p.start 2 2))
      ∧ (t.vals bar p.start line (4 - q.lead)).toned = 2 ^ q.unit ∧ t.link = s.link)
  ∧ (∀ (s : State) (bar page line : Nat) (cue : Word64) (p : PagePos) (v : LineVals), cueIssues s 4 bar page cue p line = true →
    let q := Cue.ofWord cue.toNat
    s.loadLatch 4 bar p.start = s → (s.table 4 bar).poison ((s.table 4 bar).bankFor p.start) = [] →
    findVals s bar p.start line (3 - q.lead) = some v → twf (fun _ => 0) v.levels = true →
    ∃ t, exec (.screenCue bar page cue []) s = .next t ∧ cueIssued s t bar page cue.toNat
      ∧ (∀ x ∈ q.columns, x < 110592 → nget (t.vals bar p.start line (3 - q.lead)).levels x = screenCol s bar p.start line x (nget v.print x))
      ∧ (∀ x, x ∉ q.columns → nget (t.vals bar p.start line (3 - q.lead)).levels x = nget v.levels x)
      ∧ (t.vals bar p.start line (3 - q.lead)).print = v.print
      ∧ t = { s with trace := t.trace, path := { s.path with issued := t.path.issued, lines := t.path.lines } })
  ∧ (∀ (s : State) (bar page line : Nat) (cue : Word64) (p : PagePos), cueIssues s 5 bar page cue p line = true →
    let q := Cue.ofWord cue.toNat
    let due := dueTick s bar q.slot p.start line
    let n := recN s bar p.start q.slot
    let levels := mapLevels s bar q.slot p.start line (s.vals bar p.start line (3 - q.lead)).levels
    s.fitted bar q.slot = true → s.loadLatch 5 bar p.start = s → (s.table 5 bar).poison ((s.table 5 bar).bankFor p.start) = [] →
    slotWithdrawn s bar q.slot p.start = false → n ≠ 0 → 2 ≤ due % 64 →
    ∃ t, exec (.mapCue bar page cue []) s = .next t ∧ cueIssued s t bar page cue.toNat
      ∧ t.path.staging = s.path.staging.filter (fun l => !decide (l.bar = bar ∧ l.slot = q.slot ∧ l.page = p.start ∧ l.line = line))
        ++ [{ bar := bar, slot := q.slot, due := due, page := p.start, line := line, row := firingRow due
              trail := firesTrail (recLeadB s bar p.start q.slot) due
              stream := packLevels n (2 ^ recNum s bar p.start q.slot 7 1) (fun j =>
                nth 0 levels (nozzleOf n (recDesc s bar p.start q.slot) j))
              began := false, voided := false, gate := false, sent := 0 }]
      ∧ t = { s with trace := t.trace, path := { s.path with issued := t.path.issued, staging := t.path.staging } })

/-- R40, R185 to R189, R212 to R214: the head link. -/
def Obligations.SendCuesComplete : Prop :=
  (∀ (s : State) (bar page line : Nat) (cue : Word64) (p : PagePos) (l : SlotLine), cueIssues s 6 bar page cue p line = true →
    canonOk s = true →
    let q := Cue.ofWord cue.toNat
    s.path.staging.find? (fun l => decide (l.bar = bar ∧ l.slot = q.slot ∧ l.page = p.start ∧ l.line = line)) = some l →
    l.began = false → q.block = 0 →
    let gate := gateBit s bar p.start
    (0 < (s.slot bar q.slot).credit → ∃ t, exec (.sendCue bar page cue []) s = .next t ∧ cueIssued s t bar page cue.toNat
      ∧ (t.slot bar q.slot).credit = (s.slot bar q.slot).credit - 1
      ∧ sentOn s t bar (q.time / 8) ((List.range q.blocks).map (lineBlock s l gate))
      ∧ t.path.staging = s.path.staging.map (fun y => if y = l then { l with began := true, gate := gate, sent := l.sent + q.blocks } else y))
    ∧ ((s.slot bar q.slot).credit = 0 → ∃ t, exec (.sendCue bar page cue []) s = .next t ∧ cueIssued s t bar page cue.toNat
      ∧ (t.slot bar q.slot).credit = 0 ∧ t.counter 4 = sat 8 (s.counter 4 + 1)
      ∧ sentOn s t bar (q.time / 8) ((List.range q.blocks).map (fun _ => ctrlBlk 0x3C q.slot false 0))
      ∧ t.path.staging = s.path.staging.map (fun y => if y = l then { l with
          began := true, voided := true, gate := gate, sent := l.sent + q.blocks } else y)))
  ∧ (∀ (s : State) (bar page line : Nat) (cue : Word64) (p : PagePos), cueIssues s 7 bar page cue p line = true → canonOk s = true →
    let q := Cue.ofWord cue.toNat
    let due := dueTick s bar q.slot p.start line
    let x := s.slot bar q.slot
    let num := (s.table 7 bar).num 7 ((s.table 7 bar).bankFor p.start)
    let record (e : Energy) : List Blk := [dataBlk (energyPayloads e due).1, dataBlk (energyPayloads e due).2]
    s.fitted bar q.slot = true →
    (telemForFrame s x = none → ∃ t, exec (.energyCue bar page cue []) s = .next t ∧ cueIssued s t bar page cue.toNat
      ∧ sentOn s t bar (q.time / 8) (record { x.energy with
          warmN := if slotWithdrawn s bar q.slot p.start then 0 else x.energy.warmN }))
    ∧ (∀ y, telemForFrame s x = some y → s.web.webPos ≤ y.tick + 256 → supplyBad (energyVnom num q.slot) y.vsup = false →
      let c := (codesOf num q.slot y).1
      let e : Energy := { w1 := c.1, w2 := c.2.1, w3 := c.2.2.1, warm := c.2.2.2
                          warmN := if slotWithdrawn s bar q.slot p.start then 0 else warmStep num y.temp x.energy.warmN }
      ∃ t, exec (.energyCue bar page cue []) s = .next t ∧ cueIssued s t bar page cue.toNat ∧ sentOn s t bar (q.time / 8) (record e)
        ∧ (t.slot bar q.slot).energy = e))

/-- R194, R213, R221, R344, R345: telemetry and summaries. -/
def Obligations.TelemetryAndSummariesComplete : Prop :=
  (∀ (s : State) (u : Up) (temp : Int) (vsup flags seq : Nat), s.fitted u.group u.slot = true → s.host.waits = [] → s.link.survey = none →
    vsup < 65536 → flags < 256 → seq < 256 →
    let x := s.slot u.group u.slot
    ∃ t, exec (.telem u temp vsup flags seq) s = .next t
      ∧ (t.slot u.group u.slot).telem = some { temp := temp, vsup := vsup, flags := flags, seq := seq, tick := measuredAt s seq
                                               since := if s.web.running then s.web.webPos + 1 else 0 }
      ∧ (t.slot u.group u.slot).seen = x.seen + 1
      ∧ (t.slot u.group u.slot).limitSeen = (x.limitSeen || overLimit x temp flags)
      ∧ (t.slot u.group u.slot).tempMax = (if x.seen = 0 then temp else max x.tempMax temp)
      ∧ (t.slot u.group u.slot).head = x.head
      ∧ (∀ h, x.head = some h → (warnAt h.mem : Int) ≤ temp → (t.slot u.group u.slot).warnHeld = true
        ∧ (x.warnHeld = false → t.host.evtStatus = s.host.evtStatus ||| BitVec.ofNat 16 256))
      ∧ (bit flags 6 = false → bit flags 7 = false → t.store = s.store ∧ t.keep = s.keep)
      ∧ (∀ b sl, slotIx b sl ≠ slotIx u.group u.slot → t.slot b sl = s.slot b sl)
      ∧ t = { s with
          clk := (s.at u.t).clk, counters := t.counters, log := t.log, trace := t.trace, keep := t.keep
          store := t.store, dram := t.dram
          link := { s.link with slots := t.link.slots }
          host := { s.host with evtStatus := t.host.evtStatus, messages := t.host.messages, pba := t.host.pba } })
  ∧ (∀ (s : State), s.web.running = true → s.host.plume.enabled = true → s.web.webPos % max 1 s.host.plume.interval = 0 →
    s.host.plume.summed ≠ some s.web.webPos →
    s.host.plume.lostPending = 0 → s.host.plume.tail < 2 ^ s.host.plume.log2 → s.host.plume.head < 2 ^ s.host.plume.log2 →
    s.scheduledBars.length + 1 ≤ s.host.plume.free →
    ∃ t, exec .plumeSummary s = .next t ∧ t.host.plume.seq = (s.host.plume.seq + s.scheduledBars.length + 1) % 2 ^ 32
      ∧ t.host.plume.tail = (s.host.plume.tail + s.scheduledBars.length + 1) % 2 ^ s.host.plume.log2
      ∧ t.host.plume.lost = s.host.plume.lost ∧ t.host.plume.lostPending = 0
      ∧ t = { s with link := { s.link with slots := t.link.slots }
                     host := { s.host with mem := t.host.mem, plume := t.host.plume, messages := t.host.messages, pba := t.host.pba } })
  ∧ (∀ (s : State) (u : Nat), s.web.running = false → s.host.plume.enabled = true →
    s.host.plume.summaryAt + 100 * msT ≤ max s.clk.elapsed u → s.host.plume.lostPending = 0 → 0 < s.host.plume.free →
    s.host.linkUp = true →
    let p := s.host.plume
    let body := leBytes 8 s.web.period ++ leInt 4 (s.web.lengthErr / 256) ++ leInt 2 s.thermal.tj ++ leBytes 1 s.dev.code
      ++ leBytes 1 (fireMask s) ++ leBytes 4 (sat 4 (s.sinceSnap 19 + s.sinceSnap 20))
    ∃ t, exec (.idleDeviceSummary u) s = .next t ∧ t.host.plume.seq = (p.seq + 1) % 2 ^ 32
      ∧ t.host.plume.tail = (p.tail + 1) % 2 ^ p.log2
      ∧ t.host.mem = mwrite zeroByte s.host.mem (p.base + 64 * p.tail) (leBytes 1 4 ++ leBytes 1 (bitNat p.phase) ++ leBytes 2 body.length
        ++ leBytes 4 p.seq ++ leBytes 8 s.web.webPos ++ leBytes 8 (s.at u).baseNs ++ padTo 40 body)
      ∧ t = { s with
          clk := (s.at u).clk
          host := { s.host with mem := t.host.mem, plume := t.host.plume, messages := t.host.messages, pba := t.host.pba } })

/-- R338, R339, R203, R400, R436: the press description. -/
def Obligations.PressConfigCompletes : Prop :=
  (∀ (s : State) (h : Hdr) (source : Nat), accepts s h (cmdOf 0x0030 0) = true → groupsInUse s = false → s.dmaBad source 4928 = none →
    canonOk s = true → pressFail (s.dmaRead source 4928) = none →
    let p := pressOf (s.dmaRead source 4928)
    ∃ t, exec (.pressConfig h source 4928) s = .next t ∧ t.press = some p
      ∧ t.net.lead.role = (if p.devices = 1 then .solo else .none)
      ∧ (∀ b sl, (t.slot b sl).head = none)
      ∧ (∀ g, g < 8 → bit p.barMask g = true → (t.group g).down = .ls ∧ (t.group g).up = .l0)
      ∧ (∀ g, g < 8 → bit p.barMask g = false → (t.group g).down = .loff ∧ (t.group g).up = .loff ∧ (t.group g).locked = false)
      ∧ (∀ d, 6 ≤ d → d ≤ 9 → bit t.boot.domains d = bit (pressDomains p.barMask) d)
      ∧ (∀ d, d < 6 → bit t.boot.domains d = bit s.boot.domains d)
      ∧ ((maskList (pressDomains p.barMask) 12).all (bit s.boot.domainsReady) = true →
        repliedWith t h.ring h.tag 0x0030 stOk (leBytes 8 p.digest) = true ∧ t.host.waits = s.host.waits)
      ∧ ((maskList (pressDomains p.barMask) 12).all (bit s.boot.domainsReady) = false →
        t.host.waits = s.host.waits ++ [{ ring := h.ring, tag := h.tag, opcode := 0x0030, orphan := false, since := max s.clk.elapsed h.t
                                          kind := .domain (pressDomains p.barMask) (leBytes 8 p.digest) }])
      ∧ t = { s with
          clk := (s.at h.t).clk, press := t.press, link := t.link, net := { s.net with lead := t.net.lead }, host := t.host, trace := t.trace
          draws := t.draws
          boot := { s.boot with domains := t.boot.domains, domainsReady := t.boot.domainsReady } })
  ∧ (∀ (s : State) (h : Hdr) (source o : Nat), accepts s h (cmdOf 0x0030 0) = true → groupsInUse s = false →
    s.dmaBad source 4928 = none → pressFail (s.dmaRead source 4928) = some o →
    ∃ t, exec (.pressConfig h source 4928) s = .next t
      ∧ repliedWith t h.ring h.tag 0x0030 stBadParam (leBytes 8 0 ++ leBytes 4 o) = true ∧ hostOnly s t h)
  ∧ (∀ (s : State) (h : Hdr) (source length : Nat), accepts s h (cmdOf 0x0030 0) = true → length ≠ 4928 →
    ∃ t, exec (.pressConfig h source length) s = .next t ∧ repliedWith t h.ring h.tag 0x0030 stBadLength [] = true ∧ hostOnly s t h)

/-- R136: a column's composite. -/
def Obligations.CompositeFollowsCompose : Prop :=
  (∀ mode b v : Nat, composite mode b v true = v)
  ∧ (∀ b v : Nat, composite 0 b v false = (if b ≤ v then v else b)) ∧ (∀ b v : Nat, composite 1 b v false = (if b + v ≤ 255 then b + v else 255))
  ∧ (∀ b v : Nat, composite 2 b v false = b)
  ∧ (∀ (s : State) (p : PagePos) (bar unit line x : Nat), x < 16 → s.headerNum 3 bar p.start 0 1 ≠ 1 →
    let base := presented s (s.bank p.bank).image bar 0 (unit / 16) p.start (contoneRow s p bar line)
    let var := presented s (s.bank p.bank).image bar 1 (unit / 16) p.start (contoneRow s p bar line)
    let px := (16 * unit + x) % 256
    (unitComposites s p bar unit line)[x]? = some (composite (s.headerNum 0 bar p.start 0 2) (nth 0 base.1 px).toNat (nth 0 var.1 px).toNat
      ((nth 0 var.2 (px / 8)).getLsbD (px % 8))))

/-- A step runs the front of the queue; idling on an empty queue is the model's choice (log 4). -/
def Obligations.StepRunsFrontCommand : Prop :=
  (∀ (s : State) (c : Instr) (q : List Instr), step (s.withPending (c :: q)) = exec c (s.withPending q))
  ∧ (∀ (s : State), s.pending = [] → step s = .next s)

/-- exec leaves the queue alone. -/
def Obligations.CommandsKeepQueue : Prop :=
  (∀ (s t : State) (c : Instr), exec c s = .next t → t.pending = s.pending)
  ∧ (∀ (s t : State) (c : Instr) (q : List Instr), s.pending = c :: q → step s = .next t → t.pending = q)

/-- What reset leaves. -/
def Obligations.ResetStateHolds : Prop :=
  State.reset.dev = .boot ∧ State.reset.fault = .none ∧ State.reset.pending = [] ∧ State.reset.press = none
  ∧ (∀ r, (State.reset.ring r).enabled = false) ∧ State.reset.host.evtEnable = 0 ∧ State.reset.host.evtStatus = 0
  ∧ (∀ i, State.reset.counter i = 0) ∧ State.reset.host.linkUp = false
  ∧ memoryOk State.reset = true ∧ canonOk State.reset = true ∧ pressOk State.reset = true ∧ fireOk State.reset = true
  ∧ (∀ b, (State.reset.bar b).fireEn = false)

/-- The press invariant is kept by every step. -/
def Obligations.PressStaysLegal : Prop :=
  ∀ (s t : State), pressOk s = true → step s = .next t → pressOk t = true

/-- The canonical form is kept by every step. -/
def Obligations.CanonicalFormIsKept : Prop :=
  ∀ (s t : State), canonOk s = true → step s = .next t → canonOk t = true
end

