-- ==== Sys2Proof/Laws/Coding.lean ====
section
/-! SUPPORT. Laws/Coding.lean: what the codes of the block guarantee: a read that nothing befell finds the word as it was written, and the
receiver's descrambler undoes the scrambler. -/

namespace Sys2Proof.Machine

open Sys2Proof

/-! ## Error correction (R301 to R304) -/

/-- A word read at its own place with no bit inverted is clean, or POISON where it holds the marker. -/
theorem wordOutcome_same (a : Nat) (marked : Bool) : wordOutcome a a marked [] = if marked then .poison else .clean := by
  simp [wordOutcome]

/-- A burst that reads as its codeword is clean. -/
theorem rsOutcome_of_zero (diff : List Nat) (h : diff.all (fun c => c == 0) = true) : rsOutcome diff = .clean := by
  simp only [rsOutcome, h, if_true]

theorem gfAdd_self_all (p : List Nat) : (gfAdd p p).all (fun c => c == 0) = true := by
  induction p with
  | nil => rfl
  | cons a l ih =>
    rw [show gfAdd (a :: l) (a :: l) = Nat.xor a a :: gfAdd l l from rfl, show Nat.xor a a = 0 from Nat.xor_self a]
    simpa using ih

/-- Adding a word of zeros leaves a word of zeros. -/
theorem gfAdd_zeros (p q : List Nat) (hp : p.all (fun c => c == 0) = true) (hq : q.all (fun c => c == 0) = true) :
    (gfAdd p q).all (fun c => c == 0) = true := by
  induction p generalizing q with
  | nil => simp [gfAdd]
  | cons a l ih =>
    cases q with
    | nil => simp [gfAdd]
    | cons b m =>
      simp only [List.all_cons, Bool.and_eq_true, beq_iff_eq] at hp hq
      have := ih m hp.2 hq.2
      simp only [gfAdd] at this
      simp [gfAdd, hp.1, hq.1, this]

/-- A burst read at its own place with no bit inverted and without the marker differs from its codeword nowhere. -/
theorem burstDiff_same (a : List Nat) : (burstDiff a a false []).all (fun c => c == 0) = true := by
  refine gfAdd_zeros _ _ ?_ (by decide)
  rw [List.all_append, Bool.and_eq_true]
  exact ⟨by decide, gfAdd_self_all a⟩

/-- A read of an unpoisoned burst that nothing befalls is clean. -/
theorem burstOutcome_clean (s : State) (phys : Nat) : burstOutcome s phys false .clean = .clean :=
  rsOutcome_of_zero _ (burstDiff_same _)

/-- It leaves the state as it was, and the reader may use the data. -/
theorem meetBurst_clean (s : State) (phys : Nat) : meetBurst phys false .clean s = (s, true) := by
  simp [meetBurst, burstOutcome_clean]

/-! ## The scrambler (R178) -/

/-- The descrambler gives back what was scrambled, and both registers end alike. -/
theorem descramble_scramble (r : Nat) (l : List Bool) : descramble r (scramble r l).1 = (l, (scramble r l).2) := by
  induction l generalizing r with
  | nil => rfl
  | cons b l ih => simp [scramble, descramble, ih]

/-- A scrambled payload has as many bits. -/
@[simp] theorem scramble_length (r : Nat) (l : List Bool) : (scramble r l).1.length = l.length := by
  induction l generalizing r with
  | nil => rfl
  | cons b l ih => simp [scramble, ih]

/-- A pattern of n bits. -/
@[simp] theorem prbsBits_length (pattern n r : Nat) : (prbsBits pattern n r).length = n := by
  induction n generalizing r with
  | zero => rfl
  | succ n ih => simp [prbsBits, ih]

/-- The register of a generator holds its latest bits, and no more of them than its length. -/
theorem prbsPush_lt (pattern r : Nat) (b : Bool) : prbsPush pattern r b < 2 ^ (prbsTaps pattern).1 :=
  Nat.mod_lt _ (Nat.two_pow_pos _)

theorem pushBit_lt (r : Nat) (b : Bool) : pushBit r b < 2 ^ 58 := Nat.mod_lt _ (by decide)

end Sys2Proof.Machine
end

