-- ==== Sys2Proof/Laws/State.lean ====
section
/-! SUPPORT. Laws/State.lean: what every named update of one field of State leaves and sets, field by field. -/

namespace Sys2Proof.Machine

open Sys2Proof

@[simp] theorem withPending_pending (s : State) (x : List Instr) : (s.withPending x).pending = x := rfl
@[simp] theorem withPending_dev (s : State) (x : List Instr) : (s.withPending x).dev = s.dev := rfl
@[simp] theorem withPending_fault (s : State) (x : List Instr) : (s.withPending x).fault = s.fault := rfl
@[simp] theorem withPending_clk (s : State) (x : List Instr) : (s.withPending x).clk = s.clk := rfl
@[simp] theorem withPending_host (s : State) (x : List Instr) : (s.withPending x).host = s.host := rfl
@[simp] theorem withPending_regs (s : State) (x : List Instr) : (s.withPending x).regs = s.regs := rfl
@[simp] theorem withPending_counters (s : State) (x : List Instr) : (s.withPending x).counters = s.counters := rfl
@[simp] theorem withPending_log (s : State) (x : List Instr) : (s.withPending x).log = s.log := rfl
@[simp] theorem withPending_trace (s : State) (x : List Instr) : (s.withPending x).trace = s.trace := rfl
@[simp] theorem withPending_press (s : State) (x : List Instr) : (s.withPending x).press = s.press := rfl
@[simp] theorem withPending_run (s : State) (x : List Instr) : (s.withPending x).run = s.run := rfl
@[simp] theorem withPending_web (s : State) (x : List Instr) : (s.withPending x).web = s.web := rfl
@[simp] theorem withPending_tables (s : State) (x : List Instr) : (s.withPending x).tables = s.tables := rfl
@[simp] theorem withPending_store (s : State) (x : List Instr) : (s.withPending x).store = s.store := rfl
@[simp] theorem withPending_path (s : State) (x : List Instr) : (s.withPending x).path = s.path := rfl
@[simp] theorem withPending_link (s : State) (x : List Instr) : (s.withPending x).link = s.link := rfl
@[simp] theorem withPending_cams (s : State) (x : List Instr) : (s.withPending x).cams = s.cams := rfl
@[simp] theorem withPending_keep (s : State) (x : List Instr) : (s.withPending x).keep = s.keep := rfl
@[simp] theorem withPending_dram (s : State) (x : List Instr) : (s.withPending x).dram = s.dram := rfl
@[simp] theorem withPending_boot (s : State) (x : List Instr) : (s.withPending x).boot = s.boot := rfl
@[simp] theorem withPending_net (s : State) (x : List Instr) : (s.withPending x).net = s.net := rfl
@[simp] theorem withPending_thermal (s : State) (x : List Instr) : (s.withPending x).thermal = s.thermal := rfl
@[simp] theorem withPending_draws (s : State) (x : List Instr) : (s.withPending x).draws = s.draws := rfl
@[simp] theorem withDev_pending (s : State) (x : DevState) : (s.withDev x).pending = s.pending := rfl
@[simp] theorem withDev_dev (s : State) (x : DevState) : (s.withDev x).dev = x := rfl
@[simp] theorem withDev_fault (s : State) (x : DevState) : (s.withDev x).fault = s.fault := rfl
@[simp] theorem withDev_clk (s : State) (x : DevState) : (s.withDev x).clk = s.clk := rfl
@[simp] theorem withDev_host (s : State) (x : DevState) : (s.withDev x).host = s.host := rfl
@[simp] theorem withDev_regs (s : State) (x : DevState) : (s.withDev x).regs = s.regs := rfl
@[simp] theorem withDev_counters (s : State) (x : DevState) : (s.withDev x).counters = s.counters := rfl
@[simp] theorem withDev_log (s : State) (x : DevState) : (s.withDev x).log = s.log := rfl
@[simp] theorem withDev_trace (s : State) (x : DevState) : (s.withDev x).trace = s.trace := rfl
@[simp] theorem withDev_press (s : State) (x : DevState) : (s.withDev x).press = s.press := rfl
@[simp] theorem withDev_run (s : State) (x : DevState) : (s.withDev x).run = s.run := rfl
@[simp] theorem withDev_web (s : State) (x : DevState) : (s.withDev x).web = s.web := rfl
@[simp] theorem withDev_tables (s : State) (x : DevState) : (s.withDev x).tables = s.tables := rfl
@[simp] theorem withDev_store (s : State) (x : DevState) : (s.withDev x).store = s.store := rfl
@[simp] theorem withDev_path (s : State) (x : DevState) : (s.withDev x).path = s.path := rfl
@[simp] theorem withDev_link (s : State) (x : DevState) : (s.withDev x).link = s.link := rfl
@[simp] theorem withDev_cams (s : State) (x : DevState) : (s.withDev x).cams = s.cams := rfl
@[simp] theorem withDev_keep (s : State) (x : DevState) : (s.withDev x).keep = s.keep := rfl
@[simp] theorem withDev_dram (s : State) (x : DevState) : (s.withDev x).dram = s.dram := rfl
@[simp] theorem withDev_boot (s : State) (x : DevState) : (s.withDev x).boot = s.boot := rfl
@[simp] theorem withDev_net (s : State) (x : DevState) : (s.withDev x).net = s.net := rfl
@[simp] theorem withDev_thermal (s : State) (x : DevState) : (s.withDev x).thermal = s.thermal := rfl
@[simp] theorem withDev_draws (s : State) (x : DevState) : (s.withDev x).draws = s.draws := rfl
@[simp] theorem withFault_pending (s : State) (x : FaultCause) : (s.withFault x).pending = s.pending := rfl
@[simp] theorem withFault_dev (s : State) (x : FaultCause) : (s.withFault x).dev = s.dev := rfl
@[simp] theorem withFault_fault (s : State) (x : FaultCause) : (s.withFault x).fault = x := rfl
@[simp] theorem withFault_clk (s : State) (x : FaultCause) : (s.withFault x).clk = s.clk := rfl
@[simp] theorem withFault_host (s : State) (x : FaultCause) : (s.withFault x).host = s.host := rfl
@[simp] theorem withFault_regs (s : State) (x : FaultCause) : (s.withFault x).regs = s.regs := rfl
@[simp] theorem withFault_counters (s : State) (x : FaultCause) : (s.withFault x).counters = s.counters := rfl
@[simp] theorem withFault_log (s : State) (x : FaultCause) : (s.withFault x).log = s.log := rfl
@[simp] theorem withFault_trace (s : State) (x : FaultCause) : (s.withFault x).trace = s.trace := rfl
@[simp] theorem withFault_press (s : State) (x : FaultCause) : (s.withFault x).press = s.press := rfl
@[simp] theorem withFault_run (s : State) (x : FaultCause) : (s.withFault x).run = s.run := rfl
@[simp] theorem withFault_web (s : State) (x : FaultCause) : (s.withFault x).web = s.web := rfl
@[simp] theorem withFault_tables (s : State) (x : FaultCause) : (s.withFault x).tables = s.tables := rfl
@[simp] theorem withFault_store (s : State) (x : FaultCause) : (s.withFault x).store = s.store := rfl
@[simp] theorem withFault_path (s : State) (x : FaultCause) : (s.withFault x).path = s.path := rfl
@[simp] theorem withFault_link (s : State) (x : FaultCause) : (s.withFault x).link = s.link := rfl
@[simp] theorem withFault_cams (s : State) (x : FaultCause) : (s.withFault x).cams = s.cams := rfl
@[simp] theorem withFault_keep (s : State) (x : FaultCause) : (s.withFault x).keep = s.keep := rfl
@[simp] theorem withFault_dram (s : State) (x : FaultCause) : (s.withFault x).dram = s.dram := rfl
@[simp] theorem withFault_boot (s : State) (x : FaultCause) : (s.withFault x).boot = s.boot := rfl
@[simp] theorem withFault_net (s : State) (x : FaultCause) : (s.withFault x).net = s.net := rfl
@[simp] theorem withFault_thermal (s : State) (x : FaultCause) : (s.withFault x).thermal = s.thermal := rfl
@[simp] theorem withFault_draws (s : State) (x : FaultCause) : (s.withFault x).draws = s.draws := rfl
@[simp] theorem withClk_pending (s : State) (x : Clk) : (s.withClk x).pending = s.pending := rfl
@[simp] theorem withClk_dev (s : State) (x : Clk) : (s.withClk x).dev = s.dev := rfl
@[simp] theorem withClk_fault (s : State) (x : Clk) : (s.withClk x).fault = s.fault := rfl
@[simp] theorem withClk_clk (s : State) (x : Clk) : (s.withClk x).clk = x := rfl
@[simp] theorem withClk_host (s : State) (x : Clk) : (s.withClk x).host = s.host := rfl
@[simp] theorem withClk_regs (s : State) (x : Clk) : (s.withClk x).regs = s.regs := rfl
@[simp] theorem withClk_counters (s : State) (x : Clk) : (s.withClk x).counters = s.counters := rfl
@[simp] theorem withClk_log (s : State) (x : Clk) : (s.withClk x).log = s.log := rfl
@[simp] theorem withClk_trace (s : State) (x : Clk) : (s.withClk x).trace = s.trace := rfl
@[simp] theorem withClk_press (s : State) (x : Clk) : (s.withClk x).press = s.press := rfl
@[simp] theorem withClk_run (s : State) (x : Clk) : (s.withClk x).run = s.run := rfl
@[simp] theorem withClk_web (s : State) (x : Clk) : (s.withClk x).web = s.web := rfl
@[simp] theorem withClk_tables (s : State) (x : Clk) : (s.withClk x).tables = s.tables := rfl
@[simp] theorem withClk_store (s : State) (x : Clk) : (s.withClk x).store = s.store := rfl
@[simp] theorem withClk_path (s : State) (x : Clk) : (s.withClk x).path = s.path := rfl
@[simp] theorem withClk_link (s : State) (x : Clk) : (s.withClk x).link = s.link := rfl
@[simp] theorem withClk_cams (s : State) (x : Clk) : (s.withClk x).cams = s.cams := rfl
@[simp] theorem withClk_keep (s : State) (x : Clk) : (s.withClk x).keep = s.keep := rfl
@[simp] theorem withClk_dram (s : State) (x : Clk) : (s.withClk x).dram = s.dram := rfl
@[simp] theorem withClk_boot (s : State) (x : Clk) : (s.withClk x).boot = s.boot := rfl
@[simp] theorem withClk_net (s : State) (x : Clk) : (s.withClk x).net = s.net := rfl
@[simp] theorem withClk_thermal (s : State) (x : Clk) : (s.withClk x).thermal = s.thermal := rfl
@[simp] theorem withClk_draws (s : State) (x : Clk) : (s.withClk x).draws = s.draws := rfl
@[simp] theorem withHost_pending (s : State) (x : HostIf) : (s.withHost x).pending = s.pending := rfl
@[simp] theorem withHost_dev (s : State) (x : HostIf) : (s.withHost x).dev = s.dev := rfl
@[simp] theorem withHost_fault (s : State) (x : HostIf) : (s.withHost x).fault = s.fault := rfl
@[simp] theorem withHost_clk (s : State) (x : HostIf) : (s.withHost x).clk = s.clk := rfl
@[simp] theorem withHost_host (s : State) (x : HostIf) : (s.withHost x).host = x := rfl
@[simp] theorem withHost_regs (s : State) (x : HostIf) : (s.withHost x).regs = s.regs := rfl
@[simp] theorem withHost_counters (s : State) (x : HostIf) : (s.withHost x).counters = s.counters := rfl
@[simp] theorem withHost_log (s : State) (x : HostIf) : (s.withHost x).log = s.log := rfl
@[simp] theorem withHost_trace (s : State) (x : HostIf) : (s.withHost x).trace = s.trace := rfl
@[simp] theorem withHost_press (s : State) (x : HostIf) : (s.withHost x).press = s.press := rfl
@[simp] theorem withHost_run (s : State) (x : HostIf) : (s.withHost x).run = s.run := rfl
@[simp] theorem withHost_web (s : State) (x : HostIf) : (s.withHost x).web = s.web := rfl
@[simp] theorem withHost_tables (s : State) (x : HostIf) : (s.withHost x).tables = s.tables := rfl
@[simp] theorem withHost_store (s : State) (x : HostIf) : (s.withHost x).store = s.store := rfl
@[simp] theorem withHost_path (s : State) (x : HostIf) : (s.withHost x).path = s.path := rfl
@[simp] theorem withHost_link (s : State) (x : HostIf) : (s.withHost x).link = s.link := rfl
@[simp] theorem withHost_cams (s : State) (x : HostIf) : (s.withHost x).cams = s.cams := rfl
@[simp] theorem withHost_keep (s : State) (x : HostIf) : (s.withHost x).keep = s.keep := rfl
@[simp] theorem withHost_dram (s : State) (x : HostIf) : (s.withHost x).dram = s.dram := rfl
@[simp] theorem withHost_boot (s : State) (x : HostIf) : (s.withHost x).boot = s.boot := rfl
@[simp] theorem withHost_net (s : State) (x : HostIf) : (s.withHost x).net = s.net := rfl
@[simp] theorem withHost_thermal (s : State) (x : HostIf) : (s.withHost x).thermal = s.thermal := rfl
@[simp] theorem withHost_draws (s : State) (x : HostIf) : (s.withHost x).draws = s.draws := rfl
@[simp] theorem withRegs_pending (s : State) (x : RegWindow) : (s.withRegs x).pending = s.pending := rfl
@[simp] theorem withRegs_dev (s : State) (x : RegWindow) : (s.withRegs x).dev = s.dev := rfl
@[simp] theorem withRegs_fault (s : State) (x : RegWindow) : (s.withRegs x).fault = s.fault := rfl
@[simp] theorem withRegs_clk (s : State) (x : RegWindow) : (s.withRegs x).clk = s.clk := rfl
@[simp] theorem withRegs_host (s : State) (x : RegWindow) : (s.withRegs x).host = s.host := rfl
@[simp] theorem withRegs_regs (s : State) (x : RegWindow) : (s.withRegs x).regs = x := rfl
@[simp] theorem withRegs_counters (s : State) (x : RegWindow) : (s.withRegs x).counters = s.counters := rfl
@[simp] theorem withRegs_log (s : State) (x : RegWindow) : (s.withRegs x).log = s.log := rfl
@[simp] theorem withRegs_trace (s : State) (x : RegWindow) : (s.withRegs x).trace = s.trace := rfl
@[simp] theorem withRegs_press (s : State) (x : RegWindow) : (s.withRegs x).press = s.press := rfl
@[simp] theorem withRegs_run (s : State) (x : RegWindow) : (s.withRegs x).run = s.run := rfl
@[simp] theorem withRegs_web (s : State) (x : RegWindow) : (s.withRegs x).web = s.web := rfl
@[simp] theorem withRegs_tables (s : State) (x : RegWindow) : (s.withRegs x).tables = s.tables := rfl
@[simp] theorem withRegs_store (s : State) (x : RegWindow) : (s.withRegs x).store = s.store := rfl
@[simp] theorem withRegs_path (s : State) (x : RegWindow) : (s.withRegs x).path = s.path := rfl
@[simp] theorem withRegs_link (s : State) (x : RegWindow) : (s.withRegs x).link = s.link := rfl
@[simp] theorem withRegs_cams (s : State) (x : RegWindow) : (s.withRegs x).cams = s.cams := rfl
@[simp] theorem withRegs_keep (s : State) (x : RegWindow) : (s.withRegs x).keep = s.keep := rfl
@[simp] theorem withRegs_dram (s : State) (x : RegWindow) : (s.withRegs x).dram = s.dram := rfl
@[simp] theorem withRegs_boot (s : State) (x : RegWindow) : (s.withRegs x).boot = s.boot := rfl
@[simp] theorem withRegs_net (s : State) (x : RegWindow) : (s.withRegs x).net = s.net := rfl
@[simp] theorem withRegs_thermal (s : State) (x : RegWindow) : (s.withRegs x).thermal = s.thermal := rfl
@[simp] theorem withRegs_draws (s : State) (x : RegWindow) : (s.withRegs x).draws = s.draws := rfl
@[simp] theorem withCounters_pending (s : State) (x : Tab Nat) : (s.withCounters x).pending = s.pending := rfl
@[simp] theorem withCounters_dev (s : State) (x : Tab Nat) : (s.withCounters x).dev = s.dev := rfl
@[simp] theorem withCounters_fault (s : State) (x : Tab Nat) : (s.withCounters x).fault = s.fault := rfl
@[simp] theorem withCounters_clk (s : State) (x : Tab Nat) : (s.withCounters x).clk = s.clk := rfl
@[simp] theorem withCounters_host (s : State) (x : Tab Nat) : (s.withCounters x).host = s.host := rfl
@[simp] theorem withCounters_regs (s : State) (x : Tab Nat) : (s.withCounters x).regs = s.regs := rfl
@[simp] theorem withCounters_counters (s : State) (x : Tab Nat) : (s.withCounters x).counters = x := rfl
@[simp] theorem withCounters_log (s : State) (x : Tab Nat) : (s.withCounters x).log = s.log := rfl
@[simp] theorem withCounters_trace (s : State) (x : Tab Nat) : (s.withCounters x).trace = s.trace := rfl
@[simp] theorem withCounters_press (s : State) (x : Tab Nat) : (s.withCounters x).press = s.press := rfl
@[simp] theorem withCounters_run (s : State) (x : Tab Nat) : (s.withCounters x).run = s.run := rfl
@[simp] theorem withCounters_web (s : State) (x : Tab Nat) : (s.withCounters x).web = s.web := rfl
@[simp] theorem withCounters_tables (s : State) (x : Tab Nat) : (s.withCounters x).tables = s.tables := rfl
@[simp] theorem withCounters_store (s : State) (x : Tab Nat) : (s.withCounters x).store = s.store := rfl
@[simp] theorem withCounters_path (s : State) (x : Tab Nat) : (s.withCounters x).path = s.path := rfl
@[simp] theorem withCounters_link (s : State) (x : Tab Nat) : (s.withCounters x).link = s.link := rfl
@[simp] theorem withCounters_cams (s : State) (x : Tab Nat) : (s.withCounters x).cams = s.cams := rfl
@[simp] theorem withCounters_keep (s : State) (x : Tab Nat) : (s.withCounters x).keep = s.keep := rfl
@[simp] theorem withCounters_dram (s : State) (x : Tab Nat) : (s.withCounters x).dram = s.dram := rfl
@[simp] theorem withCounters_boot (s : State) (x : Tab Nat) : (s.withCounters x).boot = s.boot := rfl
@[simp] theorem withCounters_net (s : State) (x : Tab Nat) : (s.withCounters x).net = s.net := rfl
@[simp] theorem withCounters_thermal (s : State) (x : Tab Nat) : (s.withCounters x).thermal = s.thermal := rfl
@[simp] theorem withCounters_draws (s : State) (x : Tab Nat) : (s.withCounters x).draws = s.draws := rfl
@[simp] theorem withLog_pending (s : State) (x : LogUnit) : (s.withLog x).pending = s.pending := rfl
@[simp] theorem withLog_dev (s : State) (x : LogUnit) : (s.withLog x).dev = s.dev := rfl
@[simp] theorem withLog_fault (s : State) (x : LogUnit) : (s.withLog x).fault = s.fault := rfl
@[simp] theorem withLog_clk (s : State) (x : LogUnit) : (s.withLog x).clk = s.clk := rfl
@[simp] theorem withLog_host (s : State) (x : LogUnit) : (s.withLog x).host = s.host := rfl
@[simp] theorem withLog_regs (s : State) (x : LogUnit) : (s.withLog x).regs = s.regs := rfl
@[simp] theorem withLog_counters (s : State) (x : LogUnit) : (s.withLog x).counters = s.counters := rfl
@[simp] theorem withLog_log (s : State) (x : LogUnit) : (s.withLog x).log = x := rfl
@[simp] theorem withLog_trace (s : State) (x : LogUnit) : (s.withLog x).trace = s.trace := rfl
@[simp] theorem withLog_press (s : State) (x : LogUnit) : (s.withLog x).press = s.press := rfl
@[simp] theorem withLog_run (s : State) (x : LogUnit) : (s.withLog x).run = s.run := rfl
@[simp] theorem withLog_web (s : State) (x : LogUnit) : (s.withLog x).web = s.web := rfl
@[simp] theorem withLog_tables (s : State) (x : LogUnit) : (s.withLog x).tables = s.tables := rfl
@[simp] theorem withLog_store (s : State) (x : LogUnit) : (s.withLog x).store = s.store := rfl
@[simp] theorem withLog_path (s : State) (x : LogUnit) : (s.withLog x).path = s.path := rfl
@[simp] theorem withLog_link (s : State) (x : LogUnit) : (s.withLog x).link = s.link := rfl
@[simp] theorem withLog_cams (s : State) (x : LogUnit) : (s.withLog x).cams = s.cams := rfl
@[simp] theorem withLog_keep (s : State) (x : LogUnit) : (s.withLog x).keep = s.keep := rfl
@[simp] theorem withLog_dram (s : State) (x : LogUnit) : (s.withLog x).dram = s.dram := rfl
@[simp] theorem withLog_boot (s : State) (x : LogUnit) : (s.withLog x).boot = s.boot := rfl
@[simp] theorem withLog_net (s : State) (x : LogUnit) : (s.withLog x).net = s.net := rfl
@[simp] theorem withLog_thermal (s : State) (x : LogUnit) : (s.withLog x).thermal = s.thermal := rfl
@[simp] theorem withLog_draws (s : State) (x : LogUnit) : (s.withLog x).draws = s.draws := rfl
@[simp] theorem withTrace_pending (s : State) (x : Trace) : (s.withTrace x).pending = s.pending := rfl
@[simp] theorem withTrace_dev (s : State) (x : Trace) : (s.withTrace x).dev = s.dev := rfl
@[simp] theorem withTrace_fault (s : State) (x : Trace) : (s.withTrace x).fault = s.fault := rfl
@[simp] theorem withTrace_clk (s : State) (x : Trace) : (s.withTrace x).clk = s.clk := rfl
@[simp] theorem withTrace_host (s : State) (x : Trace) : (s.withTrace x).host = s.host := rfl
@[simp] theorem withTrace_regs (s : State) (x : Trace) : (s.withTrace x).regs = s.regs := rfl
@[simp] theorem withTrace_counters (s : State) (x : Trace) : (s.withTrace x).counters = s.counters := rfl
@[simp] theorem withTrace_log (s : State) (x : Trace) : (s.withTrace x).log = s.log := rfl
@[simp] theorem withTrace_trace (s : State) (x : Trace) : (s.withTrace x).trace = x := rfl
@[simp] theorem withTrace_press (s : State) (x : Trace) : (s.withTrace x).press = s.press := rfl
@[simp] theorem withTrace_run (s : State) (x : Trace) : (s.withTrace x).run = s.run := rfl
@[simp] theorem withTrace_web (s : State) (x : Trace) : (s.withTrace x).web = s.web := rfl
@[simp] theorem withTrace_tables (s : State) (x : Trace) : (s.withTrace x).tables = s.tables := rfl
@[simp] theorem withTrace_store (s : State) (x : Trace) : (s.withTrace x).store = s.store := rfl
@[simp] theorem withTrace_path (s : State) (x : Trace) : (s.withTrace x).path = s.path := rfl
@[simp] theorem withTrace_link (s : State) (x : Trace) : (s.withTrace x).link = s.link := rfl
@[simp] theorem withTrace_cams (s : State) (x : Trace) : (s.withTrace x).cams = s.cams := rfl
@[simp] theorem withTrace_keep (s : State) (x : Trace) : (s.withTrace x).keep = s.keep := rfl
@[simp] theorem withTrace_dram (s : State) (x : Trace) : (s.withTrace x).dram = s.dram := rfl
@[simp] theorem withTrace_boot (s : State) (x : Trace) : (s.withTrace x).boot = s.boot := rfl
@[simp] theorem withTrace_net (s : State) (x : Trace) : (s.withTrace x).net = s.net := rfl
@[simp] theorem withTrace_thermal (s : State) (x : Trace) : (s.withTrace x).thermal = s.thermal := rfl
@[simp] theorem withTrace_draws (s : State) (x : Trace) : (s.withTrace x).draws = s.draws := rfl
@[simp] theorem withPress_pending (s : State) (x : Option Press) : (s.withPress x).pending = s.pending := rfl
@[simp] theorem withPress_dev (s : State) (x : Option Press) : (s.withPress x).dev = s.dev := rfl
@[simp] theorem withPress_fault (s : State) (x : Option Press) : (s.withPress x).fault = s.fault := rfl
@[simp] theorem withPress_clk (s : State) (x : Option Press) : (s.withPress x).clk = s.clk := rfl
@[simp] theorem withPress_host (s : State) (x : Option Press) : (s.withPress x).host = s.host := rfl
@[simp] theorem withPress_regs (s : State) (x : Option Press) : (s.withPress x).regs = s.regs := rfl
@[simp] theorem withPress_counters (s : State) (x : Option Press) : (s.withPress x).counters = s.counters := rfl
@[simp] theorem withPress_log (s : State) (x : Option Press) : (s.withPress x).log = s.log := rfl
@[simp] theorem withPress_trace (s : State) (x : Option Press) : (s.withPress x).trace = s.trace := rfl
@[simp] theorem withPress_press (s : State) (x : Option Press) : (s.withPress x).press = x := rfl
@[simp] theorem withPress_run (s : State) (x : Option Press) : (s.withPress x).run = s.run := rfl
@[simp] theorem withPress_web (s : State) (x : Option Press) : (s.withPress x).web = s.web := rfl
@[simp] theorem withPress_tables (s : State) (x : Option Press) : (s.withPress x).tables = s.tables := rfl
@[simp] theorem withPress_store (s : State) (x : Option Press) : (s.withPress x).store = s.store := rfl
@[simp] theorem withPress_path (s : State) (x : Option Press) : (s.withPress x).path = s.path := rfl
@[simp] theorem withPress_link (s : State) (x : Option Press) : (s.withPress x).link = s.link := rfl
@[simp] theorem withPress_cams (s : State) (x : Option Press) : (s.withPress x).cams = s.cams := rfl
@[simp] theorem withPress_keep (s : State) (x : Option Press) : (s.withPress x).keep = s.keep := rfl
@[simp] theorem withPress_dram (s : State) (x : Option Press) : (s.withPress x).dram = s.dram := rfl
@[simp] theorem withPress_boot (s : State) (x : Option Press) : (s.withPress x).boot = s.boot := rfl
@[simp] theorem withPress_net (s : State) (x : Option Press) : (s.withPress x).net = s.net := rfl
@[simp] theorem withPress_thermal (s : State) (x : Option Press) : (s.withPress x).thermal = s.thermal := rfl
@[simp] theorem withPress_draws (s : State) (x : Option Press) : (s.withPress x).draws = s.draws := rfl
@[simp] theorem withRun_pending (s : State) (x : Run) : (s.withRun x).pending = s.pending := rfl
@[simp] theorem withRun_dev (s : State) (x : Run) : (s.withRun x).dev = s.dev := rfl
@[simp] theorem withRun_fault (s : State) (x : Run) : (s.withRun x).fault = s.fault := rfl
@[simp] theorem withRun_clk (s : State) (x : Run) : (s.withRun x).clk = s.clk := rfl
@[simp] theorem withRun_host (s : State) (x : Run) : (s.withRun x).host = s.host := rfl
@[simp] theorem withRun_regs (s : State) (x : Run) : (s.withRun x).regs = s.regs := rfl
@[simp] theorem withRun_counters (s : State) (x : Run) : (s.withRun x).counters = s.counters := rfl
@[simp] theorem withRun_log (s : State) (x : Run) : (s.withRun x).log = s.log := rfl
@[simp] theorem withRun_trace (s : State) (x : Run) : (s.withRun x).trace = s.trace := rfl
@[simp] theorem withRun_press (s : State) (x : Run) : (s.withRun x).press = s.press := rfl
@[simp] theorem withRun_run (s : State) (x : Run) : (s.withRun x).run = x := rfl
@[simp] theorem withRun_web (s : State) (x : Run) : (s.withRun x).web = s.web := rfl
@[simp] theorem withRun_tables (s : State) (x : Run) : (s.withRun x).tables = s.tables := rfl
@[simp] theorem withRun_store (s : State) (x : Run) : (s.withRun x).store = s.store := rfl
@[simp] theorem withRun_path (s : State) (x : Run) : (s.withRun x).path = s.path := rfl
@[simp] theorem withRun_link (s : State) (x : Run) : (s.withRun x).link = s.link := rfl
@[simp] theorem withRun_cams (s : State) (x : Run) : (s.withRun x).cams = s.cams := rfl
@[simp] theorem withRun_keep (s : State) (x : Run) : (s.withRun x).keep = s.keep := rfl
@[simp] theorem withRun_dram (s : State) (x : Run) : (s.withRun x).dram = s.dram := rfl
@[simp] theorem withRun_boot (s : State) (x : Run) : (s.withRun x).boot = s.boot := rfl
@[simp] theorem withRun_net (s : State) (x : Run) : (s.withRun x).net = s.net := rfl
@[simp] theorem withRun_thermal (s : State) (x : Run) : (s.withRun x).thermal = s.thermal := rfl
@[simp] theorem withRun_draws (s : State) (x : Run) : (s.withRun x).draws = s.draws := rfl
@[simp] theorem withWeb_pending (s : State) (x : Web) : (s.withWeb x).pending = s.pending := rfl
@[simp] theorem withWeb_dev (s : State) (x : Web) : (s.withWeb x).dev = s.dev := rfl
@[simp] theorem withWeb_fault (s : State) (x : Web) : (s.withWeb x).fault = s.fault := rfl
@[simp] theorem withWeb_clk (s : State) (x : Web) : (s.withWeb x).clk = s.clk := rfl
@[simp] theorem withWeb_host (s : State) (x : Web) : (s.withWeb x).host = s.host := rfl
@[simp] theorem withWeb_regs (s : State) (x : Web) : (s.withWeb x).regs = s.regs := rfl
@[simp] theorem withWeb_counters (s : State) (x : Web) : (s.withWeb x).counters = s.counters := rfl
@[simp] theorem withWeb_log (s : State) (x : Web) : (s.withWeb x).log = s.log := rfl
@[simp] theorem withWeb_trace (s : State) (x : Web) : (s.withWeb x).trace = s.trace := rfl
@[simp] theorem withWeb_press (s : State) (x : Web) : (s.withWeb x).press = s.press := rfl
@[simp] theorem withWeb_run (s : State) (x : Web) : (s.withWeb x).run = s.run := rfl
@[simp] theorem withWeb_web (s : State) (x : Web) : (s.withWeb x).web = x := rfl
@[simp] theorem withWeb_tables (s : State) (x : Web) : (s.withWeb x).tables = s.tables := rfl
@[simp] theorem withWeb_store (s : State) (x : Web) : (s.withWeb x).store = s.store := rfl
@[simp] theorem withWeb_path (s : State) (x : Web) : (s.withWeb x).path = s.path := rfl
@[simp] theorem withWeb_link (s : State) (x : Web) : (s.withWeb x).link = s.link := rfl
@[simp] theorem withWeb_cams (s : State) (x : Web) : (s.withWeb x).cams = s.cams := rfl
@[simp] theorem withWeb_keep (s : State) (x : Web) : (s.withWeb x).keep = s.keep := rfl
@[simp] theorem withWeb_dram (s : State) (x : Web) : (s.withWeb x).dram = s.dram := rfl
@[simp] theorem withWeb_boot (s : State) (x : Web) : (s.withWeb x).boot = s.boot := rfl
@[simp] theorem withWeb_net (s : State) (x : Web) : (s.withWeb x).net = s.net := rfl
@[simp] theorem withWeb_thermal (s : State) (x : Web) : (s.withWeb x).thermal = s.thermal := rfl
@[simp] theorem withWeb_draws (s : State) (x : Web) : (s.withWeb x).draws = s.draws := rfl
@[simp] theorem withTables_pending (s : State) (x : Tables) : (s.withTables x).pending = s.pending := rfl
@[simp] theorem withTables_dev (s : State) (x : Tables) : (s.withTables x).dev = s.dev := rfl
@[simp] theorem withTables_fault (s : State) (x : Tables) : (s.withTables x).fault = s.fault := rfl
@[simp] theorem withTables_clk (s : State) (x : Tables) : (s.withTables x).clk = s.clk := rfl
@[simp] theorem withTables_host (s : State) (x : Tables) : (s.withTables x).host = s.host := rfl
@[simp] theorem withTables_regs (s : State) (x : Tables) : (s.withTables x).regs = s.regs := rfl
@[simp] theorem withTables_counters (s : State) (x : Tables) : (s.withTables x).counters = s.counters := rfl
@[simp] theorem withTables_log (s : State) (x : Tables) : (s.withTables x).log = s.log := rfl
@[simp] theorem withTables_trace (s : State) (x : Tables) : (s.withTables x).trace = s.trace := rfl
@[simp] theorem withTables_press (s : State) (x : Tables) : (s.withTables x).press = s.press := rfl
@[simp] theorem withTables_run (s : State) (x : Tables) : (s.withTables x).run = s.run := rfl
@[simp] theorem withTables_web (s : State) (x : Tables) : (s.withTables x).web = s.web := rfl
@[simp] theorem withTables_tables (s : State) (x : Tables) : (s.withTables x).tables = x := rfl
@[simp] theorem withTables_store (s : State) (x : Tables) : (s.withTables x).store = s.store := rfl
@[simp] theorem withTables_path (s : State) (x : Tables) : (s.withTables x).path = s.path := rfl
@[simp] theorem withTables_link (s : State) (x : Tables) : (s.withTables x).link = s.link := rfl
@[simp] theorem withTables_cams (s : State) (x : Tables) : (s.withTables x).cams = s.cams := rfl
@[simp] theorem withTables_keep (s : State) (x : Tables) : (s.withTables x).keep = s.keep := rfl
@[simp] theorem withTables_dram (s : State) (x : Tables) : (s.withTables x).dram = s.dram := rfl
@[simp] theorem withTables_boot (s : State) (x : Tables) : (s.withTables x).boot = s.boot := rfl
@[simp] theorem withTables_net (s : State) (x : Tables) : (s.withTables x).net = s.net := rfl
@[simp] theorem withTables_thermal (s : State) (x : Tables) : (s.withTables x).thermal = s.thermal := rfl
@[simp] theorem withTables_draws (s : State) (x : Tables) : (s.withTables x).draws = s.draws := rfl
@[simp] theorem withStore_pending (s : State) (x : Store) : (s.withStore x).pending = s.pending := rfl
@[simp] theorem withStore_dev (s : State) (x : Store) : (s.withStore x).dev = s.dev := rfl
@[simp] theorem withStore_fault (s : State) (x : Store) : (s.withStore x).fault = s.fault := rfl
@[simp] theorem withStore_clk (s : State) (x : Store) : (s.withStore x).clk = s.clk := rfl
@[simp] theorem withStore_host (s : State) (x : Store) : (s.withStore x).host = s.host := rfl
@[simp] theorem withStore_regs (s : State) (x : Store) : (s.withStore x).regs = s.regs := rfl
@[simp] theorem withStore_counters (s : State) (x : Store) : (s.withStore x).counters = s.counters := rfl
@[simp] theorem withStore_log (s : State) (x : Store) : (s.withStore x).log = s.log := rfl
@[simp] theorem withStore_trace (s : State) (x : Store) : (s.withStore x).trace = s.trace := rfl
@[simp] theorem withStore_press (s : State) (x : Store) : (s.withStore x).press = s.press := rfl
@[simp] theorem withStore_run (s : State) (x : Store) : (s.withStore x).run = s.run := rfl
@[simp] theorem withStore_web (s : State) (x : Store) : (s.withStore x).web = s.web := rfl
@[simp] theorem withStore_tables (s : State) (x : Store) : (s.withStore x).tables = s.tables := rfl
@[simp] theorem withStore_store (s : State) (x : Store) : (s.withStore x).store = x := rfl
@[simp] theorem withStore_path (s : State) (x : Store) : (s.withStore x).path = s.path := rfl
@[simp] theorem withStore_link (s : State) (x : Store) : (s.withStore x).link = s.link := rfl
@[simp] theorem withStore_cams (s : State) (x : Store) : (s.withStore x).cams = s.cams := rfl
@[simp] theorem withStore_keep (s : State) (x : Store) : (s.withStore x).keep = s.keep := rfl
@[simp] theorem withStore_dram (s : State) (x : Store) : (s.withStore x).dram = s.dram := rfl
@[simp] theorem withStore_boot (s : State) (x : Store) : (s.withStore x).boot = s.boot := rfl
@[simp] theorem withStore_net (s : State) (x : Store) : (s.withStore x).net = s.net := rfl
@[simp] theorem withStore_thermal (s : State) (x : Store) : (s.withStore x).thermal = s.thermal := rfl
@[simp] theorem withStore_draws (s : State) (x : Store) : (s.withStore x).draws = s.draws := rfl
@[simp] theorem withPath_pending (s : State) (x : PrintPath) : (s.withPath x).pending = s.pending := rfl
@[simp] theorem withPath_dev (s : State) (x : PrintPath) : (s.withPath x).dev = s.dev := rfl
@[simp] theorem withPath_fault (s : State) (x : PrintPath) : (s.withPath x).fault = s.fault := rfl
@[simp] theorem withPath_clk (s : State) (x : PrintPath) : (s.withPath x).clk = s.clk := rfl
@[simp] theorem withPath_host (s : State) (x : PrintPath) : (s.withPath x).host = s.host := rfl
@[simp] theorem withPath_regs (s : State) (x : PrintPath) : (s.withPath x).regs = s.regs := rfl
@[simp] theorem withPath_counters (s : State) (x : PrintPath) : (s.withPath x).counters = s.counters := rfl
@[simp] theorem withPath_log (s : State) (x : PrintPath) : (s.withPath x).log = s.log := rfl
@[simp] theorem withPath_trace (s : State) (x : PrintPath) : (s.withPath x).trace = s.trace := rfl
@[simp] theorem withPath_press (s : State) (x : PrintPath) : (s.withPath x).press = s.press := rfl
@[simp] theorem withPath_run (s : State) (x : PrintPath) : (s.withPath x).run = s.run := rfl
@[simp] theorem withPath_web (s : State) (x : PrintPath) : (s.withPath x).web = s.web := rfl
@[simp] theorem withPath_tables (s : State) (x : PrintPath) : (s.withPath x).tables = s.tables := rfl
@[simp] theorem withPath_store (s : State) (x : PrintPath) : (s.withPath x).store = s.store := rfl
@[simp] theorem withPath_path (s : State) (x : PrintPath) : (s.withPath x).path = x := rfl
@[simp] theorem withPath_link (s : State) (x : PrintPath) : (s.withPath x).link = s.link := rfl
@[simp] theorem withPath_cams (s : State) (x : PrintPath) : (s.withPath x).cams = s.cams := rfl
@[simp] theorem withPath_keep (s : State) (x : PrintPath) : (s.withPath x).keep = s.keep := rfl
@[simp] theorem withPath_dram (s : State) (x : PrintPath) : (s.withPath x).dram = s.dram := rfl
@[simp] theorem withPath_boot (s : State) (x : PrintPath) : (s.withPath x).boot = s.boot := rfl
@[simp] theorem withPath_net (s : State) (x : PrintPath) : (s.withPath x).net = s.net := rfl
@[simp] theorem withPath_thermal (s : State) (x : PrintPath) : (s.withPath x).thermal = s.thermal := rfl
@[simp] theorem withPath_draws (s : State) (x : PrintPath) : (s.withPath x).draws = s.draws := rfl
@[simp] theorem withLink_pending (s : State) (x : Link) : (s.withLink x).pending = s.pending := rfl
@[simp] theorem withLink_dev (s : State) (x : Link) : (s.withLink x).dev = s.dev := rfl
@[simp] theorem withLink_fault (s : State) (x : Link) : (s.withLink x).fault = s.fault := rfl
@[simp] theorem withLink_clk (s : State) (x : Link) : (s.withLink x).clk = s.clk := rfl
@[simp] theorem withLink_host (s : State) (x : Link) : (s.withLink x).host = s.host := rfl
@[simp] theorem withLink_regs (s : State) (x : Link) : (s.withLink x).regs = s.regs := rfl
@[simp] theorem withLink_counters (s : State) (x : Link) : (s.withLink x).counters = s.counters := rfl
@[simp] theorem withLink_log (s : State) (x : Link) : (s.withLink x).log = s.log := rfl
@[simp] theorem withLink_trace (s : State) (x : Link) : (s.withLink x).trace = s.trace := rfl
@[simp] theorem withLink_press (s : State) (x : Link) : (s.withLink x).press = s.press := rfl
@[simp] theorem withLink_run (s : State) (x : Link) : (s.withLink x).run = s.run := rfl
@[simp] theorem withLink_web (s : State) (x : Link) : (s.withLink x).web = s.web := rfl
@[simp] theorem withLink_tables (s : State) (x : Link) : (s.withLink x).tables = s.tables := rfl
@[simp] theorem withLink_store (s : State) (x : Link) : (s.withLink x).store = s.store := rfl
@[simp] theorem withLink_path (s : State) (x : Link) : (s.withLink x).path = s.path := rfl
@[simp] theorem withLink_link (s : State) (x : Link) : (s.withLink x).link = x := rfl
@[simp] theorem withLink_cams (s : State) (x : Link) : (s.withLink x).cams = s.cams := rfl
@[simp] theorem withLink_keep (s : State) (x : Link) : (s.withLink x).keep = s.keep := rfl
@[simp] theorem withLink_dram (s : State) (x : Link) : (s.withLink x).dram = s.dram := rfl
@[simp] theorem withLink_boot (s : State) (x : Link) : (s.withLink x).boot = s.boot := rfl
@[simp] theorem withLink_net (s : State) (x : Link) : (s.withLink x).net = s.net := rfl
@[simp] theorem withLink_thermal (s : State) (x : Link) : (s.withLink x).thermal = s.thermal := rfl
@[simp] theorem withLink_draws (s : State) (x : Link) : (s.withLink x).draws = s.draws := rfl
@[simp] theorem withCams_pending (s : State) (x : Tab CamPort) : (s.withCams x).pending = s.pending := rfl
@[simp] theorem withCams_dev (s : State) (x : Tab CamPort) : (s.withCams x).dev = s.dev := rfl
@[simp] theorem withCams_fault (s : State) (x : Tab CamPort) : (s.withCams x).fault = s.fault := rfl
@[simp] theorem withCams_clk (s : State) (x : Tab CamPort) : (s.withCams x).clk = s.clk := rfl
@[simp] theorem withCams_host (s : State) (x : Tab CamPort) : (s.withCams x).host = s.host := rfl
@[simp] theorem withCams_regs (s : State) (x : Tab CamPort) : (s.withCams x).regs = s.regs := rfl
@[simp] theorem withCams_counters (s : State) (x : Tab CamPort) : (s.withCams x).counters = s.counters := rfl
@[simp] theorem withCams_log (s : State) (x : Tab CamPort) : (s.withCams x).log = s.log := rfl
@[simp] theorem withCams_trace (s : State) (x : Tab CamPort) : (s.withCams x).trace = s.trace := rfl
@[simp] theorem withCams_press (s : State) (x : Tab CamPort) : (s.withCams x).press = s.press := rfl
@[simp] theorem withCams_run (s : State) (x : Tab CamPort) : (s.withCams x).run = s.run := rfl
@[simp] theorem withCams_web (s : State) (x : Tab CamPort) : (s.withCams x).web = s.web := rfl
@[simp] theorem withCams_tables (s : State) (x : Tab CamPort) : (s.withCams x).tables = s.tables := rfl
@[simp] theorem withCams_store (s : State) (x : Tab CamPort) : (s.withCams x).store = s.store := rfl
@[simp] theorem withCams_path (s : State) (x : Tab CamPort) : (s.withCams x).path = s.path := rfl
@[simp] theorem withCams_link (s : State) (x : Tab CamPort) : (s.withCams x).link = s.link := rfl
@[simp] theorem withCams_cams (s : State) (x : Tab CamPort) : (s.withCams x).cams = x := rfl
@[simp] theorem withCams_keep (s : State) (x : Tab CamPort) : (s.withCams x).keep = s.keep := rfl
@[simp] theorem withCams_dram (s : State) (x : Tab CamPort) : (s.withCams x).dram = s.dram := rfl
@[simp] theorem withCams_boot (s : State) (x : Tab CamPort) : (s.withCams x).boot = s.boot := rfl
@[simp] theorem withCams_net (s : State) (x : Tab CamPort) : (s.withCams x).net = s.net := rfl
@[simp] theorem withCams_thermal (s : State) (x : Tab CamPort) : (s.withCams x).thermal = s.thermal := rfl
@[simp] theorem withCams_draws (s : State) (x : Tab CamPort) : (s.withCams x).draws = s.draws := rfl
@[simp] theorem withKeep_pending (s : State) (x : Keeping) : (s.withKeep x).pending = s.pending := rfl
@[simp] theorem withKeep_dev (s : State) (x : Keeping) : (s.withKeep x).dev = s.dev := rfl
@[simp] theorem withKeep_fault (s : State) (x : Keeping) : (s.withKeep x).fault = s.fault := rfl
@[simp] theorem withKeep_clk (s : State) (x : Keeping) : (s.withKeep x).clk = s.clk := rfl
@[simp] theorem withKeep_host (s : State) (x : Keeping) : (s.withKeep x).host = s.host := rfl
@[simp] theorem withKeep_regs (s : State) (x : Keeping) : (s.withKeep x).regs = s.regs := rfl
@[simp] theorem withKeep_counters (s : State) (x : Keeping) : (s.withKeep x).counters = s.counters := rfl
@[simp] theorem withKeep_log (s : State) (x : Keeping) : (s.withKeep x).log = s.log := rfl
@[simp] theorem withKeep_trace (s : State) (x : Keeping) : (s.withKeep x).trace = s.trace := rfl
@[simp] theorem withKeep_press (s : State) (x : Keeping) : (s.withKeep x).press = s.press := rfl
@[simp] theorem withKeep_run (s : State) (x : Keeping) : (s.withKeep x).run = s.run := rfl
@[simp] theorem withKeep_web (s : State) (x : Keeping) : (s.withKeep x).web = s.web := rfl
@[simp] theorem withKeep_tables (s : State) (x : Keeping) : (s.withKeep x).tables = s.tables := rfl
@[simp] theorem withKeep_store (s : State) (x : Keeping) : (s.withKeep x).store = s.store := rfl
@[simp] theorem withKeep_path (s : State) (x : Keeping) : (s.withKeep x).path = s.path := rfl
@[simp] theorem withKeep_link (s : State) (x : Keeping) : (s.withKeep x).link = s.link := rfl
@[simp] theorem withKeep_cams (s : State) (x : Keeping) : (s.withKeep x).cams = s.cams := rfl
@[simp] theorem withKeep_keep (s : State) (x : Keeping) : (s.withKeep x).keep = x := rfl
@[simp] theorem withKeep_dram (s : State) (x : Keeping) : (s.withKeep x).dram = s.dram := rfl
@[simp] theorem withKeep_boot (s : State) (x : Keeping) : (s.withKeep x).boot = s.boot := rfl
@[simp] theorem withKeep_net (s : State) (x : Keeping) : (s.withKeep x).net = s.net := rfl
@[simp] theorem withKeep_thermal (s : State) (x : Keeping) : (s.withKeep x).thermal = s.thermal := rfl
@[simp] theorem withKeep_draws (s : State) (x : Keeping) : (s.withKeep x).draws = s.draws := rfl
@[simp] theorem withDram_pending (s : State) (x : Dram) : (s.withDram x).pending = s.pending := rfl
@[simp] theorem withDram_dev (s : State) (x : Dram) : (s.withDram x).dev = s.dev := rfl
@[simp] theorem withDram_fault (s : State) (x : Dram) : (s.withDram x).fault = s.fault := rfl
@[simp] theorem withDram_clk (s : State) (x : Dram) : (s.withDram x).clk = s.clk := rfl
@[simp] theorem withDram_host (s : State) (x : Dram) : (s.withDram x).host = s.host := rfl
@[simp] theorem withDram_regs (s : State) (x : Dram) : (s.withDram x).regs = s.regs := rfl
@[simp] theorem withDram_counters (s : State) (x : Dram) : (s.withDram x).counters = s.counters := rfl
@[simp] theorem withDram_log (s : State) (x : Dram) : (s.withDram x).log = s.log := rfl
@[simp] theorem withDram_trace (s : State) (x : Dram) : (s.withDram x).trace = s.trace := rfl
@[simp] theorem withDram_press (s : State) (x : Dram) : (s.withDram x).press = s.press := rfl
@[simp] theorem withDram_run (s : State) (x : Dram) : (s.withDram x).run = s.run := rfl
@[simp] theorem withDram_web (s : State) (x : Dram) : (s.withDram x).web = s.web := rfl
@[simp] theorem withDram_tables (s : State) (x : Dram) : (s.withDram x).tables = s.tables := rfl
@[simp] theorem withDram_store (s : State) (x : Dram) : (s.withDram x).store = s.store := rfl
@[simp] theorem withDram_path (s : State) (x : Dram) : (s.withDram x).path = s.path := rfl
@[simp] theorem withDram_link (s : State) (x : Dram) : (s.withDram x).link = s.link := rfl
@[simp] theorem withDram_cams (s : State) (x : Dram) : (s.withDram x).cams = s.cams := rfl
@[simp] theorem withDram_keep (s : State) (x : Dram) : (s.withDram x).keep = s.keep := rfl
@[simp] theorem withDram_dram (s : State) (x : Dram) : (s.withDram x).dram = x := rfl
@[simp] theorem withDram_boot (s : State) (x : Dram) : (s.withDram x).boot = s.boot := rfl
@[simp] theorem withDram_net (s : State) (x : Dram) : (s.withDram x).net = s.net := rfl
@[simp] theorem withDram_thermal (s : State) (x : Dram) : (s.withDram x).thermal = s.thermal := rfl
@[simp] theorem withDram_draws (s : State) (x : Dram) : (s.withDram x).draws = s.draws := rfl
@[simp] theorem withBoot_pending (s : State) (x : BootUnit) : (s.withBoot x).pending = s.pending := rfl
@[simp] theorem withBoot_dev (s : State) (x : BootUnit) : (s.withBoot x).dev = s.dev := rfl
@[simp] theorem withBoot_fault (s : State) (x : BootUnit) : (s.withBoot x).fault = s.fault := rfl
@[simp] theorem withBoot_clk (s : State) (x : BootUnit) : (s.withBoot x).clk = s.clk := rfl
@[simp] theorem withBoot_host (s : State) (x : BootUnit) : (s.withBoot x).host = s.host := rfl
@[simp] theorem withBoot_regs (s : State) (x : BootUnit) : (s.withBoot x).regs = s.regs := rfl
@[simp] theorem withBoot_counters (s : State) (x : BootUnit) : (s.withBoot x).counters = s.counters := rfl
@[simp] theorem withBoot_log (s : State) (x : BootUnit) : (s.withBoot x).log = s.log := rfl
@[simp] theorem withBoot_trace (s : State) (x : BootUnit) : (s.withBoot x).trace = s.trace := rfl
@[simp] theorem withBoot_press (s : State) (x : BootUnit) : (s.withBoot x).press = s.press := rfl
@[simp] theorem withBoot_run (s : State) (x : BootUnit) : (s.withBoot x).run = s.run := rfl
@[simp] theorem withBoot_web (s : State) (x : BootUnit) : (s.withBoot x).web = s.web := rfl
@[simp] theorem withBoot_tables (s : State) (x : BootUnit) : (s.withBoot x).tables = s.tables := rfl
@[simp] theorem withBoot_store (s : State) (x : BootUnit) : (s.withBoot x).store = s.store := rfl
@[simp] theorem withBoot_path (s : State) (x : BootUnit) : (s.withBoot x).path = s.path := rfl
@[simp] theorem withBoot_link (s : State) (x : BootUnit) : (s.withBoot x).link = s.link := rfl
@[simp] theorem withBoot_cams (s : State) (x : BootUnit) : (s.withBoot x).cams = s.cams := rfl
@[simp] theorem withBoot_keep (s : State) (x : BootUnit) : (s.withBoot x).keep = s.keep := rfl
@[simp] theorem withBoot_dram (s : State) (x : BootUnit) : (s.withBoot x).dram = s.dram := rfl
@[simp] theorem withBoot_boot (s : State) (x : BootUnit) : (s.withBoot x).boot = x := rfl
@[simp] theorem withBoot_net (s : State) (x : BootUnit) : (s.withBoot x).net = s.net := rfl
@[simp] theorem withBoot_thermal (s : State) (x : BootUnit) : (s.withBoot x).thermal = s.thermal := rfl
@[simp] theorem withBoot_draws (s : State) (x : BootUnit) : (s.withBoot x).draws = s.draws := rfl
@[simp] theorem withNet_pending (s : State) (x : Net) : (s.withNet x).pending = s.pending := rfl
@[simp] theorem withNet_dev (s : State) (x : Net) : (s.withNet x).dev = s.dev := rfl
@[simp] theorem withNet_fault (s : State) (x : Net) : (s.withNet x).fault = s.fault := rfl
@[simp] theorem withNet_clk (s : State) (x : Net) : (s.withNet x).clk = s.clk := rfl
@[simp] theorem withNet_host (s : State) (x : Net) : (s.withNet x).host = s.host := rfl
@[simp] theorem withNet_regs (s : State) (x : Net) : (s.withNet x).regs = s.regs := rfl
@[simp] theorem withNet_counters (s : State) (x : Net) : (s.withNet x).counters = s.counters := rfl
@[simp] theorem withNet_log (s : State) (x : Net) : (s.withNet x).log = s.log := rfl
@[simp] theorem withNet_trace (s : State) (x : Net) : (s.withNet x).trace = s.trace := rfl
@[simp] theorem withNet_press (s : State) (x : Net) : (s.withNet x).press = s.press := rfl
@[simp] theorem withNet_run (s : State) (x : Net) : (s.withNet x).run = s.run := rfl
@[simp] theorem withNet_web (s : State) (x : Net) : (s.withNet x).web = s.web := rfl
@[simp] theorem withNet_tables (s : State) (x : Net) : (s.withNet x).tables = s.tables := rfl
@[simp] theorem withNet_store (s : State) (x : Net) : (s.withNet x).store = s.store := rfl
@[simp] theorem withNet_path (s : State) (x : Net) : (s.withNet x).path = s.path := rfl
@[simp] theorem withNet_link (s : State) (x : Net) : (s.withNet x).link = s.link := rfl
@[simp] theorem withNet_cams (s : State) (x : Net) : (s.withNet x).cams = s.cams := rfl
@[simp] theorem withNet_keep (s : State) (x : Net) : (s.withNet x).keep = s.keep := rfl
@[simp] theorem withNet_dram (s : State) (x : Net) : (s.withNet x).dram = s.dram := rfl
@[simp] theorem withNet_boot (s : State) (x : Net) : (s.withNet x).boot = s.boot := rfl
@[simp] theorem withNet_net (s : State) (x : Net) : (s.withNet x).net = x := rfl
@[simp] theorem withNet_thermal (s : State) (x : Net) : (s.withNet x).thermal = s.thermal := rfl
@[simp] theorem withNet_draws (s : State) (x : Net) : (s.withNet x).draws = s.draws := rfl
@[simp] theorem withThermal_pending (s : State) (x : Thermal) : (s.withThermal x).pending = s.pending := rfl
@[simp] theorem withThermal_dev (s : State) (x : Thermal) : (s.withThermal x).dev = s.dev := rfl
@[simp] theorem withThermal_fault (s : State) (x : Thermal) : (s.withThermal x).fault = s.fault := rfl
@[simp] theorem withThermal_clk (s : State) (x : Thermal) : (s.withThermal x).clk = s.clk := rfl
@[simp] theorem withThermal_host (s : State) (x : Thermal) : (s.withThermal x).host = s.host := rfl
@[simp] theorem withThermal_regs (s : State) (x : Thermal) : (s.withThermal x).regs = s.regs := rfl
@[simp] theorem withThermal_counters (s : State) (x : Thermal) : (s.withThermal x).counters = s.counters := rfl
@[simp] theorem withThermal_log (s : State) (x : Thermal) : (s.withThermal x).log = s.log := rfl
@[simp] theorem withThermal_trace (s : State) (x : Thermal) : (s.withThermal x).trace = s.trace := rfl
@[simp] theorem withThermal_press (s : State) (x : Thermal) : (s.withThermal x).press = s.press := rfl
@[simp] theorem withThermal_run (s : State) (x : Thermal) : (s.withThermal x).run = s.run := rfl
@[simp] theorem withThermal_web (s : State) (x : Thermal) : (s.withThermal x).web = s.web := rfl
@[simp] theorem withThermal_tables (s : State) (x : Thermal) : (s.withThermal x).tables = s.tables := rfl
@[simp] theorem withThermal_store (s : State) (x : Thermal) : (s.withThermal x).store = s.store := rfl
@[simp] theorem withThermal_path (s : State) (x : Thermal) : (s.withThermal x).path = s.path := rfl
@[simp] theorem withThermal_link (s : State) (x : Thermal) : (s.withThermal x).link = s.link := rfl
@[simp] theorem withThermal_cams (s : State) (x : Thermal) : (s.withThermal x).cams = s.cams := rfl
@[simp] theorem withThermal_keep (s : State) (x : Thermal) : (s.withThermal x).keep = s.keep := rfl
@[simp] theorem withThermal_dram (s : State) (x : Thermal) : (s.withThermal x).dram = s.dram := rfl
@[simp] theorem withThermal_boot (s : State) (x : Thermal) : (s.withThermal x).boot = s.boot := rfl
@[simp] theorem withThermal_net (s : State) (x : Thermal) : (s.withThermal x).net = s.net := rfl
@[simp] theorem withThermal_thermal (s : State) (x : Thermal) : (s.withThermal x).thermal = x := rfl
@[simp] theorem withThermal_draws (s : State) (x : Thermal) : (s.withThermal x).draws = s.draws := rfl
@[simp] theorem withDraws_pending (s : State) (x : Nat) : (s.withDraws x).pending = s.pending := rfl
@[simp] theorem withDraws_dev (s : State) (x : Nat) : (s.withDraws x).dev = s.dev := rfl
@[simp] theorem withDraws_fault (s : State) (x : Nat) : (s.withDraws x).fault = s.fault := rfl
@[simp] theorem withDraws_clk (s : State) (x : Nat) : (s.withDraws x).clk = s.clk := rfl
@[simp] theorem withDraws_host (s : State) (x : Nat) : (s.withDraws x).host = s.host := rfl
@[simp] theorem withDraws_regs (s : State) (x : Nat) : (s.withDraws x).regs = s.regs := rfl
@[simp] theorem withDraws_counters (s : State) (x : Nat) : (s.withDraws x).counters = s.counters := rfl
@[simp] theorem withDraws_log (s : State) (x : Nat) : (s.withDraws x).log = s.log := rfl
@[simp] theorem withDraws_trace (s : State) (x : Nat) : (s.withDraws x).trace = s.trace := rfl
@[simp] theorem withDraws_press (s : State) (x : Nat) : (s.withDraws x).press = s.press := rfl
@[simp] theorem withDraws_run (s : State) (x : Nat) : (s.withDraws x).run = s.run := rfl
@[simp] theorem withDraws_web (s : State) (x : Nat) : (s.withDraws x).web = s.web := rfl
@[simp] theorem withDraws_tables (s : State) (x : Nat) : (s.withDraws x).tables = s.tables := rfl
@[simp] theorem withDraws_store (s : State) (x : Nat) : (s.withDraws x).store = s.store := rfl
@[simp] theorem withDraws_path (s : State) (x : Nat) : (s.withDraws x).path = s.path := rfl
@[simp] theorem withDraws_link (s : State) (x : Nat) : (s.withDraws x).link = s.link := rfl
@[simp] theorem withDraws_cams (s : State) (x : Nat) : (s.withDraws x).cams = s.cams := rfl
@[simp] theorem withDraws_keep (s : State) (x : Nat) : (s.withDraws x).keep = s.keep := rfl
@[simp] theorem withDraws_dram (s : State) (x : Nat) : (s.withDraws x).dram = s.dram := rfl
@[simp] theorem withDraws_boot (s : State) (x : Nat) : (s.withDraws x).boot = s.boot := rfl
@[simp] theorem withDraws_net (s : State) (x : Nat) : (s.withDraws x).net = s.net := rfl
@[simp] theorem withDraws_thermal (s : State) (x : Nat) : (s.withDraws x).thermal = s.thermal := rfl
@[simp] theorem withDraws_draws (s : State) (x : Nat) : (s.withDraws x).draws = x := rfl

end Sys2Proof.Machine
end

