-- ==== Sys2Proof/Laws/Command.lean ====
section
/-! SUPPORT. Laws/Command.lean: what an accepted host command does before and after its own rules, and what a reply leaves. -/

namespace Sys2Proof.Machine

open Sys2Proof

/-! ## Sparse tables: read after write -/

theorem tget_tput {α : Type} [DecidableEq α] (d : Nat → α) (t : Tab α) (k : Nat) (v : α) (j : Nat) (lo : Nat)
    (h : twfFrom d lo t = true) : tget d (tput d t k v) j = if j = k then v else tget d t j := by
  induction t generalizing lo with
  | nil =>
    unfold tput
    split
    · simp only [tget]; split
      · simp_all
      · rfl
    · simp only [tget]
  | cons e t ih =>
    obtain ⟨k', v'⟩ := e
    simp only [twfFrom, Bool.and_eq_true, decide_eq_true_eq] at h
    have hlt : ∀ (u : Tab α) (l : Nat), twfFrom d l u = true → ∀ j, j < l → tget d u j = d j := by
      intro u
      induction u with
      | nil => intros; rfl
      | cons e u ihu =>
        intro l hu j hj
        obtain ⟨k2, v2⟩ := e
        simp only [twfFrom, Bool.and_eq_true, decide_eq_true_eq] at hu
        simp only [tget]
        rw [if_neg (by omega)]
        exact ihu _ hu.2 j (by omega)
    unfold tput
    split
    · split
      · simp only [tget]
        by_cases hj : j = k
        · subst hj
          rw [if_neg (by omega), if_pos rfl, hlt t _ h.2 j (by omega)]; simp_all
        · simp [hj]
      · simp only [tget]
    · split
      · have e : k = k' := by assumption
        split
        · simp only [tget]
          by_cases hj : j = k
          · rw [if_pos hj, hlt t _ h.2 j (by omega)]; simp_all
          · rw [if_neg hj, if_neg (by omega)]
        · simp only [tget]
          by_cases hj : j = k
          · rw [if_pos hj, if_pos hj]
          · rw [if_neg hj, if_neg hj, if_neg (by omega)]
      · simp only [tget]
        rw [ih _ h.2]
        by_cases hj : j = k' <;> by_cases hk : j = k <;> simp_all

/-- Reading the key just written gives the value, whatever the table. -/
@[simp] theorem tget_tput_same {α : Type} [DecidableEq α] (d : Nat → α) (t : Tab α) (k : Nat) (v : α)
    (h : v ≠ d k) : tget d (tput d t k v) k = v := by
  induction t with
  | nil => simp [tput, h, tget]
  | cons e t ih =>
    obtain ⟨k', v'⟩ := e
    unfold tput
    split
    · simp [tget]
    · split
      · simp [tget]
      · simp only [tget]; rw [if_neg (by assumption)]; exact ih

/-- A write keeps the canonical form. -/
theorem twfFrom_tput {α : Type} [DecidableEq α] (d : Nat → α) (t : Tab α) (k : Nat) (v : α) (lo : Nat)
    (h : twfFrom d lo t = true) (hk : lo ≤ k) : twfFrom d lo (tput d t k v) = true := by
  induction t generalizing lo with
  | nil => unfold tput; split <;> simp_all [twfFrom]
  | cons e t ih =>
    obtain ⟨k', v'⟩ := e
    simp only [twfFrom, Bool.and_eq_true, decide_eq_true_eq] at h
    unfold tput
    split
    · split
      · simp only [twfFrom, Bool.and_eq_true, decide_eq_true_eq]; exact h
      · simp only [twfFrom, Bool.and_eq_true, decide_eq_true_eq]
        exact ⟨⟨hk, by assumption⟩, ⟨by omega, h.1.2⟩, h.2⟩
    · split
      · have e : k = k' := by assumption
        split
        · have mono : ∀ (u : Tab α) (l m : Nat), m ≤ l → twfFrom d l u = true → twfFrom d m u = true := by
            intro u
            cases u with
            | nil => intros; rfl
            | cons e u =>
              intro l m hm hu
              simp only [twfFrom, Bool.and_eq_true, decide_eq_true_eq] at hu ⊢
              exact ⟨⟨by omega, hu.1.2⟩, hu.2⟩
          exact mono t (k' + 1) lo (by omega) h.2
        · simp only [twfFrom, Bool.and_eq_true, decide_eq_true_eq]
          exact ⟨⟨hk, by assumption⟩, by rw [e]; exact h.2⟩
      · simp only [twfFrom, Bool.and_eq_true, decide_eq_true_eq]
        exact ⟨h.1, ih _ h.2 (by omega)⟩

theorem twf_tput {α : Type} [DecidableEq α] (d : Nat → α) (t : Tab α) (k : Nat) (v : α) (h : twf d t = true) :
    twf d (tput d t k v) = true := twfFrom_tput d t k v 0 h (Nat.zero_le _)

/-- Every write of bytes keeps the canonical form of a memory. -/
theorem memWf_mwrite (m : Mem) (a : Nat) (bs : List Byte) (h : memWf m = true) : memWf (mwrite zeroByte m a bs) = true := by
  induction bs generalizing m a with
  | nil => exact h
  | cons b bs ih => exact ih _ _ (twf_tput _ m a b h)

/-- A byte outside the written ones reads as before. -/
theorem tget_mwrite_frame (m : Mem) (a : Nat) (bs : List Byte) (j : Nat) (h : memWf m = true)
    (hj : j < a ∨ a + bs.length ≤ j) : tget zeroByte (mwrite zeroByte m a bs) j = tget zeroByte m j := by
  induction bs generalizing m a with
  | nil => rfl
  | cons b bs ih =>
    simp only [List.length_cons] at hj
    have hw : memWf (tput zeroByte m a b) = true := twf_tput zeroByte m a b h
    rw [mwrite, ih _ _ hw (by omega), tget_tput zeroByte m a b j 0 h, if_neg (by omega)]

theorem memWf_dmaWrite (s : State) (a : Nat) (bs : List Byte) (h : memWf s.host.mem = true) :
    memWf (s.dmaWrite a bs).host.mem = true := by
  unfold State.dmaWrite
  split
  · exact memWf_mwrite _ _ _ h
  · exact h

/-! ## Rings -/

theorem ring_withRing_same (s : State) (r : Nat) (x : Ring) (h : x ≠ Ring.reset) : (s.withRing r x).ring r = x :=
  tget_tput_same _ _ _ _ h

theorem ring_withRing_enabled (s : State) (r : Nat) (x : Ring) (h : x.enabled = true) : (s.withRing r x).ring r = x :=
  ring_withRing_same s r x (by intro e; rw [e] at h; exact absurd h (by decide))

@[simp] theorem ring_at (s : State) (t : Time) (r : Nat) : (s.at t).ring r = s.ring r := rfl

/-- A ring that holds nothing fetched has nothing to settle. -/
theorem settle_nil (s : State) (r : Nat) (h : (s.ring r).fetched = []) : s.settle r = s := by
  unfold State.settle; rw [h]; rfl

/-! ## Accepted commands -/

theorem packetCheck_at (s : State) (t : Time) (c : CmdInfo) (h : Hdr) : packetCheck (s.at t) c h = packetCheck s c h := rfl

theorem mayStart_at (s : State) (t : Time) (o : Bool) (h : Hdr) : mayStart (s.at t) o h = mayStart s o h := rfl

theorem packetCheck_withRing (s : State) (r : Nat) (x : Ring) (c : CmdInfo) (h : Hdr) :
    packetCheck (s.withRing r x) c h = packetCheck s c h := rfl

/-- An accepted command starts at once, fetched in its own step. -/
theorem intake_accepts (i : Instr) (h : Hdr) (c : CmdInfo) (s : State) (ha : accepts s h c = true) :
    intake i h c (s.at h.t) = (begun s h c, some false) := by
  simp only [accepts, Bool.and_eq_true, decide_eq_true_eq] at ha
  obtain ⟨⟨⟨⟨⟨⟨⟨h1, h2⟩, h3⟩, h4⟩, h5⟩, h6⟩, h7⟩, h8⟩ := ha
  have h1' : ringServed (s.at h.t) h.ring = true := h1
  have h6' : mayStart (s.at h.t) false h = true := h6
  simp [intake, h2, h3, h4, h5, h1', h6', begun]

theorem packetCheck_accepts (h : Hdr) (c : CmdInfo) (s : State) (ha : accepts s h c = true) :
    packetCheck (begun s h c) c h = none := by
  simp only [accepts, Bool.and_eq_true, decide_eq_true_eq] at ha
  have h7 := ha.1.2
  rw [Option.isNone_iff_eq_none] at h7
  exact h7

theorem paramRsv_accepts (h : Hdr) (c : CmdInfo) (s : State) (ha : accepts s h c = true) : h.paramRsv = false := by
  simp only [accepts, Bool.and_eq_true] at ha
  simpa using ha.2

/-- An accepted command of class A, B or C runs its own rules on `begun`, and answers unless it waits. -/
theorem hostWait_accepts (i : Instr) (h : Hdr) (c : CmdInfo) (body : Bool → State → State × Option Answer) (s : State)
    (ha : accepts s h c = true) :
    hostWait i h c body s = (match body false (begun s h c) with
      | (s, some a) => s.finalShort false h.ring h.tag c.opcode a
      | (s, none) => s).settle h.ring := by
  simp only [hostWait, intake_accepts i h c s ha, shortBody, packetCheck_accepts h c s ha, paramRsv_accepts h c s ha]
  rfl

theorem hostCmd_accepts (i : Instr) (h : Hdr) (c : CmdInfo) (body : State → State × Answer) (s : State)
    (ha : accepts s h c = true) :
    hostCmd i h c body s
      = ((body (begun s h c)).1.finalShort false h.ring h.tag c.opcode (body (begun s h c)).2).settle h.ring := by
  simp [hostCmd, hostWait_accepts i h c _ s ha]

/-- An accepted long operation answers ACCEPTED and begins, unless sixteen run. -/
theorem hostLong_accepts (i : Instr) (h : Hdr) (c : CmdInfo) (body : State → State) (s : State) (ha : accepts s h c = true) :
    hostLong i h c body s = ((begun s h c).startLong false h c body).settle h.ring := by
  simp [hostLong, intake_accepts i h c s ha, packetCheck_accepts h c s ha, paramRsv_accepts h c s ha]

/-- The ring of an accepted command, as its body finds it. -/
theorem begun_ring (s : State) (h : Hdr) (c : CmdInfo) (ha : accepts s h c = true) :
    (begun s h c).ring h.ring = { s.ring h.ring with
      cmdHead := ((s.ring h.ring).cmdHead + 1) % (s.ring h.ring).entries
      cmdTail := ((s.ring h.ring).cmdHead + 1) % (s.ring h.ring).entries
      owed := (s.ring h.ring).owed + c.need } := by
  simp only [accepts, ringServed, Bool.and_eq_true, decide_eq_true_eq] at ha
  exact ring_withRing_enabled _ _ _ (by simp; exact ha.1.1.1.1.1.1.1.1.1)

theorem begun_enabled (s : State) (h : Hdr) (c : CmdInfo) (ha : accepts s h c = true) :
    ((begun s h c).ring h.ring).enabled = true := by
  rw [begun_ring s h c ha]
  simp only [accepts, ringServed, Bool.and_eq_true, decide_eq_true_eq] at ha
  exact ha.1.1.1.1.1.1.1.1.1

theorem begun_fetched (s : State) (h : Hdr) (c : CmdInfo) (ha : accepts s h c = true) :
    ((begun s h c).ring h.ring).fetched = [] := by
  rw [begun_ring s h c ha]
  simp only [accepts, Bool.and_eq_true, decide_eq_true_eq] at ha
  exact ha.1.1.1.1.1.2

/-! ## Replies -/

@[simp] theorem ring_withTrace (s : State) (x : Trace) (r : Nat) : (s.withTrace x).ring r = s.ring r := rfl

theorem ring_signal (s : State) (v r : Nat) : (s.signal v).ring r = s.ring r := by
  unfold State.signal; split <;> rfl

theorem ring_traceWrite (s : State) (b : List Byte) (r : Nat) : (s.traceWrite b).ring r = s.ring r := rfl

theorem ring_traceRec (s : State) (a b : Nat) (l : List Byte) (r : Nat) : (s.traceRec a b l).ring r = s.ring r := by
  unfold State.traceRec
  simp only []
  split
  · rfl
  · rfl

theorem ring_dmaWrite (s : State) (a : Nat) (l : List Byte) (r : Nat) : (s.dmaWrite a l).ring r = s.ring r := by
  unfold State.dmaWrite; split <;> rfl

/-- What a reply leaves in an enabled ring. -/
theorem putReply_ring (s : State) (r : Reply) (he : (s.ring r.ring).enabled = true) :
    (s.putReply r).ring r.ring = { s.ring r.ring with
      replyTail := ((s.ring r.ring).replyTail + 1) % (s.ring r.ring).entries
      phase := if ((s.ring r.ring).replyTail + 1) % (s.ring r.ring).entries = 0 then !(s.ring r.ring).phase else (s.ring r.ring).phase
      unsignalled := if coalesceDue (s.ring r.ring).coalN ((s.ring r.ring).unsignalled + 1) then 0 else (s.ring r.ring).unsignalled + 1
      oldest := if (s.ring r.ring).unsignalled = 0 then (s.dmaWrite ((s.ring r.ring).replyBase + 32 * (s.ring r.ring).replyTail)
        ({ r with phase := (s.ring r.ring).phase, timestamp := s.baseUs } : Reply).toBytes).clk.elapsed else (s.ring r.ring).oldest
      last := some { r with phase := (s.ring r.ring).phase, timestamp := s.baseUs } } := by
  unfold State.putReply
  simp only [he, Bool.not_true, Bool.false_eq_true, if_false]
  split
  · rw [ring_signal, ring_traceRec, ring_withRing_enabled _ _ _ (by simp)]
  · rw [ring_traceRec, ring_withRing_enabled _ _ _ (by simp)]

theorem oweLess_ring (s : State) (r n : Nat) (he : (s.ring r).enabled = true) :
    (s.oweLess r n).ring r = { s.ring r with owed := (s.ring r).owed - n } :=
  ring_withRing_enabled _ _ _ (by simp [he])

/-- The final reply of a short command is the latest of its ring. -/
theorem finalShort_ring (s : State) (ring tag opcode : Nat) (a : Answer) (he : (s.ring ring).enabled = true) :
    replied (s.finalShort false ring tag opcode a) ring tag opcode a.status true = true
      ∧ repliedWith (s.finalShort false ring tag opcode a) ring tag opcode a.status a.result = true
      ∧ ((s.finalShort false ring tag opcode a).ring ring).fetched = (s.ring ring).fetched
      ∧ ((s.finalShort false ring tag opcode a).ring ring).enabled = true := by
  have h := oweLess_ring s ring 1 he
  have he' : ((s.oweLess ring 1).ring ring).enabled = true := by rw [h]; exact he
  have key : ∀ r : Reply, r.ring = ring → ∃ x, ((s.oweLess ring 1).putReply r).ring ring = x ∧ x.fetched = (s.ring ring).fetched
      ∧ x.enabled = true ∧ x.last = some { r with phase := (s.ring ring).phase, timestamp := s.baseUs } := by
    intro r hr
    subst hr
    refine ⟨_, putReply_ring _ r he', ?_, ?_, ?_⟩
    · simp only [h]
    · exact he'
    · simp only [h]; rfl
  simp only [State.finalShort, Bool.false_eq_true, if_false]
  let p := a.progress.getD (if a.status = stOk then 10000 else 0, false)
  let r : Reply :=
    { ring := ring, tag := tag, status := a.status, progress := p.1, phase := false, final := true, pos := p.2, skipped := false
      opcode := opcode, timestamp := 0, result := a.result }
  obtain ⟨x, hx, hf, hen, hl⟩ := key r rfl
  refine ⟨?_, ?_, ?_, ?_⟩
  · simp only [replied]; rw [hx, hl]; simp [r]
  · simp only [repliedWith, replied]; rw [hx, hl]; simp [r]
  · rw [hx, hf]
  · rw [hx, hen]

/-- An accepted short command whose rules leave its ring alone ends with its answer as the latest reply. -/
theorem hostCmd_replies (i : Instr) (h : Hdr) (c : CmdInfo) (body : State → State × Answer) (s : State)
    (ha : accepts s h c = true) (hr : ((body (begun s h c)).1.ring h.ring) = (begun s h c).ring h.ring) :
    hostCmd i h c body s = (body (begun s h c)).1.finalShort false h.ring h.tag c.opcode (body (begun s h c)).2
      ∧ replied (hostCmd i h c body s) h.ring h.tag c.opcode (body (begun s h c)).2.status true = true
      ∧ repliedWith (hostCmd i h c body s) h.ring h.tag c.opcode (body (begun s h c)).2.status (body (begun s h c)).2.result = true := by
  have he : ((body (begun s h c)).1.ring h.ring).enabled = true := by rw [hr]; exact begun_enabled s h c ha
  have hf : ((body (begun s h c)).1.ring h.ring).fetched = [] := by rw [hr]; exact begun_fetched s h c ha
  obtain ⟨a, b, d, e⟩ := finalShort_ring (body (begun s h c)).1 h.ring h.tag c.opcode (body (begun s h c)).2 he
  rw [hostCmd_accepts i h c body s ha, settle_nil _ _ (by rw [d]; exact hf)]
  exact ⟨rfl, a, b⟩

/-! ## What a reply leaves of the whole state -/

/-- What `hostOnly` allows to change, without the elapsed time. -/
def replyFrame (s t : State) : Prop :=
  t = { s with
    host := { s.host with rings := t.host.rings, mem := t.host.mem, messages := t.host.messages, pba := t.host.pba }
    trace := t.trace }

theorem replyFrame.refl (s : State) : replyFrame s s := rfl

theorem replyFrame.trans {s t u : State} (h1 : replyFrame s t) (h2 : replyFrame t u) : replyFrame s u := by
  unfold replyFrame at *
  rw [h2, h1]

theorem signal_frame (s : State) (v : Nat) : replyFrame s (s.signal v) := by
  unfold State.signal replyFrame; split <;> rfl

theorem traceRec_frame (s : State) (a b : Nat) (l : List Byte) : replyFrame s (s.traceRec a b l) := by
  unfold State.traceRec replyFrame; simp only []; split <;> rfl

theorem dmaWrite_frame (s : State) (a : Nat) (l : List Byte) : replyFrame s (s.dmaWrite a l) := by
  unfold State.dmaWrite replyFrame; split <;> rfl

theorem withRing_frame (s : State) (r : Nat) (x : Ring) : replyFrame s (s.withRing r x) := rfl

theorem putReply_frame (s : State) (r : Reply) : replyFrame s (s.putReply r) := by
  unfold State.putReply
  simp only []
  split
  · exact replyFrame.refl s
  · split
    · exact ((((dmaWrite_frame s _ _).trans (withRing_frame _ _ _)).trans (traceRec_frame _ _ _ _)).trans (signal_frame _ _))
    · exact (((dmaWrite_frame s _ _).trans (withRing_frame _ _ _)).trans (traceRec_frame _ _ _ _))

theorem finalShort_frame (s : State) (o : Bool) (r t c : Nat) (a : Answer) : replyFrame s (s.finalShort o r t c a) := by
  unfold State.finalShort
  split
  · exact replyFrame.refl s
  · exact (withRing_frame s _ _).trans (putReply_frame _ _)

/-- An accepted short command leaves what its rules make of the accepted state, but for its reply. -/
theorem hostCmd_frame (i : Instr) (h : Hdr) (c : CmdInfo) (body : State → State × Answer) (s : State)
    (ha : accepts s h c = true) (hr : ((body (begun s h c)).1.ring h.ring) = (begun s h c).ring h.ring) :
    replyFrame (body (begun s h c)).1 (hostCmd i h c body s) := by
  rw [(hostCmd_replies i h c body s ha hr).1]
  exact finalShort_frame _ _ _ _ _ _

end Sys2Proof.Machine
end

