-- ==== Sys2Proof/Laws/Frame.lean ====
section
/-! SUPPORT. Laws/Frame.lean: what the operations that every unit shares leave unchanged, field by field. -/

namespace Sys2Proof.Machine

open Sys2Proof

@[simp] theorem at_pending (s : State) (t : Time) : (s.at t).pending = s.pending := rfl
@[simp] theorem at_dev (s : State) (t : Time) : (s.at t).dev = s.dev := rfl
@[simp] theorem at_fault (s : State) (t : Time) : (s.at t).fault = s.fault := rfl
@[simp] theorem at_host (s : State) (t : Time) : (s.at t).host = s.host := rfl
@[simp] theorem at_regs (s : State) (t : Time) : (s.at t).regs = s.regs := rfl
@[simp] theorem at_counters (s : State) (t : Time) : (s.at t).counters = s.counters := rfl
@[simp] theorem at_log (s : State) (t : Time) : (s.at t).log = s.log := rfl
@[simp] theorem at_trace (s : State) (t : Time) : (s.at t).trace = s.trace := rfl
@[simp] theorem at_press (s : State) (t : Time) : (s.at t).press = s.press := rfl
@[simp] theorem at_run (s : State) (t : Time) : (s.at t).run = s.run := rfl
@[simp] theorem at_web (s : State) (t : Time) : (s.at t).web = s.web := rfl
@[simp] theorem at_tables (s : State) (t : Time) : (s.at t).tables = s.tables := rfl
@[simp] theorem at_store (s : State) (t : Time) : (s.at t).store = s.store := rfl
@[simp] theorem at_path (s : State) (t : Time) : (s.at t).path = s.path := rfl
@[simp] theorem at_link (s : State) (t : Time) : (s.at t).link = s.link := rfl
@[simp] theorem at_cams (s : State) (t : Time) : (s.at t).cams = s.cams := rfl
@[simp] theorem at_keep (s : State) (t : Time) : (s.at t).keep = s.keep := rfl
@[simp] theorem at_dram (s : State) (t : Time) : (s.at t).dram = s.dram := rfl
@[simp] theorem at_boot (s : State) (t : Time) : (s.at t).boot = s.boot := rfl
@[simp] theorem at_net (s : State) (t : Time) : (s.at t).net = s.net := rfl
@[simp] theorem at_thermal (s : State) (t : Time) : (s.at t).thermal = s.thermal := rfl
@[simp] theorem at_draws (s : State) (t : Time) : (s.at t).draws = s.draws := rfl

@[simp] theorem withRing_pending (s : State) (r : Nat) (x : Ring) : (s.withRing r x).pending = s.pending := rfl
@[simp] theorem withRing_dev (s : State) (r : Nat) (x : Ring) : (s.withRing r x).dev = s.dev := rfl
@[simp] theorem withRing_fault (s : State) (r : Nat) (x : Ring) : (s.withRing r x).fault = s.fault := rfl
@[simp] theorem withRing_clk (s : State) (r : Nat) (x : Ring) : (s.withRing r x).clk = s.clk := rfl
@[simp] theorem withRing_regs (s : State) (r : Nat) (x : Ring) : (s.withRing r x).regs = s.regs := rfl
@[simp] theorem withRing_counters (s : State) (r : Nat) (x : Ring) : (s.withRing r x).counters = s.counters := rfl
@[simp] theorem withRing_log (s : State) (r : Nat) (x : Ring) : (s.withRing r x).log = s.log := rfl
@[simp] theorem withRing_trace (s : State) (r : Nat) (x : Ring) : (s.withRing r x).trace = s.trace := rfl
@[simp] theorem withRing_press (s : State) (r : Nat) (x : Ring) : (s.withRing r x).press = s.press := rfl
@[simp] theorem withRing_run (s : State) (r : Nat) (x : Ring) : (s.withRing r x).run = s.run := rfl
@[simp] theorem withRing_web (s : State) (r : Nat) (x : Ring) : (s.withRing r x).web = s.web := rfl
@[simp] theorem withRing_tables (s : State) (r : Nat) (x : Ring) : (s.withRing r x).tables = s.tables := rfl
@[simp] theorem withRing_store (s : State) (r : Nat) (x : Ring) : (s.withRing r x).store = s.store := rfl
@[simp] theorem withRing_path (s : State) (r : Nat) (x : Ring) : (s.withRing r x).path = s.path := rfl
@[simp] theorem withRing_link (s : State) (r : Nat) (x : Ring) : (s.withRing r x).link = s.link := rfl
@[simp] theorem withRing_cams (s : State) (r : Nat) (x : Ring) : (s.withRing r x).cams = s.cams := rfl
@[simp] theorem withRing_keep (s : State) (r : Nat) (x : Ring) : (s.withRing r x).keep = s.keep := rfl
@[simp] theorem withRing_dram (s : State) (r : Nat) (x : Ring) : (s.withRing r x).dram = s.dram := rfl
@[simp] theorem withRing_boot (s : State) (r : Nat) (x : Ring) : (s.withRing r x).boot = s.boot := rfl
@[simp] theorem withRing_net (s : State) (r : Nat) (x : Ring) : (s.withRing r x).net = s.net := rfl
@[simp] theorem withRing_thermal (s : State) (r : Nat) (x : Ring) : (s.withRing r x).thermal = s.thermal := rfl
@[simp] theorem withRing_draws (s : State) (r : Nat) (x : Ring) : (s.withRing r x).draws = s.draws := rfl

@[simp] theorem withMem_pending (s : State) (m : Mem) : (s.withMem m).pending = s.pending := rfl
@[simp] theorem withMem_dev (s : State) (m : Mem) : (s.withMem m).dev = s.dev := rfl
@[simp] theorem withMem_fault (s : State) (m : Mem) : (s.withMem m).fault = s.fault := rfl
@[simp] theorem withMem_clk (s : State) (m : Mem) : (s.withMem m).clk = s.clk := rfl
@[simp] theorem withMem_regs (s : State) (m : Mem) : (s.withMem m).regs = s.regs := rfl
@[simp] theorem withMem_counters (s : State) (m : Mem) : (s.withMem m).counters = s.counters := rfl
@[simp] theorem withMem_log (s : State) (m : Mem) : (s.withMem m).log = s.log := rfl
@[simp] theorem withMem_trace (s : State) (m : Mem) : (s.withMem m).trace = s.trace := rfl
@[simp] theorem withMem_press (s : State) (m : Mem) : (s.withMem m).press = s.press := rfl
@[simp] theorem withMem_run (s : State) (m : Mem) : (s.withMem m).run = s.run := rfl
@[simp] theorem withMem_web (s : State) (m : Mem) : (s.withMem m).web = s.web := rfl
@[simp] theorem withMem_tables (s : State) (m : Mem) : (s.withMem m).tables = s.tables := rfl
@[simp] theorem withMem_store (s : State) (m : Mem) : (s.withMem m).store = s.store := rfl
@[simp] theorem withMem_path (s : State) (m : Mem) : (s.withMem m).path = s.path := rfl
@[simp] theorem withMem_link (s : State) (m : Mem) : (s.withMem m).link = s.link := rfl
@[simp] theorem withMem_cams (s : State) (m : Mem) : (s.withMem m).cams = s.cams := rfl
@[simp] theorem withMem_keep (s : State) (m : Mem) : (s.withMem m).keep = s.keep := rfl
@[simp] theorem withMem_dram (s : State) (m : Mem) : (s.withMem m).dram = s.dram := rfl
@[simp] theorem withMem_boot (s : State) (m : Mem) : (s.withMem m).boot = s.boot := rfl
@[simp] theorem withMem_net (s : State) (m : Mem) : (s.withMem m).net = s.net := rfl
@[simp] theorem withMem_thermal (s : State) (m : Mem) : (s.withMem m).thermal = s.thermal := rfl
@[simp] theorem withMem_draws (s : State) (m : Mem) : (s.withMem m).draws = s.draws := rfl

@[simp] theorem dmaWrite_pending (s : State) (a : Nat) (l : List Byte) : (s.dmaWrite a l).pending = s.pending := by unfold State.dmaWrite; split <;> rfl
@[simp] theorem dmaWrite_dev (s : State) (a : Nat) (l : List Byte) : (s.dmaWrite a l).dev = s.dev := by unfold State.dmaWrite; split <;> rfl
@[simp] theorem dmaWrite_fault (s : State) (a : Nat) (l : List Byte) : (s.dmaWrite a l).fault = s.fault := by unfold State.dmaWrite; split <;> rfl
@[simp] theorem dmaWrite_clk (s : State) (a : Nat) (l : List Byte) : (s.dmaWrite a l).clk = s.clk := by unfold State.dmaWrite; split <;> rfl
@[simp] theorem dmaWrite_regs (s : State) (a : Nat) (l : List Byte) : (s.dmaWrite a l).regs = s.regs := by unfold State.dmaWrite; split <;> rfl
@[simp] theorem dmaWrite_counters (s : State) (a : Nat) (l : List Byte) : (s.dmaWrite a l).counters = s.counters := by unfold State.dmaWrite; split <;> rfl
@[simp] theorem dmaWrite_log (s : State) (a : Nat) (l : List Byte) : (s.dmaWrite a l).log = s.log := by unfold State.dmaWrite; split <;> rfl
@[simp] theorem dmaWrite_trace (s : State) (a : Nat) (l : List Byte) : (s.dmaWrite a l).trace = s.trace := by unfold State.dmaWrite; split <;> rfl
@[simp] theorem dmaWrite_press (s : State) (a : Nat) (l : List Byte) : (s.dmaWrite a l).press = s.press := by unfold State.dmaWrite; split <;> rfl
@[simp] theorem dmaWrite_run (s : State) (a : Nat) (l : List Byte) : (s.dmaWrite a l).run = s.run := by unfold State.dmaWrite; split <;> rfl
@[simp] theorem dmaWrite_web (s : State) (a : Nat) (l : List Byte) : (s.dmaWrite a l).web = s.web := by unfold State.dmaWrite; split <;> rfl
@[simp] theorem dmaWrite_tables (s : State) (a : Nat) (l : List Byte) : (s.dmaWrite a l).tables = s.tables := by unfold State.dmaWrite; split <;> rfl
@[simp] theorem dmaWrite_store (s : State) (a : Nat) (l : List Byte) : (s.dmaWrite a l).store = s.store := by unfold State.dmaWrite; split <;> rfl
@[simp] theorem dmaWrite_path (s : State) (a : Nat) (l : List Byte) : (s.dmaWrite a l).path = s.path := by unfold State.dmaWrite; split <;> rfl
@[simp] theorem dmaWrite_link (s : State) (a : Nat) (l : List Byte) : (s.dmaWrite a l).link = s.link := by unfold State.dmaWrite; split <;> rfl
@[simp] theorem dmaWrite_cams (s : State) (a : Nat) (l : List Byte) : (s.dmaWrite a l).cams = s.cams := by unfold State.dmaWrite; split <;> rfl
@[simp] theorem dmaWrite_keep (s : State) (a : Nat) (l : List Byte) : (s.dmaWrite a l).keep = s.keep := by unfold State.dmaWrite; split <;> rfl
@[simp] theorem dmaWrite_dram (s : State) (a : Nat) (l : List Byte) : (s.dmaWrite a l).dram = s.dram := by unfold State.dmaWrite; split <;> rfl
@[simp] theorem dmaWrite_boot (s : State) (a : Nat) (l : List Byte) : (s.dmaWrite a l).boot = s.boot := by unfold State.dmaWrite; split <;> rfl
@[simp] theorem dmaWrite_net (s : State) (a : Nat) (l : List Byte) : (s.dmaWrite a l).net = s.net := by unfold State.dmaWrite; split <;> rfl
@[simp] theorem dmaWrite_thermal (s : State) (a : Nat) (l : List Byte) : (s.dmaWrite a l).thermal = s.thermal := by unfold State.dmaWrite; split <;> rfl
@[simp] theorem dmaWrite_draws (s : State) (a : Nat) (l : List Byte) : (s.dmaWrite a l).draws = s.draws := by unfold State.dmaWrite; split <;> rfl

@[simp] theorem countN_pending (s : State) (i n : Nat) : (s.countN i n).pending = s.pending := rfl
@[simp] theorem countN_dev (s : State) (i n : Nat) : (s.countN i n).dev = s.dev := rfl
@[simp] theorem countN_fault (s : State) (i n : Nat) : (s.countN i n).fault = s.fault := rfl
@[simp] theorem countN_clk (s : State) (i n : Nat) : (s.countN i n).clk = s.clk := rfl
@[simp] theorem countN_host (s : State) (i n : Nat) : (s.countN i n).host = s.host := rfl
@[simp] theorem countN_regs (s : State) (i n : Nat) : (s.countN i n).regs = s.regs := rfl
@[simp] theorem countN_log (s : State) (i n : Nat) : (s.countN i n).log = s.log := rfl
@[simp] theorem countN_trace (s : State) (i n : Nat) : (s.countN i n).trace = s.trace := rfl
@[simp] theorem countN_press (s : State) (i n : Nat) : (s.countN i n).press = s.press := rfl
@[simp] theorem countN_run (s : State) (i n : Nat) : (s.countN i n).run = s.run := rfl
@[simp] theorem countN_web (s : State) (i n : Nat) : (s.countN i n).web = s.web := rfl
@[simp] theorem countN_tables (s : State) (i n : Nat) : (s.countN i n).tables = s.tables := rfl
@[simp] theorem countN_store (s : State) (i n : Nat) : (s.countN i n).store = s.store := rfl
@[simp] theorem countN_path (s : State) (i n : Nat) : (s.countN i n).path = s.path := rfl
@[simp] theorem countN_link (s : State) (i n : Nat) : (s.countN i n).link = s.link := rfl
@[simp] theorem countN_cams (s : State) (i n : Nat) : (s.countN i n).cams = s.cams := rfl
@[simp] theorem countN_keep (s : State) (i n : Nat) : (s.countN i n).keep = s.keep := rfl
@[simp] theorem countN_dram (s : State) (i n : Nat) : (s.countN i n).dram = s.dram := rfl
@[simp] theorem countN_boot (s : State) (i n : Nat) : (s.countN i n).boot = s.boot := rfl
@[simp] theorem countN_net (s : State) (i n : Nat) : (s.countN i n).net = s.net := rfl
@[simp] theorem countN_thermal (s : State) (i n : Nat) : (s.countN i n).thermal = s.thermal := rfl
@[simp] theorem countN_draws (s : State) (i n : Nat) : (s.countN i n).draws = s.draws := rfl

@[simp] theorem count_pending (s : State) (i : Nat) : (s.count i).pending = s.pending := rfl
@[simp] theorem count_dev (s : State) (i : Nat) : (s.count i).dev = s.dev := rfl
@[simp] theorem count_fault (s : State) (i : Nat) : (s.count i).fault = s.fault := rfl
@[simp] theorem count_clk (s : State) (i : Nat) : (s.count i).clk = s.clk := rfl
@[simp] theorem count_host (s : State) (i : Nat) : (s.count i).host = s.host := rfl
@[simp] theorem count_regs (s : State) (i : Nat) : (s.count i).regs = s.regs := rfl
@[simp] theorem count_log (s : State) (i : Nat) : (s.count i).log = s.log := rfl
@[simp] theorem count_trace (s : State) (i : Nat) : (s.count i).trace = s.trace := rfl
@[simp] theorem count_press (s : State) (i : Nat) : (s.count i).press = s.press := rfl
@[simp] theorem count_run (s : State) (i : Nat) : (s.count i).run = s.run := rfl
@[simp] theorem count_web (s : State) (i : Nat) : (s.count i).web = s.web := rfl
@[simp] theorem count_tables (s : State) (i : Nat) : (s.count i).tables = s.tables := rfl
@[simp] theorem count_store (s : State) (i : Nat) : (s.count i).store = s.store := rfl
@[simp] theorem count_path (s : State) (i : Nat) : (s.count i).path = s.path := rfl
@[simp] theorem count_link (s : State) (i : Nat) : (s.count i).link = s.link := rfl
@[simp] theorem count_cams (s : State) (i : Nat) : (s.count i).cams = s.cams := rfl
@[simp] theorem count_keep (s : State) (i : Nat) : (s.count i).keep = s.keep := rfl
@[simp] theorem count_dram (s : State) (i : Nat) : (s.count i).dram = s.dram := rfl
@[simp] theorem count_boot (s : State) (i : Nat) : (s.count i).boot = s.boot := rfl
@[simp] theorem count_net (s : State) (i : Nat) : (s.count i).net = s.net := rfl
@[simp] theorem count_thermal (s : State) (i : Nat) : (s.count i).thermal = s.thermal := rfl
@[simp] theorem count_draws (s : State) (i : Nat) : (s.count i).draws = s.draws := rfl

@[simp] theorem signal_pending (s : State) (v : Nat) : (s.signal v).pending = s.pending := by unfold State.signal; split <;> rfl
@[simp] theorem signal_dev (s : State) (v : Nat) : (s.signal v).dev = s.dev := by unfold State.signal; split <;> rfl
@[simp] theorem signal_fault (s : State) (v : Nat) : (s.signal v).fault = s.fault := by unfold State.signal; split <;> rfl
@[simp] theorem signal_clk (s : State) (v : Nat) : (s.signal v).clk = s.clk := by unfold State.signal; split <;> rfl
@[simp] theorem signal_regs (s : State) (v : Nat) : (s.signal v).regs = s.regs := by unfold State.signal; split <;> rfl
@[simp] theorem signal_counters (s : State) (v : Nat) : (s.signal v).counters = s.counters := by unfold State.signal; split <;> rfl
@[simp] theorem signal_log (s : State) (v : Nat) : (s.signal v).log = s.log := by unfold State.signal; split <;> rfl
@[simp] theorem signal_trace (s : State) (v : Nat) : (s.signal v).trace = s.trace := by unfold State.signal; split <;> rfl
@[simp] theorem signal_press (s : State) (v : Nat) : (s.signal v).press = s.press := by unfold State.signal; split <;> rfl
@[simp] theorem signal_run (s : State) (v : Nat) : (s.signal v).run = s.run := by unfold State.signal; split <;> rfl
@[simp] theorem signal_web (s : State) (v : Nat) : (s.signal v).web = s.web := by unfold State.signal; split <;> rfl
@[simp] theorem signal_tables (s : State) (v : Nat) : (s.signal v).tables = s.tables := by unfold State.signal; split <;> rfl
@[simp] theorem signal_store (s : State) (v : Nat) : (s.signal v).store = s.store := by unfold State.signal; split <;> rfl
@[simp] theorem signal_path (s : State) (v : Nat) : (s.signal v).path = s.path := by unfold State.signal; split <;> rfl
@[simp] theorem signal_link (s : State) (v : Nat) : (s.signal v).link = s.link := by unfold State.signal; split <;> rfl
@[simp] theorem signal_cams (s : State) (v : Nat) : (s.signal v).cams = s.cams := by unfold State.signal; split <;> rfl
@[simp] theorem signal_keep (s : State) (v : Nat) : (s.signal v).keep = s.keep := by unfold State.signal; split <;> rfl
@[simp] theorem signal_dram (s : State) (v : Nat) : (s.signal v).dram = s.dram := by unfold State.signal; split <;> rfl
@[simp] theorem signal_boot (s : State) (v : Nat) : (s.signal v).boot = s.boot := by unfold State.signal; split <;> rfl
@[simp] theorem signal_net (s : State) (v : Nat) : (s.signal v).net = s.net := by unfold State.signal; split <;> rfl
@[simp] theorem signal_thermal (s : State) (v : Nat) : (s.signal v).thermal = s.thermal := by unfold State.signal; split <;> rfl
@[simp] theorem signal_draws (s : State) (v : Nat) : (s.signal v).draws = s.draws := by unfold State.signal; split <;> rfl

@[simp] theorem traceWrite_pending (s : State) (l : List Byte) : (s.traceWrite l).pending = s.pending := rfl
@[simp] theorem traceWrite_dev (s : State) (l : List Byte) : (s.traceWrite l).dev = s.dev := rfl
@[simp] theorem traceWrite_fault (s : State) (l : List Byte) : (s.traceWrite l).fault = s.fault := rfl
@[simp] theorem traceWrite_clk (s : State) (l : List Byte) : (s.traceWrite l).clk = s.clk := rfl
@[simp] theorem traceWrite_host (s : State) (l : List Byte) : (s.traceWrite l).host = s.host := rfl
@[simp] theorem traceWrite_regs (s : State) (l : List Byte) : (s.traceWrite l).regs = s.regs := rfl
@[simp] theorem traceWrite_counters (s : State) (l : List Byte) : (s.traceWrite l).counters = s.counters := rfl
@[simp] theorem traceWrite_log (s : State) (l : List Byte) : (s.traceWrite l).log = s.log := rfl
@[simp] theorem traceWrite_press (s : State) (l : List Byte) : (s.traceWrite l).press = s.press := rfl
@[simp] theorem traceWrite_run (s : State) (l : List Byte) : (s.traceWrite l).run = s.run := rfl
@[simp] theorem traceWrite_web (s : State) (l : List Byte) : (s.traceWrite l).web = s.web := rfl
@[simp] theorem traceWrite_tables (s : State) (l : List Byte) : (s.traceWrite l).tables = s.tables := rfl
@[simp] theorem traceWrite_store (s : State) (l : List Byte) : (s.traceWrite l).store = s.store := rfl
@[simp] theorem traceWrite_path (s : State) (l : List Byte) : (s.traceWrite l).path = s.path := rfl
@[simp] theorem traceWrite_link (s : State) (l : List Byte) : (s.traceWrite l).link = s.link := rfl
@[simp] theorem traceWrite_cams (s : State) (l : List Byte) : (s.traceWrite l).cams = s.cams := rfl
@[simp] theorem traceWrite_keep (s : State) (l : List Byte) : (s.traceWrite l).keep = s.keep := rfl
@[simp] theorem traceWrite_dram (s : State) (l : List Byte) : (s.traceWrite l).dram = s.dram := rfl
@[simp] theorem traceWrite_boot (s : State) (l : List Byte) : (s.traceWrite l).boot = s.boot := rfl
@[simp] theorem traceWrite_net (s : State) (l : List Byte) : (s.traceWrite l).net = s.net := rfl
@[simp] theorem traceWrite_thermal (s : State) (l : List Byte) : (s.traceWrite l).thermal = s.thermal := rfl
@[simp] theorem traceWrite_draws (s : State) (l : List Byte) : (s.traceWrite l).draws = s.draws := rfl

@[simp] theorem traceRec_pending (s : State) (a b : Nat) (l : List Byte) : (s.traceRec a b l).pending = s.pending := by unfold State.traceRec; simp only []; split <;> rfl
@[simp] theorem traceRec_dev (s : State) (a b : Nat) (l : List Byte) : (s.traceRec a b l).dev = s.dev := by unfold State.traceRec; simp only []; split <;> rfl
@[simp] theorem traceRec_fault (s : State) (a b : Nat) (l : List Byte) : (s.traceRec a b l).fault = s.fault := by unfold State.traceRec; simp only []; split <;> rfl
@[simp] theorem traceRec_clk (s : State) (a b : Nat) (l : List Byte) : (s.traceRec a b l).clk = s.clk := by unfold State.traceRec; simp only []; split <;> rfl
@[simp] theorem traceRec_host (s : State) (a b : Nat) (l : List Byte) : (s.traceRec a b l).host = s.host := by unfold State.traceRec; simp only []; split <;> rfl
@[simp] theorem traceRec_regs (s : State) (a b : Nat) (l : List Byte) : (s.traceRec a b l).regs = s.regs := by unfold State.traceRec; simp only []; split <;> rfl
@[simp] theorem traceRec_counters (s : State) (a b : Nat) (l : List Byte) : (s.traceRec a b l).counters = s.counters := by unfold State.traceRec; simp only []; split <;> rfl
@[simp] theorem traceRec_log (s : State) (a b : Nat) (l : List Byte) : (s.traceRec a b l).log = s.log := by unfold State.traceRec; simp only []; split <;> rfl
@[simp] theorem traceRec_press (s : State) (a b : Nat) (l : List Byte) : (s.traceRec a b l).press = s.press := by unfold State.traceRec; simp only []; split <;> rfl
@[simp] theorem traceRec_run (s : State) (a b : Nat) (l : List Byte) : (s.traceRec a b l).run = s.run := by unfold State.traceRec; simp only []; split <;> rfl
@[simp] theorem traceRec_web (s : State) (a b : Nat) (l : List Byte) : (s.traceRec a b l).web = s.web := by unfold State.traceRec; simp only []; split <;> rfl
@[simp] theorem traceRec_tables (s : State) (a b : Nat) (l : List Byte) : (s.traceRec a b l).tables = s.tables := by unfold State.traceRec; simp only []; split <;> rfl
@[simp] theorem traceRec_store (s : State) (a b : Nat) (l : List Byte) : (s.traceRec a b l).store = s.store := by unfold State.traceRec; simp only []; split <;> rfl
@[simp] theorem traceRec_path (s : State) (a b : Nat) (l : List Byte) : (s.traceRec a b l).path = s.path := by unfold State.traceRec; simp only []; split <;> rfl
@[simp] theorem traceRec_link (s : State) (a b : Nat) (l : List Byte) : (s.traceRec a b l).link = s.link := by unfold State.traceRec; simp only []; split <;> rfl
@[simp] theorem traceRec_cams (s : State) (a b : Nat) (l : List Byte) : (s.traceRec a b l).cams = s.cams := by unfold State.traceRec; simp only []; split <;> rfl
@[simp] theorem traceRec_keep (s : State) (a b : Nat) (l : List Byte) : (s.traceRec a b l).keep = s.keep := by unfold State.traceRec; simp only []; split <;> rfl
@[simp] theorem traceRec_dram (s : State) (a b : Nat) (l : List Byte) : (s.traceRec a b l).dram = s.dram := by unfold State.traceRec; simp only []; split <;> rfl
@[simp] theorem traceRec_boot (s : State) (a b : Nat) (l : List Byte) : (s.traceRec a b l).boot = s.boot := by unfold State.traceRec; simp only []; split <;> rfl
@[simp] theorem traceRec_net (s : State) (a b : Nat) (l : List Byte) : (s.traceRec a b l).net = s.net := by unfold State.traceRec; simp only []; split <;> rfl
@[simp] theorem traceRec_thermal (s : State) (a b : Nat) (l : List Byte) : (s.traceRec a b l).thermal = s.thermal := by unfold State.traceRec; simp only []; split <;> rfl
@[simp] theorem traceRec_draws (s : State) (a b : Nat) (l : List Byte) : (s.traceRec a b l).draws = s.draws := by unfold State.traceRec; simp only []; split <;> rfl

@[simp] theorem raise_pending (s : State) (i : Nat) : (s.raise i).pending = s.pending := by unfold State.raise; simp only []; split <;> simp
@[simp] theorem raise_dev (s : State) (i : Nat) : (s.raise i).dev = s.dev := by unfold State.raise; simp only []; split <;> simp
@[simp] theorem raise_fault (s : State) (i : Nat) : (s.raise i).fault = s.fault := by unfold State.raise; simp only []; split <;> simp
@[simp] theorem raise_clk (s : State) (i : Nat) : (s.raise i).clk = s.clk := by unfold State.raise; simp only []; split <;> simp
@[simp] theorem raise_regs (s : State) (i : Nat) : (s.raise i).regs = s.regs := by unfold State.raise; simp only []; split <;> simp
@[simp] theorem raise_counters (s : State) (i : Nat) : (s.raise i).counters = s.counters := by unfold State.raise; simp only []; split <;> simp
@[simp] theorem raise_log (s : State) (i : Nat) : (s.raise i).log = s.log := by unfold State.raise; simp only []; split <;> simp
@[simp] theorem raise_press (s : State) (i : Nat) : (s.raise i).press = s.press := by unfold State.raise; simp only []; split <;> simp
@[simp] theorem raise_run (s : State) (i : Nat) : (s.raise i).run = s.run := by unfold State.raise; simp only []; split <;> simp
@[simp] theorem raise_web (s : State) (i : Nat) : (s.raise i).web = s.web := by unfold State.raise; simp only []; split <;> simp
@[simp] theorem raise_tables (s : State) (i : Nat) : (s.raise i).tables = s.tables := by unfold State.raise; simp only []; split <;> simp
@[simp] theorem raise_store (s : State) (i : Nat) : (s.raise i).store = s.store := by unfold State.raise; simp only []; split <;> simp
@[simp] theorem raise_path (s : State) (i : Nat) : (s.raise i).path = s.path := by unfold State.raise; simp only []; split <;> simp
@[simp] theorem raise_link (s : State) (i : Nat) : (s.raise i).link = s.link := by unfold State.raise; simp only []; split <;> simp
@[simp] theorem raise_cams (s : State) (i : Nat) : (s.raise i).cams = s.cams := by unfold State.raise; simp only []; split <;> simp
@[simp] theorem raise_keep (s : State) (i : Nat) : (s.raise i).keep = s.keep := by unfold State.raise; simp only []; split <;> simp
@[simp] theorem raise_dram (s : State) (i : Nat) : (s.raise i).dram = s.dram := by unfold State.raise; simp only []; split <;> simp
@[simp] theorem raise_boot (s : State) (i : Nat) : (s.raise i).boot = s.boot := by unfold State.raise; simp only []; split <;> simp
@[simp] theorem raise_net (s : State) (i : Nat) : (s.raise i).net = s.net := by unfold State.raise; simp only []; split <;> simp
@[simp] theorem raise_thermal (s : State) (i : Nat) : (s.raise i).thermal = s.thermal := by unfold State.raise; simp only []; split <;> simp
@[simp] theorem raise_draws (s : State) (i : Nat) : (s.raise i).draws = s.draws := by unfold State.raise; simp only []; split <;> simp

@[simp] theorem report_pending (s : State) (c : Nat) (k : List Byte) (v : Nat) (l : List Byte) : (s.report c k v l).pending = s.pending := rfl
@[simp] theorem report_dev (s : State) (c : Nat) (k : List Byte) (v : Nat) (l : List Byte) : (s.report c k v l).dev = s.dev := rfl
@[simp] theorem report_fault (s : State) (c : Nat) (k : List Byte) (v : Nat) (l : List Byte) : (s.report c k v l).fault = s.fault := rfl
@[simp] theorem report_clk (s : State) (c : Nat) (k : List Byte) (v : Nat) (l : List Byte) : (s.report c k v l).clk = s.clk := rfl
@[simp] theorem report_host (s : State) (c : Nat) (k : List Byte) (v : Nat) (l : List Byte) : (s.report c k v l).host = s.host := rfl
@[simp] theorem report_regs (s : State) (c : Nat) (k : List Byte) (v : Nat) (l : List Byte) : (s.report c k v l).regs = s.regs := rfl
@[simp] theorem report_counters (s : State) (c : Nat) (k : List Byte) (v : Nat) (l : List Byte) : (s.report c k v l).counters = s.counters := rfl
@[simp] theorem report_trace (s : State) (c : Nat) (k : List Byte) (v : Nat) (l : List Byte) : (s.report c k v l).trace = s.trace := rfl
@[simp] theorem report_press (s : State) (c : Nat) (k : List Byte) (v : Nat) (l : List Byte) : (s.report c k v l).press = s.press := rfl
@[simp] theorem report_run (s : State) (c : Nat) (k : List Byte) (v : Nat) (l : List Byte) : (s.report c k v l).run = s.run := rfl
@[simp] theorem report_web (s : State) (c : Nat) (k : List Byte) (v : Nat) (l : List Byte) : (s.report c k v l).web = s.web := rfl
@[simp] theorem report_tables (s : State) (c : Nat) (k : List Byte) (v : Nat) (l : List Byte) : (s.report c k v l).tables = s.tables := rfl
@[simp] theorem report_store (s : State) (c : Nat) (k : List Byte) (v : Nat) (l : List Byte) : (s.report c k v l).store = s.store := rfl
@[simp] theorem report_path (s : State) (c : Nat) (k : List Byte) (v : Nat) (l : List Byte) : (s.report c k v l).path = s.path := rfl
@[simp] theorem report_link (s : State) (c : Nat) (k : List Byte) (v : Nat) (l : List Byte) : (s.report c k v l).link = s.link := rfl
@[simp] theorem report_cams (s : State) (c : Nat) (k : List Byte) (v : Nat) (l : List Byte) : (s.report c k v l).cams = s.cams := rfl
@[simp] theorem report_keep (s : State) (c : Nat) (k : List Byte) (v : Nat) (l : List Byte) : (s.report c k v l).keep = s.keep := rfl
@[simp] theorem report_dram (s : State) (c : Nat) (k : List Byte) (v : Nat) (l : List Byte) : (s.report c k v l).dram = s.dram := rfl
@[simp] theorem report_boot (s : State) (c : Nat) (k : List Byte) (v : Nat) (l : List Byte) : (s.report c k v l).boot = s.boot := rfl
@[simp] theorem report_net (s : State) (c : Nat) (k : List Byte) (v : Nat) (l : List Byte) : (s.report c k v l).net = s.net := rfl
@[simp] theorem report_thermal (s : State) (c : Nat) (k : List Byte) (v : Nat) (l : List Byte) : (s.report c k v l).thermal = s.thermal := rfl
@[simp] theorem report_draws (s : State) (c : Nat) (k : List Byte) (v : Nat) (l : List Byte) : (s.report c k v l).draws = s.draws := rfl

@[simp] theorem reportFollow_pending (s : State) (c : Nat) (k : List Byte) (v : Nat) (l : List Byte) : (s.reportFollow c k v l).pending = s.pending := rfl
@[simp] theorem reportFollow_dev (s : State) (c : Nat) (k : List Byte) (v : Nat) (l : List Byte) : (s.reportFollow c k v l).dev = s.dev := rfl
@[simp] theorem reportFollow_fault (s : State) (c : Nat) (k : List Byte) (v : Nat) (l : List Byte) : (s.reportFollow c k v l).fault = s.fault := rfl
@[simp] theorem reportFollow_clk (s : State) (c : Nat) (k : List Byte) (v : Nat) (l : List Byte) : (s.reportFollow c k v l).clk = s.clk := rfl
@[simp] theorem reportFollow_host (s : State) (c : Nat) (k : List Byte) (v : Nat) (l : List Byte) : (s.reportFollow c k v l).host = s.host := rfl
@[simp] theorem reportFollow_regs (s : State) (c : Nat) (k : List Byte) (v : Nat) (l : List Byte) : (s.reportFollow c k v l).regs = s.regs := rfl
@[simp] theorem reportFollow_counters (s : State) (c : Nat) (k : List Byte) (v : Nat) (l : List Byte) : (s.reportFollow c k v l).counters = s.counters := rfl
@[simp] theorem reportFollow_trace (s : State) (c : Nat) (k : List Byte) (v : Nat) (l : List Byte) : (s.reportFollow c k v l).trace = s.trace := rfl
@[simp] theorem reportFollow_press (s : State) (c : Nat) (k : List Byte) (v : Nat) (l : List Byte) : (s.reportFollow c k v l).press = s.press := rfl
@[simp] theorem reportFollow_run (s : State) (c : Nat) (k : List Byte) (v : Nat) (l : List Byte) : (s.reportFollow c k v l).run = s.run := rfl
@[simp] theorem reportFollow_web (s : State) (c : Nat) (k : List Byte) (v : Nat) (l : List Byte) : (s.reportFollow c k v l).web = s.web := rfl
@[simp] theorem reportFollow_tables (s : State) (c : Nat) (k : List Byte) (v : Nat) (l : List Byte) : (s.reportFollow c k v l).tables = s.tables := rfl
@[simp] theorem reportFollow_store (s : State) (c : Nat) (k : List Byte) (v : Nat) (l : List Byte) : (s.reportFollow c k v l).store = s.store := rfl
@[simp] theorem reportFollow_path (s : State) (c : Nat) (k : List Byte) (v : Nat) (l : List Byte) : (s.reportFollow c k v l).path = s.path := rfl
@[simp] theorem reportFollow_link (s : State) (c : Nat) (k : List Byte) (v : Nat) (l : List Byte) : (s.reportFollow c k v l).link = s.link := rfl
@[simp] theorem reportFollow_cams (s : State) (c : Nat) (k : List Byte) (v : Nat) (l : List Byte) : (s.reportFollow c k v l).cams = s.cams := rfl
@[simp] theorem reportFollow_keep (s : State) (c : Nat) (k : List Byte) (v : Nat) (l : List Byte) : (s.reportFollow c k v l).keep = s.keep := rfl
@[simp] theorem reportFollow_dram (s : State) (c : Nat) (k : List Byte) (v : Nat) (l : List Byte) : (s.reportFollow c k v l).dram = s.dram := rfl
@[simp] theorem reportFollow_boot (s : State) (c : Nat) (k : List Byte) (v : Nat) (l : List Byte) : (s.reportFollow c k v l).boot = s.boot := rfl
@[simp] theorem reportFollow_net (s : State) (c : Nat) (k : List Byte) (v : Nat) (l : List Byte) : (s.reportFollow c k v l).net = s.net := rfl
@[simp] theorem reportFollow_thermal (s : State) (c : Nat) (k : List Byte) (v : Nat) (l : List Byte) : (s.reportFollow c k v l).thermal = s.thermal := rfl
@[simp] theorem reportFollow_draws (s : State) (c : Nat) (k : List Byte) (v : Nat) (l : List Byte) : (s.reportFollow c k v l).draws = s.draws := rfl

@[simp] theorem oweLess_pending (s : State) (r n : Nat) : (s.oweLess r n).pending = s.pending := rfl
@[simp] theorem oweLess_dev (s : State) (r n : Nat) : (s.oweLess r n).dev = s.dev := rfl
@[simp] theorem oweLess_fault (s : State) (r n : Nat) : (s.oweLess r n).fault = s.fault := rfl
@[simp] theorem oweLess_clk (s : State) (r n : Nat) : (s.oweLess r n).clk = s.clk := rfl
@[simp] theorem oweLess_regs (s : State) (r n : Nat) : (s.oweLess r n).regs = s.regs := rfl
@[simp] theorem oweLess_counters (s : State) (r n : Nat) : (s.oweLess r n).counters = s.counters := rfl
@[simp] theorem oweLess_log (s : State) (r n : Nat) : (s.oweLess r n).log = s.log := rfl
@[simp] theorem oweLess_trace (s : State) (r n : Nat) : (s.oweLess r n).trace = s.trace := rfl
@[simp] theorem oweLess_press (s : State) (r n : Nat) : (s.oweLess r n).press = s.press := rfl
@[simp] theorem oweLess_run (s : State) (r n : Nat) : (s.oweLess r n).run = s.run := rfl
@[simp] theorem oweLess_web (s : State) (r n : Nat) : (s.oweLess r n).web = s.web := rfl
@[simp] theorem oweLess_tables (s : State) (r n : Nat) : (s.oweLess r n).tables = s.tables := rfl
@[simp] theorem oweLess_store (s : State) (r n : Nat) : (s.oweLess r n).store = s.store := rfl
@[simp] theorem oweLess_path (s : State) (r n : Nat) : (s.oweLess r n).path = s.path := rfl
@[simp] theorem oweLess_link (s : State) (r n : Nat) : (s.oweLess r n).link = s.link := rfl
@[simp] theorem oweLess_cams (s : State) (r n : Nat) : (s.oweLess r n).cams = s.cams := rfl
@[simp] theorem oweLess_keep (s : State) (r n : Nat) : (s.oweLess r n).keep = s.keep := rfl
@[simp] theorem oweLess_dram (s : State) (r n : Nat) : (s.oweLess r n).dram = s.dram := rfl
@[simp] theorem oweLess_boot (s : State) (r n : Nat) : (s.oweLess r n).boot = s.boot := rfl
@[simp] theorem oweLess_net (s : State) (r n : Nat) : (s.oweLess r n).net = s.net := rfl
@[simp] theorem oweLess_thermal (s : State) (r n : Nat) : (s.oweLess r n).thermal = s.thermal := rfl
@[simp] theorem oweLess_draws (s : State) (r n : Nat) : (s.oweLess r n).draws = s.draws := rfl

@[simp] theorem putReply_pending (s : State) (r : Reply) : (s.putReply r).pending = s.pending := by unfold State.putReply; simp only []; split <;> (try split) <;> simp
@[simp] theorem putReply_dev (s : State) (r : Reply) : (s.putReply r).dev = s.dev := by unfold State.putReply; simp only []; split <;> (try split) <;> simp
@[simp] theorem putReply_fault (s : State) (r : Reply) : (s.putReply r).fault = s.fault := by unfold State.putReply; simp only []; split <;> (try split) <;> simp
@[simp] theorem putReply_clk (s : State) (r : Reply) : (s.putReply r).clk = s.clk := by unfold State.putReply; simp only []; split <;> (try split) <;> simp
@[simp] theorem putReply_regs (s : State) (r : Reply) : (s.putReply r).regs = s.regs := by unfold State.putReply; simp only []; split <;> (try split) <;> simp
@[simp] theorem putReply_counters (s : State) (r : Reply) : (s.putReply r).counters = s.counters := by unfold State.putReply; simp only []; split <;> (try split) <;> simp
@[simp] theorem putReply_log (s : State) (r : Reply) : (s.putReply r).log = s.log := by unfold State.putReply; simp only []; split <;> (try split) <;> simp
@[simp] theorem putReply_press (s : State) (r : Reply) : (s.putReply r).press = s.press := by unfold State.putReply; simp only []; split <;> (try split) <;> simp
@[simp] theorem putReply_run (s : State) (r : Reply) : (s.putReply r).run = s.run := by unfold State.putReply; simp only []; split <;> (try split) <;> simp
@[simp] theorem putReply_web (s : State) (r : Reply) : (s.putReply r).web = s.web := by unfold State.putReply; simp only []; split <;> (try split) <;> simp
@[simp] theorem putReply_tables (s : State) (r : Reply) : (s.putReply r).tables = s.tables := by unfold State.putReply; simp only []; split <;> (try split) <;> simp
@[simp] theorem putReply_store (s : State) (r : Reply) : (s.putReply r).store = s.store := by unfold State.putReply; simp only []; split <;> (try split) <;> simp
@[simp] theorem putReply_path (s : State) (r : Reply) : (s.putReply r).path = s.path := by unfold State.putReply; simp only []; split <;> (try split) <;> simp
@[simp] theorem putReply_link (s : State) (r : Reply) : (s.putReply r).link = s.link := by unfold State.putReply; simp only []; split <;> (try split) <;> simp
@[simp] theorem putReply_cams (s : State) (r : Reply) : (s.putReply r).cams = s.cams := by unfold State.putReply; simp only []; split <;> (try split) <;> simp
@[simp] theorem putReply_keep (s : State) (r : Reply) : (s.putReply r).keep = s.keep := by unfold State.putReply; simp only []; split <;> (try split) <;> simp
@[simp] theorem putReply_dram (s : State) (r : Reply) : (s.putReply r).dram = s.dram := by unfold State.putReply; simp only []; split <;> (try split) <;> simp
@[simp] theorem putReply_boot (s : State) (r : Reply) : (s.putReply r).boot = s.boot := by unfold State.putReply; simp only []; split <;> (try split) <;> simp
@[simp] theorem putReply_net (s : State) (r : Reply) : (s.putReply r).net = s.net := by unfold State.putReply; simp only []; split <;> (try split) <;> simp
@[simp] theorem putReply_thermal (s : State) (r : Reply) : (s.putReply r).thermal = s.thermal := by unfold State.putReply; simp only []; split <;> (try split) <;> simp
@[simp] theorem putReply_draws (s : State) (r : Reply) : (s.putReply r).draws = s.draws := by unfold State.putReply; simp only []; split <;> (try split) <;> simp

@[simp] theorem finalShort_pending (s : State) (o : Bool) (r t c : Nat) (a : Answer) : (s.finalShort o r t c a).pending = s.pending := by unfold State.finalShort; split <;> simp
@[simp] theorem finalShort_dev (s : State) (o : Bool) (r t c : Nat) (a : Answer) : (s.finalShort o r t c a).dev = s.dev := by unfold State.finalShort; split <;> simp
@[simp] theorem finalShort_fault (s : State) (o : Bool) (r t c : Nat) (a : Answer) : (s.finalShort o r t c a).fault = s.fault := by unfold State.finalShort; split <;> simp
@[simp] theorem finalShort_clk (s : State) (o : Bool) (r t c : Nat) (a : Answer) : (s.finalShort o r t c a).clk = s.clk := by unfold State.finalShort; split <;> simp
@[simp] theorem finalShort_regs (s : State) (o : Bool) (r t c : Nat) (a : Answer) : (s.finalShort o r t c a).regs = s.regs := by unfold State.finalShort; split <;> simp
@[simp] theorem finalShort_counters (s : State) (o : Bool) (r t c : Nat) (a : Answer) : (s.finalShort o r t c a).counters = s.counters := by unfold State.finalShort; split <;> simp
@[simp] theorem finalShort_log (s : State) (o : Bool) (r t c : Nat) (a : Answer) : (s.finalShort o r t c a).log = s.log := by unfold State.finalShort; split <;> simp
@[simp] theorem finalShort_press (s : State) (o : Bool) (r t c : Nat) (a : Answer) : (s.finalShort o r t c a).press = s.press := by unfold State.finalShort; split <;> simp
@[simp] theorem finalShort_run (s : State) (o : Bool) (r t c : Nat) (a : Answer) : (s.finalShort o r t c a).run = s.run := by unfold State.finalShort; split <;> simp
@[simp] theorem finalShort_web (s : State) (o : Bool) (r t c : Nat) (a : Answer) : (s.finalShort o r t c a).web = s.web := by unfold State.finalShort; split <;> simp
@[simp] theorem finalShort_tables (s : State) (o : Bool) (r t c : Nat) (a : Answer) : (s.finalShort o r t c a).tables = s.tables := by unfold State.finalShort; split <;> simp
@[simp] theorem finalShort_store (s : State) (o : Bool) (r t c : Nat) (a : Answer) : (s.finalShort o r t c a).store = s.store := by unfold State.finalShort; split <;> simp
@[simp] theorem finalShort_path (s : State) (o : Bool) (r t c : Nat) (a : Answer) : (s.finalShort o r t c a).path = s.path := by unfold State.finalShort; split <;> simp
@[simp] theorem finalShort_link (s : State) (o : Bool) (r t c : Nat) (a : Answer) : (s.finalShort o r t c a).link = s.link := by unfold State.finalShort; split <;> simp
@[simp] theorem finalShort_cams (s : State) (o : Bool) (r t c : Nat) (a : Answer) : (s.finalShort o r t c a).cams = s.cams := by unfold State.finalShort; split <;> simp
@[simp] theorem finalShort_keep (s : State) (o : Bool) (r t c : Nat) (a : Answer) : (s.finalShort o r t c a).keep = s.keep := by unfold State.finalShort; split <;> simp
@[simp] theorem finalShort_dram (s : State) (o : Bool) (r t c : Nat) (a : Answer) : (s.finalShort o r t c a).dram = s.dram := by unfold State.finalShort; split <;> simp
@[simp] theorem finalShort_boot (s : State) (o : Bool) (r t c : Nat) (a : Answer) : (s.finalShort o r t c a).boot = s.boot := by unfold State.finalShort; split <;> simp
@[simp] theorem finalShort_net (s : State) (o : Bool) (r t c : Nat) (a : Answer) : (s.finalShort o r t c a).net = s.net := by unfold State.finalShort; split <;> simp
@[simp] theorem finalShort_thermal (s : State) (o : Bool) (r t c : Nat) (a : Answer) : (s.finalShort o r t c a).thermal = s.thermal := by unfold State.finalShort; split <;> simp
@[simp] theorem finalShort_draws (s : State) (o : Bool) (r t c : Nat) (a : Answer) : (s.finalShort o r t c a).draws = s.draws := by unfold State.finalShort; split <;> simp

@[simp] theorem updLong_pending (s : State) (r t : Nat) (f : LongOp → LongOp) : (s.updLong r t f).pending = s.pending := rfl
@[simp] theorem updLong_dev (s : State) (r t : Nat) (f : LongOp → LongOp) : (s.updLong r t f).dev = s.dev := rfl
@[simp] theorem updLong_fault (s : State) (r t : Nat) (f : LongOp → LongOp) : (s.updLong r t f).fault = s.fault := rfl
@[simp] theorem updLong_clk (s : State) (r t : Nat) (f : LongOp → LongOp) : (s.updLong r t f).clk = s.clk := rfl
@[simp] theorem updLong_regs (s : State) (r t : Nat) (f : LongOp → LongOp) : (s.updLong r t f).regs = s.regs := rfl
@[simp] theorem updLong_counters (s : State) (r t : Nat) (f : LongOp → LongOp) : (s.updLong r t f).counters = s.counters := rfl
@[simp] theorem updLong_log (s : State) (r t : Nat) (f : LongOp → LongOp) : (s.updLong r t f).log = s.log := rfl
@[simp] theorem updLong_trace (s : State) (r t : Nat) (f : LongOp → LongOp) : (s.updLong r t f).trace = s.trace := rfl
@[simp] theorem updLong_press (s : State) (r t : Nat) (f : LongOp → LongOp) : (s.updLong r t f).press = s.press := rfl
@[simp] theorem updLong_run (s : State) (r t : Nat) (f : LongOp → LongOp) : (s.updLong r t f).run = s.run := rfl
@[simp] theorem updLong_web (s : State) (r t : Nat) (f : LongOp → LongOp) : (s.updLong r t f).web = s.web := rfl
@[simp] theorem updLong_tables (s : State) (r t : Nat) (f : LongOp → LongOp) : (s.updLong r t f).tables = s.tables := rfl
@[simp] theorem updLong_store (s : State) (r t : Nat) (f : LongOp → LongOp) : (s.updLong r t f).store = s.store := rfl
@[simp] theorem updLong_path (s : State) (r t : Nat) (f : LongOp → LongOp) : (s.updLong r t f).path = s.path := rfl
@[simp] theorem updLong_link (s : State) (r t : Nat) (f : LongOp → LongOp) : (s.updLong r t f).link = s.link := rfl
@[simp] theorem updLong_cams (s : State) (r t : Nat) (f : LongOp → LongOp) : (s.updLong r t f).cams = s.cams := rfl
@[simp] theorem updLong_keep (s : State) (r t : Nat) (f : LongOp → LongOp) : (s.updLong r t f).keep = s.keep := rfl
@[simp] theorem updLong_dram (s : State) (r t : Nat) (f : LongOp → LongOp) : (s.updLong r t f).dram = s.dram := rfl
@[simp] theorem updLong_boot (s : State) (r t : Nat) (f : LongOp → LongOp) : (s.updLong r t f).boot = s.boot := rfl
@[simp] theorem updLong_net (s : State) (r t : Nat) (f : LongOp → LongOp) : (s.updLong r t f).net = s.net := rfl
@[simp] theorem updLong_thermal (s : State) (r t : Nat) (f : LongOp → LongOp) : (s.updLong r t f).thermal = s.thermal := rfl
@[simp] theorem updLong_draws (s : State) (r t : Nat) (f : LongOp → LongOp) : (s.updLong r t f).draws = s.draws := rfl

@[simp] theorem finishOp_pending (s : State) (o : LongOp) (a : Answer) : (s.finishOp o a).pending = s.pending := by unfold State.finishOp; simp only []; split <;> simp
@[simp] theorem finishOp_dev (s : State) (o : LongOp) (a : Answer) : (s.finishOp o a).dev = s.dev := by unfold State.finishOp; simp only []; split <;> simp
@[simp] theorem finishOp_fault (s : State) (o : LongOp) (a : Answer) : (s.finishOp o a).fault = s.fault := by unfold State.finishOp; simp only []; split <;> simp
@[simp] theorem finishOp_clk (s : State) (o : LongOp) (a : Answer) : (s.finishOp o a).clk = s.clk := by unfold State.finishOp; simp only []; split <;> simp
@[simp] theorem finishOp_regs (s : State) (o : LongOp) (a : Answer) : (s.finishOp o a).regs = s.regs := by unfold State.finishOp; simp only []; split <;> simp
@[simp] theorem finishOp_counters (s : State) (o : LongOp) (a : Answer) : (s.finishOp o a).counters = s.counters := by unfold State.finishOp; simp only []; split <;> simp
@[simp] theorem finishOp_log (s : State) (o : LongOp) (a : Answer) : (s.finishOp o a).log = s.log := by unfold State.finishOp; simp only []; split <;> simp
@[simp] theorem finishOp_press (s : State) (o : LongOp) (a : Answer) : (s.finishOp o a).press = s.press := by unfold State.finishOp; simp only []; split <;> simp
@[simp] theorem finishOp_run (s : State) (o : LongOp) (a : Answer) : (s.finishOp o a).run = s.run := by unfold State.finishOp; simp only []; split <;> simp
@[simp] theorem finishOp_web (s : State) (o : LongOp) (a : Answer) : (s.finishOp o a).web = s.web := by unfold State.finishOp; simp only []; split <;> simp
@[simp] theorem finishOp_tables (s : State) (o : LongOp) (a : Answer) : (s.finishOp o a).tables = s.tables := by unfold State.finishOp; simp only []; split <;> simp
@[simp] theorem finishOp_store (s : State) (o : LongOp) (a : Answer) : (s.finishOp o a).store = s.store := by unfold State.finishOp; simp only []; split <;> simp
@[simp] theorem finishOp_path (s : State) (o : LongOp) (a : Answer) : (s.finishOp o a).path = s.path := by unfold State.finishOp; simp only []; split <;> simp
@[simp] theorem finishOp_link (s : State) (o : LongOp) (a : Answer) : (s.finishOp o a).link = s.link := by unfold State.finishOp; simp only []; split <;> simp
@[simp] theorem finishOp_cams (s : State) (o : LongOp) (a : Answer) : (s.finishOp o a).cams = s.cams := by unfold State.finishOp; simp only []; split <;> simp
@[simp] theorem finishOp_keep (s : State) (o : LongOp) (a : Answer) : (s.finishOp o a).keep = s.keep := by unfold State.finishOp; simp only []; split <;> simp
@[simp] theorem finishOp_dram (s : State) (o : LongOp) (a : Answer) : (s.finishOp o a).dram = s.dram := by unfold State.finishOp; simp only []; split <;> simp
@[simp] theorem finishOp_boot (s : State) (o : LongOp) (a : Answer) : (s.finishOp o a).boot = s.boot := by unfold State.finishOp; simp only []; split <;> simp
@[simp] theorem finishOp_net (s : State) (o : LongOp) (a : Answer) : (s.finishOp o a).net = s.net := by unfold State.finishOp; simp only []; split <;> simp
@[simp] theorem finishOp_thermal (s : State) (o : LongOp) (a : Answer) : (s.finishOp o a).thermal = s.thermal := by unfold State.finishOp; simp only []; split <;> simp
@[simp] theorem finishOp_draws (s : State) (o : LongOp) (a : Answer) : (s.finishOp o a).draws = s.draws := by unfold State.finishOp; simp only []; split <;> simp

@[simp] theorem finishLong_pending (s : State) (r t : Nat) (a : Answer) : (s.finishLong r t a).pending = s.pending := by unfold State.finishLong; split <;> simp
@[simp] theorem finishLong_dev (s : State) (r t : Nat) (a : Answer) : (s.finishLong r t a).dev = s.dev := by unfold State.finishLong; split <;> simp
@[simp] theorem finishLong_fault (s : State) (r t : Nat) (a : Answer) : (s.finishLong r t a).fault = s.fault := by unfold State.finishLong; split <;> simp
@[simp] theorem finishLong_clk (s : State) (r t : Nat) (a : Answer) : (s.finishLong r t a).clk = s.clk := by unfold State.finishLong; split <;> simp
@[simp] theorem finishLong_regs (s : State) (r t : Nat) (a : Answer) : (s.finishLong r t a).regs = s.regs := by unfold State.finishLong; split <;> simp
@[simp] theorem finishLong_counters (s : State) (r t : Nat) (a : Answer) : (s.finishLong r t a).counters = s.counters := by unfold State.finishLong; split <;> simp
@[simp] theorem finishLong_log (s : State) (r t : Nat) (a : Answer) : (s.finishLong r t a).log = s.log := by unfold State.finishLong; split <;> simp
@[simp] theorem finishLong_press (s : State) (r t : Nat) (a : Answer) : (s.finishLong r t a).press = s.press := by unfold State.finishLong; split <;> simp
@[simp] theorem finishLong_run (s : State) (r t : Nat) (a : Answer) : (s.finishLong r t a).run = s.run := by unfold State.finishLong; split <;> simp
@[simp] theorem finishLong_web (s : State) (r t : Nat) (a : Answer) : (s.finishLong r t a).web = s.web := by unfold State.finishLong; split <;> simp
@[simp] theorem finishLong_tables (s : State) (r t : Nat) (a : Answer) : (s.finishLong r t a).tables = s.tables := by unfold State.finishLong; split <;> simp
@[simp] theorem finishLong_store (s : State) (r t : Nat) (a : Answer) : (s.finishLong r t a).store = s.store := by unfold State.finishLong; split <;> simp
@[simp] theorem finishLong_path (s : State) (r t : Nat) (a : Answer) : (s.finishLong r t a).path = s.path := by unfold State.finishLong; split <;> simp
@[simp] theorem finishLong_link (s : State) (r t : Nat) (a : Answer) : (s.finishLong r t a).link = s.link := by unfold State.finishLong; split <;> simp
@[simp] theorem finishLong_cams (s : State) (r t : Nat) (a : Answer) : (s.finishLong r t a).cams = s.cams := by unfold State.finishLong; split <;> simp
@[simp] theorem finishLong_keep (s : State) (r t : Nat) (a : Answer) : (s.finishLong r t a).keep = s.keep := by unfold State.finishLong; split <;> simp
@[simp] theorem finishLong_dram (s : State) (r t : Nat) (a : Answer) : (s.finishLong r t a).dram = s.dram := by unfold State.finishLong; split <;> simp
@[simp] theorem finishLong_boot (s : State) (r t : Nat) (a : Answer) : (s.finishLong r t a).boot = s.boot := by unfold State.finishLong; split <;> simp
@[simp] theorem finishLong_net (s : State) (r t : Nat) (a : Answer) : (s.finishLong r t a).net = s.net := by unfold State.finishLong; split <;> simp
@[simp] theorem finishLong_thermal (s : State) (r t : Nat) (a : Answer) : (s.finishLong r t a).thermal = s.thermal := by unfold State.finishLong; split <;> simp
@[simp] theorem finishLong_draws (s : State) (r t : Nat) (a : Answer) : (s.finishLong r t a).draws = s.draws := by unfold State.finishLong; split <;> simp

@[simp] theorem progressTo_pending (s : State) (r t p : Nat) : (s.progressTo r t p).pending = s.pending := by unfold State.progressTo; split <;> (try dsimp only) <;> (repeat' split) <;> simp
@[simp] theorem progressTo_dev (s : State) (r t p : Nat) : (s.progressTo r t p).dev = s.dev := by unfold State.progressTo; split <;> (try dsimp only) <;> (repeat' split) <;> simp
@[simp] theorem progressTo_fault (s : State) (r t p : Nat) : (s.progressTo r t p).fault = s.fault := by unfold State.progressTo; split <;> (try dsimp only) <;> (repeat' split) <;> simp
@[simp] theorem progressTo_clk (s : State) (r t p : Nat) : (s.progressTo r t p).clk = s.clk := by unfold State.progressTo; split <;> (try dsimp only) <;> (repeat' split) <;> simp
@[simp] theorem progressTo_regs (s : State) (r t p : Nat) : (s.progressTo r t p).regs = s.regs := by unfold State.progressTo; split <;> (try dsimp only) <;> (repeat' split) <;> simp
@[simp] theorem progressTo_counters (s : State) (r t p : Nat) : (s.progressTo r t p).counters = s.counters := by unfold State.progressTo; split <;> (try dsimp only) <;> (repeat' split) <;> simp
@[simp] theorem progressTo_log (s : State) (r t p : Nat) : (s.progressTo r t p).log = s.log := by unfold State.progressTo; split <;> (try dsimp only) <;> (repeat' split) <;> simp
@[simp] theorem progressTo_press (s : State) (r t p : Nat) : (s.progressTo r t p).press = s.press := by unfold State.progressTo; split <;> (try dsimp only) <;> (repeat' split) <;> simp
@[simp] theorem progressTo_run (s : State) (r t p : Nat) : (s.progressTo r t p).run = s.run := by unfold State.progressTo; split <;> (try dsimp only) <;> (repeat' split) <;> simp
@[simp] theorem progressTo_web (s : State) (r t p : Nat) : (s.progressTo r t p).web = s.web := by unfold State.progressTo; split <;> (try dsimp only) <;> (repeat' split) <;> simp
@[simp] theorem progressTo_tables (s : State) (r t p : Nat) : (s.progressTo r t p).tables = s.tables := by unfold State.progressTo; split <;> (try dsimp only) <;> (repeat' split) <;> simp
@[simp] theorem progressTo_store (s : State) (r t p : Nat) : (s.progressTo r t p).store = s.store := by unfold State.progressTo; split <;> (try dsimp only) <;> (repeat' split) <;> simp
@[simp] theorem progressTo_path (s : State) (r t p : Nat) : (s.progressTo r t p).path = s.path := by unfold State.progressTo; split <;> (try dsimp only) <;> (repeat' split) <;> simp
@[simp] theorem progressTo_link (s : State) (r t p : Nat) : (s.progressTo r t p).link = s.link := by unfold State.progressTo; split <;> (try dsimp only) <;> (repeat' split) <;> simp
@[simp] theorem progressTo_cams (s : State) (r t p : Nat) : (s.progressTo r t p).cams = s.cams := by unfold State.progressTo; split <;> (try dsimp only) <;> (repeat' split) <;> simp
@[simp] theorem progressTo_keep (s : State) (r t p : Nat) : (s.progressTo r t p).keep = s.keep := by unfold State.progressTo; split <;> (try dsimp only) <;> (repeat' split) <;> simp
@[simp] theorem progressTo_dram (s : State) (r t p : Nat) : (s.progressTo r t p).dram = s.dram := by unfold State.progressTo; split <;> (try dsimp only) <;> (repeat' split) <;> simp
@[simp] theorem progressTo_boot (s : State) (r t p : Nat) : (s.progressTo r t p).boot = s.boot := by unfold State.progressTo; split <;> (try dsimp only) <;> (repeat' split) <;> simp
@[simp] theorem progressTo_net (s : State) (r t p : Nat) : (s.progressTo r t p).net = s.net := by unfold State.progressTo; split <;> (try dsimp only) <;> (repeat' split) <;> simp
@[simp] theorem progressTo_thermal (s : State) (r t p : Nat) : (s.progressTo r t p).thermal = s.thermal := by unfold State.progressTo; split <;> (try dsimp only) <;> (repeat' split) <;> simp
@[simp] theorem progressTo_draws (s : State) (r t p : Nat) : (s.progressTo r t p).draws = s.draws := by unfold State.progressTo; split <;> (try dsimp only) <;> (repeat' split) <;> simp

@[simp] theorem addWait_pending (s : State) (o : Bool) (h : Hdr) (c : CmdInfo) (k : WaitKind) : (s.addWait o h c k).pending = s.pending := rfl
@[simp] theorem addWait_dev (s : State) (o : Bool) (h : Hdr) (c : CmdInfo) (k : WaitKind) : (s.addWait o h c k).dev = s.dev := rfl
@[simp] theorem addWait_fault (s : State) (o : Bool) (h : Hdr) (c : CmdInfo) (k : WaitKind) : (s.addWait o h c k).fault = s.fault := rfl
@[simp] theorem addWait_clk (s : State) (o : Bool) (h : Hdr) (c : CmdInfo) (k : WaitKind) : (s.addWait o h c k).clk = s.clk := rfl
@[simp] theorem addWait_regs (s : State) (o : Bool) (h : Hdr) (c : CmdInfo) (k : WaitKind) : (s.addWait o h c k).regs = s.regs := rfl
@[simp] theorem addWait_counters (s : State) (o : Bool) (h : Hdr) (c : CmdInfo) (k : WaitKind) : (s.addWait o h c k).counters = s.counters := rfl
@[simp] theorem addWait_log (s : State) (o : Bool) (h : Hdr) (c : CmdInfo) (k : WaitKind) : (s.addWait o h c k).log = s.log := rfl
@[simp] theorem addWait_trace (s : State) (o : Bool) (h : Hdr) (c : CmdInfo) (k : WaitKind) : (s.addWait o h c k).trace = s.trace := rfl
@[simp] theorem addWait_press (s : State) (o : Bool) (h : Hdr) (c : CmdInfo) (k : WaitKind) : (s.addWait o h c k).press = s.press := rfl
@[simp] theorem addWait_run (s : State) (o : Bool) (h : Hdr) (c : CmdInfo) (k : WaitKind) : (s.addWait o h c k).run = s.run := rfl
@[simp] theorem addWait_web (s : State) (o : Bool) (h : Hdr) (c : CmdInfo) (k : WaitKind) : (s.addWait o h c k).web = s.web := rfl
@[simp] theorem addWait_tables (s : State) (o : Bool) (h : Hdr) (c : CmdInfo) (k : WaitKind) : (s.addWait o h c k).tables = s.tables := rfl
@[simp] theorem addWait_store (s : State) (o : Bool) (h : Hdr) (c : CmdInfo) (k : WaitKind) : (s.addWait o h c k).store = s.store := rfl
@[simp] theorem addWait_path (s : State) (o : Bool) (h : Hdr) (c : CmdInfo) (k : WaitKind) : (s.addWait o h c k).path = s.path := rfl
@[simp] theorem addWait_link (s : State) (o : Bool) (h : Hdr) (c : CmdInfo) (k : WaitKind) : (s.addWait o h c k).link = s.link := rfl
@[simp] theorem addWait_cams (s : State) (o : Bool) (h : Hdr) (c : CmdInfo) (k : WaitKind) : (s.addWait o h c k).cams = s.cams := rfl
@[simp] theorem addWait_keep (s : State) (o : Bool) (h : Hdr) (c : CmdInfo) (k : WaitKind) : (s.addWait o h c k).keep = s.keep := rfl
@[simp] theorem addWait_dram (s : State) (o : Bool) (h : Hdr) (c : CmdInfo) (k : WaitKind) : (s.addWait o h c k).dram = s.dram := rfl
@[simp] theorem addWait_boot (s : State) (o : Bool) (h : Hdr) (c : CmdInfo) (k : WaitKind) : (s.addWait o h c k).boot = s.boot := rfl
@[simp] theorem addWait_net (s : State) (o : Bool) (h : Hdr) (c : CmdInfo) (k : WaitKind) : (s.addWait o h c k).net = s.net := rfl
@[simp] theorem addWait_thermal (s : State) (o : Bool) (h : Hdr) (c : CmdInfo) (k : WaitKind) : (s.addWait o h c k).thermal = s.thermal := rfl
@[simp] theorem addWait_draws (s : State) (o : Bool) (h : Hdr) (c : CmdInfo) (k : WaitKind) : (s.addWait o h c k).draws = s.draws := rfl

@[simp] theorem endWait_pending (s : State) (w : Wait) (a : Answer) : (s.endWait w a).pending = s.pending := by unfold State.endWait; simp
@[simp] theorem endWait_dev (s : State) (w : Wait) (a : Answer) : (s.endWait w a).dev = s.dev := by unfold State.endWait; simp
@[simp] theorem endWait_fault (s : State) (w : Wait) (a : Answer) : (s.endWait w a).fault = s.fault := by unfold State.endWait; simp
@[simp] theorem endWait_clk (s : State) (w : Wait) (a : Answer) : (s.endWait w a).clk = s.clk := by unfold State.endWait; simp
@[simp] theorem endWait_regs (s : State) (w : Wait) (a : Answer) : (s.endWait w a).regs = s.regs := by unfold State.endWait; simp
@[simp] theorem endWait_counters (s : State) (w : Wait) (a : Answer) : (s.endWait w a).counters = s.counters := by unfold State.endWait; simp
@[simp] theorem endWait_log (s : State) (w : Wait) (a : Answer) : (s.endWait w a).log = s.log := by unfold State.endWait; simp
@[simp] theorem endWait_press (s : State) (w : Wait) (a : Answer) : (s.endWait w a).press = s.press := by unfold State.endWait; simp
@[simp] theorem endWait_run (s : State) (w : Wait) (a : Answer) : (s.endWait w a).run = s.run := by unfold State.endWait; simp
@[simp] theorem endWait_web (s : State) (w : Wait) (a : Answer) : (s.endWait w a).web = s.web := by unfold State.endWait; simp
@[simp] theorem endWait_tables (s : State) (w : Wait) (a : Answer) : (s.endWait w a).tables = s.tables := by unfold State.endWait; simp
@[simp] theorem endWait_store (s : State) (w : Wait) (a : Answer) : (s.endWait w a).store = s.store := by unfold State.endWait; simp
@[simp] theorem endWait_path (s : State) (w : Wait) (a : Answer) : (s.endWait w a).path = s.path := by unfold State.endWait; simp
@[simp] theorem endWait_link (s : State) (w : Wait) (a : Answer) : (s.endWait w a).link = s.link := by unfold State.endWait; simp
@[simp] theorem endWait_cams (s : State) (w : Wait) (a : Answer) : (s.endWait w a).cams = s.cams := by unfold State.endWait; simp
@[simp] theorem endWait_keep (s : State) (w : Wait) (a : Answer) : (s.endWait w a).keep = s.keep := by unfold State.endWait; simp
@[simp] theorem endWait_dram (s : State) (w : Wait) (a : Answer) : (s.endWait w a).dram = s.dram := by unfold State.endWait; simp
@[simp] theorem endWait_boot (s : State) (w : Wait) (a : Answer) : (s.endWait w a).boot = s.boot := by unfold State.endWait; simp
@[simp] theorem endWait_net (s : State) (w : Wait) (a : Answer) : (s.endWait w a).net = s.net := by unfold State.endWait; simp
@[simp] theorem endWait_thermal (s : State) (w : Wait) (a : Answer) : (s.endWait w a).thermal = s.thermal := by unfold State.endWait; simp
@[simp] theorem endWait_draws (s : State) (w : Wait) (a : Answer) : (s.endWait w a).draws = s.draws := by unfold State.endWait; simp

@[simp] theorem at_elapsed (s : State) (t : Time) : (s.at t).clk.elapsed = max s.clk.elapsed t := rfl
@[simp] theorem begun_pending (s : State) (h : Hdr) (c : CmdInfo) : (begun s h c).pending = s.pending := rfl
@[simp] theorem begun_dev (s : State) (h : Hdr) (c : CmdInfo) : (begun s h c).dev = s.dev := rfl
@[simp] theorem begun_fault (s : State) (h : Hdr) (c : CmdInfo) : (begun s h c).fault = s.fault := rfl
@[simp] theorem begun_regs (s : State) (h : Hdr) (c : CmdInfo) : (begun s h c).regs = s.regs := rfl
@[simp] theorem begun_counters (s : State) (h : Hdr) (c : CmdInfo) : (begun s h c).counters = s.counters := rfl
@[simp] theorem begun_log (s : State) (h : Hdr) (c : CmdInfo) : (begun s h c).log = s.log := rfl
@[simp] theorem begun_trace (s : State) (h : Hdr) (c : CmdInfo) : (begun s h c).trace = s.trace := rfl
@[simp] theorem begun_press (s : State) (h : Hdr) (c : CmdInfo) : (begun s h c).press = s.press := rfl
@[simp] theorem begun_run (s : State) (h : Hdr) (c : CmdInfo) : (begun s h c).run = s.run := rfl
@[simp] theorem begun_web (s : State) (h : Hdr) (c : CmdInfo) : (begun s h c).web = s.web := rfl
@[simp] theorem begun_tables (s : State) (h : Hdr) (c : CmdInfo) : (begun s h c).tables = s.tables := rfl
@[simp] theorem begun_store (s : State) (h : Hdr) (c : CmdInfo) : (begun s h c).store = s.store := rfl
@[simp] theorem begun_path (s : State) (h : Hdr) (c : CmdInfo) : (begun s h c).path = s.path := rfl
@[simp] theorem begun_link (s : State) (h : Hdr) (c : CmdInfo) : (begun s h c).link = s.link := rfl
@[simp] theorem begun_cams (s : State) (h : Hdr) (c : CmdInfo) : (begun s h c).cams = s.cams := rfl
@[simp] theorem begun_keep (s : State) (h : Hdr) (c : CmdInfo) : (begun s h c).keep = s.keep := rfl
@[simp] theorem begun_dram (s : State) (h : Hdr) (c : CmdInfo) : (begun s h c).dram = s.dram := rfl
@[simp] theorem begun_boot (s : State) (h : Hdr) (c : CmdInfo) : (begun s h c).boot = s.boot := rfl
@[simp] theorem begun_net (s : State) (h : Hdr) (c : CmdInfo) : (begun s h c).net = s.net := rfl
@[simp] theorem begun_thermal (s : State) (h : Hdr) (c : CmdInfo) : (begun s h c).thermal = s.thermal := rfl
@[simp] theorem begun_draws (s : State) (h : Hdr) (c : CmdInfo) : (begun s h c).draws = s.draws := rfl

end Sys2Proof.Machine
end

