-- ==== Sys2Proof/Tests/Slice0.lean ====
section
/-! SUPPORT. Tests/Slice0.lean: small states, the witnesses of the statements' hypotheses, a smoke test of WellFormed, packets written out
byte by byte from the manual's parameter tables, and single steps whose expected values come from the manual. -/

namespace Sys2Proof.Tests

set_option Elab.async false
set_option linter.unusedVariables false

open Sys2Proof Sys2Proof.Machine

/-! ## Small states -/

/-- A served ring of 16 entries. -/
def tRing : Ring := { Ring.reset with enabled := true, cmdBase := 4096, replyBase := 8192, log2 := 4 }

/-- A device that is up in a state, with rings 0 and 1 served. -/
def up (d : DevState) : State :=
  { State.reset with
    dev := d
    host := { HostIf.reset with linkUp := true, rings := [(0, tRing), (1, tRing)] }
    boot := { BootUnit.reset with path := .up } }

def hdr : Hdr := { ring := 0, tag := 1, flags := 0, paramLen := 56, rsv := false, paramRsv := false, t := 0 }
def opr : OpRef := { ring := 0, tag := 1, t := 0 }

def onHost (f : HostIf → HostIf) (s : State) : State := { s with host := f s.host }
def onRun (f : Run → Run) (s : State) : State := { s with run := f s.run }
def onWeb (f : Web → Web) (s : State) : State := { s with web := f s.web }
def onLink (f : Link → Link) (s : State) : State := { s with link := f s.link }
def onBoot (f : BootUnit → BootUnit) (s : State) : State := { s with boot := f s.boot }
def onNet (f : Net → Net) (s : State) : State := { s with net := f s.net }
def onLead (f : LeadUnit → LeadUnit) (s : State) : State := { s with net := { s.net with lead := f s.net.lead } }
def onThermal (f : Thermal → Thermal) (s : State) : State := { s with thermal := f s.thermal }
def onStore (f : Store → Store) (s : State) : State := { s with store := f s.store }
def onKeep (f : Keeping → Keeping) (s : State) : State := { s with keep := f s.keep }
def onDram (f : Dram → Dram) (s : State) : State := { s with dram := f s.dram }
def onPath (f : PrintPath → PrintPath) (s : State) : State := { s with path := f s.path }
def onLog (f : LogUnit → LogUnit) (s : State) : State := { s with log := f s.log }

/-- A running long operation of ring 0 and TAG 1 whose final reply is owed. -/
def longRec (opcode : Nat) : LongOp :=
  { ring := 0, tag := 1, opcode := opcode, orphan := false, progress := 0, pos := false, quiet := false, skipped := false
    lastProgress := 0, lastAt := 0, acceptedAt := 0 }

def running (opcode : Nat) (s : State) : State :=
  onHost (fun x => { x with longOps := [longRec opcode], rings := [(0, { tRing with owed := 1 }), (1, tRing)] }) s

/-- A command of ring 0 whose reply waits. -/
def waitRec (opcode : Nat) (k : WaitKind) : Wait := { ring := 0, tag := 1, opcode := opcode, orphan := false, since := 0, kind := k }

def waiting (opcode : Nat) (k : WaitKind) (s : State) : State :=
  onHost (fun x => { x with waits := [waitRec opcode k], rings := [(0, { tRing with owed := 1 }), (1, tRing)] }) s

/-- One device with one head, in bar 0 slot 0. -/
def tPress : Press :=
  { index := 0, devices := 1, barMask := 1, gateFilter := 0, motion := { Motion.reset with linePitch := 21167000 }, bars := []
    slots := [(0, { SlotDesc.reset with q := 0 })], digest := 0 }

def tMem : HeadMem :=
  { n := 64, orderDesc := false, leadRowB := false, rowSpacing := 8, rowOffset := 0, mOff := 0, gOff := 0, serial := 7, rank := 0, vNom := 24000
    warmLimit := 0, rNom := 0, tWarn := 500, tLimit := 600, tAbs := 700, defects := [], place := some 0 }

def tHead : Head :=
  { q := 0, g := 8, steerCap := 1, pack := 0, last := true, mem := tMem, aComputed := 0, fComputed := 0 }

/-- A device with that press description and that head. -/
def fitted (d : DevState) : State :=
  { onLink (fun x => { x with slots := [(0, { Slot.reset with head := some tHead, credit := 1 })] }) (up d) with press := some tPress }

/-- An image from its fields: offset, width and value of each. -/
def img (l : List (Nat × Nat × Nat)) : Mem := l.foldl (fun m e => mwrite zeroByte m e.1 (leBytes e.2.1 e.2.2)) []

/-- The cue words of the test image on line 0: kind in bits 63 to 60, LEAD 0, arguments by R53. -/
def cueWord (kind args : Nat) : Word64 := BitVec.ofNat 64 (2 ^ 60 * kind + args)

/-- A frame program of one cue of each kind, and a page program of 5,000 lines that plays it 1,000 times from c_first 10 on. -/
def tImage : Mem :=
  img ([(32, 8, 65536), (40, 8, 655360), (52, 1, 1),
    (128, 4, 1), (132, 4, 512), (136, 4, 384), (140, 4, 8),
    (144, 4, 2), (148, 4, 1024), (152, 4, 16400), (156, 4, 1),
    (160, 4, 3), (164, 4, 20480), (168, 4, 32), (172, 4, 2),
    (176, 4, 4), (180, 4, 20992), (184, 4, 72), (188, 4, 1),
    (192, 4, 5), (196, 4, 21504), (200, 4, 96), (204, 4, 1),
    (208, 4, 6), (212, 4, 22016), (216, 4, 32), (220, 4, 1),
    (224, 4, 7), (228, 4, 22528), (232, 4, 8), (236, 4, 1),
    (240, 4, 8), (244, 4, 23040), (248, 4, 8), (252, 4, 1)]
  ++ [(17416, 4, 4)]
  ++ [(20480, 1, 1), (20481, 1, 255), (20482, 1, 3), (20483, 1, 4), (20488, 2, 100), (20490, 2, 1),
    (20496, 1, 2), (20497, 1, 3), (20498, 1, 3), (20504, 2, 100), (20506, 2, 1)]
  ++ [(20992, 4, 8), (21000, 8, 2 ^ 60), (21008, 8, 2 * 2 ^ 60), (21016, 8, 3 * 2 ^ 60 + 16), (21024, 8, 4 * 2 ^ 60 + 16),
    (21032, 8, 5 * 2 ^ 60), (21040, 8, 6 * 2 ^ 60), (21048, 8, 7 * 2 ^ 60)]
  ++ [(21504, 4, 8), (21512, 4, 5000), (21516, 1, 1), (21520, 2, 10), (21522, 2, 1), (21552, 4, 72), (21584, 2, 0), (21588, 4, 1000)]
  ++ [(22016, 4, 8), (22024, 4, 10), (22028, 2, 1), (22032, 1, 1), (22036, 4, 2), (22040, 4, 8)]
  ++ [(22528, 2, 0), (22530, 2, 0), (22532, 4, 0)]
  ++ [(23040, 4, 8)])

def tBank : Bank := { Bank.reset with image := tImage, loaded := true }

/-- A page position of 5,000 lines from web position 100, whose fence has passed. -/
def tPage : PagePos :=
  { start := 100, length := 5000, gap := 10, bank := 0, pageProg := 0, gapProg := 0, seqEntry := 0, repeatNo := 0, pageIndex := 0, jobId := 0
    placed := true, resolved := true, blank := false, descriptor := none, baseOnly := false, flags := 0, underrunLines := 0, absent := []
    gapRaised := false, done := false, patterned := false }

/-- A run whose latest tick is `w`, with that page. -/
def printing (w : Nat) : State :=
  onWeb (fun x => { x with running := true, ticked := true, webPos := w, period := 65536, nominal := 65536 })
    (onRun (fun x => { x with banks := [(0, tBank)], pages := [tPage] }) (fitted .run))

def bn (x : Nat) : Byte := BitVec.ofNat 8 x

/-- The state that a step answers. -/
def nextOf (o : Host.Outcome State Fault Refusal) : State :=
  match o with
  | .next t => t
  | _ => State.reset

/-! ## Records for the witnesses below -/

def tReport : Report := { code := 0x1001, arrival := 0, followAt := none, time := 0, webPos := 0, key := [], value := 0, fields := [] }
def tFollowUp : Report := { tReport with followAt := some 0 }
def tArea : Area := { handle := 0, units := 1, bytes := 4096 }
def tReady : Ready := { jobId := 0, first := 0, count := 0xFFFFFFFF, descriptor := 0, signature := 0 }
def tSchedOp (check : Bool) (length : Nat) : SchedOp :=
  { ring := 0, tag := 1, check := check, addr := 0, length := length, follow := false, wasLoaded := false, wasChecked := false }
def tCommit : PendingCommit := { classes := 1, barMask := 1, boundary := 4206, closed := false, keep := false }
def tLoad (opcode : Nat) (l : List (Nat × Nat)) : LoadOp :=
  { ring := 0, tag := 1, opcode := opcode, classes := 0, outstanding := l, loaded := 0, waiting := false, since := 0, woken := [] }
def tCapture : CaptureOp :=
  { ring := 0, tag := 1, barMask := 1, first := 0, count := 1, accepted := 0, jobId := 0, sums := [], lastDone := some 0, lastEnd := 0 }
def tWithdrawn : Withdrawn := { td := 0, cause := 0, restore := false, ends := none }
def tSurveyOp : SurveyOp :=
  { ring := 0, tag := 1, rows := 1, tmax := 1, slots := [], checked := [], measuring := true, discarded := false, dropped := [], lost := 0 }
def tSurvey : SlotSurvey := { startAt := 0, results := [], finished := false }
def tScan : ScanOp :=
  { ring := 0, tag := 1, barMask := 1, dest := 0, chain := [(0, some 0)], words := [], done := [(0, true)], silent := [] }
def tRejoin (record : Option (List Byte)) : RejoinOp :=
  { ring := 0, tag := 1, source := 0, minPages := 0, record := record, skipped := 0, boundary := 0 }
def tCodec (engine : Nat) (compress : Bool) : CodecOp :=
  { ring := 0, tag := 1, compress := compress, engine := engine, source := 0, stride := 0, tileCols := 1, tileRows := 1, format := 0, planes := 0
    options := 0, coverCh := 0, firstTile := 0, chain := 0, kind := 0, layer := 0, dest := 0, run := CodeRun.reset }
def tCam : CamContext :=
  { lanes := 1, dataType := 0, cfa := 0, exposures := 1, vcBase := 0, priority := 0, outputs := 4, scaleA := 0, scaleB := 0, pixels := 256
    visLines := 16, frameLines := 256, linePeriod := 1000000, latency := 0, camDist := 0, col0 := 0, pitch := 65536, sat := 0, ratio1 := 0
    ratio2 := 0, matrix := List.replicate 9 0, white := (0, 0, 0), lut := [], flat := [], ringAddr := 0, ringSize := 65536, chain := 0, roi := [] }
def tFrame : CamFrame :=
  { seq := 0, ctx := tCam, installed := 0, why := none, csiFrame := 0, openedAt := 0, stamp := 0, seen := 0, kept := 0, excess := 0, lost := 0, errors := 0, flags := 0, firstPos := none
    lastPos := none, hist := [], gridSum := [], gridCount := [], display := [], displayN := [], coded := [] }
def tGrab (closed : Option Bool) : CamCapture :=
  { ring := 0, tag := 1, stage := 0, dest := 0, seq := none, dropped := 0, closed := closed }
def tDecl : Decl :=
  { descriptor := 0, kind := 0, barMask := 1, refBar := 0, confirm := 2, firstLine := 0, step := 16, dash := 8, space := 8, missPct := 30
    weakPct := 70, devTol := 3, x := [0] }
def tScrub : ScrubOp := { ring := 0, tag := 1, memory := 0, start := 0, length := 64, dest := 0, checked := 0, corrected := 0, bad := [] }
def tCalOp : CalOp := { ring := 0, tag := 1, todo := [], counts := [], firstBad := 0, total := 0, woken := [] }
def tAnnounce : Announce :=
  { domain := 0, path := 0, priority1 := 128, clockClass := 6, clockAccuracy := 33, variance := 0, priority2 := 128, gmIdentity := 1
    stepsRemoved := 0, sender := 2, interval := 0 }
def tDomain : PtpDomain := { PtpDomain.reset with number := 0, selected := some tAnnounce, delays := [(0, some 0)] }
def tConfig : LeadConfig := { home := true, manual := false, eligible := true, pressId := 1, groupMac := 0 }
def tPeer : Peer :=
  { lastA := some 0, lastB := none, seq := 0, role := 2, epoch := 0, leaseEnd := 0, flags := 10, healthS := 0 }
def tHeartbeat : Heartbeat :=
  { pressId := 1, version := 1, index := 1, role := 2, state := 2, seq := 1, epoch := 0, leaseEnd := 0, flags := 0, links := 0, healthS := 0
    webPos := 0, sent := 0, handoffTo := 0xFF, stopB := 0, updSeq := 0, updEffective := 0, updPeriod := 0, updPEnc := 0, startTRun := 0
    startLeadIn := 0, startFirstPage := 0, startP0 := 0, runRecord := [], pending := [], handoffB := 0, crcOk := true }
def tUpdate (target written : Nat) (data : List Byte) : Update := { target := target, length := 256, written := written, data := data }
def tInflight : Inflight :=
  { bar := 0, layer := 0, context := 0, page := 100, group := 0, part := 0, burst := 0, phys := 0, data := [], poisoned := false }
def tVals : LineVals := { bar := 0, page := 100, line := 0, above := 3, toned := 1, print := [], levels := [] }
def tLine : SlotLine :=
  { bar := 0, slot := 0, due := 100, page := 100, line := 0, row := 0, trail := false, stream := [], began := false, voided := false
    gate := false, sent := 0 }
def tTelem : Telem := { temp := 250, vsup := 24000, flags := 0, seq := 0, tick := 100, since := 100 }

/-- A ring with one packet fetched from host memory: a NOP with PARAM_LEN 0 (R324). -/
def fetching : State :=
  onHost (fun x => { x with mem := img [(4096, 2, 1)], rings := [(0, { tRing with cmdTail := 1 })] }) (up .idle)

/-- A store frame that an EMPTY tile header in host memory may be written into (R111). -/
def storing : State :=
  onStore (fun x => { x with frames := [0] }) (onRun (fun x => { x with banks := [(0, tBank)] })
    (onHost (fun x => { x with mem := img [(0, 2, 0x4643), (2, 1, 2), (4, 2, 256), (6, 2, 64)] }) (up .idle)))

/-- Host memory with an image of 16 bytes that passes checks 1 to 4 (R62). -/
def goodImage : List Byte :=
  let m := img [(0, 4, 0x43414C44), (4, 2, 1), (6, 2, 3), (8, 4, 16)]
  mread zeroByte m 0 16

def loadingGood : State :=
  onRun (fun x => { x with schedOp := some (tSchedOp false 16) })
    (running 0x0040 (onHost (fun x => { x with mem := mwrite zeroByte [] 0 (overlay goodImage 12 (leBytes 4 (crc32c goodImage))) }) (up .idle)))

/-- A boot configuration record (R369). -/
def bootRecord : List Byte :=
  let r := mread zeroByte (img [(0, 4, 0x47464342), (4, 2, 1)]) 0 60
  r ++ leBytes 4 (crc32c r)

/-- A press of one device with no bar (R338, R339, R232). -/
def pressBytes : Mem :=
  img [(0, 4, 0x53455250), (4, 2, 1), (8, 4, 4928), (13, 1, 1), (36, 4, 1), (48, 4, 1)]

/-- A run whose active image can be joined again: the run record of its page at web position 100 (R379). -/
def tRecord : List Byte := mread zeroByte (img [(32, 8, 100), (56, 8, 6553600)]) 0 64

def rejoining : State :=
  onRun (fun x => { x with banks := [(0, tBank)] }) (onLink (fun x => { x with load := some (tLoad 0x63 []) })
    (onBoot (fun x => { x with rejoin := some (tRejoin (some tRecord)) }) (running 0x0063 (fitted .idle))))

def tRejoinPos : PagePos × Nat × Nat := (rejoinChoice (rejoining.at opr.t) (tRejoin (some tRecord)) tRecord).getD (tPage, 0, 0)

/-- The boundary of a commit in the run above. -/
def tBoundary : Boundary := ((effectiveBoundary (printing 110) 0).getD ({ pos := 0, index := 0 }, false)).1
def tLate : Bool := ((effectiveBoundary (printing 110) 0).getD ({ pos := 0, index := 0 }, false)).2

def withTab (cls : Nat) (t : TableSt) (s : State) : State := { s with tables := { s.tables with classes := [(8 * cls, t)] } }

/-- NOZZLE of bar 0 with PLAN_AUTO (R156). -/
def planning : State := withTab 5 { TableSt.reset with bank0 := [(5, 2)] } (fitted .idle)

/-- The shadow bank of NOZZLE holds one ladder finding, of row 1 and nozzle 63. -/
def ladderFound : State := withTab 5 { TableSt.reset with bank1 := [(76702, 0x30)] } (fitted .idle)

/-- A MASK image whose E1 is 0 (R145, R148). -/
def badMask : State := withTab 4 { TableSt.reset with bank1 := [(4, 0), (5, 0)] } (up .idle)

/-- A camera context record in host memory at 4096 (R251). -/
def contextInMemory : State :=
  onHost (fun x => { x with mem := img [(4096, 1, 1), (4099, 1, 1), (4104, 2, 256), (4106, 2, 16), (4108, 4, 256), (4112, 4, 1000000),
    (4120, 1, 0), (4200, 4, 65536)] }) (up .idle)

def tCamLine : CamLine := { index := 0, seq := 0, exposures := [[]], pos := none }

/-- A keep record at host address 0 (R283). -/
def keepRecordInMemory : State := onHost (fun x => { x with mem := img [(6, 2, 100)] }) (up .idle)

def tRegPage : RegPage := { decl := tDecl, start := 0, length := 1, rows := false }
def tDash : Dash := { bar := 0, slot := 0, row := 0, nozzle := 63, col := 63, page := 100 }

/-- Bytes of a header latch: NOZZLES of slot 0 is 64, in bytes 36 and 37. -/
def latchBytes : List Byte := List.replicate 36 0 ++ [64, 0] ++ List.replicate 60 0

/-- The run above on line 0 with every header latch of bar 0 loaded for its page. -/
def latched : State :=
  { printing 110 with tables := { Tables.reset with
      latches := [0, 8, 24, 32, 40].map (fun k => (k, { Latch.reset with page := some 100, bytes := latchBytes })) } }

/-- A declared page whose feed block of the dash stands in the ring, with a camera over its column. -/
def dashing : State :=
  onKeep (fun x => { x with
    decls := [tDecl]
    feed := [(0, some { slot := 0, jobId := 0, pageIndex := 0, page := 100, block := 11, lines := 64, barMask := 1, pattern := some 0, gains := []
                        columns := [] })], feedNext := 1 })
    { latched with cams := [(0, { CamPort.reset with ctx := some tCam })] }

/-- That page with a window row that shows the dash, and the zone's paper in the target. -/
def dashSeen : State :=
  onKeep (fun x => { x with
    rows := [{ roi := 0, pos := 256 * ((100 + tDash.firstOf dashing tDecl : Nat) : Int), first := 65536 * 63, pitch := 65536, vals := [0] }]
    target := mwrite zeroByte [] (targetOff (paperKey 0)) ([0, 100] ++ List.replicate 6 0 ++ [1]) }) dashing

/-- DECOMPRESS_TEST of an EMPTY tile in host memory (R129). -/
def decompressing : State :=
  onStore (fun x => { x with codec := [tCodec 0 false] })
    (running 0x0101 (onHost (fun x => { x with mem := img [(0, 2, 0x4643), (2, 1, 2), (4, 2, 256), (6, 2, 64)] }) (up .idle)))

/-- A rank owes more than eight refreshes at a GEYSER window (R35). -/
def overrunning : State := onDram (fun x => { x with trained := true, debt := [(0, 1)] }) (printing 100)

/-- Flash with one valid boot configuration record, in copy 1 (R369). -/
def bootFlash : Mem := mwrite (fun _ => (0xFF : Byte)) [] 4096 bootRecord

/-- A run on a solo device with registration on mark input 0 (R239, R240). -/
def marked (w : Nat) : State :=
  onLead (fun x => { x with role := .solo }) (withTab 8 { TableSt.reset with bank0 := [(0, 0)] } (printing w))

/-- The latched run with ENERGY of slot 0 for a head of 24,000 mV (R210). -/
def energised : State := withTab 7 { TableSt.reset with bank0 := [(274, bn 192), (275, bn 93)] } latched

def isNext (o : Host.Outcome State Fault Refusal) : Bool :=
  match o with
  | .next _ => true
  | _ => false

/-- The first `n` cue words of the frame have issued for the test page. -/
def issuedTo (n : Nat) (s : State) : State := onPath (fun x => { x with issued := ((wordsLeft s 0 tPage).take n).map (fun w => (0, 100, w)) }) s

theorem next_nextOf (o : Host.Outcome State Fault Refusal) (h : isNext o = true) : o = .next (nextOf o) := by
  cases o with
  | next t => rfl
  | fault r => cases h
  | refused r => cases h

theorem some_getD {α : Type} (o : Option α) (d : α) (h : o.isSome = true) : o = some (o.getD d) := by
  cases o with
  | none => cases h
  | some x => rfl

theorem pair_fst {α β : Type} (x : α × β) (b : β) (h : x.2 = b) : x = (x.1, b) := by
  cases x
  cases h
  rfl

theorem rejoin_pos : rejoinChoice (rejoining.at opr.t) (tRejoin (some tRecord)) tRecord
    = some (tRejoinPos.1, tRejoinPos.2.1, tRejoinPos.2.2) := by
  have h : ∀ (o : Option (PagePos × Nat × Nat)) (d : PagePos × Nat × Nat), o.isSome = true →
      o = some ((o.getD d).1, (o.getD d).2.1, (o.getD d).2.2) := by
    intro o d
    cases o with
    | none => intro h; cases h
    | some v => intro _; rfl
  unfold tRejoinPos
  exact h (rejoinChoice (rejoining.at opr.t) (tRejoin (some tRecord)) tRecord) (tPage, 0, 0) (by decide +kernel)

/-! ## WellFormed: for each check a term that fails it alone -/

def tUp : Up := { group := 0, slot := 0, t := 0 }
def tBody : AckBody := { kind := 0, status := 0, value := 0 }
def tBeat : Heartbeat := { tHeartbeat with runRecord := List.replicate 96 0 }
def tBadErr : ReadErr := { source := none, flips := [(138, 1)] }

/-- Terms whose every operand is in range are accepted. -/
theorem test_well_formed_1 : ([
    .nop hdr,
    .identify hdr,
    .getStatus hdr,
    .getProgress hdr 0 0,
    .abort hdr 0 0,
    .ringConfigEnable hdr 0 0 0 0 0 0 0,
    .ringConfigDisable hdr 0,
    .plumeEnable hdr 0 0 0 0 0 0,
    .plumeDisable hdr,
    .eventConfigEnable hdr 0,
    .eventConfigComparator hdr 0 0 0 0,
    .imageUpdateBegin hdr 0 0,
    .imageUpdateData hdr 0 0 0,
    .imageUpdateDataDone opr,
    .imageUpdateCommitActivate hdr,
    .imageUpdateCommitDone opr,
    .imageUpdateCommitConfirm hdr,
    .imageUpdateCommitRollback hdr,
    .pressConfig hdr 0 0,
    .headScan hdr 0 0,
    .headScanDone opr,
    .schedLoad hdr 0 0,
    .schedLoadDone opr,
    .schedCheck hdr 0,
    .schedCheckDone opr,
    .schedActivate hdr 0 0 0,
    .storeAlloc hdr 0 0 0 0 0 0 0,
    .storeWrite hdr 0 0 0 0 0 0,
    .storeFree hdr 0 0,
    .pageReady hdr 0 0 0 0,
    .runArm hdr 0 0 0 0 0,
    .runArmDone opr,
    .runStart hdr 0 0 0 0 0 0,
    .runStop hdr 0 0,
    .runRejoin hdr 0 0 0,
    .runRejoinArmed opr,
    .commit hdr 0 0 0,
    .gateRelease hdr 0 0,
    .tableWrite hdr 0 0 0 0 0 0 [],
    .tableRead hdr 0 0 0 0 0 0 [],
    .nozzleSurvey hdr 0 0 0 0,
    .nozzleSurveyDone opr,
    .nozzleMask hdr 0 0 0 0 0 0 0,
    .restoreSlot hdr 0 0,
    .camConfigEnable hdr 0 0,
    .camConfigDisable hdr 0,
    .camCapture hdr 0 0 0 0,
    .camCaptureDone opr] : List Instr).all (fun i => i.wellFormed) = true := by decide +kernel

/-- Terms whose every operand is in range are accepted. -/
theorem test_well_formed_2 : ([
    .keepConfigEnable hdr 0 0,
    .keepConfigDisable hdr 0,
    .keepConfigLadder hdr 0,
    .ladderReset hdr 0 0,
    .regMeasure hdr 0 0 0,
    .regMeasureDone opr,
    .keepTargetCapture hdr 0 0 0,
    .keepTargetCaptureDone opr,
    .keepTargetCaptureTimeout opr,
    .keepTargetLoad hdr 0 0,
    .keepTargetRead hdr 0,
    .keepTargetClear hdr 0,
    .scrubRange hdr 0 0 0 0,
    .scrubRangeDone opr [] [],
    .scrubRangePatrol hdr 0,
    .calRunCalibrate hdr 0 0 0 0,
    .calRunCalibrateDone opr,
    .prbsStart hdr 0 0 0 0,
    .prbsRead hdr 0 0 0 [],
    .prbsStop hdr 0 0,
    .calRunSetup hdr 0,
    .calRunStatus hdr 0,
    .timeConfigNet hdr 0 0 0 0 0,
    .timeConfigDomain hdr 0 0 0 0 0 0 0,
    .timeConfigPrefer hdr 0,
    .setTime hdr 0 0,
    .timeConfigStatus hdr 0,
    .toutProgram hdr 0 0 0 0 0 0 0 0,
    .leadConfig hdr 0 0 0 0 0,
    .leadTransfer hdr 0,
    .arbiterVerdict hdr 0 0,
    .logReadRead hdr 0 0 0,
    .logReadAck hdr 0,
    .logReadStatus hdr,
    .logReadFatal hdr 0 0 0,
    .clearFirst hdr,
    .counterSnapshot hdr 0 0 0 0,
    .traceFilterStart hdr 0 0 0 0 0 0 0,
    .traceFilterStop hdr,
    .compress hdr 0 0 0 0 0 0 0 0 0 0,
    .compressDone opr,
    .decompressTest hdr 0 0 0 0,
    .decompressTestDone opr,
    .sensorExclude hdr 0 0,
    .sensorInclude hdr 0,
    .deviceReset hdr 0,
    .commandFetch 0 0,
    .replyCoalesceTimeout 0 0] : List Instr).all (fun i => i.wellFormed) = true := by decide +kernel

/-- Terms whose every operand is in range are accepted. -/
theorem test_well_formed_3 : ([
    .cmdTailWrite 0 0,
    .replyHeadWrite 0 0,
    .msixVectorUnmask 0 0 0,
    .lowWordRead 0 .clean,
    .registerWrite 0 0 0,
    .supplyDrop 0 0 0 0,
    .watchdogExpiry 0 0 0,
    .boot 0 false [] 0 [],
    .powerDomainReady 0 0,
    .runCue 0 0 0 [],
    .readDataReturn 0 0 0 .clean,
    .decodeCue 0 0 0 [],
    .toneCue 0 0 0 [],
    .screenCue 0 0 0 [],
    .mapCue 0 0 0 [],
    .sendCue 0 0 0 [],
    .energyCue 0 0 0 [],
    .endCue 0 0,
    .fence 0 [],
    .lineMatch 0,
    .geyserWindow 0,
    .retrainWindow 0 0,
    .srWindowEntry 0 0,
    .srWindowExit 0 0,
    .idleRefresh 0 0 0,
    .idleRetrain 0 0 0,
    .srIdleEntry 0 0,
    .dynamicShareRequest 0 0 false (List.replicate 64 0) (List.replicate 64 true) .clean 0,
    .scrubRead 0 0 .clean false 0,
    .nozzlePlan 0 0,
    .credit tUp 0 0,
    .telem tUp 0 0 0 0,
    .alertTAbs tUp 0 false,
    .alertLaneLost tUp 0,
    .alert tUp 0 0 0,
    .survey tUp 0 0 0,
    .hmem tUp 0 0,
    .ack tUp tBody,
    .tableLoadTimeout 0 0 0,
    .enumTimeout 0 0,
    .telemNowTimeout 0 0 0,
    .surveySlotTimeout 0 0 0,
    .calAnswerTimeout 0 0,
    .laneSwitch 0 0,
    .gatingInputEdge .media false 0 0,
    .encoderCount 0 false false 0 0,
    .encoderIndex 0 0 0,
    .markEdge 0 false 0 0] : List Instr).all (fun i => i.wellFormed) = true := by decide +kernel

/-- Terms whose every operand is in range are accepted. -/
theorem test_well_formed_4 : ([
    .toutPulse 0 0,
    .toutPulseEnd 0 0,
    .csi2FrameStart 0 0 0 0,
    .csi2FrameEnd 0 0 0,
    .csi2LongPacket 0 0 0 0 [] false false 0,
    .csi2ShortPacket 0 0 0 false 0,
    .camFrameTimeout 0 0,
    .zoneRecordSample 0 0,
    .ladderDash 0 0 0 0 0 0,
    .keepIntervalEnd 0 0,
    .heartbeatReceive 0 tBeat false 0,
    .prpFrameReceive 0 0 0 0 false 0 .other 0,
    .arpRequest 0 0 0,
    .icmpEchoRequest 0 0 0,
    .networkPortLink 0 false 0,
    .ptpAnnounce tAnnounce 0,
    .ptpSync 0 0 0 0 0 0 0 false 0,
    .ptpFollowUp 0 0 0 0 0 0,
    .ptpDelayResp 0 0 0 0 0 0,
    .ptpPdelayReq 0 0 0 0 0,
    .ptpPdelayResp 0 0 0 0 false 0 0,
    .pdelayReqSend 0 0 0,
    .ptpEstimateLoss 0 0,
    .calRetry 0 0,
    .onDieSensorConversion (List.replicate 24 none) 0,
    .sensorEpisodeEnd 0 0,
    .remoteSensorConversion 0 .faulty 0,
    .rejoinRecordTimeout opr,
    .upstreamBlockLock 0 [] 0,
    .calMeasurementDone 0 0 false 0,
    .delayReqSend 0 0 0,
    .jtagInstructionLoad 0 0,
    .pcieLinkUp 0] : List Instr).all (fun i => i.wellFormed) = true := by decide +kernel

/-- Terms with one operand out of range are refused. -/
theorem test_ill_formed_1 : ([
    .nop { hdr with ring := 64 },
    .identify { hdr with ring := 64 },
    .getStatus { hdr with ring := 64 },
    .getProgress { hdr with ring := 64 } 0 0,
    .getProgress hdr (2 ^ 8) 0,
    .getProgress hdr 0 (2 ^ 16),
    .abort { hdr with ring := 64 } 0 0,
    .abort hdr (2 ^ 8) 0,
    .abort hdr 0 (2 ^ 16),
    .ringConfigEnable { hdr with ring := 64 } 0 0 0 0 0 0 0,
    .ringConfigEnable hdr (2 ^ 8) 0 0 0 0 0 0,
    .ringConfigEnable hdr 0 (2 ^ 8) 0 0 0 0 0,
    .ringConfigEnable hdr 0 0 (2 ^ 8) 0 0 0 0,
    .ringConfigEnable hdr 0 0 0 (2 ^ 16) 0 0 0,
    .ringConfigEnable hdr 0 0 0 0 (2 ^ 16) 0 0,
    .ringConfigEnable hdr 0 0 0 0 0 (2 ^ 64) 0,
    .ringConfigEnable hdr 0 0 0 0 0 0 (2 ^ 64),
    .ringConfigDisable { hdr with ring := 64 } 0,
    .ringConfigDisable hdr (2 ^ 8),
    .plumeEnable { hdr with ring := 64 } 0 0 0 0 0 0,
    .plumeEnable hdr (2 ^ 8) 0 0 0 0 0,
    .plumeEnable hdr 0 (2 ^ 8) 0 0 0 0,
    .plumeEnable hdr 0 0 (2 ^ 16) 0 0 0,
    .plumeEnable hdr 0 0 0 (2 ^ 16) 0 0,
    .plumeEnable hdr 0 0 0 0 (2 ^ 64) 0,
    .plumeEnable hdr 0 0 0 0 0 (2 ^ 32),
    .plumeDisable { hdr with ring := 64 },
    .eventConfigEnable { hdr with ring := 64 } 0,
    .eventConfigEnable hdr (2 ^ 32),
    .eventConfigComparator { hdr with ring := 64 } 0 0 0 0,
    .eventConfigComparator hdr (2 ^ 8) 0 0 0,
    .eventConfigComparator hdr 0 (2 ^ 8) 0 0,
    .eventConfigComparator hdr 0 0 (2 ^ 64) 0,
    .eventConfigComparator hdr 0 0 0 (2 ^ 32),
    .imageUpdateBegin { hdr with ring := 64 } 0 0,
    .imageUpdateBegin hdr (2 ^ 8) 0,
    .imageUpdateBegin hdr 0 (2 ^ 32),
    .imageUpdateData { hdr with ring := 64 } 0 0 0,
    .imageUpdateData hdr (2 ^ 32) 0 0,
    .imageUpdateData hdr 0 (2 ^ 32) 0,
    .imageUpdateData hdr 0 0 (2 ^ 64),
    .imageUpdateDataDone { opr with ring := 64 },
    .imageUpdateCommitActivate { hdr with ring := 64 },
    .imageUpdateCommitDone { opr with ring := 64 },
    .imageUpdateCommitConfirm { hdr with ring := 64 },
    .imageUpdateCommitRollback { hdr with ring := 64 },
    .pressConfig { hdr with ring := 64 } 0 0,
    .pressConfig hdr (2 ^ 64) 0] : List Instr).all (fun i => !i.wellFormed) = true := by decide +kernel

/-- Terms with one operand out of range are refused. -/
theorem test_ill_formed_2 : ([
    .pressConfig hdr 0 (2 ^ 32),
    .headScan { hdr with ring := 64 } 0 0,
    .headScan hdr (2 ^ 8) 0,
    .headScan hdr 0 (2 ^ 64),
    .headScanDone { opr with ring := 64 },
    .schedLoad { hdr with ring := 64 } 0 0,
    .schedLoad hdr (2 ^ 64) 0,
    .schedLoad hdr 0 (2 ^ 32),
    .schedLoadDone { opr with ring := 64 },
    .schedCheck { hdr with ring := 64 } 0,
    .schedCheck hdr (2 ^ 32),
    .schedCheckDone { opr with ring := 64 },
    .schedActivate { hdr with ring := 64 } 0 0 0,
    .schedActivate hdr (2 ^ 32) 0 0,
    .schedActivate hdr 0 (2 ^ 32) 0,
    .schedActivate hdr 0 0 (2 ^ 64),
    .storeAlloc { hdr with ring := 64 } 0 0 0 0 0 0 0,
    .storeAlloc hdr (2 ^ 8) 0 0 0 0 0 0,
    .storeAlloc hdr 0 (2 ^ 8) 0 0 0 0 0,
    .storeAlloc hdr 0 0 (2 ^ 8) 0 0 0 0,
    .storeAlloc hdr 0 0 0 (2 ^ 8) 0 0 0,
    .storeAlloc hdr 0 0 0 0 (2 ^ 16) 0 0,
    .storeAlloc hdr 0 0 0 0 0 (2 ^ 32) 0,
    .storeAlloc hdr 0 0 0 0 0 0 (2 ^ 64),
    .storeWrite { hdr with ring := 64 } 0 0 0 0 0 0,
    .storeWrite hdr (2 ^ 8) 0 0 0 0 0,
    .storeWrite hdr 0 (2 ^ 8) 0 0 0 0,
    .storeWrite hdr 0 0 (2 ^ 32) 0 0 0,
    .storeWrite hdr 0 0 0 (2 ^ 64) 0 0,
    .storeWrite hdr 0 0 0 0 (2 ^ 32) 0,
    .storeWrite hdr 0 0 0 0 0 (2 ^ 32),
    .storeFree { hdr with ring := 64 } 0 0,
    .storeFree hdr (2 ^ 8) 0,
    .storeFree hdr 0 (2 ^ 32),
    .pageReady { hdr with ring := 64 } 0 0 0 0,
    .pageReady hdr (2 ^ 32) 0 0 0,
    .pageReady hdr 0 (2 ^ 32) 0 0,
    .pageReady hdr 0 0 (2 ^ 32) 0,
    .pageReady hdr 0 0 0 (2 ^ 32),
    .runArm { hdr with ring := 64 } 0 0 0 0 0,
    .runArm hdr (2 ^ 32) 0 0 0 0,
    .runArm hdr 0 (2 ^ 16) 0 0 0,
    .runArm hdr 0 0 (2 ^ 8) 0 0,
    .runArm hdr 0 0 0 (2 ^ 32) 0,
    .runArm hdr 0 0 0 0 (2 ^ 16),
    .runArmDone { opr with ring := 64 },
    .runStart { hdr with ring := 64 } 0 0 0 0 0 0,
    .runStart hdr (2 ^ 8) 0 0 0 0 0] : List Instr).all (fun i => !i.wellFormed) = true := by decide +kernel

/-- Terms with one operand out of range are refused. -/
theorem test_ill_formed_3 : ([
    .runStart hdr 0 (2 ^ 8) 0 0 0 0,
    .runStart hdr 0 0 (2 ^ 32) 0 0 0,
    .runStart hdr 0 0 0 (2 ^ 64) 0 0,
    .runStart hdr 0 0 0 0 (2 ^ 32) 0,
    .runStart hdr 0 0 0 0 0 (2 ^ 64),
    .runStop { hdr with ring := 64 } 0 0,
    .runStop hdr (2 ^ 8) 0,
    .runStop hdr 0 (2 ^ 64),
    .runRejoin { hdr with ring := 64 } 0 0 0,
    .runRejoin hdr (2 ^ 8) 0 0,
    .runRejoin hdr 0 (2 ^ 16) 0,
    .runRejoin hdr 0 0 (2 ^ 64),
    .runRejoinArmed { opr with ring := 64 },
    .commit { hdr with ring := 64 } 0 0 0,
    .commit hdr (2 ^ 32) 0 0,
    .commit hdr 0 (2 ^ 8) 0,
    .commit hdr 0 0 (2 ^ 64),
    .gateRelease { hdr with ring := 64 } 0 0,
    .gateRelease hdr (2 ^ 8) 0,
    .gateRelease hdr 0 (2 ^ 64),
    .tableWrite { hdr with ring := 64 } 0 0 0 0 0 0 [],
    .tableWrite hdr (2 ^ 8) 0 0 0 0 0 [],
    .tableWrite hdr 0 (2 ^ 8) 0 0 0 0 [],
    .tableWrite hdr 0 0 (2 ^ 8) 0 0 0 [],
    .tableWrite hdr 0 0 0 (2 ^ 32) 0 0 [],
    .tableWrite hdr 0 0 0 0 (2 ^ 32) 0 [],
    .tableWrite hdr 0 0 0 0 0 (2 ^ 64) [],
    .tableWrite hdr 0 0 0 0 0 0 [(8, .clean)],
    .tableRead { hdr with ring := 64 } 0 0 0 0 0 0 [],
    .tableRead hdr (2 ^ 8) 0 0 0 0 0 [],
    .tableRead hdr 0 (2 ^ 8) 0 0 0 0 [],
    .tableRead hdr 0 0 (2 ^ 8) 0 0 0 [],
    .tableRead hdr 0 0 0 (2 ^ 32) 0 0 [],
    .tableRead hdr 0 0 0 0 (2 ^ 32) 0 [],
    .tableRead hdr 0 0 0 0 0 (2 ^ 64) [],
    .tableRead hdr 0 0 0 0 0 0 [(8, .clean)],
    .nozzleSurvey { hdr with ring := 64 } 0 0 0 0,
    .nozzleSurvey hdr (2 ^ 8) 0 0 0,
    .nozzleSurvey hdr 0 (2 ^ 8) 0 0,
    .nozzleSurvey hdr 0 0 (2 ^ 32) 0,
    .nozzleSurvey hdr 0 0 0 (2 ^ 16),
    .nozzleSurveyDone { opr with ring := 64 },
    .nozzleMask { hdr with ring := 64 } 0 0 0 0 0 0 0,
    .nozzleMask hdr (2 ^ 8) 0 0 0 0 0 0,
    .nozzleMask hdr 0 (2 ^ 8) 0 0 0 0 0,
    .nozzleMask hdr 0 0 (2 ^ 8) 0 0 0 0,
    .nozzleMask hdr 0 0 0 (2 ^ 8) 0 0 0,
    .nozzleMask hdr 0 0 0 0 (2 ^ 16) 0 0] : List Instr).all (fun i => !i.wellFormed) = true := by decide +kernel

/-- Terms with one operand out of range are refused. -/
theorem test_ill_formed_4 : ([
    .nozzleMask hdr 0 0 0 0 0 (2 ^ 16) 0,
    .nozzleMask hdr 0 0 0 0 0 0 (2 ^ 8),
    .restoreSlot { hdr with ring := 64 } 0 0,
    .restoreSlot hdr (2 ^ 8) 0,
    .restoreSlot hdr 0 (2 ^ 8),
    .camConfigEnable { hdr with ring := 64 } 0 0,
    .camConfigEnable hdr (2 ^ 8) 0,
    .camConfigEnable hdr 0 (2 ^ 64),
    .camConfigDisable { hdr with ring := 64 } 0,
    .camConfigDisable hdr (2 ^ 8),
    .camCapture { hdr with ring := 64 } 0 0 0 0,
    .camCapture hdr (2 ^ 8) 0 0 0,
    .camCapture hdr 0 (2 ^ 8) 0 0,
    .camCapture hdr 0 0 (2 ^ 64) 0,
    .camCapture hdr 0 0 0 (2 ^ 32),
    .camCaptureDone { opr with ring := 64 },
    .keepConfigEnable { hdr with ring := 64 } 0 0,
    .keepConfigEnable hdr (2 ^ 8) 0,
    .keepConfigEnable hdr 0 (2 ^ 64),
    .keepConfigDisable { hdr with ring := 64 } 0,
    .keepConfigDisable hdr (2 ^ 8),
    .keepConfigLadder { hdr with ring := 64 } 0,
    .keepConfigLadder hdr (2 ^ 64),
    .ladderReset { hdr with ring := 64 } 0 0,
    .ladderReset hdr (2 ^ 8) 0,
    .ladderReset hdr 0 (2 ^ 8),
    .regMeasure { hdr with ring := 64 } 0 0 0,
    .regMeasure hdr (2 ^ 8) 0 0,
    .regMeasure hdr 0 (2 ^ 8) 0,
    .regMeasure hdr 0 0 (2 ^ 64),
    .regMeasureDone { opr with ring := 64 },
    .keepTargetCapture { hdr with ring := 64 } 0 0 0,
    .keepTargetCapture hdr (2 ^ 8) 0 0,
    .keepTargetCapture hdr 0 (2 ^ 32) 0,
    .keepTargetCapture hdr 0 0 (2 ^ 32),
    .keepTargetCaptureDone { opr with ring := 64 },
    .keepTargetCaptureTimeout { opr with ring := 64 },
    .keepTargetLoad { hdr with ring := 64 } 0 0,
    .keepTargetLoad hdr (2 ^ 8) 0,
    .keepTargetLoad hdr 0 (2 ^ 64),
    .keepTargetRead { hdr with ring := 64 } 0,
    .keepTargetRead hdr (2 ^ 64),
    .keepTargetClear { hdr with ring := 64 } 0,
    .keepTargetClear hdr (2 ^ 8),
    .scrubRange { hdr with ring := 64 } 0 0 0 0,
    .scrubRange hdr (2 ^ 8) 0 0 0,
    .scrubRange hdr 0 (2 ^ 64) 0 0,
    .scrubRange hdr 0 0 (2 ^ 64) 0] : List Instr).all (fun i => !i.wellFormed) = true := by decide +kernel

/-- Terms with one operand out of range are refused. -/
theorem test_ill_formed_5 : ([
    .scrubRange hdr 0 0 0 (2 ^ 64),
    .scrubRangeDone { opr with ring := 64 } [] [],
    .scrubRangeDone opr [(0, tBadErr)] [],
    .scrubRangePatrol { hdr with ring := 64 } 0,
    .scrubRangePatrol hdr (2 ^ 32),
    .calRunCalibrate { hdr with ring := 64 } 0 0 0 0,
    .calRunCalibrate hdr (2 ^ 8) 0 0 0,
    .calRunCalibrate hdr 0 (2 ^ 8) 0 0,
    .calRunCalibrate hdr 0 0 (2 ^ 8) 0,
    .calRunCalibrate hdr 0 0 0 (2 ^ 32),
    .calRunCalibrateDone { opr with ring := 64 },
    .prbsStart { hdr with ring := 64 } 0 0 0 0,
    .prbsStart hdr (2 ^ 8) 0 0 0,
    .prbsStart hdr 0 (2 ^ 8) 0 0,
    .prbsStart hdr 0 0 (2 ^ 8) 0,
    .prbsStart hdr 0 0 0 (2 ^ 8),
    .prbsRead { hdr with ring := 64 } 0 0 0 [],
    .prbsRead hdr (2 ^ 8) 0 0 [],
    .prbsRead hdr 0 (2 ^ 8) 0 [],
    .prbsRead hdr 0 0 (2 ^ 8) [],
    .prbsRead hdr 0 0 0 [2 ^ 32],
    .prbsStop { hdr with ring := 64 } 0 0,
    .prbsStop hdr (2 ^ 8) 0,
    .prbsStop hdr 0 (2 ^ 8),
    .calRunSetup { hdr with ring := 64 } 0,
    .calRunSetup hdr (2 ^ 64),
    .calRunStatus { hdr with ring := 64 } 0,
    .calRunStatus hdr (2 ^ 64),
    .timeConfigNet { hdr with ring := 64 } 0 0 0 0 0,
    .timeConfigNet hdr (2 ^ 8) 0 0 0 0,
    .timeConfigNet hdr 0 (2 ^ 8) 0 0 0,
    .timeConfigNet hdr 0 0 (2 ^ 16) 0 0,
    .timeConfigNet hdr 0 0 0 (2 ^ 32) 0,
    .timeConfigNet hdr 0 0 0 0 (2 ^ 32),
    .timeConfigDomain { hdr with ring := 64 } 0 0 0 0 0 0 0,
    .timeConfigDomain hdr (2 ^ 8) 0 0 0 0 0 0,
    .timeConfigDomain hdr 0 (2 ^ 8) 0 0 0 0 0,
    .timeConfigDomain hdr 0 0 (2 ^ 8) 0 0 0 0,
    .timeConfigDomain hdr 0 0 0 (2 ^ 8) 0 0 0,
    .timeConfigDomain hdr 0 0 0 0 (2 ^ 8) 0 0,
    .timeConfigDomain hdr 0 0 0 0 0 (2 ^ 31) 0,
    .timeConfigDomain hdr 0 0 0 0 0 0 (2 ^ 31),
    .timeConfigPrefer { hdr with ring := 64 } 0,
    .timeConfigPrefer hdr (2 ^ 8),
    .setTime { hdr with ring := 64 } 0 0,
    .setTime hdr (2 ^ 64) 0,
    .setTime hdr 0 (2 ^ 32),
    .timeConfigStatus { hdr with ring := 64 } 0] : List Instr).all (fun i => !i.wellFormed) = true := by decide +kernel

/-- Terms with one operand out of range are refused. -/
theorem test_ill_formed_6 : ([
    .timeConfigStatus hdr (2 ^ 64),
    .toutProgram { hdr with ring := 64 } 0 0 0 0 0 0 0 0,
    .toutProgram hdr (2 ^ 8) 0 0 0 0 0 0 0,
    .toutProgram hdr 0 (2 ^ 8) 0 0 0 0 0 0,
    .toutProgram hdr 0 0 (2 ^ 8) 0 0 0 0 0,
    .toutProgram hdr 0 0 0 (2 ^ 8) 0 0 0 0,
    .toutProgram hdr 0 0 0 0 (2 ^ 32) 0 0 0,
    .toutProgram hdr 0 0 0 0 0 (2 ^ 64) 0 0,
    .toutProgram hdr 0 0 0 0 0 0 (2 ^ 32) 0,
    .toutProgram hdr 0 0 0 0 0 0 0 (2 ^ 64),
    .leadConfig { hdr with ring := 64 } 0 0 0 0 0,
    .leadConfig hdr (2 ^ 8) 0 0 0 0,
    .leadConfig hdr 0 (2 ^ 8) 0 0 0,
    .leadConfig hdr 0 0 (2 ^ 8) 0 0,
    .leadConfig hdr 0 0 0 (2 ^ 32) 0,
    .leadConfig hdr 0 0 0 0 (2 ^ 48),
    .leadTransfer { hdr with ring := 64 } 0,
    .leadTransfer hdr (2 ^ 8),
    .arbiterVerdict { hdr with ring := 64 } 0 0,
    .arbiterVerdict hdr (2 ^ 8) 0,
    .arbiterVerdict hdr 0 (2 ^ 32),
    .logReadRead { hdr with ring := 64 } 0 0 0,
    .logReadRead hdr (2 ^ 32) 0 0,
    .logReadRead hdr 0 (2 ^ 32) 0,
    .logReadRead hdr 0 0 (2 ^ 64),
    .logReadAck { hdr with ring := 64 } 0,
    .logReadAck hdr (2 ^ 32),
    .logReadStatus { hdr with ring := 64 },
    .logReadFatal { hdr with ring := 64 } 0 0 0,
    .logReadFatal hdr (2 ^ 32) 0 0,
    .logReadFatal hdr 0 (2 ^ 32) 0,
    .logReadFatal hdr 0 0 (2 ^ 64),
    .clearFirst { hdr with ring := 64 },
    .counterSnapshot { hdr with ring := 64 } 0 0 0 0,
    .counterSnapshot hdr (2 ^ 16) 0 0 0,
    .counterSnapshot hdr 0 (2 ^ 16) 0 0,
    .counterSnapshot hdr 0 0 (2 ^ 8) 0,
    .counterSnapshot hdr 0 0 0 (2 ^ 64),
    .traceFilterStart { hdr with ring := 64 } 0 0 0 0 0 0 0,
    .traceFilterStart hdr (2 ^ 8) 0 0 0 0 0 0,
    .traceFilterStart hdr 0 (2 ^ 8) 0 0 0 0 0,
    .traceFilterStart hdr 0 0 (2 ^ 8) 0 0 0 0,
    .traceFilterStart hdr 0 0 0 (2 ^ 32) 0 0 0,
    .traceFilterStart hdr 0 0 0 0 (2 ^ 16) 0 0,
    .traceFilterStart hdr 0 0 0 0 0 (2 ^ 32) 0,
    .traceFilterStart hdr 0 0 0 0 0 0 (2 ^ 64),
    .traceFilterStop { hdr with ring := 64 },
    .compress { hdr with ring := 64 } 0 0 0 0 0 0 0 0 0 0] : List Instr).all (fun i => !i.wellFormed) = true := by decide +kernel

/-- Terms with one operand out of range are refused. -/
theorem test_ill_formed_7 : ([
    .compress hdr (2 ^ 64) 0 0 0 0 0 0 0 0 0,
    .compress hdr 0 (2 ^ 32) 0 0 0 0 0 0 0 0,
    .compress hdr 0 0 (2 ^ 16) 0 0 0 0 0 0 0,
    .compress hdr 0 0 0 (2 ^ 16) 0 0 0 0 0 0,
    .compress hdr 0 0 0 0 (2 ^ 8) 0 0 0 0 0,
    .compress hdr 0 0 0 0 0 (2 ^ 8) 0 0 0 0,
    .compress hdr 0 0 0 0 0 0 (2 ^ 8) 0 0 0,
    .compress hdr 0 0 0 0 0 0 0 (2 ^ 8) 0 0,
    .compress hdr 0 0 0 0 0 0 0 0 (2 ^ 32) 0,
    .compress hdr 0 0 0 0 0 0 0 0 0 (2 ^ 64),
    .compressDone { opr with ring := 64 },
    .decompressTest { hdr with ring := 64 } 0 0 0 0,
    .decompressTest hdr (2 ^ 8) 0 0 0,
    .decompressTest hdr 0 (2 ^ 8) 0 0,
    .decompressTest hdr 0 0 (2 ^ 64) 0,
    .decompressTest hdr 0 0 0 (2 ^ 64),
    .decompressTestDone { opr with ring := 64 },
    .sensorExclude { hdr with ring := 64 } 0 0,
    .sensorExclude hdr (2 ^ 8) 0,
    .sensorExclude hdr 0 (2 ^ 32),
    .sensorInclude { hdr with ring := 64 } 0,
    .sensorInclude hdr (2 ^ 8),
    .deviceReset { hdr with ring := 64 } 0,
    .deviceReset hdr (2 ^ 8),
    .commandFetch 64 0,
    .replyCoalesceTimeout 65 0,
    .cmdTailWrite 64 0,
    .cmdTailWrite 0 (2 ^ 32),
    .replyHeadWrite 64 0,
    .replyHeadWrite 0 (2 ^ 32),
    .msixVectorUnmask 80 0 0,
    .msixVectorUnmask 0 (2 ^ 64) 0,
    .msixVectorUnmask 0 0 (2 ^ 32),
    .lowWordRead 33554429 .clean,
    .lowWordRead 0 tBadErr,
    .registerWrite 4194301 0 0,
    .registerWrite 0 256 0,
    .supplyDrop 9 0 0 0,
    .supplyDrop 0 (2 ^ 16) 0 0,
    .watchdogExpiry 4 0 0,
    .boot 0 false [2 ^ 16] 0 [],
    .boot 0 false [] 8 [],
    .powerDomainReady 12 0,
    .runCue 8 0 0 [],
    .runCue 0 0 0 [(8, .clean)],
    .readDataReturn 8 0 0 .clean,
    .readDataReturn 0 2 0 .clean,
    .readDataReturn 0 0 256 .clean] : List Instr).all (fun i => !i.wellFormed) = true := by decide +kernel

/-- Terms with one operand out of range are refused. -/
theorem test_ill_formed_8 : ([
    .readDataReturn 0 0 0 tBadErr,
    .decodeCue 8 0 0 [],
    .decodeCue 0 0 0 [(8, .clean)],
    .toneCue 8 0 0 [],
    .toneCue 0 0 0 [(8, .clean)],
    .screenCue 8 0 0 [],
    .screenCue 0 0 0 [(8, .clean)],
    .mapCue 8 0 0 [],
    .mapCue 0 0 0 [(8, .clean)],
    .sendCue 8 0 0 [],
    .sendCue 0 0 0 [(8, .clean)],
    .energyCue 8 0 0 [],
    .energyCue 0 0 0 [(8, .clean)],
    .endCue 8 0,
    .fence 0 [(32, .clean)],
    .lineMatch 8,
    .geyserWindow (2 ^ 16),
    .retrainWindow (2 ^ 16) 0,
    .retrainWindow 0 (2 ^ 16),
    .srWindowEntry 0 (2 ^ 32),
    .srWindowExit 0 (2 ^ 32),
    .idleRefresh 8 0 0,
    .idleRefresh 0 2 0,
    .idleRetrain 4 0 0,
    .idleRetrain 0 (2 ^ 16) 0,
    .srIdleEntry 4 0,
    .dynamicShareRequest 7 0 false (List.replicate 64 0) (List.replicate 64 true) .clean 0,
    .dynamicShareRequest 0 (2 ^ 37) false (List.replicate 64 0) (List.replicate 64 true) .clean 0,
    .dynamicShareRequest 0 0 false [] (List.replicate 64 true) .clean 0,
    .dynamicShareRequest 0 0 false (List.replicate 64 0) [] .clean 0,
    .dynamicShareRequest 0 0 false (List.replicate 64 0) (List.replicate 64 true) tBadErr 0,
    .scrubRead 2 0 .clean false 0,
    .scrubRead 0 (2 ^ 37) .clean false 0,
    .scrubRead 0 0 tBadErr false 0,
    .nozzlePlan 8 0,
    .credit { tUp with slot := 32 } 0 0,
    .credit tUp 256 0,
    .credit tUp 0 (2 ^ 16),
    .telem { tUp with slot := 32 } 0 0 0 0,
    .telem tUp (2 ^ 15) 0 0 0,
    .telem tUp 0 (2 ^ 16) 0 0,
    .telem tUp 0 0 256 0,
    .telem tUp 0 0 0 256,
    .alertTAbs { tUp with slot := 32 } 0 false,
    .alertTAbs tUp (2 ^ 16) false,
    .alertLaneLost { tUp with slot := 32 } 0,
    .alertLaneLost tUp 8,
    .alert { tUp with slot := 32 } 0 0 0] : List Instr).all (fun i => !i.wellFormed) = true := by decide +kernel

/-- Terms with one operand out of range are refused. -/
theorem test_ill_formed_9 : ([
    .alert tUp 256 0 0,
    .alert tUp 0 8 0,
    .alert tUp 0 0 (2 ^ 16),
    .survey { tUp with slot := 32 } 0 0 0,
    .survey tUp 5120 0 0,
    .survey tUp 0 2 0,
    .survey tUp 0 0 (2 ^ 20),
    .hmem { tUp with slot := 32 } 0 0,
    .hmem tUp 256 0,
    .ack { tUp with slot := 32 } tBody,
    .ack tUp { tBody with value := 2 ^ 32 },
    .tableLoadTimeout 8 0 0,
    .tableLoadTimeout 0 24 0,
    .enumTimeout 8 0,
    .telemNowTimeout 8 0 0,
    .telemNowTimeout 0 24 0,
    .surveySlotTimeout 8 0 0,
    .surveySlotTimeout 0 24 0,
    .calAnswerTimeout 8 0,
    .laneSwitch 8 0,
    .gatingInputEdge (.bar 8) false 0 0,
    .encoderCount 2 false false 0 0,
    .encoderIndex 2 0 0,
    .markEdge 4 false 0 0,
    .toutPulse 8 0,
    .toutPulseEnd 8 0,
    .csi2FrameStart 2 0 0 0,
    .csi2FrameStart 0 4 0 0,
    .csi2FrameStart 0 0 (2 ^ 16) 0,
    .csi2FrameEnd 2 0 0,
    .csi2FrameEnd 0 4 0,
    .csi2LongPacket 2 0 0 0 [] false false 0,
    .csi2LongPacket 0 4 0 0 [] false false 0,
    .csi2LongPacket 0 0 64 0 [] false false 0,
    .csi2LongPacket 0 0 0 (2 ^ 16) [] false false 0,
    .csi2LongPacket 0 0 0 0 [4096] false false 0,
    .csi2ShortPacket 2 0 0 false 0,
    .csi2ShortPacket 0 4 0 false 0,
    .csi2ShortPacket 0 0 64 false 0,
    .camFrameTimeout 2 0,
    .zoneRecordSample 2 0,
    .ladderDash 8 0 0 0 0 0,
    .ladderDash 0 8 0 0 0 0,
    .ladderDash 0 0 24 0 0 0,
    .ladderDash 0 0 0 2 0 0,
    .ladderDash 0 0 0 0 5120 0,
    .keepIntervalEnd 8 0,
    .heartbeatReceive 2 tBeat false 0] : List Instr).all (fun i => !i.wellFormed) = true := by decide +kernel

/-- Terms with one operand out of range are refused. -/
theorem test_ill_formed_10 : ([
    .heartbeatReceive 0 { tBeat with index := 256 } false 0,
    .prpFrameReceive 2 0 0 0 false 0 .other 0,
    .prpFrameReceive 0 (2 ^ 48) 0 0 false 0 .other 0,
    .prpFrameReceive 0 0 (2 ^ 16) 0 false 0 .other 0,
    .prpFrameReceive 0 0 0 16 false 0 .other 0,
    .prpFrameReceive 0 0 0 0 false 65536 .other 0,
    .arpRequest 2 0 0,
    .arpRequest 0 (2 ^ 32) 0,
    .icmpEchoRequest 2 0 0,
    .icmpEchoRequest 0 (2 ^ 32) 0,
    .networkPortLink 2 false 0,
    .ptpAnnounce { tAnnounce with path := 2 } 0,
    .ptpSync 256 0 0 0 0 0 0 false 0,
    .ptpSync 0 2 0 0 0 0 0 false 0,
    .ptpSync 0 0 (2 ^ 80) 0 0 0 0 false 0,
    .ptpSync 0 0 0 (2 ^ 16) 0 0 0 false 0,
    .ptpSync 0 0 0 0 (2 ^ 96) 0 0 false 0,
    .ptpSync 0 0 0 0 0 (2 ^ 96) 0 false 0,
    .ptpSync 0 0 0 0 0 0 256 false 0,
    .ptpFollowUp 256 0 0 0 0 0,
    .ptpFollowUp 0 2 0 0 0 0,
    .ptpFollowUp 0 0 (2 ^ 80) 0 0 0,
    .ptpFollowUp 0 0 0 (2 ^ 16) 0 0,
    .ptpFollowUp 0 0 0 0 (2 ^ 96) 0,
    .ptpDelayResp 256 0 0 0 0 0,
    .ptpDelayResp 0 2 0 0 0 0,
    .ptpDelayResp 0 0 (2 ^ 80) 0 0 0,
    .ptpDelayResp 0 0 0 (2 ^ 16) 0 0,
    .ptpDelayResp 0 0 0 0 (2 ^ 96) 0,
    .ptpPdelayReq 256 0 0 0 0,
    .ptpPdelayReq 0 2 0 0 0,
    .ptpPdelayReq 0 0 (2 ^ 80) 0 0,
    .ptpPdelayReq 0 0 0 (2 ^ 16) 0,
    .ptpPdelayResp 256 0 0 0 false 0 0,
    .ptpPdelayResp 0 2 0 0 false 0 0,
    .ptpPdelayResp 0 0 (2 ^ 80) 0 false 0 0,
    .ptpPdelayResp 0 0 0 (2 ^ 16) false 0 0,
    .ptpPdelayResp 0 0 0 0 false (2 ^ 96) 0,
    .pdelayReqSend 2 0 0,
    .pdelayReqSend 0 2 0,
    .ptpEstimateLoss 2 0,
    .calRetry 256 0,
    .onDieSensorConversion [] 0,
    .sensorEpisodeEnd 28 0,
    .remoteSensorConversion 4 .faulty 0,
    .remoteSensorConversion 0 (.ntc (2 ^ 20) 0) 0,
    .rejoinRecordTimeout { opr with ring := 64 },
    .upstreamBlockLock 8 [] 0] : List Instr).all (fun i => !i.wellFormed) = true := by decide +kernel

/-- Terms with one operand out of range are refused. -/
theorem test_ill_formed_11 : ([
    .calMeasurementDone 256 0 false 0,
    .calMeasurementDone 0 (2 ^ 31) false 0,
    .delayReqSend 2 0 0,
    .delayReqSend 0 2 0,
    .jtagInstructionLoad (2 ^ 32) 0,
    .nop { hdr with tag := 2 ^ 16 },
    .nop { hdr with flags := 2 ^ 16 },
    .nop { hdr with paramLen := 256 },
    .headScanDone { opr with tag := 2 ^ 16 },
    .credit { tUp with group := 8 } 0 0,
    .ack tUp { tBody with kind := 256 },
    .ack tUp { tBody with status := 256 },
    .gatingInputEdge (.jam 4) false 0 0,
    .readDataReturn 0 0 0 { source := none, flips := [(0, 256)] },
    .readDataReturn 0 0 0 { source := none, flips := [(0, 0)] },
    .readDataReturn 0 0 0 { source := none, flips := [(0, 1), (0, 2)] },
    .readDataReturn 0 0 0 { source := some (2 ^ 37), flips := [] },
    .runCue 0 0 0 [(100663296, .clean)],
    .runCue 0 0 0 [(16, tBadErr)],
    .fence 0 [(2 ^ 37, .clean)],
    .fence 0 [(64, tBadErr)],
    .heartbeatReceive 0 { tBeat with pressId := 2 ^ 32 } false 0,
    .heartbeatReceive 0 { tBeat with version := 2 ^ 8 } false 0,
    .heartbeatReceive 0 { tBeat with role := 2 ^ 8 } false 0,
    .heartbeatReceive 0 { tBeat with state := 2 ^ 8 } false 0,
    .heartbeatReceive 0 { tBeat with seq := 2 ^ 32 } false 0,
    .heartbeatReceive 0 { tBeat with epoch := 2 ^ 32 } false 0,
    .heartbeatReceive 0 { tBeat with flags := 2 ^ 8 } false 0,
    .heartbeatReceive 0 { tBeat with links := 2 ^ 8 } false 0,
    .heartbeatReceive 0 { tBeat with healthS := 2 ^ 16 } false 0,
    .heartbeatReceive 0 { tBeat with webPos := 2 ^ 64 } false 0,
    .heartbeatReceive 0 { tBeat with handoffTo := 2 ^ 8 } false 0,
    .heartbeatReceive 0 { tBeat with stopB := 2 ^ 64 } false 0,
    .heartbeatReceive 0 { tBeat with updSeq := 2 ^ 16 } false 0,
    .heartbeatReceive 0 { tBeat with updEffective := 2 ^ 64 } false 0,
    .heartbeatReceive 0 { tBeat with updPeriod := 2 ^ 64 } false 0,
    .heartbeatReceive 0 { tBeat with updPEnc := 2 ^ 64 } false 0,
    .heartbeatReceive 0 { tBeat with startLeadIn := 2 ^ 32 } false 0,
    .heartbeatReceive 0 { tBeat with startFirstPage := 2 ^ 32 } false 0,
    .heartbeatReceive 0 { tBeat with startP0 := 2 ^ 64 } false 0,
    .heartbeatReceive 0 { tBeat with handoffB := 2 ^ 64 } false 0,
    .heartbeatReceive 0 { tBeat with runRecord := [] } false 0,
    .heartbeatReceive 0 { tBeat with pending := List.replicate 9 (0, 0, 0) } false 0,
    .heartbeatReceive 0 { tBeat with pending := [(2 ^ 64, 0, 0)] } false 0,
    .heartbeatReceive 0 { tBeat with pending := [(0, 2 ^ 32, 0)] } false 0,
    .heartbeatReceive 0 { tBeat with pending := [(0, 0, 2 ^ 16)] } false 0,
    .ptpAnnounce { tAnnounce with priority1 := 2 ^ 8 } 0,
    .ptpAnnounce { tAnnounce with clockClass := 2 ^ 8 } 0] : List Instr).all (fun i => !i.wellFormed) = true := by decide +kernel

/-- Terms with one operand out of range are refused. -/
theorem test_ill_formed_12 : ([
    .ptpAnnounce { tAnnounce with clockAccuracy := 2 ^ 8 } 0,
    .ptpAnnounce { tAnnounce with variance := 2 ^ 16 } 0,
    .ptpAnnounce { tAnnounce with priority2 := 2 ^ 8 } 0,
    .ptpAnnounce { tAnnounce with gmIdentity := 2 ^ 64 } 0,
    .ptpAnnounce { tAnnounce with stepsRemoved := 2 ^ 16 } 0,
    .remoteSensorConversion 0 (.ntc 0 4) 0] : List Instr).all (fun i => !i.wellFormed) = true := by decide +kernel

/-! ## Packets written out from the parameter tables (R324) -/

/-- A packet of TAG 0x0201 and no flags, from its opcode, PARAM_LEN and parameters as (offset, width, value). -/
def tPacket (opcode len : Nat) (l : List (Nat × Nat × Nat)) : List Byte :=
  mread zeroByte (img ([(0, 2, opcode), (2, 2, 0x0201), (6, 1, len)] ++ l.map (fun x => (8 + x.1, x.2)))) 0 64

def tSpelt (bs : List Byte) : Option Instr :=
  match (packetOf 0 bs).1 with
  | .cmd i => some i
  | .bad _ _ _ => none

def pHdr (len : Nat) : Hdr := { ring := 0, tag := 0x0201, flags := 0, paramLen := len, rsv := false, paramRsv := false, t := 0 }

/-- R323. -/
theorem test_packet_ring_config :
    tSpelt (tPacket 0x0010 32 [(0, 1, 5), (1, 1, 1), (2, 1, 8), (3, 1, 9), (4, 2, 64), (6, 2, 1000), (8, 8, 0x123456789000), (16, 8, 0x2000)])
      = some (.ringConfigEnable (pHdr 32) 5 8 9 64 1000 0x123456789000 0x2000) := by decide +kernel
/-- R68. -/
theorem test_packet_run_arm :
    tSpelt (tPacket 0x0060 16 [(0, 4, 0x01020304), (4, 2, 0x0506), (6, 1, 2), (8, 4, 0x0A0B0C0D), (12, 2, 64)])
      = some (.runArm (pHdr 16) 0x01020304 0x0506 2 0x0A0B0C0D 64) := by decide +kernel
/-- R70. -/
theorem test_packet_run_start :
    tSpelt (tPacket 0x0061 32 [(0, 1, 1), (1, 1, 3), (4, 4, 5), (8, 8, 1700000000), (16, 4, 999999999), (24, 8, 0x10000)])
      = some (.runStart (pHdr 32) 1 3 5 1700000000 999999999 0x10000) := by decide +kernel
/-- R76. -/
theorem test_packet_commit :
    tSpelt (tPacket 0x0068 16 [(0, 4, 0x3FF), (4, 1, 0x81), (8, 8, 0x123456789A)]) = some (.commit (pHdr 16) 0x3FF 0x81 0x123456789A) := by
  decide +kernel
/-- R341. -/
theorem test_packet_table_write :
    tSpelt (tPacket 0x0070 24 [(0, 1, 9), (1, 1, 7), (4, 4, 2), (8, 4, 4), (16, 8, 0x8000)]) = some (.tableWrite (pHdr 24) 9 7 0 2 4 0x8000 []) := by
  decide +kernel
/-- R166. -/
theorem test_packet_nozzle_mask :
    tSpelt (tPacket 0x0081 16 [(0, 1, 7), (1, 1, 23), (2, 1, 2), (3, 1, 2), (4, 2, 5119), (6, 2, 1), (8, 1, 1)])
      = some (.nozzleMask (pHdr 16) 7 23 2 2 5119 1 1) := by decide +kernel
/-- R166: RESTORE_SLOT is OP 3 of the same opcode. -/
theorem test_packet_restore_slot : tSpelt (tPacket 0x0081 16 [(0, 1, 7), (1, 1, 23), (3, 1, 3)]) = some (.restoreSlot (pHdr 16) 7 23) := by
  decide +kernel
/-- R215. -/
theorem test_packet_nozzle_survey :
    tSpelt (tPacket 0x0080 16 [(0, 1, 3), (1, 1, 2), (4, 4, 0xFFFFFF), (8, 2, 400)]) = some (.nozzleSurvey (pHdr 16) 3 2 0xFFFFFF 400) := by
  decide +kernel
/-- R311. -/
theorem test_packet_scrub_range :
    tSpelt (tPacket 0x00B0 32 [(1, 1, 1), (8, 8, 16), (16, 8, 32), (24, 8, 64)]) = some (.scrubRange (pHdr 32) 1 16 32 64) := by decide +kernel
/-- R397. -/
theorem test_packet_tout_program :
    tSpelt (tPacket 0x00D1 32 [(0, 1, 7), (1, 1, 2), (2, 1, 1), (3, 1, 4), (4, 4, 100), (8, 8, 3), (16, 4, 5), (24, 8, 6553600)])
      = some (.toutProgram (pHdr 32) 7 2 1 4 100 3 5 6553600) := by decide +kernel
/-- R453. -/
theorem test_packet_trace_filter :
    tSpelt (tPacket 0x00F2 32 [(0, 1, 1), (1, 1, 2), (2, 1, 3), (3, 1, 0x80), (4, 4, 0x7FF), (8, 2, 0x3006), (12, 4, 262143), (16, 8, 0x100000001)])
      = some (.traceFilterStart (pHdr 32) 2 3 0x80 0x7FF 0x3006 262143 0x100000001) := by decide +kernel
/-- R122. -/
theorem test_packet_compress :
    tSpelt (tPacket 0x0100 32 [(0, 8, 0x1000), (8, 4, 512), (12, 2, 1), (14, 2, 2), (16, 1, 1), (17, 1, 3), (18, 1, 1), (19, 1, 1), (20, 4, 7), (24, 8, 64)])
      = some (.compress (pHdr 32) 0x1000 512 1 2 1 3 1 1 7 64) := by decide +kernel
/-- R325, R328: a reserved parameter byte that is not 0 is marked. -/
theorem test_packet_reserved :
    tSpelt (tPacket 0x0060 16 [(7, 1, 1)]) = some (.runArm { pHdr 16 with paramRsv := true } 0 0 0 0 0) := by decide +kernel
/-- R325: an opcode outside the table spells no command. -/
theorem test_packet_unknown : tSpelt (tPacket 0x0006 0 []) = none ∧ tSpelt (tPacket 0xFFFF 0 []) = none := by decide +kernel

/-! ## The codes (R178, R204, R301 to R303) -/

/-- A codeword of the burst's code has 16 syndromes of 0. -/
theorem test_rs_codeword : (rsSyndromes (rsCheck ((List.range 72).map (fun k => 3 * k + 1)) ++ (List.range 72).map (fun k => 3 * k + 1))).all (· == 0) = true := by
  decide +kernel
/-- Every symbol of one nibble in error is corrected; symbols of two nibbles are not. -/
theorem test_rs_one_nibble :
    rsOutcome (burstDiff [0, 0, 0, 0, 0, 0, 0, 0] [0, 0, 0, 0, 0, 0, 0, 0] false ((List.range 8).map (fun j => (24 + j, 0x5A + j)))) = .corrected
      ∧ rsOutcome (burstDiff [0, 0, 0, 0, 0, 0, 0, 0] [0, 0, 0, 0, 0, 0, 0, 0] false [(7, 1), (8, 1)]) = .uncorrectable := by decide +kernel
/-- The marker reads as POISON, and an address that differs is uncorrectable. -/
theorem test_rs_marker :
    rsOutcome (burstDiff [1, 0, 2, 3, 4, 0, 0, 5] [1, 0, 2, 3, 4, 0, 0, 5] true []) = .poison
      ∧ rsOutcome (burstDiff [1, 0, 2, 3, 4, 0, 0, 5] [1, 0, 2, 3, 4, 0, 0, 6] false []) = .uncorrectable := by decide +kernel
/-- One bit of a word is corrected, two are not, and the marker reads as POISON. -/
theorem test_secded :
    wordOutcome 5 5 false [127] = .corrected ∧ wordOutcome 5 5 false [137] = .corrected ∧ wordOutcome 5 5 false [0, 128] = .uncorrectable
      ∧ wordOutcome 5 5 true [] = .poison ∧ wordOutcome 5 4 false [] = .uncorrectable := by decide +kernel
/-- A scrambled block comes back. -/
theorem test_scrambler :
    (descramble 0x2AAAAAAAAAAAAAA (scramble 0x2AAAAAAAAAAAAAA (bitList 64 0x0123456789ABCDEF)).1).1 = bitList 64 0x0123456789ABCDEF := by
  decide +kernel
/-- PRBS9 repeats after 511 bits and not before. -/
theorem test_prbs9_period :
    (prbsBits 1 520 1).drop 511 = (prbsBits 1 520 1).take 9 ∧ (prbsBits 1 511 1).filter id = List.replicate 256 true := by decide +kernel

/-! ## The package and the sensors (R429, R459, R460) -/

/-- The balls of the signal groups are those of the array without its corners. -/
theorem test_ball_count : (signalGroups.map (·.balls)).foldl (· + ·) 0 = 54 * 54 - 4 := by decide +kernel
/-- R459's own examples. -/
theorem test_lane_balls : laneBall 3 .ds false = ("C", 41) ∧ laneBall 6 .uck false = ("BM", 31) := by decide +kernel
/-- R427: a thermistor of its own R25 is at 25.0 °C. -/
theorem test_ntc_at_25 : ntcReading { RemoteCfg.reset with kind := 2, paramA := 10000, paramB := 34350 } 10000 = some 250 := by decide +kernel
/-- R429: an input found open is broken, and a broken sensor reads 200.0 °C. -/
theorem test_broken_remote : remoteReading { RemoteCfg.reset with kind := 1 } .faulty = none ∧ brokenReading = 2000 := by decide +kernel

/-! A burst of the staging queue that cannot be used (R304): the oldest coding line that waits is dropped, or the next one that passes. -/

def stagedPort (l : List (Nat × Nat)) : State :=
  (up .idle).withCam 0 { CamPort.reset with staged := l, codeWait := [{ seq := 5, pixels := 256, tileRows := 1, chain := 0, rows := [(7, [9])] }] }

theorem test_staged_line_is_dropped :
    ((dropLine 0 (stagedPort [(5, 7)])).cam 0).staged = []
    ∧ ((dropLine 0 (stagedPort [(5, 7)])).cam 0).codeWait.map (fun j => tget (fun _ => []) j.rows 7) = [[]]
    ∧ (dropLine 0 (stagedPort [(5, 7)])).counter (camCounter 0 9) = 1
    ∧ ((dropLine 0 (stagedPort [])).cam 0).lineLost = true := by decide +kernel

/-! ## Witnesses that take a proof of their own -/

/-- An image from its fields in ascending order: offset, width and value of each; bytes of 0 are left out. -/
def raw (l : List (Nat × Nat × Nat)) : Mem :=
  (l.flatMap (fun e => (List.range e.2.1).map (fun i => (e.1 + i, bn (e.2.2 / 256 ^ i))))).filter (fun x => x.2.toNat != 0)

/-- A schedule image that passes checks 5 to 16: no bar, one empty page program of 100,000 lines, a GEYSER window of all ranks and a
RETRAIN window of each channel in every frame, and 14 wheel positions of each sub-channel for the dynamic share. -/
def quietImage : Mem :=
  raw ([(8, 4, 17176), (32, 8, 546133334), (40, 8, 546133334), (48, 4, 10416), (54, 1, 1), (88, 2, 65535),
    (128, 4, 1), (132, 4, 256), (136, 4, 320), (140, 4, 1),
    (144, 4, 2), (148, 4, 576), (152, 4, 16400), (156, 4, 1),
    (160, 4, 3), (164, 4, 16976), (168, 4, 80), (172, 4, 5),
    (176, 4, 4), (180, 4, 17056), (184, 4, 0), (188, 4, 0),
    (192, 4, 5), (196, 4, 17056), (200, 4, 80), (204, 4, 1),
    (208, 4, 6), (212, 4, 17136), (216, 4, 16), (220, 4, 1),
    (224, 4, 7), (228, 4, 17152), (232, 4, 8), (236, 4, 1),
    (240, 4, 8), (244, 4, 17160), (248, 4, 16), (252, 4, 1)]
  ++ (List.range 8).map (fun h => (256 + 32 * h, 7, 0x88888888888888))
  ++ [(16964, 4, 1000), (16968, 4, 1),
    (16976, 1, 1), (16977, 1, 255), (16978, 1, 1), (16979, 1, 3), (16980, 4, 64), (16984, 2, 1), (16986, 2, 1)]
  ++ (List.range 4).flatMap (fun c => [(16992 + 16 * c, 1, 2), (16993 + 16 * c, 1, 3 * 4 ^ c), (16996 + 16 * c, 4, 128),
    (17000 + 16 * c, 2, 1), (17002 + 16 * c, 2, 1)])
  ++ [(17056, 4, 8), (17064, 4, 100000), (17136, 4, 8), (17144, 4, 10), (17160, 4, 8)])

def checking : State :=
  onRun (fun x => { x with banks := [(0, { tBank with image := quietImage }), (1, { tBank with image := quietImage })], schedOp := some (tSchedOp true 0) })
    (onDram (fun x => { x with cfg := { x.cfg with timing := List.replicate 12 0 ++ [65535] } }) (running 0x0041 (fitted .idle)))

theorem layTicks_of_no_bars (lays : List Lay) (h : lays.all (fun l => (ppBars l.m l.pp).isEmpty) = true) : layTicks lays = [] := by
  have e : ∀ w, shotsAt lays w = [] := by
    intro w
    simp only [shotsAt, List.flatMap_eq_nil_iff]
    intro l hl
    have := List.all_eq_true.mp h l hl
    simp only [List.isEmpty_iff] at this
    simp [this]
  simp [layTicks, e]

theorem quiet_ticks : layTicks (laySequence quietImage) = [] := layTicks_of_no_bars _ (by decide +kernel)

/-! A read of an image where it lists nothing is 0, so that the 4,096 entries of the context map need no evaluation. -/

theorem tget_hole {α : Type} (d : Nat → α) (m : Tab α) (k : Nat) (h : ∀ e ∈ m, e.1 ≠ k) : tget d m k = d k := by
  induction m with
  | nil => rfl
  | cons e l ih =>
    obtain ⟨a, b⟩ := e
    have ha : a ≠ k := h (a, b) (by simp)
    have hl := ih (fun e he => h e (by simp [he]))
    simp only [tget]
    split <;> simp_all

theorem mread_hole (m : Mem) (o n : Nat) (h : ∀ e ∈ m, e.1 < o ∨ o + n ≤ e.1) : mread zeroByte m o n = List.replicate n 0 := by
  induction n generalizing o with
  | zero => rfl
  | succ n ih =>
    have h0 : tget zeroByte m o = 0 := tget_hole _ _ _ (fun e he => by rcases h e he with x | x <;> omega)
    have hr := ih (o + 1) (fun e he => by rcases h e he with x | x <;> omega)
    simp only [mread, h0, hr, List.replicate_succ]

theorem leNat_zeros (n : Nat) : leNat (List.replicate n (0 : Byte)) = 0 := by
  induction n with
  | zero => rfl
  | succ n ih => rw [List.replicate_succ, leNat, ih]; rfl

theorem imgN_hole (m : Mem) (o n : Nat) (h : ∀ e ∈ m, e.1 < o ∨ o + n ≤ e.1) : imgN m o n = 0 := by
  rw [imgN, mread_hole m o n h, leNat_zeros]

theorem quiet_hole : ∀ e ∈ quietImage, e.1 < 576 ∨ 576 + 16384 ≤ e.1 := by decide +kernel

theorem quiet_store : storePlanOk quietImage = none := by
  have ho : (sec quietImage 2).off = 576 := by decide +kernel
  have hp : poolCount quietImage = 1 := by decide +kernel
  have z : ∀ i a n, i < 4096 → a + n ≤ 4 → imgN quietImage (576 + 4 * i + a) n = 0 := fun i a n hi ha =>
    imgN_hole _ _ _ (fun e he => by rcases quiet_hole e he with x | x <;> omega)
  have z0 : ∀ i, i < 4096 → imgN quietImage (576 + 4 * i) 1 = 0 := fun i hi => z i 0 1 hi (by omega)
  have h1 : (List.range 4096).findSome? (fun i => need (zeros quietImage (576 + 4 * i + 1) 1 && decide (imgN quietImage (576 + 4 * i + 2) 2 ≤ 431
      ∧ (imgN quietImage (576 + 4 * i) 1 = 0xFF ∨ imgN quietImage (576 + 4 * i) 1 < 1))) (fail8 2 i 0 (imgN quietImage (576 + 4 * i) 4))) = none := by
    rw [List.findSome?_eq_none_iff]
    intro i hi
    have hi := List.mem_range.mp hi
    simp [need, zeros, z i 1 1 hi (by omega), z i 2 2 hi (by omega), z0 i hi]
  have h2 : (List.range 1).findSome? (fun i => need (zeros quietImage (576 + 16384 + 16 * i + 14) 2
      && decide ((pool quietImage i).bar < 8 ∧ (pool quietImage i).layer < 2)) (fail8 2 i 0 0)) = none := by decide +kernel
  simp only [storePlanOk, ho, hp]
  rw [h1, h2]
  rfl

theorem quiet_budget_off : (sec quietImage 1).off = 256 := by decide +kernel

theorem quiet_owners : ownersOk quietImage = none := by
  rw [ownersOk, quiet_budget_off]
  decide +kernel

/-! The slots of the dynamic share, from the wheel and the windows as they stand in the image. -/

def quietWheel : List Nat := List.replicate 14 8 ++ List.replicate 50 0

theorem dynamicSlots_of (m : Mem) (h : Nat) (wheel : List Nat) (ws : List Window) (hw : ∀ j, j < 64 → wheelOwner m h j = nth 0 wheel j)
    (hs : windowsOf m = ws) : dynamicSlots m h
      = ((List.range (frameSlots m)).filter (fun k => decide (nth 0 wheel (k % 64) = 8) && !ws.any (fun w => w.covers h k))).length := by
  have e : ∀ k, wheelOwner m h k = nth 0 wheel (k % 64) := fun k => by
    rw [← hw (k % 64) (Nat.mod_lt _ (by omega))]
    simp [wheelOwner]
  simp only [dynamicSlots, hs, e]

theorem q5 : check5 checking quietImage = none := by decide +kernel
theorem q6 : check6 checking quietImage = none := by decide +kernel
theorem q7 : check7 quietImage = none := by decide +kernel
theorem q8 : check8 quietImage = none := by
  have h1 : sectionsOk quietImage = none := by decide +kernel
  have h3 : windowsOk quietImage = none := by decide +kernel
  have h4 : (List.range (sec quietImage 4).count).findSome? (frameOk quietImage) = none := by decide +kernel
  have h5 : (List.range (ppCount quietImage)).findSome? (pageProgOk quietImage) = none := by decide +kernel
  have h6 : (List.range (gpCount quietImage)).findSome? (gapProgOk quietImage) = none := by decide +kernel
  have h7 : sequenceOk quietImage = none := by decide +kernel
  have h8 : budgetOk quietImage = none := by decide +kernel
  rw [check8, h1, quiet_owners, quiet_store, h3, h4, h5, h6, h7, h8]
  rfl
theorem q9 : check9 checking quietImage = none := by decide +kernel
theorem q10 : check10 quietImage = none := by decide +kernel
theorem q13 : check13 checking quietImage = none := by decide +kernel
theorem q14 : check14 checking quietImage = none := by decide +kernel
def quietWindows : List Window := [
  { kind := 1, subchMask := 255, rankMask := 1, refreshes := 3, first := 64, slots := 1, period := 1, phase := 0 },
  { kind := 2, subchMask := 3, rankMask := 0, refreshes := 0, first := 128, slots := 1, period := 1, phase := 0 },
  { kind := 2, subchMask := 12, rankMask := 0, refreshes := 0, first := 128, slots := 1, period := 1, phase := 0 },
  { kind := 2, subchMask := 48, rankMask := 0, refreshes := 0, first := 128, slots := 1, period := 1, phase := 0 },
  { kind := 2, subchMask := 192, rankMask := 0, refreshes := 0, first := 128, slots := 1, period := 1, phase := 0 }]

theorem quiet_share : ∀ h, h < 8 →
    ((List.range 1666).filter (fun k => decide (nth 0 quietWheel (k % 64) = 8) && !quietWindows.any (fun w => w.covers h k))).length = 364 := by
  decide +kernel

theorem q15 : (List.range 8).findSome? (fun h => need (decide (frameSlots quietImage ≤ 5 * dynamicSlots quietImage h))
    (fail15 1 h 0 (dynamicSlots quietImage h))) = none := by
  have hf : frameSlots quietImage = 1666 := by decide +kernel
  rw [List.findSome?_eq_none_iff]
  intro h hh
  have hw : ∀ h, h < 8 → ∀ j, j < 64 → wheelOwner quietImage h j = nth 0 quietWheel j := by
    simp only [wheelOwner, quiet_budget_off]
    decide +kernel
  have hs : windowsOf quietImage = quietWindows := by decide +kernel
  have hd := dynamicSlots_of quietImage h quietWheel _ (hw h (List.mem_range.mp hh)) hs
  have hn : dynamicSlots quietImage h = 364 := by
    rw [hd, hf]
    exact quiet_share h (List.mem_range.mp hh)
  simp [need, hf, hn]
theorem q16 : check16 quietImage = none := by decide +kernel

theorem quiet_runs : runsOf quietImage = [] := by decide +kernel
theorem quiet_cues : cuesOfBar quietImage = [] := by decide +kernel
theorem quiet_reservations : (ppBarPairs quietImage).findSome? (fun x => reservationOk quietImage x.1 x.2) = none := by decide +kernel

/-! The checks over timelines, for an image without a run or a cue. -/

theorem check11_of_no_runs (m : Mem) (lays : List Lay) (hr : runsOf m = []) (ht : layTicks lays = []) : check11 m [lays] [] = none := by
  simp [check11, hr, orFail, timelineOk, ht]

theorem check12_of_no_cues (s : State) (m : Mem) (lays : List Lay) (hc : cuesOfBar m = []) (ht : layTicks lays = []) :
    check12 s m [lays] = none := by
  simp [check12, hc, orFail, ht]

theorem check15_of_no_ticks (s : State) (m : Mem) (lays : List Lay) (ht : layTicks lays = [])
    (hr : (ppBarPairs m).findSome? (fun x => reservationOk m x.1 x.2) = none)
    (hs : (List.range 8).findSome? (fun h => need (decide (frameSlots m ≤ 5 * dynamicSlots m h)) (fail15 1 h 0 (dynamicSlots m h))) = none) :
    check15 s m [lays] = none := by
  simp [check15, ht, hr, hs, firstOf]

theorem schedFailure_of_checks (s : State) (m : Mem) (h5 : check5 s m = none) (h6 : check6 s m = none) (h7 : check7 m = none)
    (h8 : check8 m = none) (h9 : check9 s m = none) (h10 : check10 m = none) (h11 : check11 m [laySequence m] [] = none)
    (h12 : check12 s m [laySequence m] = none) (h13 : check13 s m = none) (h14 : check14 s m = none)
    (h15 : check15 s m [laySequence m] = none) (h16 : check16 m = none) : schedFailure s m none = none := by
  simp [schedFailure, timelines, follows, h5, h6, h7, h8, h9, h10, check10Follow, h11, h12, h13, h14, h15, h16, check16Follow, firstOf]

theorem quiet_passes : schedFailure checking quietImage none = none :=
  schedFailure_of_checks _ _ q5 q6 q7 q8 q9 q10 (check11_of_no_runs _ _ quiet_runs quiet_ticks)
    (check12_of_no_cues _ _ _ quiet_cues quiet_ticks) q13 q14 (check15_of_no_ticks _ _ _ quiet_ticks quiet_reservations q15) q16

/-- A SCHED_CHECK that passes: every hypothesis of its clause of ScheduleCommandsComplete can be met. -/
theorem test_witness_sched_check_passes : ∃ (s : State) (o : OpRef) (x : SchedOp), runsLong s o 0x0041 = true ∧ s.run.schedOp = some x
    ∧ x.check = true ∧ x.ring = o.ring ∧ x.tag = o.tag
    ∧ schedFailure s (s.bank s.spare).image (if x.follow then some s.activeImage else none) = none := by
  have hb : (checking.bank checking.spare).image = quietImage := by decide +kernel
  have hx : (tSchedOp true 0).follow = false := by decide
  refine ⟨checking, opr, tSchedOp true 0, by decide +kernel, rfl, by decide, by decide, by decide, ?_⟩
  rw [hb, hx]
  exact quiet_passes

/-! The press description of the tests, without its 4,864 bytes of 0 evaluated field by field. -/

theorem mread_drop (m : Mem) (o a n : Nat) : (mread zeroByte m o (a + n)).drop a = mread zeroByte m (o + a) n := by
  induction a generalizing o with
  | zero => simp
  | succ a ih => rw [show a + 1 + n = (a + n) + 1 by omega, mread, List.drop_succ_cons, ih, show o + 1 + a = o + (a + 1) by omega]

theorem pressFail_of_none (bs : List Byte) (hh : (headerFails bs ++ motionFails bs).all (fun x => !x.2) = true)
    (hm : field bs 14 1 = 0) (hz : bs.drop 64 = List.replicate 4864 0) : pressFail bs = none := by
  have fz : ∀ o w, 64 ≤ o → field bs o w = 0 := fun o w ho => by
    have hd : bs.drop o = List.replicate (4864 - (o - 64)) 0 := by
      rw [show o = 64 + (o - 64) by omega, ← List.drop_drop, hz, List.drop_replicate]
      simp
    rw [field, hd, List.take_replicate, leNat_zeros]
  have hb : ∀ b, bit (field bs 14 1) b = false := fun b => by simp [hm, bit]
  have hr : ∀ b, (reservedFails bs b).all (fun x => !x.2) = true := fun b => by
    simp (disch := omega) [reservedFails, barRecBase, slotRecBase, fz, List.all_flatMap]
  have hn : ∀ l : List (Nat × Bool), l.all (fun x => !x.2) = true →
      l.foldl (fun m x => if x.2 then (match m with
        | none => some x.1
        | some o => some (min o x.1)) else m) (none : Option Nat) = none := by
    intro l
    induction l with
    | nil => exact fun _ => rfl
    | cons x l ih =>
      intro h
      simp only [List.all_cons, Bool.and_eq_true, Bool.not_eq_true'] at h
      simp only [List.foldl_cons, h.1]
      exact ih h.2
  rw [pressFail]
  refine hn _ ?_
  simp only [List.all_append] at hh ⊢
  rw [hh]
  simp [List.all_flatMap, hb, hr]

theorem pressFail_of_magic (bs : List Byte) (h : field bs 0 4 ≠ 0x53455250) : pressFail bs = some 0 := by
  have hs : ∀ l : List (Nat × Bool), l.foldl (fun m x => if x.2 then (match m with
      | none => some x.1
      | some o => some (min o x.1)) else m) (some 0) = some 0 := by
    intro l
    induction l with
    | nil => rfl
    | cons x l ih =>
      simp only [List.foldl_cons]
      split <;> simpa using ih
  have hc : ∀ l : List (Nat × Bool), l.foldl (fun m x => if x.2 then (match m with
      | none => some x.1
      | some o => some (min o x.1)) else m) none = some 0 ∨ l.head? ≠ some (0, true) := by
    intro l
    match l with
    | [] => exact .inr (by simp)
    | (o, false) :: l => exact .inr (by simp)
    | (o + 1, true) :: l => exact .inr (by simp)
    | (0, true) :: l => exact .inl (hs l)
  exact (hc _).resolve_right (fun hx => hx (by simp [headerFails, h]))

theorem press_tail : (mread zeroByte pressBytes 0 4928).drop 64 = List.replicate 4864 0 := by
  rw [show 4928 = 64 + 4864 from rfl, mread_drop, mread_hole]
  decide +kernel

/-- A description that PRESS_CONFIG accepts, and one it refuses for its first field. -/
theorem test_witness_press_config_checks :
    (∃ (s : State) (h : Hdr) (source : Nat), accepts s h (cmdOf 0x0030 0) = true ∧ groupsInUse s = false ∧ s.dmaBad source 4928 = none
      ∧ canonOk s = true ∧ pressFail (s.dmaRead source 4928) = none)
    ∧ (∃ (s : State) (h : Hdr) (source o : Nat), accepts s h (cmdOf 0x0030 0) = true ∧ groupsInUse s = false
      ∧ s.dmaBad source 4928 = none ∧ pressFail (s.dmaRead source 4928) = some o) :=
  ⟨⟨onHost (fun x => { x with mem := pressBytes }) (up .idle), hdr, 0, by decide +kernel, by decide +kernel, by decide +kernel,
      by decide +kernel, pressFail_of_none _ (by decide +kernel) (by decide +kernel) press_tail⟩,
    ⟨up .idle, hdr, 0, 0, by decide +kernel, by decide +kernel, by decide +kernel, pressFail_of_magic _ (by decide +kernel)⟩⟩

/-- Every hypothesis of IdentityCommandsComplete can be met, clause by clause. -/
theorem test_witness_identity_commands_complete :
    (∃ s : State, ∃ h : Hdr, (accepts s h (cmdOf 0x0001 0) = true))
    ∧ (∃ s : State, ∃ h : Hdr, (accepts s h (cmdOf 0x0002 0) = true))
    ∧ (∃ s : State, ∃ h : Hdr, (accepts s h (cmdOf 0x0003 0) = true)) :=
  ⟨⟨up .idle, hdr, by decide +kernel⟩,
   ⟨up .idle, hdr, by decide +kernel⟩,
   ⟨up .idle, hdr, by decide +kernel⟩⟩

/-- Every hypothesis of GetProgressAnswers can be met, clause by clause. -/
theorem test_witness_get_progress_answers :
    (∃ s : State, ∃ h : Hdr, ∃ ring : Nat, ∃ tag : Nat, ∃ o : LongOp, (accepts s h (cmdOf 0x0004 0) = true) ∧ (s.host.longOps.find? (fun o => decide (o.ring = ring ∧ o.tag = tag) && !o.orphan) = some o))
    ∧ (∃ s : State, ∃ h : Hdr, ∃ ring : Nat, ∃ tag : Nat, (accepts s h (cmdOf 0x0004 0) = true) ∧ (s.host.longOps.find? (fun o => decide (o.ring = ring ∧ o.tag = tag) && !o.orphan) = none)) :=
  ⟨⟨running 0x0040 (up .idle), { hdr with tag := 2 }, 0, 1, longRec 0x0040, by decide +kernel⟩,
   ⟨up .idle, hdr, 0, 0, by decide +kernel⟩⟩

/-- Every hypothesis of HostConfigCompletes can be met, clause by clause. -/
theorem test_witness_host_config_completes :
    (∃ s : State, ∃ h : Hdr, ∃ ring : Nat, ∃ log2 : Nat, ∃ vector : Nat, ∃ n : Nat, ∃ us : Nat, ∃ cb : Nat, ∃ rb : Nat, (accepts s h (cmdOf 0x0010 1) = true) ∧ (1 ≤ ring) ∧ (ring ≤ 63) ∧ (4 ≤ log2) ∧ (log2 ≤ 12) ∧ (vector ≤ 63) ∧ (n ≤ 64) ∧ (us ≤ 1000) ∧ (cb % 4096 = 0) ∧ (rb % 4096 = 0) ∧ ((s.ring ring).enabled = false))
    ∧ (∃ s : State, ∃ h : Hdr, ∃ ring : Nat, (accepts s h (cmdOf 0x0010 0) = true) ∧ (1 ≤ ring) ∧ (ring ≤ 63) ∧ ((s.ring ring).owed = 0) ∧ (canonOk s = true))
    ∧ (∃ s : State, ∃ h : Hdr, ∃ log2 : Nat, ∃ vector : Nat, ∃ n : Nat, ∃ us : Nat, ∃ base : Nat, ∃ every : Nat, (accepts s h (cmdOf 0x0010 2) = true) ∧ (6 ≤ log2) ∧ (log2 ≤ 16) ∧ (vector ≤ 63) ∧ (n ≤ 64) ∧ (us ≤ 1000) ∧ (base % 4096 = 0) ∧ ((every = 0 ∨ (every % 64 = 0 ∧ 64 ≤ every ∧ every ≤ 1048576))) ∧ (s.host.plume.enabled = false))
    ∧ (∃ s : State, ∃ h : Hdr, (accepts s h (cmdOf 0x0010 3) = true))
    ∧ (∃ s : State, ∃ h : Hdr, ∃ mask : Nat, (accepts s h (cmdOf 0x0011 0) = true) ∧ (mask < 65536))
    ∧ (∃ s : State, ∃ h : Hdr, ∃ k : Nat, ∃ w : Nat, ∃ period : Nat, (accepts s h (cmdOf 0x0011 1) = true) ∧ (k ≤ 7))
    ∧ (∃ s : State, ∃ h : Hdr, ∃ k : Nat, ∃ w : Nat, ∃ period : Nat, (accepts s h (cmdOf 0x0011 1) = true) ∧ (k ≤ 7) ∧ (s.web.webPos + 1 < w))
    ∧ (∃ s : State, ∃ h : Hdr, ∃ k : Nat, ∃ w : Nat, ∃ period : Nat, (accepts s h (cmdOf 0x0011 1) = true) ∧ (k ≤ 7) ∧ (1 ≤ period) ∧ (period < 2 ^ 32)) :=
  ⟨⟨up .idle, hdr, 63, 12, 63, 64, 1000, 0, 0, by decide +kernel⟩,
   ⟨up .idle, hdr, 1, by decide +kernel⟩,
   ⟨up .idle, hdr, 6, 63, 64, 1000, 0, 64, by decide +kernel⟩,
   ⟨up .idle, hdr, by decide +kernel⟩,
   ⟨up .idle, hdr, 65535, by decide +kernel⟩,
   ⟨up .idle, hdr, 7, 0, 0, by decide +kernel⟩,
   ⟨up .idle, hdr, 7, 2, 0, by decide +kernel⟩,
   ⟨up .idle, hdr, 7, 0, 4294967295, by decide +kernel⟩⟩

/-- Every hypothesis of HostRegisterWritesComplete can be met, clause by clause. -/
theorem test_witness_host_register_writes_complete :
    (∃ s : State, ∃ r : Nat, ∃ v : Nat, (s.host.linkUp = true) ∧ (r ≤ 63) ∧ (v < 65536) ∧ ((s.ring r).enabled = true) ∧ (v < (s.ring r).entries))
    ∧ (∃ s : State, ∃ r : Nat, ∃ v : Nat, (s.host.linkUp = true) ∧ (r ≤ 63) ∧ (v < 65536) ∧ ((s.ring r).enabled = true) ∧ ((s.ring r).entries ≤ v))
    ∧ (∃ s : State, ∃ r : Nat, ∃ v : Nat, (s.host.linkUp = true) ∧ (r ≤ 63) ∧ ((s.ring r).enabled = false))
    ∧ (∃ s : State, ∃ r : Nat, ∃ v : Nat, (s.host.linkUp = true) ∧ (r ≤ 63) ∧ (v < 65536) ∧ ((s.ring r).enabled = true) ∧ (v < (s.ring r).entries) ∧ ((v + (s.ring r).entries - (s.ring r).replyHead) % (s.ring r).entries ≤ (s.ring r).unread))
    ∧ (∃ s : State, ∃ r : Nat, ∃ v : Nat, (s.host.linkUp = true) ∧ (r ≤ 63) ∧ (v < 65536) ∧ ((s.ring r).enabled = true) ∧ (v < (s.ring r).entries) ∧ ((s.ring r).unread < (v + (s.ring r).entries - (s.ring r).replyHead) % (s.ring r).entries))
    ∧ (∃ s : State, ∃ v : Word32, (s.host.linkUp = true) ∧ (s.host.plume.enabled = true) ∧ (v.toNat < 65536) ∧ (v.toNat < 2 ^ s.host.plume.log2) ∧ ((v.toNat + 2 ^ s.host.plume.log2 - s.host.plume.head) % 2 ^ s.host.plume.log2 ≤ s.host.plume.used))
    ∧ (∃ s : State, ∃ v : Word32, (s.host.linkUp = true) ∧ (s.host.plume.enabled = true) ∧ (v.toNat < 65536) ∧ (s.host.plume.used < (v.toNat + 2 ^ s.host.plume.log2 - s.host.plume.head) % 2 ^ s.host.plume.log2))
    ∧ (∃ s : State, ∃ v : Word32, (s.host.linkUp = true) ∧ ((s.ring 0).enabled = false) ∧ (v.toNat.testBit 0 = true) ∧ (4 ≤ v.toNat / 256 % 16) ∧ (v.toNat / 256 % 16 ≤ 12))
    ∧ (∃ s : State, ∃ v : Word32, (s.host.linkUp = true) ∧ ((s.ring 0).enabled = true))
    ∧ (∃ s : State, ∃ v : Word32, (s.host.linkUp = true) ∧ ((s.ring 0).enabled = false) ∧ (v.toNat.testBit 0 = true) ∧ ((v.toNat / 256 % 16 < 4 ∨ 12 < v.toNat / 256 % 16)))
    ∧ (∃ s : State, ∃ v : Word32, (s.host.linkUp = true))
    ∧ (∃ s : State, ∃ v : Word32, (s.host.linkUp = true))
    ∧ (∃ s : State, ∃ k : Nat, ∃ a : Nat, ∃ d : Nat, (s.host.linkUp = true) ∧ (k ≤ 79) ∧ (a < 2 ^ 64) ∧ (d < 2 ^ 32) ∧ (s.host.pba.getLsbD k = true))
    ∧ (∃ s : State, ∃ k : Nat, ∃ a : Nat, ∃ d : Nat, (s.host.linkUp = true) ∧ (k ≤ 79) ∧ (a < 2 ^ 64) ∧ (d < 2 ^ 32) ∧ (s.host.pba.getLsbD k = false))
    ∧ (∃ s : State, ∃ r : Nat, ∃ u : Nat, (r ≤ 63) ∧ ((s.ring r).enabled = true) ∧ (0 < (s.ring r).unsignalled) ∧ ((s.ring r).coalUs ≠ 0) ∧ ((s.ring r).oldest + (s.ring r).coalUs * usT ≤ max s.clk.elapsed u) ∧ ((s.msixEntry (s.ring r).vector).masked = false))
    ∧ (∃ s : State, ∃ u : Nat, (s.host.plume.enabled = true) ∧ (0 < s.host.plume.unsignalled) ∧ (s.host.plume.coalUs ≠ 0) ∧ (s.host.plume.oldest + s.host.plume.coalUs * usT ≤ max s.clk.elapsed u) ∧ ((s.msixEntry s.host.plume.vector).masked = false)) :=
  ⟨⟨up .idle, 0, 15, by decide +kernel⟩,
   ⟨up .idle, 0, 16, by decide +kernel⟩,
   ⟨up .idle, 63, 0, by decide +kernel⟩,
   ⟨up .idle, 0, 0, by decide +kernel⟩,
   ⟨up .idle, 0, 15, by decide +kernel⟩,
   ⟨onHost (fun x => { x with plume := { Plume.reset with enabled := true, log2 := 6 } }) (up .idle), 0, by decide +kernel⟩,
   ⟨onHost (fun x => { x with plume := { Plume.reset with enabled := true, log2 := 6 } }) (up .idle), 63, by decide +kernel⟩,
   ⟨onHost (fun x => { x with rings := [] }) (up .idle), 0x401, by decide +kernel⟩,
   ⟨up .idle, 0, by decide +kernel⟩,
   ⟨onHost (fun x => { x with rings := [] }) (up .idle), 0x301, by decide +kernel⟩,
   ⟨up .idle, 0, by decide +kernel⟩,
   ⟨up .idle, 0, by decide +kernel⟩,
   ⟨onHost (fun x => { x with pba := 2 ^ 79 }) (up .idle), 79, 0, 0, by decide +kernel⟩,
   ⟨up .idle, 79, 0, 0, by decide +kernel⟩,
   ⟨onHost (fun x => { x with msix := [(0, { Msix.reset with masked := false })], rings := [(0, { tRing with unsignalled := 1, coalUs := 1 })] }) (up .idle), 0, 65536000, by decide +kernel⟩,
   ⟨onHost (fun x => { x with msix := [(0, { Msix.reset with masked := false })], plume := { Plume.reset with enabled := true, unsignalled := 1, coalUs := 1 } }) (up .idle), 65536000, by decide +kernel⟩⟩

/-- Every hypothesis of ReplyStoresOnlyItsEntry can be met, clause by clause. -/
theorem test_witness_reply_stores_only_its_entry :
    (∃ s : State, ∃ t : State, ∃ h : Hdr, ∃ i : Instr, ∃ c : CmdInfo, ∃ ring : Nat, ∃ tag : Nat, ∃ mask : Nat, ∃ first : Nat, ∃ a, (canonOk s = true) ∧ (s.host.linkUp = true) ∧ (((i, c) ∈ [(Instr.nop h, cmdOf 0x0001 0), (.identify h, cmdOf 0x0002 0), (.getStatus h, cmdOf 0x0003 0), (.getProgress h ring tag, cmdOf 0x0004 0), (.ringConfigDisable h ring, cmdOf 0x0010 0), (.eventConfigEnable h mask, cmdOf 0x0011 0), (.logReadAck h first, cmdOf 0x00F0 1), (.logReadStatus h, cmdOf 0x00F0 2), (.clearFirst h, cmdOf 0x00F0 4), (.traceFilterStop h, cmdOf 0x00F2 0)])) ∧ (accepts s h c = true) ∧ (exec i s = .next t) ∧ ((a < (s.ring h.ring).replyBase + 32 * (s.ring h.ring).replyTail ∨ (s.ring h.ring).replyBase + 32 * (s.ring h.ring).replyTail + 32 ≤ a))) :=
  ⟨up .idle, nextOf (exec (.nop hdr) (up .idle)), hdr, .nop hdr, cmdOf 0x0001 0, 0, 0, 0, 0, 8224, by decide +kernel, by decide +kernel, by decide +kernel, by decide +kernel, next_nextOf _ (by decide +kernel), by decide +kernel⟩

/-- Every hypothesis of ErrorLogCompletes can be met, clause by clause. -/
theorem test_witness_error_log_completes :
    (∃ s : State, ∃ h : Hdr, ∃ first : Nat, ∃ count : Nat, ∃ dest : Nat, (accepts s h (cmdOf 0x00F0 0) = true) ∧ (1 ≤ count) ∧ (count ≤ 256) ∧ (s.host.linkUp = true))
    ∧ (∃ s : State, ∃ h : Hdr, ∃ first : Nat, (accepts s h (cmdOf 0x00F0 1) = true) ∧ (first ≤ s.log.next))
    ∧ (∃ s : State, ∃ h : Hdr, (accepts s h (cmdOf 0x00F0 2) = true))
    ∧ (∃ s : State, ∃ h : Hdr, ∃ first : Nat, ∃ count : Nat, ∃ dest : Nat, (accepts s h (cmdOf 0x00F0 3) = true) ∧ (1 ≤ count) ∧ (count ≤ 16) ∧ (s.host.linkUp = true))
    ∧ (∃ s : State, ∃ h : Hdr, (accepts s h (cmdOf 0x00F0 4) = true))
    ∧ (∃ s : State, ∃ u : Nat, ∃ r : Report, (headReport s.log.queue = some r) ∧ (r.followAt = none) ∧ (coalesceTarget ((s.at u).withLog { s.log with queue := s.log.queue.filter (fun x => x.arrival != r.arrival) }) r = none))
    ∧ (∃ s : State, ∃ u : Nat, ∃ r : Report, (headReport (s.log.followUps.map (·.1)) = some r) ∧ (coalesceTarget ((s.at u).withLog { s.log with followUps := s.log.followUps.filter (fun x => x.1.arrival != r.arrival), queue := s.log.queue.filter (fun x => x.arrival != r.arrival) }) r = none))
    ∧ (∃ s : State, ∃ u : Nat, ∃ r : Report, (overdue (s.at u) = some r) ∧ (coalesceTarget ((s.at u).withLog { s.log with followUps := s.log.followUps.filter (fun y => y.1.arrival != r.arrival), queue := s.log.queue.filter (fun y => y.arrival != r.arrival) }) { r with fields := r.fields.take 1 ++ List.replicate (r.fields.length - 1) 0xFF } = none))
    ∧ (∃ s : State, ∃ u : Nat, ∃ v : Nat, ∃ r : Report, (headReport s.log.queue = some r) ∧ (r.followAt = some v))
    ∧ (∃ s : State, ∃ u : Nat, ∃ r : Report, (overdue (s.at u) = some r)) :=
  ⟨⟨up .idle, hdr, 0, 256, 0, by decide +kernel⟩,
   ⟨up .idle, hdr, 0, by decide +kernel⟩,
   ⟨up .idle, hdr, by decide +kernel⟩,
   ⟨up .idle, hdr, 0, 16, 0, by decide +kernel⟩,
   ⟨up .idle, hdr, by decide +kernel⟩,
   ⟨onLog (fun x => { x with queue := [tReport] }) (up .idle), 0, tReport, by decide +kernel⟩,
   ⟨onLog (fun x => { x with followUps := [(tReport, 0)] }) (up .idle), 0, tReport, by decide +kernel⟩,
   ⟨onLog (fun x => { x with followUps := [(tFollowUp, 0)] }) (up .idle), 10 * msT, tFollowUp, by decide +kernel⟩,
   ⟨onLog (fun x => { x with queue := [tFollowUp] }) (up .idle), 0, 0, tFollowUp, by decide +kernel⟩,
   ⟨onLog (fun x => { x with followUps := [(tFollowUp, 0)] }) (up .idle), 10 * msT, tFollowUp, by decide +kernel⟩⟩

/-- Every hypothesis of TraceAndSnapshotComplete can be met, clause by clause. -/
theorem test_witness_trace_and_snapshot_complete :
    (∃ s : State, ∃ h : Hdr, ∃ mode : Nat, ∃ output : Nat, ∃ bars : Nat, ∃ sources : Nat, ∃ code : Nat, ∃ post : Nat, ∃ at_ : Nat, (accepts s h (cmdOf 0x00F2 1) = true) ∧ (mode ≤ 2) ∧ (output ≤ 3) ∧ (bars ≤ 255) ∧ (sources ≤ 2047) ∧ (post ≤ 262143))
    ∧ (∃ s : State, ∃ h : Hdr, (accepts s h (cmdOf 0x00F2 0) = true))
    ∧ (∃ s : State, (s.trace.armed = true) ∧ (s.web.running = true) ∧ (s.trace.startPos ≤ s.web.webPos))
    ∧ (∃ s : State, (s.trace.triggered = true) ∧ (s.trace.postLeft = 0) ∧ (s.trace.stopped = false))
    ∧ (∃ s : State, ∃ h : Hdr, ∃ first : Nat, ∃ count : Nat, ∃ mode : Nat, ∃ dest : Nat, (accepts s h (cmdOf 0x00F1 0) = true) ∧ (1 ≤ count) ∧ (first + count ≤ 1024) ∧ ((mode = 0 ∨ (mode = 1 ∧ s.web.running = false))) ∧ (s.host.linkUp = true))
    ∧ (∃ s : State, ∃ h : Hdr, ∃ first : Nat, ∃ count : Nat, ∃ dest : Nat, (accepts s h (cmdOf 0x00F1 0) = true) ∧ (1 ≤ count) ∧ (first + count ≤ 1024) ∧ (s.web.running = true)) :=
  ⟨⟨up .idle, hdr, 2, 3, 255, 2047, 0, 262143, 0, by decide +kernel⟩,
   ⟨up .idle, hdr, by decide +kernel⟩,
   ⟨{ printing 110 with trace := { Trace.reset with armed := true } }, by decide +kernel⟩,
   ⟨{ up .idle with trace := { Trace.reset with triggered := true, stopped := false } }, by decide +kernel⟩,
   ⟨up .idle, hdr, 1023, 1, 1, 0, by decide +kernel⟩,
   ⟨printing 110, hdr, 1023, 1, 0, by decide +kernel⟩⟩

/-- Every hypothesis of RegisterWindowCompletes can be met, clause by clause. -/
theorem test_witness_register_window_completes :
    (∃ s : State, ∃ o : Nat, ∃ err : ReadErr, (s.host.linkUp = true) ∧ (o % 4 = 0) ∧ (o < 0x400000) ∧ (o ≠ 0x10000) ∧ (o ≠ 0x20000) ∧ (latchedHigh s o = none))
    ∧ (∃ s : State, ∃ i : Nat, ∃ err : ReadErr, (s.host.linkUp = true) ∧ (i < 1024) ∧ (twf (fun _ => (0 : Word32)) s.regs.lowLatch = true))
    ∧ (∃ s : State, ∃ err : ReadErr, (s.host.linkUp = true))
    ∧ (∃ s : State, ∃ u : Nat, (s.host.linkUp = true))
    ∧ (∃ s : State, ∃ u : Nat, (s.host.linkUp = true))
    ∧ (∃ s : State, ∃ v : Word64, (s.host.linkUp = true))
    ∧ (∃ s : State, ∃ o : Nat, ∃ v : Word64, (s.host.linkUp = true) ∧ (o < 0x400000) ∧ (o % 4 = 0))
    ∧ (∃ s : State, ∃ o : Nat, ∃ v : Word64, (s.host.linkUp = true) ∧ (o % 4 = 0) ∧ ((0x10000 ≤ o ∧ o < 0x60000)))
    ∧ (∃ s : State, ∃ o : Nat, ∃ v : Word64, (s.host.linkUp = true) ∧ (o % 4 = 0) ∧ (o < 0x400000)) :=
  ⟨⟨up .idle, 0x3FFFFC, .clean, by decide +kernel⟩,
   ⟨up .idle, 1023, .clean, by decide +kernel⟩,
   ⟨up .idle, .clean, by decide +kernel⟩,
   ⟨up .idle, 0, by decide +kernel⟩,
   ⟨up .idle, 0, by decide +kernel⟩,
   ⟨up .idle, 0, by decide +kernel⟩,
   ⟨up .idle, 0x3FFFFC, 0, by decide +kernel⟩,
   ⟨up .idle, 0x5FFFC, 0, by decide +kernel⟩,
   ⟨up .idle, 0x3FFFF8, 0, by decide +kernel⟩⟩

/-- Every hypothesis of FetchTakesPackets can be met, clause by clause. -/
theorem test_witness_fetch_takes_packets :
    (∃ s : State, ∃ r : Nat, ∃ u : Nat, ∃ i : Instr, ∃ need : Nat, (ringServed s r = true) ∧ (r ≤ 63) ∧ (s.host.linkUp = true) ∧ ((s.ring r).cmdTail = ((s.ring r).cmdHead + 1) % (s.ring r).entries) ∧ (2 ≤ (s.ring r).entries) ∧ ((s.ring r).cmdHead < (s.ring r).entries) ∧ (s.dmaBad ((s.ring r).cmdBase + 64 * (s.ring r).cmdHead) 64 = none) ∧ ((s.ring r).fetched = []) ∧ (packetOf r (s.dmaRead ((s.ring r).cmdBase + 64 * (s.ring r).cmdHead) 64) = (.cmd i, need)) ∧ ((s.ring r).owed + need ≤ (s.ring r).free))
    ∧ (∃ s : State, ∃ r : Nat, ∃ u : Nat, (ringServed s r = true) ∧ (r ≤ 63) ∧ (s.host.linkUp = true) ∧ ((s.ring r).fetched = []) ∧ (s.dmaBad ((s.ring r).cmdBase + 64 * (s.ring r).cmdHead) 64 = none) ∧ ((s.ring r).free ≤ (s.ring r).owed)) :=
  ⟨⟨fetching, 0, 0, .nop { hdr with paramLen := 0, tag := 0 }, 1, by decide +kernel⟩,
   ⟨onHost (fun x => { x with rings := [(0, { tRing with owed := 15 })] }) (up .idle), 0, 0, by decide +kernel⟩⟩

/-- Every hypothesis of StoreCommandsComplete can be met, clause by clause. -/
theorem test_witness_store_commands_complete :
    (∃ s : State, ∃ h : Hdr, ∃ bank : Nat, ∃ bar : Nat, ∃ layer : Nat, ∃ context : Nat, ∃ count : Nat, ∃ dest : Nat, ∃ p : Pool, (accepts s h (cmdOf 0x0050 0) = true) ∧ (bank ≤ 1) ∧ (1 ≤ count) ∧ (count ≤ 65536) ∧ (dest % 4 = 0) ∧ (contextPool s bank bar layer context = some p) ∧ (count ≤ (freeFrames s p).length) ∧ (s.host.linkUp = true))
    ∧ (∃ s : State, ∃ h : Hdr, ∃ bank : Nat, ∃ bar : Nat, ∃ layer : Nat, ∃ context : Nat, ∃ count : Nat, ∃ dest : Nat, ∃ u : Nat, (accepts s h (cmdOf 0x0050 1) = true) ∧ (1 ≤ count) ∧ (count ≤ 268435456) ∧ (fitFrom s (ceilDiv count 4096) (heapEnd s) 0 0 = some u))
    ∧ (∃ s : State, ∃ h : Hdr, ∃ handle : Nat, (accepts s h (cmdOf 0x0052 0) = true) ∧ (handle ∈ s.store.frames) ∧ (frameBusy s handle = false))
    ∧ (∃ s : State, ∃ h : Hdr, ∃ handle : Nat, ∃ a : Area, (accepts s h (cmdOf 0x0052 1) = true) ∧ (s.area handle = some a) ∧ (areaLocked s handle = false))
    ∧ (∃ s : State, ∃ h : Hdr, ∃ flags : Nat, ∃ handle : Nat, ∃ source : Nat, ∃ length : Nat, ∃ layer : Nat, (accepts s h (cmdOf 0x0051 0) = true) ∧ (flags ≤ 1) ∧ (source % 64 = 0) ∧ (32 ≤ length) ∧ (length ≤ 18464) ∧ (handle ∈ s.store.frames) ∧ (frameLayer s handle = some layer) ∧ (s.dmaBad source length = none) ∧ (tileWriteCheck s (flags = 1) handle layer (s.dmaRead source length) = none))
    ∧ (∃ s : State, ∃ h : Hdr, ∃ handle : Nat, ∃ source : Nat, ∃ length : Nat, ∃ offset : Nat, ∃ a : Area, (accepts s h (cmdOf 0x0051 1) = true) ∧ (source % 64 = 0) ∧ (s.area handle = some a) ∧ (1 ≤ length) ∧ (offset % 64 = 0) ∧ (offset + length ≤ a.bytes) ∧ (areaLocked s handle = false) ∧ (s.dmaBad source length = none)) :=
  ⟨⟨onRun (fun x => { x with banks := [(0, tBank)] }) (up .idle), hdr, 0, 0, 0, 0, 1, 0, pool tImage 0, by decide +kernel⟩,
   ⟨up .idle, hdr, 0, 0, 0, 0, 4096, 0, 0, by decide +kernel⟩,
   ⟨onStore (fun x => { x with frames := [0] }) (up .idle), hdr, 0, by decide +kernel⟩,
   ⟨onStore (fun x => { x with areas := [tArea] }) (up .idle), hdr, 0, tArea, by decide +kernel⟩,
   ⟨storing, hdr, 0, 0, 0, 32, 0, by decide +kernel⟩,
   ⟨onStore (fun x => { x with areas := [tArea] }) (up .idle), hdr, 0, 0, 4096, 0, tArea, by decide +kernel⟩⟩

/-- Every hypothesis of AllocatedAreaWasFree can be met, clause by clause. -/
theorem test_witness_allocated_area_was_free :
    (∃ s : State, ∃ n : Nat, ∃ u : Nat, (1 ≤ n) ∧ (fitFrom s n (heapEnd s) 0 0 = some u)) :=
  ⟨up .idle, 1, 0, by decide +kernel⟩

/-- Every hypothesis of PageReadyBinds can be met, clause by clause. -/
theorem test_witness_page_ready_binds :
    (∃ s : State, ∃ h : Hdr, ∃ job : Nat, ∃ first : Nat, ∃ count : Nat, ∃ d : Nat, (accepts s h (cmdOf 0x0053 0) = true) ∧ (count ≠ 0) ∧ (jobKnown s job = true) ∧ ((s.area d).isSome = true) ∧ (rangePassed s job first count = true))
    ∧ (∃ s : State, ∃ h : Hdr, ∃ job : Nat, ∃ first : Nat, ∃ count : Nat, ∃ d : Nat, (accepts s h (cmdOf 0x0053 0) = true) ∧ (count ≠ 0) ∧ (jobKnown s job = true) ∧ ((s.area d).isSome = true) ∧ (rangePassed s job first count = false) ∧ (1024 ≤ s.run.ready.length))
    ∧ (∃ s : State, ∃ h : Hdr, ∃ job : Nat, ∃ first : Nat, ∃ count : Nat, ∃ d : Nat, (accepts s h (cmdOf 0x0053 0) = true) ∧ (count ≠ 0) ∧ (jobKnown s job = true) ∧ ((s.area d).isSome = true) ∧ (rangePassed s job first count = false) ∧ (s.run.ready.length < 1024) ∧ ((descriptorSound s d = false ∨ ∃ x ∈ rangePrograms s job first count, descriptorFits s d x.1 x.2 = false)))
    ∧ (∃ s : State, ∃ h : Hdr, ∃ job : Nat, ∃ first : Nat, ∃ count : Nat, ∃ d : Nat, (accepts s h (cmdOf 0x0053 0) = true) ∧ (count ≠ 0) ∧ (jobKnown s job = true) ∧ ((s.area d).isSome = true) ∧ (rangePassed s job first count = false) ∧ (s.run.ready.length < 1024) ∧ (descriptorSound s d = true) ∧ ((∀ x ∈ rangePrograms s job first count, descriptorFits s d x.1 x.2 = true ∧ budgetMiss s d x.1 x.2 = none))) :=
  ⟨⟨onStore (fun x => { x with areas := [tArea] }) (onRun (fun x => { x with pages := [tPage] }) (up .run)), hdr, 0, 0, 2, 0, by decide +kernel⟩,
   ⟨onRun (fun x => { x with ready := List.replicate 1024 tReady }) (onStore (fun x => { x with areas := [tArea] }) (up .armed)), hdr, 0, 0, 1, 0, by decide +kernel⟩,
   ⟨onRun (fun x => { x with banks := [(0, tBank)] }) (onStore (fun x => { x with areas := [tArea] }) (up .armed)), hdr, 0, 0, 1, 0, by decide +kernel⟩,
   ⟨(onStore (fun x => { x with areas := [tArea] }) (up .armed)).devWrite 0 (leBytes 4 0x46435044), hdr, 0, 0, 1, 0, by decide +kernel⟩⟩

/-- Every hypothesis of ScheduleCommandsComplete can be met, clause by clause. -/
theorem test_witness_schedule_commands_complete :
    (∃ s : State, ∃ h : Hdr, ∃ addr : Nat, ∃ length : Nat, (acceptsLong s h (cmdOf 0x0040 0) = true) ∧ (s.run.schedOp = none) ∧ (s.run.oldBankBusy = false) ∧ (s.run.activation = none))
    ∧ (∃ s : State, ∃ o : OpRef, ∃ x : SchedOp, (runsLong s o 0x0040 = true) ∧ (s.run.schedOp = some x) ∧ (x.check = false) ∧ (x.ring = o.ring) ∧ (x.tag = o.tag) ∧ (s.dmaBad x.addr x.length = none) ∧ (loadCheck (mwrite zeroByte [] 0 ((s.dmaRead x.addr x.length).take 2097152)) (s.dmaRead x.addr x.length) = none))
    ∧ (∃ s : State, ∃ o : OpRef, ∃ x : SchedOp, ∃ st : Nat, (runsLong s o 0x0040 = true) ∧ (s.run.schedOp = some x) ∧ (x.check = false) ∧ (x.ring = o.ring) ∧ (x.tag = o.tag) ∧ (s.dmaBad x.addr x.length = none) ∧ (loadCheck (mwrite zeroByte [] 0 ((s.dmaRead x.addr x.length).take 2097152)) (s.dmaRead x.addr x.length) = some st))
    ∧ (∃ s : State, ∃ h : Hdr, ∃ flags : Nat, (acceptsLong s h (cmdOf 0x0041 0) = true) ∧ (flags < 2) ∧ (s.run.schedOp = none) ∧ ((s.bank s.spare).loaded = true) ∧ (s.firstUnread (imgBarMask (s.bank s.spare).image) = none))
    ∧ (∃ s : State, ∃ o : OpRef, ∃ x : SchedOp, ∃ f : Fail, (runsLong s o 0x0041 = true) ∧ (s.run.schedOp = some x) ∧ (x.check = true) ∧ (x.ring = o.ring) ∧ (x.tag = o.tag) ∧ (schedFailure s (s.bank s.spare).image (if x.follow then some s.activeImage else none) = some f))
    ∧ (∃ s : State, ∃ h : Hdr, ∃ job : Nat, ∃ first : Nat, ∃ boundary : Nat, (accepts s h (cmdOf 0x0042 0) = true) ∧ (s.dev = .idle) ∧ (mayActivate s = true))
    ∧ (∃ s : State, ∃ h : Hdr, ∃ job : Nat, ∃ first : Nat, ∃ boundary : Nat, (accepts s h (cmdOf 0x0042 0) = true) ∧ (mayActivate s = false))
    ∧ (∃ s : State, ∃ h : Hdr, ∃ o : LongOp, ∃ x : SchedOp, (accepts s h (cmdOf 0x0005 0) = true) ∧ (s.host.longOps = [o]) ∧ (o.opcode = 0x0040) ∧ (o.orphan = false) ∧ (o.ring ≠ h.ring) ∧ ((s.ring o.ring).enabled = true) ∧ ((s.ring o.ring).fetched = []) ∧ (s.run.schedOp = some x) ∧ (x.check = false) ∧ (s.boot.commitOp = none))
    ∧ (∃ s : State, ∃ h : Hdr, ∃ ring : Nat, ∃ tag : Nat, (accepts s h (cmdOf 0x0005 0) = true) ∧ (s.liveOp ring tag = none) ∧ (waitingOp (s.ring ring) tag = none)) :=
  ⟨⟨up .idle, hdr, 0, 2097152, by decide +kernel⟩,
   ⟨loadingGood, opr, tSchedOp false 16, by decide +kernel⟩,
   ⟨onRun (fun x => { x with schedOp := some (tSchedOp false 256) }) (running 0x0040 (up .idle)), opr, tSchedOp false 256, stContract, by decide +kernel⟩,
   ⟨onRun (fun x => { x with banks := [(1, { Bank.reset with loaded := true })] }) (up .idle), hdr, 1, by decide +kernel⟩,
   ⟨onRun (fun x => { x with schedOp := some (tSchedOp true 0) }) (running 0x0041 (up .idle)), opr, tSchedOp true 0, (schedFailure (onRun (fun x => { x with schedOp := some (tSchedOp true 0) }) (running 0x0041 (up .idle))) [] none).getD { check := 0, status := 0, sect := 0, record := 0, cue := 0, value := 0 }, by decide +kernel⟩,
   ⟨onRun (fun x => { x with banks := [(1, { Bank.reset with loaded := true, checked := true })] }) ({ up .idle with press := some tPress }), hdr, 0, 0, 0, by decide +kernel⟩,
   ⟨up .idle, hdr, 0, 0, 0, by decide +kernel⟩,
   ⟨onRun (fun x => { x with schedOp := some (tSchedOp false 256) }) (onHost (fun x => { x with longOps := [{ longRec 0x0040 with ring := 1 }] }) (up .idle)), hdr, { longRec 0x0040 with ring := 1 }, tSchedOp false 256, by decide +kernel⟩,
   ⟨up .idle, hdr, 63, 65535, by decide +kernel⟩⟩

/-- Every hypothesis of TableCommandsComplete can be met, clause by clause. -/
theorem test_witness_table_commands_complete :
    (∃ s : State, ∃ h : Hdr, ∃ cls : Nat, ∃ bar : Nat, ∃ off : Nat, ∃ len : Nat, ∃ host : Nat, ∃ errs : List (Nat × ReadErr), (accepts s h (cmdOf 0x0070 0) = true) ∧ (cls ≤ 9) ∧ ((bar ≤ 7 ∨ deviceWide cls = true)) ∧ (spanOk cls off len = true) ∧ (¬(cls = 1 ∧ keepOwns s bar = true)) ∧ (isLocked s cls bar = false) ∧ (¬(cls = 6 ∧ regHolds s = true)) ∧ (s.dmaBad host len = none) ∧ (canonOk s = true) ∧ (twf (tableDefault cls) ((s.table cls bar).bank (s.table cls bar).shadow) = true))
    ∧ (∃ s : State, ∃ h : Hdr, ∃ bar : Nat, ∃ off : Nat, ∃ len : Nat, ∃ host : Nat, (accepts s h (cmdOf 0x0070 0) = true) ∧ (bar ≤ 7) ∧ (s.dev = .idle) ∧ (spanOk 17 off len = true) ∧ (isLocked s 17 bar = false) ∧ (s.dmaBad host len = none) ∧ (lostBursts s (wearBase s + 8 * wearIx bar (off / 8)) len = []))
    ∧ (∃ s : State, ∃ h : Hdr, ∃ cls : Nat, ∃ bar : Nat, ∃ bank : Nat, ∃ off : Nat, ∃ len : Nat, ∃ host : Nat, (accepts s h (cmdOf 0x0071 0) = true) ∧ ((bar ≤ 7 ∨ deviceWide cls = true)) ∧ (bank ≤ 1) ∧ (spanOk cls off len = true) ∧ (s.host.linkUp = true) ∧ ((9 < cls ∨ (s.table cls bar).poisoned (if bank = 1 then (s.table cls bar).live else (s.table cls bar).shadow) off len = false)) ∧ ((cls = 17 → lostBursts s (wearBase s + 8 * wearIx bar (off / 8)) len = []))) :=
  ⟨⟨up .idle, hdr, 9, 0, 0, 2, 0, [], by decide +kernel⟩,
   ⟨up .idle, hdr, 7, 0, 8, 0, by decide +kernel⟩,
   ⟨up .idle, hdr, 0, 7, 1, 0, 2, 0, by decide +kernel⟩⟩

/-- Every hypothesis of CommitTakesEffect can be met, clause by clause. -/
theorem test_witness_commit_takes_effect :
    (∃ s : State, ∃ h : Hdr, ∃ classes : Nat, ∃ mask : Nat, ∃ boundary : Nat, (accepts s h cmdCommit = true) ∧ (1 ≤ classes) ∧ (classes < 1024) ∧ ((bit classes 1 = true → (maskList mask 8).any (keepOwns s) = false)) ∧ (((bit classes 5 || bit classes 7) = true → s.press.isSome = true ∧ s.firstUnread mask = none)) ∧ ((bit classes 6 = true → regHolds s = false)) ∧ (s.dev = .idle) ∧ (contentCheck s (commitPairs classes mask) none = none))
    ∧ (∃ s : State, ∃ h : Hdr, ∃ classes : Nat, ∃ mask : Nat, ∃ boundary : Nat, ∃ b, ∃ late, (accepts s h cmdCommit = true) ∧ (1 ≤ classes) ∧ (classes < 1024) ∧ ((bit classes 1 = true → (maskList mask 8).any (keepOwns s) = false)) ∧ (((bit classes 5 || bit classes 7) = true → s.press.isSome = true ∧ s.firstUnread mask = none)) ∧ ((bit classes 6 = true → regHolds s = false)) ∧ (s.dev = .run) ∧ (effectiveBoundary s boundary = some (b, late)) ∧ ((commitPairs classes mask).any (fun p => isLocked s p.1 p.2) = false) ∧ (contentCheck s (commitPairs classes mask) (some b.pos) = none))
    ∧ (∃ s : State, ∃ h : Hdr, ∃ classes : Nat, ∃ mask : Nat, ∃ boundary : Nat, ∃ f, (accepts s h cmdCommit = true) ∧ (1 ≤ classes) ∧ (classes < 1024) ∧ ((bit classes 1 = true → (maskList mask 8).any (keepOwns s) = false)) ∧ (((bit classes 5 || bit classes 7) = true → s.press.isSome = true ∧ s.firstUnread mask = none)) ∧ ((bit classes 6 = true → regHolds s = false)) ∧ (s.dev = .idle) ∧ (contentCheck s (commitPairs classes mask) none = some f)) :=
  ⟨⟨up .idle, hdr, 1, 1, 0, by decide +kernel⟩,
   ⟨printing 110, hdr, 1, 1, 0, tBoundary, tLate, by decide +kernel⟩,
   ⟨badMask, hdr, 16, 1, 0, (contentCheck badMask (commitPairs 16 1) none).getD id, by decide +kernel, by decide +kernel, by decide +kernel, by decide +kernel, by decide +kernel, by decide +kernel, by decide +kernel, some_getD _ _ (by decide +kernel)⟩⟩

/-- Every hypothesis of GatingEdgeSettlesFireEnable can be met, clause by clause. -/
theorem test_witness_gating_edge_settles_fire_enable :
    (∃ s : State, ∃ g : GateInput, ∃ level : Bool, ∃ held : Nat, ∃ u : Nat, (canonOk s = true) ∧ (held < gateFilterTime s))
    ∧ (∃ s : State, ∃ g : GateInput, ∃ level : Bool, ∃ held : Nat, ∃ u : Nat, (canonOk s = true) ∧ (gateFilterTime s ≤ held)) :=
  ⟨⟨up .idle, .media, false, 0, 0, by decide +kernel⟩,
   ⟨up .idle, .media, false, secT, 0, by decide +kernel⟩⟩

/-- Every hypothesis of GateReleaseAndWindowComplete can be met, clause by clause. -/
theorem test_witness_gate_release_and_window_complete :
    (∃ s : State, ∃ h : Hdr, ∃ mask : Nat, ∃ boundary : Nat, (accepts s h cmdCommit = true) ∧ (s.dev = .idle) ∧ (canonOk s = true))
    ∧ (∃ s : State, ∃ h : Hdr, ∃ mask : Nat, ∃ boundary : Nat, ∃ b : Boundary, (accepts s h cmdCommit = true) ∧ (s.dev = .run) ∧ (effectiveBoundary s boundary = some (b, false)))
    ∧ (∃ s : State, ∃ b : Nat, ∃ cls : Nat, ∃ bar : Nat, ∃ k : PendingCommit, (s.dev ∈ [DevState.run, .drain]) ∧ (windowOpen s b = false) ∧ (s.run.commits = [k]) ∧ (k.boundary = b) ∧ (k.closed = false) ∧ (commitPairs k.classes k.barMask = [(cls, bar)]) ∧ (isLocked s cls bar = false)) :=
  ⟨⟨up .idle, hdr, 255, 0, by decide +kernel⟩,
   ⟨printing 110, hdr, 255, 0, tBoundary, by decide +kernel⟩,
   ⟨onRun (fun x => { x with commits := [tCommit] }) (printing 110), 4206, 0, 0, tCommit, by decide +kernel⟩⟩

/-- Every hypothesis of RunArmCompletes can be met, clause by clause. -/
theorem test_witness_run_arm_completes :
    (∃ s : State, ∃ h : Hdr, ∃ job : Nat, ∃ seq : Nat, ∃ policy : Nat, ∃ first : Nat, ∃ lead : Nat, (acceptsLong s h (cmdOf 0x0060 0) = true) ∧ (armCheck s seq policy lead = none))
    ∧ (∃ s : State, ∃ h : Hdr, ∃ job : Nat, ∃ seq : Nat, ∃ policy : Nat, ∃ first : Nat, ∃ lead : Nat, (acceptsLong s h (cmdOf 0x0060 0) = true) ∧ ((2 < policy ∨ lead < 64)))
    ∧ (∃ s : State, ∃ o : OpRef, ∃ l : LoadOp, (runsLong s o 0x0060 = true) ∧ (s.link.load = some l) ∧ (l.opcode = 0x60) ∧ (l.outstanding = []) ∧ ((s.bank s.run.active).poison = [])) :=
  ⟨⟨onRun (fun x => { x with banks := [(0, { tBank with checked := true })] }) (fitted .idle), hdr, 0, 0, 2, 0, 64, by decide +kernel⟩,
   ⟨up .idle, hdr, 0, 0, 0, 0, 63, by decide +kernel⟩,
   ⟨onLink (fun x => { x with load := some (tLoad 0x60 []) }) (running 0x0060 (up .idle)), opr, tLoad 0x60 [], by decide +kernel⟩⟩

/-- Every hypothesis of RunStartsAndTicks can be met, clause by clause. -/
theorem test_witness_run_starts_and_ticks :
    (∃ s : State, ∃ h : Hdr, ∃ mark : Nat, ∃ leadIn : Nat, ∃ sec : Nat, ∃ ns : Nat, ∃ period : Nat, (accepts s h (cmdOf 0x0061 0) = true) ∧ (s.devices ≤ 1) ∧ (5 ≤ leadIn) ∧ (leadIn ≤ 16777215) ∧ (period ≠ 0) ∧ (imgPMin s.activeImage ≤ period) ∧ (period ≤ imgPMax s.activeImage) ∧ (s.run.hdmStale = []) ∧ (s.run.startArmed = false) ∧ (s.run.rejoinAt = none) ∧ (s.run.startMark = none) ∧ ((readyFor s s.run.jobId s.run.firstPage).isSome = true))
    ∧ (∃ s : State, (s.dev = .armed) ∧ (s.run.startArmed = true) ∧ (s.net.lead.role ≠ .follower))
    ∧ (∃ s : State, ∃ pipe : Nat, (s.dev = .run) ∧ (s.web.running = true) ∧ (imgLMin s.activeImage ≤ pipe + 2) ∧ (s.web.pEnc = .unset) ∧ (s.web.lengthErr.natAbs < errLimit s.web.motion) ∧ ((∀ w ∈ s.host.waits, ∀ f c d, w.kind ≠ .snapshot f c d))) :=
  ⟨⟨onRun (fun x => { x with banks := [(0, tBank)], ready := [tReady] }) (fitted .armed), hdr, 0, 5, 0, 0, 65536, by decide +kernel⟩,
   ⟨onRun (fun x => { x with startArmed := true }) (up .armed), by decide +kernel⟩,
   ⟨onWeb (fun x => { x with motion := { Motion.reset with errLimit := 1 } }) (printing 110), 0, by decide +kernel, by decide +kernel, by decide +kernel, by decide +kernel, by decide +kernel, by intro w h; cases h⟩⟩

/-- Every hypothesis of PageEventsComplete can be met, clause by clause. -/
theorem test_witness_page_events_complete :
    (∃ s : State, ∃ p : PagePos, ∃ r : Ready, (s.web.running = true) ∧ (s.dev = .run) ∧ (s.pageAt p.start = some p) ∧ (p.resolved = false) ∧ (p.fence s ≤ s.web.webPos) ∧ (s.net.lead.stopReq = none) ∧ (readyFor s p.jobId p.pageIndex = some r) ∧ (s.devPoisoned (4096 * r.descriptor) 272 = false))
    ∧ (∃ s : State, ∃ p : PagePos, (boundaryDue s = true) ∧ (s.dev = .run) ∧ (s.run.commits = []) ∧ (s.run.activation = none) ∧ (s.run.stop = .none) ∧ ((∀ i, i < 8 → (s.keepBar i).stepAt = none)) ∧ (s.pageAt s.web.webPos = some p) ∧ (p.resolved = true) ∧ (s.net.lead.leadPending = []))
    ∧ (∃ s : State, ∃ p : PagePos, (s.web.running = true) ∧ (s.dev = .run) ∧ (s.run.pages.find? (fun q => q.placed && decide (q.start = p.start)) = some p) ∧ (0 < p.gap) ∧ (p.gapRaised = false) ∧ (p.start + p.length ≤ s.web.webPos))
    ∧ (∃ s : State, ∃ p : PagePos, (s.web.running = true) ∧ (s.dev = .run) ∧ (s.run.pages.find? (fun q => q.placed && decide (q.start = p.start)) = some p) ∧ (p.done = false) ∧ (p.doneAt s ≤ s.web.webPos)) :=
  ⟨⟨onRun (fun x => { x with pages := [{ tPage with resolved := false, placed := false }], ready := [tReady] }) (printing 110), { tPage with resolved := false, placed := false }, tReady, by decide +kernel⟩,
   ⟨onRun (fun x => { x with leadIn := 100, pages := [{ tPage with placed := false }] }) (printing 100), { tPage with placed := false }, by decide +kernel⟩,
   ⟨printing 5100, tPage, by decide +kernel⟩,
   ⟨printing 5120, tPage, by decide +kernel⟩⟩

/-- Every hypothesis of RunEndsAndRejoins can be met, clause by clause. -/
theorem test_witness_run_ends_and_rejoins :
    (∃ s : State, ∃ h : Hdr, ∃ mode : Nat, ∃ boundary : Nat, (accepts s h (cmdOf 0x0062 0) = true) ∧ (mode ≤ 2) ∧ (s.dev = .armed) ∧ ((s.host.waits = [])) ∧ (s.boot.rejoin = none))
    ∧ (∃ s : State, ∃ h : Hdr, ∃ boundary : Nat, (accepts s h (cmdOf 0x0062 0) = true) ∧ (s.dev = .run) ∧ (s.web.running = true))
    ∧ (∃ s : State, ∃ h : Hdr, ∃ boundary : Nat, (accepts s h (cmdOf 0x0062 0) = true) ∧ (s.dev = .run) ∧ (s.net.lead.role ≠ .follower) ∧ (boundaryFree s boundary = true) ∧ (s.run.stop = .none))
    ∧ (∃ s : State, ∃ last : Nat, (s.run.stop = .now last) ∧ (s.web.running = true) ∧ (last ≤ s.web.webPos))
    ∧ (∃ s : State, ∃ u : Nat, ∃ c : TableCopy, (s.run.copies.find? (fun c => c.begun) = some c))
    ∧ (∃ s : State, ∃ h : Hdr, ∃ n : Nat, ∃ record : Nat, (acceptsLong s h (cmdOf 0x0063 0) = true) ∧ (n ≠ 1) ∧ (n ≤ 65535) ∧ (s.press.isSome = true) ∧ (1 < s.devices) ∧ (s.link.scan = none) ∧ (s.link.survey = none) ∧ (s.link.load = none) ∧ (s.thermal.op = none) ∧ (s.boot.rejoin = none) ∧ (prbsActive s (imgBarMask s.activeImage) = false))
    ∧ (∃ s : State, ∃ o : OpRef, ∃ x : RejoinOp, ∃ l : LongOp, (runsLong s o 0x0063 = true) ∧ (s.boot.rejoin = some x) ∧ (x.ring = o.ring) ∧ (x.tag = o.tag) ∧ (x.source = 0) ∧ (x.record = none) ∧ (s.longOp o.ring o.tag = some l) ∧ (l.acceptedAt + 100 * msT ≤ max s.clk.elapsed o.t))
    ∧ (∃ s : State, ∃ o : OpRef, ∃ x : RejoinOp, ∃ r : List Byte, ∃ l : LoadOp, ∃ p : PagePos, ∃ n : Nat, ∃ at_ : Nat, (runsLong s o 0x0063 = true) ∧ (s.boot.rejoin = some x) ∧ (x.ring = o.ring) ∧ (x.tag = o.tag) ∧ (x.record = some r) ∧ (s.link.load = some l) ∧ (l.opcode = 0x63) ∧ (l.waiting = false) ∧ (l.outstanding = []) ∧ (rejoinChoice (s.at o.t) x r = some (p, n, at_)) ∧ ((s.bank s.run.active).poison = []))
    ∧ (∃ s : State, ∃ b : Nat, ∃ at_ : Nat, ∃ x : RejoinOp, ∃ r : List Byte, ∃ u : Nat, (s.dev = .armed) ∧ (s.run.rejoinAt = some (b, at_)) ∧ (s.boot.rejoin = some x) ∧ (x.record = some r) ∧ (runsLong s { ring := x.ring, tag := x.tag, t := u } 0x0063 = true)) :=
  ⟨⟨up .armed, hdr, 2, 0, by decide +kernel⟩,
   ⟨printing 110, hdr, 0, by decide +kernel⟩,
   ⟨printing 110, hdr, 5110, by decide +kernel⟩,
   ⟨onRun (fun x => { x with stop := .now 110 }) (printing 110), 110, by decide +kernel⟩,
   ⟨onRun (fun x => { x with copies := [{ classes := 1, barMask := 1, boundary := 0, begun := true }] }) (up .idle), 0, { classes := 1, barMask := 1, boundary := 0, begun := true }, by decide +kernel⟩,
   ⟨{ up .idle with press := some { tPress with devices := 2 } }, hdr, 65535, 0, by decide +kernel⟩,
   ⟨onBoot (fun x => { x with rejoin := some (tRejoin none) }) (running 0x0063 (up .idle)), { opr with t := 100 * msT }, tRejoin none, longRec 0x0063, by decide +kernel⟩,
   ⟨rejoining, opr, tRejoin (some tRecord), tRecord, tLoad 0x63 [], tRejoinPos.1, tRejoinPos.2.1, tRejoinPos.2.2, by decide +kernel, by decide +kernel, by decide +kernel, by decide +kernel, by decide +kernel, by decide +kernel, by decide +kernel, by decide +kernel, by decide +kernel, rejoin_pos, by decide +kernel⟩,
   ⟨onRun (fun x => { x with rejoinAt := some (100, 0) }) (onBoot (fun x => { x with rejoin := some (tRejoin (some [])) }) (running 0x0063 (up .armed))), 100, 0, tRejoin (some []), [], 0, by decide +kernel⟩⟩

/-- Every hypothesis of LinkEventsComplete can be met, clause by clause. -/
theorem test_witness_link_events_complete :
    (∃ s : State, ∃ g : Nat, ∃ u : Nat, ∃ ws : List Word66, (canonOk s = true) ∧ (g ≤ 7) ∧ ((s.group g).locked = false) ∧ ((s.group g).goodRun = 0) ∧ (bit (s.group g).prbsLanes 5 = false) ∧ (ws.length = 64) ∧ ((∀ w ∈ ws, bit w.toNat 0 ≠ bit w.toNat 1)))
    ∧ (∃ s : State, ∃ u : Up, ∃ count : Nat, ∃ due : Nat, (canonOk s = true) ∧ (s.fitted u.group u.slot = true) ∧ (count ≤ 15) ∧ ((s.slot u.group u.slot).credit + count ≤ grantOf s u.group u.slot))
    ∧ (∃ s : State, ∃ a : Nat, ∃ u : Nat, (canonOk s = true) ∧ (s.link.creditAuditAt = some a) ∧ (a ≤ max s.clk.elapsed u))
    ∧ (∃ s : State, ∃ g : Nat, ∃ u : Nat, ∃ w : LaneSwitch, ((s.group g).switch = some w) ∧ (switchDue (s.at u) w = true) ∧ (s.loop g = none)) :=
  ⟨⟨up .idle, 7, 0, List.replicate 64 (1 : Word66), by decide +kernel, by decide +kernel, by decide +kernel, by decide +kernel, by decide +kernel, by decide +kernel, by intro w h; cases (List.eq_of_mem_replicate h); decide⟩,
   ⟨fitted .idle, { group := 0, slot := 0, t := 0 }, 7, 0, by decide +kernel⟩,
   ⟨onLink (fun x => { x with creditAuditAt := some 0 }) (up .idle), 0, 0, by decide +kernel⟩,
   ⟨onLink (fun x => { x with groups := [(0, { Group.reset with switch := some { lane := 3, toDs := true, tick := 0, since := 0 } })] }) (up .idle), 0, secT, { lane := 3, toDs := true, tick := 0, since := 0 }, by decide +kernel⟩⟩

/-- Every hypothesis of AlertsAndAcksComplete can be met, clause by clause. -/
theorem test_witness_alerts_and_acks_complete :
    (∃ s : State, ∃ u : Up, ∃ lane : Nat, (u.group < 8) ∧ (lane < 4) ∧ (s.loop u.group = none) ∧ ((s.group u.group).dsLane = none) ∧ ((s.group u.group).switch = none))
    ∧ (∃ s : State, ∃ u : Up, ∃ cause : Nat, ∃ lane : Nat, ∃ due : Nat, (cause % 256 ≠ 1) ∧ (cause % 256 ≠ 2))
    ∧ (∃ s : State, ∃ u : Up, ∃ due : Nat, ∃ part : Bool, (s.fitted u.group u.slot = true))
    ∧ (∃ s : State, ∃ u : Up, ∃ value : Nat, ∃ o : LoadOp, ∃ p : Nat × Nat, (s.link.load = some o) ∧ (o.opcode = 0x60) ∧ (o.waiting = false) ∧ (loadOf o (slotIx u.group u.slot) = some p) ∧ (p.2 ≠ 0))
    ∧ (∃ s : State, ∃ u : Up, ∃ value : Nat, ∃ o : ScanOp, (s.link.scan = some o) ∧ ((s.group u.group).enumAt.isSome = true) ∧ (bit value 24 = false)) :=
  ⟨⟨up .idle, { group := 7, slot := 0, t := 0 }, 3, by decide +kernel⟩,
   ⟨up .idle, { group := 0, slot := 0, t := 0 }, 3, 0, 0, by decide +kernel⟩,
   ⟨fitted .run, { group := 0, slot := 0, t := 0 }, 0, false, by decide +kernel⟩,
   ⟨onLink (fun x => { x with load := some (tLoad 0x60 [(0, 1)]) }) (fitted .idle), { group := 0, slot := 0, t := 0 }, 0, tLoad 0x60 [(0, 1)], (0, 1), by decide +kernel⟩,
   ⟨onLink (fun x => { x with scan := some tScan, groups := [(0, { Group.reset with enumAt := some 0 })] }) (up .idle), { group := 0, slot := 0, t := 0 }, 0, tScan, by decide +kernel⟩⟩

/-- Every hypothesis of HeadScanCompletes can be met, clause by clause. -/
theorem test_witness_head_scan_completes :
    (∃ s : State, ∃ h : Hdr, ∃ mask : Nat, ∃ dest : Nat, (acceptsLong s h (cmdOf 0x0031 0) = true) ∧ (canonOk s = true) ∧ (s.press.isSome = true) ∧ (prbsActive s mask = false) ∧ (s.link.scan = none) ∧ (s.link.survey = none) ∧ (s.thermal.op = none))
    ∧ (∃ s : State, ∃ u : Up, ∃ word : Nat, ∃ data : Word32, ∃ o : ScanOp, (s.link.scan = some o) ∧ ((o.found u.group u.slot).isSome = true))
    ∧ (∃ s : State, ∃ g : Nat, ∃ u : Nat, ∃ a : Nat, ∃ o : ScanOp, (s.link.scan = some o) ∧ ((s.group g).enumAt = some a) ∧ (a + 100 * msT ≤ max s.clk.elapsed u) ∧ (s.boot.rejoin = none))
    ∧ (∃ s : State, ∃ o : OpRef, ∃ x : ScanOp, (canonOk s = true) ∧ (runsLong s o 0x0031 = true) ∧ (s.link.scan = some x) ∧ (x.ring = o.ring) ∧ (x.tag = o.tag) ∧ ((scanBars s x.barMask).all (groupScanned s x) = true)) :=
  ⟨⟨fitted .idle, hdr, 1, 0, by decide +kernel⟩,
   ⟨onLink (fun x => { x with scan := some tScan }) (up .idle), { group := 0, slot := 0, t := 0 }, 0, 0, tScan, by decide +kernel⟩,
   ⟨onLink (fun x => { x with scan := some tScan, groups := [(7, { Group.reset with enumAt := some 0 })] }) (up .idle), 7, 100 * msT, 0, tScan, by decide +kernel⟩,
   ⟨onLink (fun x => { x with scan := some { tScan with barMask := 0 } }) (running 0x0031 (up .idle)), opr, { tScan with barMask := 0 }, by decide +kernel⟩⟩

/-- Every hypothesis of NozzleCommandsComplete can be met, clause by clause. -/
theorem test_witness_nozzle_commands_complete :
    (∃ s : State, ∃ h : Hdr, ∃ bar : Nat, ∃ slot : Nat, ∃ row : Nat, ∃ op : Nat, ∃ first : Nat, ∃ count : Nat, ∃ cap : Nat, (accepts s h (cmdOf 0x0081 0) = true) ∧ (canonOk s = true) ∧ (twf (tableDefault 5) ((s.table 5 bar).bank (s.table 5 bar).shadow) = true) ∧ (bar ≤ 7) ∧ (slot ≤ 23) ∧ (row ≤ 2) ∧ (op ≤ 2) ∧ (1 ≤ count) ∧ (count ≤ 5120) ∧ ((op = 2 → cap ≤ 2)) ∧ (first + count ≤ s.nozzles bar slot) ∧ (s.nozzles bar slot ≤ 5120) ∧ (isLocked s 5 bar = false))
    ∧ (∃ s : State, ∃ bar : Nat, ∃ u : Nat, (canonOk s = true) ∧ (twf (tableDefault 5) ((s.table 5 bar).bank (s.table 5 bar).shadow) = true) ∧ (bar ≤ 7) ∧ (planAuto s bar = true) ∧ (isLocked s 5 bar = false))
    ∧ (∃ s : State, ∃ bar : Nat, ∃ u : Nat, (bar ≤ 7) ∧ (planAuto s bar = false))
    ∧ (∃ s : State, ∃ h : Hdr, ∃ bar : Nat, ∃ slot : Nat, (accepts s h (cmdOf 0x0081 3) = true) ∧ (bar ≤ 7) ∧ (slot ≤ 23) ∧ (s.fitted bar slot = true) ∧ (isLocked s 5 bar = false) ∧ ((s.slot bar slot).withdrawn = none))
    ∧ (∃ s : State, ∃ h : Hdr, ∃ bar : Nat, ∃ slot : Nat, (accepts s h (cmdOf 0x0081 3) = true) ∧ (bar ≤ 7) ∧ (slot ≤ 23) ∧ (s.fitted bar slot = true) ∧ (isLocked s 5 bar = false) ∧ ((s.slot bar slot).withdrawn.isSome = true))
    ∧ (∃ s : State, ∃ bar : Nat, ∃ slot : Nat, ∃ u : Nat, ∃ w : Wait, (restoreWait s (.restoreTelem bar slot) = some w) ∧ (w.orphan = false) ∧ ((s.ring w.ring).enabled = true) ∧ ((s.ring w.ring).fetched = []) ∧ (w.since + msT ≤ max s.clk.elapsed u)) :=
  ⟨⟨fitted .idle, hdr, 0, 0, 2, 2, 63, 1, 2, by decide +kernel⟩,
   ⟨planning, 0, 0, by decide +kernel⟩,
   ⟨fitted .idle, 0, 0, by decide +kernel⟩,
   ⟨fitted .idle, hdr, 0, 0, by decide +kernel⟩,
   ⟨onLink (fun x => { x with slots := [(0, { Slot.reset with head := some tHead, withdrawn := some tWithdrawn })] }) (fitted .idle), hdr, 0, 0, by decide +kernel⟩,
   ⟨waiting 0x81 (.restoreTelem 0 0) (fitted .idle), 0, 0, msT, waitRec 0x81 (.restoreTelem 0 0), by decide +kernel⟩⟩

/-- Every hypothesis of SurveyAndWearComplete can be met, clause by clause. -/
theorem test_witness_survey_and_wear_complete :
    (∃ s : State, ∃ h : Hdr, ∃ mask : Nat, ∃ rows : Nat, ∃ slotMask : Nat, ∃ tmax : Nat, (acceptsLong s h (cmdOf 0x0080 0) = true) ∧ (1 ≤ rows) ∧ (rows ≤ 3) ∧ (slotMask < 2 ^ 24) ∧ (s.press.isSome = true) ∧ (s.firstUnread mask = none) ∧ (prbsActive s mask = false) ∧ (s.link.survey = none) ∧ (s.link.scan = none) ∧ (s.thermal.op = none))
    ∧ (∃ s : State, ∃ u : Up, ∃ nozzle : Nat, ∃ row : Nat, ∃ res : Nat, ∃ o : SurveyOp, ∃ v : SlotSurvey, (s.link.survey = some o) ∧ ((s.slot u.group u.slot).survey = some v))
    ∧ (∃ s : State, ∃ bar : Nat, ∃ slot : Nat, ∃ u : Nat, ∃ o : SurveyOp, ∃ v : SlotSurvey, (s.link.survey = some o) ∧ ((s.slot bar slot).survey = some v) ∧ (v.finished = false) ∧ (v.startAt + secT ≤ max s.clk.elapsed u))
    ∧ (∃ s : State, ∃ o : OpRef, ∃ v : SurveyOp, (runsLong s o 0x0080 = true) ∧ (s.link.survey = some v) ∧ (v.ring = o.ring) ∧ (v.tag = o.tag) ∧ ((v.measuring = true ∨ v.slots = [])) ∧ ((∀ k ∈ v.slots, k ∈ v.dropped ∨ (s.slot (k / 24) (k % 24)).survey.any (fun x => x.finished) = true)))
    ∧ (∃ s : State, ∃ u : Nat, (canonOk s = true) ∧ (lostBursts s (wearBase s) wearBytes = [])) :=
  ⟨⟨fitted .idle, hdr, 1, 3, 16777215, 0, by decide +kernel⟩,
   ⟨onLink (fun x => { x with survey := some tSurveyOp }) (onLink (fun x => { x with slots := [(0, { Slot.reset with head := some tHead, credit := 1, survey := some tSurvey })] }) (fitted .idle)), { group := 0, slot := 0, t := 0 }, 0, 0, 0, tSurveyOp, tSurvey, by decide +kernel⟩,
   ⟨onLink (fun x => { x with survey := some tSurveyOp }) (onLink (fun x => { x with slots := [(0, { Slot.reset with head := some tHead, credit := 1, survey := some tSurvey })] }) (fitted .idle)), 0, 0, secT, tSurveyOp, tSurvey, by decide +kernel⟩,
   ⟨onLink (fun x => { x with survey := some tSurveyOp }) (running 0x0080 (up .idle)), opr, tSurveyOp, by decide +kernel⟩,
   ⟨up .idle, 0, by decide +kernel⟩⟩

/-- Every hypothesis of CameraCommandsComplete can be met, clause by clause. -/
theorem test_witness_camera_commands_complete :
    (∃ s : State, ∃ h : Hdr, ∃ port : Nat, ∃ record : Nat, ∃ c : CamContext, (accepts s h (cmdOf 0x0090 1) = true) ∧ (port ≤ 1) ∧ (readContext s record = (c, false, none)) ∧ (c.ok = true) ∧ (priorityTaken s port c = false) ∧ ((bit c.outputs 1 && engine1Busy s) = false) ∧ (bit s.boot.domainsReady 10 = true))
    ∧ (∃ s : State, ∃ h : Hdr, ∃ port : Nat, ∃ record : Nat, ∃ c : CamContext, (accepts s h (cmdOf 0x0090 1) = true) ∧ (port ≤ 1) ∧ (readContext s record = (c, false, none)) ∧ (c.ok = true) ∧ (priorityTaken s port c = false) ∧ ((bit c.outputs 1 && engine1Busy s) = false) ∧ (bit s.boot.domainsReady 10 = false))
    ∧ (∃ s : State, ∃ h : Hdr, ∃ port : Nat, (accepts s h (cmdOf 0x0090 0) = true) ∧ (port ≤ 1) ∧ ((s.cam port).frame.isSome = true))
    ∧ (∃ s : State, ∃ h : Hdr, ∃ port : Nat, (accepts s h (cmdOf 0x0090 0) = true) ∧ (canonOk s = true) ∧ (port ≤ 1) ∧ ((s.cam port).frame = none))
    ∧ (∃ s : State, ∃ h : Hdr, ∃ port : Nat, ∃ stage : Nat, ∃ dest : Nat, ∃ size : Nat, ∃ c : CamContext, (acceptsLong s h (cmdOf 0x0091 0) = true) ∧ (port ≤ 1) ∧ (stage ≤ 2) ∧ ((s.cam port).enabled = some c) ∧ (c.frameLines * captureLineBytes c stage ≤ size))
    ∧ (∃ s : State, ∃ o : OpRef, ∃ p : Nat, ∃ x : CamCapture, ∃ late : Bool, (runsLong s o 0x0091 = true) ∧ (findCapture s o.ring o.tag = some (p, x)) ∧ (x.closed = some late)) :=
  ⟨⟨onBoot (fun x => { x with domains := 1025, domainsReady := 1025 }) contextInMemory, hdr, 1, 4096, (readContext contextInMemory 4096).1, by decide +kernel, by decide +kernel, pair_fst _ _ (by decide +kernel), by decide +kernel, by decide +kernel, by decide +kernel, by decide +kernel⟩,
   ⟨contextInMemory, hdr, 0, 4096, (readContext contextInMemory 4096).1, by decide +kernel, by decide +kernel, pair_fst _ _ (by decide +kernel), by decide +kernel, by decide +kernel, by decide +kernel, by decide +kernel⟩,
   ⟨{ up .idle with cams := [(0, { CamPort.reset with ctx := some tCam, frame := some tFrame })] }, hdr, 0, by decide +kernel⟩,
   ⟨up .idle, hdr, 1, by decide +kernel⟩,
   ⟨{ up .idle with cams := [(0, { CamPort.reset with ctx := some tCam })] }, hdr, 0, 2, 0, 10000000, tCam, by decide +kernel⟩,
   ⟨{ running 0x0091 (up .idle) with cams := [(0, { CamPort.reset with captures := [tGrab (some true)] })] }, opr, 0, tGrab (some true), true, by decide +kernel⟩⟩

/-- Every hypothesis of CameraFramesComplete can be met, clause by clause. -/
theorem test_witness_camera_frames_complete :
    (∃ s : State, ∃ port : Nat, ∃ vc : Nat, ∃ number : Nat, ∃ u : Nat, ∃ c : CamContext, (canonOk s = true) ∧ (cameraPowered s port = true) ∧ ((s.cam port).ctx = some c) ∧ ((s.cam port).next = none) ∧ ((s.cam port).frame = none) ∧ (vc = c.vcBase))
    ∧ (∃ s : State, ∃ port : Nat, ∃ vc : Nat, ∃ wc : Nat, ∃ u : Nat, ∃ pixels : List Nat, ∃ c : CamContext, ∃ f : CamFrame, (canonOk s = true) ∧ (cameraPowered s port = true) ∧ ((s.cam port).ctx = some c) ∧ ((s.cam port).frame = some f) ∧ ((s.cam port).part = none) ∧ (c.exposures = 1) ∧ (vc = c.vcBase) ∧ (wc = c.lineWords) ∧ (f.seen < c.frameLines) ∧ (c.priority = 0))
    ∧ (∃ s : State, ∃ port : Nat, ∃ vc : Nat, ∃ u : Nat, ∃ c : CamContext, ∃ f : CamFrame, (canonOk s = true) ∧ (cameraPowered s port = true) ∧ ((s.cam port).ctx = some c) ∧ ((s.cam port).frame = some f) ∧ ((s.cam port).closing = []) ∧ (vc = c.vcBase))
    ∧ (∃ s : State, ∃ port : Nat, ∃ u : Nat, ∃ c : CamContext, ∃ f : CamFrame, (canonOk s = true) ∧ (cameraPowered s port = true) ∧ ((s.cam port).ctx = some c) ∧ ((s.cam port).frame = some f) ∧ ((s.cam port).closing = []) ∧ ((s.cam port).lineBuf.any (fun l => decide (l.seq = f.seq)) = false) ∧ (f.openedAt + 2 * c.frameLines * c.linePeriod * nsT ≤ max s.clk.elapsed u))
    ∧ (∃ s : State, ∃ port : Nat, ∃ vc : Nat, ∃ ty : Nat, ∃ u : Nat, (cameraPowered s port = true))
    ∧ (∃ s : State, ∃ u : Nat, ∃ port : Nat, ∃ c : CamContext, ∃ f : CamFrame, ∃ l : CamLine, ∃ rest : List CamLine, (canonOk s = true) ∧ (port = (if linePriority s 1 = some 0 then 1 else 0)) ∧ ((s.cam port).lineBuf = l :: rest) ∧ ((s.cam port).ctx = some c) ∧ ((s.cam port).frame = some f) ∧ (f.seq = l.seq) ∧ ((s.cam port).closing = []))
    ∧ (∃ s : State, ∃ u : Nat, ∃ port : Nat, ∃ c : CamContext, ∃ f : CamFrame, ∃ l : CamLine, ∃ rest : List CamLine, (canonOk s = true) ∧ (port = (if linePriority s 1 = some 0 then 1 else 0)) ∧ ((s.cam port).lineBuf = l :: rest) ∧ ((s.cam port).ctx = some c) ∧ ((s.cam port).frame = none) ∧ ((s.cam port).closing = [f]) ∧ (f.seq = l.seq) ∧ (rest.any (fun x => decide (x.seq = f.seq)) = false)) :=
  ⟨⟨{ onBoot (fun x => { x with domains := 1025, domainsReady := 1025 }) (up .idle) with cams := [(0, { CamPort.reset with ctx := some tCam })] }, 0, 0, 0, 0, tCam, by decide +kernel⟩,
   ⟨{ onBoot (fun x => { x with domains := 1025, domainsReady := 1025 }) (up .idle) with cams := [(0, { CamPort.reset with ctx := some tCam, frame := some { tFrame with seen := 255 } })] }, 0, 0, tCam.lineWords, 0, [], tCam, { tFrame with seen := 255 }, by decide +kernel⟩,
   ⟨{ onBoot (fun x => { x with domains := 1025, domainsReady := 1025 }) (up .idle) with cams := [(0, { CamPort.reset with ctx := some tCam, frame := some tFrame })] }, 0, 0, 0, tCam, tFrame, by decide +kernel⟩,
   ⟨{ onBoot (fun x => { x with domains := 1025, domainsReady := 1025 }) (up .idle) with cams := [(0, { CamPort.reset with ctx := some tCam, frame := some tFrame })] }, 0, 512 * 1000000 * nsT, tCam, tFrame, by decide +kernel⟩,
   ⟨onBoot (fun x => { x with domains := 1025, domainsReady := 1025 }) (up .idle), 1, 0, 0, 0, by decide +kernel⟩,
   ⟨{ onBoot (fun x => { x with domains := 1025, domainsReady := 1025 }) (up .idle) with cams := [(0, { CamPort.reset with ctx := some tCam, frame := some tFrame, lineBuf := [tCamLine] })] }, 0, 0, tCam, tFrame, tCamLine, [], by decide +kernel⟩,
   ⟨{ onBoot (fun x => { x with domains := 1025, domainsReady := 1025 }) (up .idle) with cams := [(0, { CamPort.reset with ctx := some tCam, closing := [tFrame], lineBuf := [tCamLine] })] }, 0, 0, tCam, tFrame, tCamLine, [], by decide +kernel⟩⟩

/-- Every hypothesis of KeepingCommandsComplete can be met, clause by clause. -/
theorem test_witness_keeping_commands_complete :
    (∃ s : State, ∃ h : Hdr, ∃ mask : Nat, ∃ record : Nat, (accepts s h (cmdOf 0x00A0 0) = true) ∧ (canonOk s = true) ∧ (s.dmaBad record 64 = none) ∧ (s.dev ∈ [DevState.idle, .armed, .run]) ∧ (keepRecordOk (s.dmaRead record 64) = true) ∧ ((camContexts s).any (fun c => decide (1040000 * 256 < c.camDist)) = false) ∧ ((maskList mask 8).all (fun b => bit (barValid s) b) = true) ∧ ((camContexts s).any (fun c => bit c.outputs 2) = true))
    ∧ (∃ s : State, ∃ h : Hdr, ∃ mask : Nat, (accepts s h (cmdOf 0x00A0 1) = true) ∧ (canonOk s = true))
    ∧ (∃ s : State, ∃ h : Hdr, ∃ mask : Nat, ∃ first : Nat, ∃ count : Nat, (acceptsLong s h (cmdOf 0x00A1 0) = true) ∧ (s.dev = .run) ∧ (keepOn s mask = false) ∧ (count ≠ 0) ∧ ((∀ p ∈ s.run.pages, p.jobId = s.run.jobId → first ≤ p.pageIndex → s.web.webPos < p.start)) ∧ (s.keep.capture = none))
    ∧ (∃ s : State, ∃ o : OpRef, ∃ x : CaptureOp, (runsLong s o 0x00A1 = true) ∧ (s.keep.capture = some x) ∧ (x.ring = o.ring) ∧ (x.tag = o.tag) ∧ (capturePassed (s.at o.t) x = true))
    ∧ (∃ s : State, ∃ o : OpRef, ∃ x : CaptureOp, ∃ a : Nat, (runsLong s o 0x00A1 = true) ∧ (s.keep.capture = some x) ∧ (x.ring = o.ring) ∧ (x.tag = o.tag) ∧ (x.lastDone = some a) ∧ (a + 60 * secT ≤ max s.clk.elapsed o.t))
    ∧ (∃ s : State, ∃ h : Hdr, ∃ mask : Nat, ∃ addr : Nat, (accepts s h (cmdOf 0x00A1 1) = true) ∧ (keepOn s mask = false) ∧ (s.dmaBad addr targetSize = none) ∧ (field (s.dmaRead addr targetSize) 0 2 = 0x4B54) ∧ (field (s.dmaRead addr targetSize) 2 2 = 1))
    ∧ (∃ s : State, ∃ h : Hdr, ∃ addr : Nat, (accepts s h (cmdOf 0x00A1 2) = true) ∧ (s.host.linkUp = true))
    ∧ (∃ s : State, ∃ h : Hdr, ∃ mask : Nat, (accepts s h (cmdOf 0x00A1 3) = true) ∧ (keepOn s mask = false) ∧ (canonOk s = true)) :=
  ⟨⟨onKeep (fun x => { x with target := img [(4, 1, 255)] }) ({ keepRecordInMemory with cams := [(0, { CamPort.reset with ctx := some tCam })] }), hdr, 255, 0, by decide +kernel⟩,
   ⟨up .idle, hdr, 255, by decide +kernel⟩,
   ⟨printing 98, hdr, 1, 0, 1, by decide +kernel⟩,
   ⟨onKeep (fun x => { x with capture := some tCapture }) (running 0x00A1 (up .idle)), opr, tCapture, by decide +kernel⟩,
   ⟨onKeep (fun x => { x with capture := some tCapture }) (running 0x00A1 (up .idle)), { opr with t := 60 * secT }, tCapture, 0, by decide +kernel⟩,
   ⟨onHost (fun x => { x with mem := img [(0, 2, 0x4B54), (2, 2, 1)] }) (up .idle), hdr, 255, 0, by decide +kernel⟩,
   ⟨up .idle, hdr, 0, by decide +kernel⟩,
   ⟨up .idle, hdr, 255, by decide +kernel⟩⟩

/-- Every hypothesis of KeepingIntervalsComplete can be met, clause by clause. -/
theorem test_witness_keeping_intervals_complete :
    (∃ s : State, ∃ port : Nat, ∃ u : Nat, ∃ r : ZoneRec, ∃ rest : List ZoneRec, (canonOk s = true) ∧ ((s.cam port).vision = r :: rest))
    ∧ (∃ s : State, ∃ bar : Nat, ∃ e : Nat, ∃ u : Nat, (bar ≤ 7) ∧ (s.dev = .run) ∧ ((s.keepBar bar).enabled = true) ∧ ((s.keepBar bar).stepAt = none) ∧ ((s.keepBar bar).computed = none) ∧ (intervalEnd s bar = some e) ∧ (e ≤ s.web.webPos) ∧ (isLocked s 1 bar = true))
    ∧ (∃ s : State, ∃ bar : Nat, ∃ u : Nat, ∃ g : Tab Nat, ∃ x : Boundary, ∃ late : Bool, (bar ≤ 7) ∧ (s.dev = .run) ∧ ((s.keepBar bar).enabled = true) ∧ ((s.keepBar bar).stepAt = none) ∧ ((s.keepBar bar).computed = some g) ∧ (isLocked s 1 bar = false) ∧ (effectiveBoundary s 0 = some (x, late)) ∧ ((s.keepBar bar).stepped ≠ 0))
    ∧ (∃ s : State, ∃ bar : Nat, ∃ u : Nat, ∃ g : Tab Nat, ∃ x : Boundary, ∃ late : Bool, (bar ≤ 7) ∧ (s.dev = .run) ∧ ((s.keepBar bar).enabled = true) ∧ ((s.keepBar bar).stepAt = none) ∧ ((s.keepBar bar).computed = some g) ∧ (isLocked s 1 bar = false) ∧ (effectiveBoundary s 0 = some (x, late)) ∧ ((s.keepBar bar).stepped = 0)) :=
  ⟨⟨{ up .idle with cams := [(0, { CamPort.reset with vision := [{ port := 0, zone := 0, pos := 0, pixels := 1, lab := (0, 0, 0) }] })] }, 0, 0, { port := 0, zone := 0, pos := 0, pixels := 1, lab := (0, 0, 0) }, [], by decide +kernel⟩,
   ⟨onRun (fun x => { x with locks := [(1, 0)] }) (onKeep (fun x => { x with bars := [(0, { KeepBar.reset with enabled := true, intervalStart := some 10, record := { KeepRecord.reset with interval := 100 } })] }) (printing 110)), 0, 110, 0, by decide +kernel⟩,
   ⟨onKeep (fun x => { x with bars := [(0, { KeepBar.reset with enabled := true, computed := some [], stepped := 1 })] }) (printing 110), 0, 0, [], tBoundary, tLate, by decide +kernel, by decide +kernel, by decide +kernel, by decide +kernel, by decide +kernel, by decide +kernel, by decide +kernel, by decide +kernel⟩,
   ⟨onKeep (fun x => { x with bars := [(0, { KeepBar.reset with enabled := true, computed := some [] })] }) (printing 110), 0, 0, [], tBoundary, tLate, by decide +kernel⟩⟩

/-- Every hypothesis of LadderCommandsComplete can be met, clause by clause. -/
theorem test_witness_ladder_commands_complete :
    (∃ s : State, ∃ h : Hdr, ∃ record : Nat, let d := declOf (s.dmaRead record 64); (accepts s h (cmdOf 0x00A0 2) = true) ∧ (s.dmaBad record 64 = none) ∧ (d.kind = 0xFF))
    ∧ (∃ s : State, ∃ h : Hdr, ∃ record : Nat, let d := declOf (s.dmaRead record 64); (accepts s h (cmdOf 0x00A0 2) = true) ∧ (s.dmaBad record 64 = none) ∧ (d.kind ≠ 0xFF) ∧ (declRsv (s.dmaRead record 64) = false) ∧ (declOk s d = true) ∧ ((∃ x ∈ s.keep.decls, x.descriptor = d.descriptor ∧ x.kind = d.kind)))
    ∧ (∃ s : State, ∃ h : Hdr, ∃ record : Nat, let d := declOf (s.dmaRead record 64); (accepts s h (cmdOf 0x00A0 2) = true) ∧ (s.dmaBad record 64 = none) ∧ (d.kind ≠ 0xFF) ∧ (declRsv (s.dmaRead record 64) = false) ∧ (declOk s d = true) ∧ ((∀ x ∈ s.keep.decls, ¬(x.descriptor = d.descriptor ∧ x.kind = d.kind))) ∧ (s.keep.decls.length < 8))
    ∧ (∃ s : State, ∃ h : Hdr, ∃ mask : Nat, ∃ slot : Nat, (accepts s h (cmdOf 0x00A0 3) = true) ∧ ((slot ≤ 23 ∨ slot = 0xFF)) ∧ ((maskList mask 8).any (isLocked s 5) = false) ∧ ((∀ b ∈ maskList mask 8, planAuto s b = false)) ∧ ((∀ b ∈ maskList mask 8, ladderWords s b = [])))
    ∧ (∃ s : State, ∃ h : Hdr, ∃ bar : Nat, ∃ slot : Nat, ∃ row : Nat, ∃ j : Nat, (accepts s h (cmdOf 0x00A0 3) = true) ∧ (canonOk s = true) ∧ (twf (tableDefault 5) ((s.table 5 bar).bank (s.table 5 bar).shadow) = true) ∧ (bar ≤ 7) ∧ (slot ≤ 23) ∧ (row ≤ 1) ∧ (j < s.nozzles bar slot) ∧ (s.nozzles bar slot ≤ 5120) ∧ (isLocked s 5 bar = false) ∧ (planAuto s bar = false) ∧ (ladderWords s bar = [(slot, row, j)]))
    ∧ (∃ s : State, ∃ k : Nat, ∃ bar : Nat, ∃ slot : Nat, ∃ row : Nat, ∃ nozzle : Nat, ∃ page : Nat, ∃ d : Decl, ∃ c : CamContext, ∃ a : Int, ∃ m : Int, ∃ cls : Nat, ∃ was : Nat, ∃ n : Nat, ∃ pg : Nat, (s.keep.decls[k]? = some d) ∧ (d.kind = 0) ∧ (bit d.barMask bar = true) ∧ (bar ≤ 7) ∧ (row ≤ 1) ∧ (s.fitted bar slot = true) ∧ (nozzle < s.nozzles bar slot) ∧ ((dashOf s bar slot row nozzle page).camera s = some c) ∧ ((dashOf s bar slot row nozzle page).blocks s d ≠ []) ∧ ((dashOf s bar slot row nozzle page).skipped s d c ((dashOf s bar slot row nozzle page).blocks s d) = true))
    ∧ (∃ s : State, ∃ k : Nat, ∃ bar : Nat, ∃ slot : Nat, ∃ row : Nat, ∃ nozzle : Nat, ∃ page : Nat, ∃ d : Decl, ∃ c : CamContext, ∃ a : Int, ∃ m : Int, ∃ cls : Nat, ∃ was : Nat, ∃ n : Nat, ∃ pg : Nat, (s.keep.decls[k]? = some d) ∧ (d.kind = 0) ∧ (bit d.barMask bar = true) ∧ (bar ≤ 7) ∧ (row ≤ 1) ∧ (s.fitted bar slot = true) ∧ (nozzle < s.nozzles bar slot) ∧ ((dashOf s bar slot row nozzle page).camera s = some c) ∧ ((dashOf s bar slot row nozzle page).blocks s d ≠ []) ∧ ((dashOf s bar slot row nozzle page).skipped s d c ((dashOf s bar slot row nozzle page).blocks s d) = false) ∧ ((dashOf s bar slot row nozzle page).measure s d = some (a, m)) ∧ (a ≠ 0) ∧ (cls = dashClass d a ((dashOf s bar slot row nozzle page).twiceRef s d) (decide (d.devTol * a.natAbs < m.natAbs))) ∧ ((dashOf s bar slot row nozzle page).attribution s d = .mine) ∧ (tget (fun _ => (0, 0, 0)) s.keep.streaks (streakKey (dashOf s bar slot row nozzle page)) = (was, n, pg)) ∧ (pg ≠ page + 1) ∧ ((cls = 0 ∨ (if was = cls then n + 1 else 1) < d.confirm)))
    ∧ (∃ s : State, ∃ h : Hdr, ∃ flags : Nat, ∃ rep : Nat, ∃ record : Nat, (acceptsLong s h (cmdOf 0x00A0 4) = true) ∧ (1 ≤ rep) ∧ (rep ≤ 64) ∧ (flags ≤ 1) ∧ (s.keep.reg = none))
    ∧ (∃ s : State, ∃ o : OpRef, ∃ x : RegOp, (runsLong s o 0x00A0 = true) ∧ (s.keep.reg = some x) ∧ (x.ring = o.ring) ∧ (x.tag = o.tag) ∧ (regSeen (s.at o.t) x = true) ∧ (x.flags = 0) ∧ (s.host.linkUp = true)) :=
  ⟨⟨onHost (fun x => { x with mem := img [(4, 1, 255)] }) (up .idle), hdr, 0, by decide +kernel⟩,
   ⟨onKeep (fun x => { x with decls := [tDecl] }) (onHost (fun x => { x with mem := img [(4, 1, 0), (12, 2, 16), (14, 2, 8), (16, 2, 8)] }) (up .idle)), hdr, 0, by decide +kernel⟩,
   ⟨onKeep (fun x => { x with decls := List.replicate 7 { tDecl with descriptor := 1 } }) (onHost (fun x => { x with mem := img [(4, 1, 0), (12, 2, 16), (14, 2, 8), (16, 2, 8)] }) (up .idle)), hdr, 0, by decide +kernel⟩,
   ⟨up .idle, hdr, 255, 0xFF, by decide +kernel⟩,
   ⟨ladderFound, hdr, 0, 0, 1, 63, by decide +kernel⟩,
   ⟨{ dashing with cams := [(0, { CamPort.reset with ctx := some { tCam with pitch := 400000 } })] }, 0, 0, 0, 0, 63, 100, tDecl, { tCam with pitch := 400000 }, 0, 0, 0, 0, 0, 0, by decide +kernel⟩,
   ⟨dashSeen, 0, 0, 0, 0, 63, 100, tDecl, tCam, 6528000, 0, 0, 0, 0, 0, by decide +kernel⟩,
   ⟨up .idle, hdr, 1, 64, 0, by decide +kernel⟩,
   ⟨onKeep (fun x => { x with reg := some { ring := 0, tag := 1, flags := 0, rep := 1, record := 0, seen := [tRegPage] } }) (running 0x00A0 (up .idle)), opr, { ring := 0, tag := 1, flags := 0, rep := 1, record := 0, seen := [tRegPage] }, by decide +kernel⟩⟩

/-- Every hypothesis of CodecCommandsComplete can be met, clause by clause. -/
theorem test_witness_codec_commands_complete :
    (∃ s : State, ∃ h : Hdr, ∃ source : Nat, ∃ stride : Nat, ∃ cols : Nat, ∃ rows : Nat, ∃ format : Nat, ∃ planes : Nat, ∃ options : Nat, ∃ cover : Nat, ∃ first : Nat, ∃ chain : Nat, ∃ o : CodecOp, (acceptsLong s h (cmdOf 0x0100 0) = true) ∧ (s.store.codec = []) ∧ (o = { ring := h.ring, tag := h.tag, compress := true, engine := 2, source := source, stride := stride, tileCols := cols, tileRows := rows, format := format, planes := planes, options := options, coverCh := cover, firstTile := first, chain := chain, kind := 0, layer := 0, dest := 0, run := { CodeRun.reset with pos := { desc := chain, used := 0 }, index := first } }) ∧ (compressOk o = true))
    ∧ (∃ s : State, ∃ o : OpRef, ∃ x : CodecOp, (runsLong s o 0x0100 = true) ∧ (codecOp s o.ring o.tag = some x) ∧ (x.engine ≠ 2) ∧ (s.thermal.throttle = false))
    ∧ (∃ s : State, ∃ h : Hdr, ∃ kind : Nat, ∃ layer : Nat, ∃ source : Nat, ∃ dest : Nat, (acceptsLong s h (cmdOf 0x0101 0) = true) ∧ (s.store.codec = []) ∧ (layer ≤ 1) ∧ ((kind = 0 ∨ (kind = 1 ∧ source ∈ s.store.frames))))
    ∧ (∃ s : State, ∃ o : OpRef, ∃ x : CodecOp, ∃ c : Nat, (runsLong s o 0x0101 = true) ∧ (codecOp s o.ring o.tag = some x) ∧ (x.engine ≠ 2) ∧ (s.thermal.throttle = false) ∧ (x.kind = 0) ∧ ((testHost s x.source).crc = some c)) :=
  ⟨⟨up .idle, hdr, 0, 256, 1, 1, 0, 1, 0, 0, 0, 0, { tCodec 2 true with stride := 256, planes := 1 }, by decide +kernel⟩,
   ⟨onStore (fun x => { x with codec := [tCodec 0 true] }) (running 0x0100 (up .idle)), opr, tCodec 0 true, by decide +kernel⟩,
   ⟨up .idle, hdr, 0, 1, 0, 0, by decide +kernel⟩,
   ⟨decompressing, opr, tCodec 0 false, ((testHost decompressing 0).crc).getD 0, by decide +kernel⟩⟩

/-- Every hypothesis of DramHousekeepingCompletes can be met, clause by clause. -/
theorem test_witness_dram_housekeeping_completes :
    (∃ s : State, ∃ k : Nat, ∃ w : Window, (canonOk s = true) ∧ (openWindow s k 1 = some w) ∧ (anyOverrun s = false))
    ∧ (∃ s : State, ∃ k : Nat, ∃ w : Window, (openWindow s k 1 = some w) ∧ (anyOverrun s = true))
    ∧ (∃ s : State, ∃ k : Nat, ∃ mr4 : Nat, ∃ c : Nat, ∃ w : Window, (canonOk s = true) ∧ (openWindow s k 2 = some w) ∧ (c < 4) ∧ (bit w.subchMask (2 * c) = true) ∧ (bit w.subchMask (2 * c + 1) = true) ∧ ((s.channel c).sr = .awake))
    ∧ (∃ s : State, ∃ c : Nat, ∃ mr4 : Nat, ∃ u : Nat, (canonOk s = true) ∧ (dramLive s = true) ∧ (s.web.running = false) ∧ (c < 4) ∧ ((s.channel c).sr = .awake) ∧ ((s.channel c).lastRetrain + 50 * msT ≤ max s.clk.elapsed u))
    ∧ (∃ s : State, ∃ h : Nat, ∃ r : Nat, ∃ u : Nat, (canonOk s = true) ∧ (dramLive s = true) ∧ (s.web.running = false) ∧ (h < 8) ∧ (r ∈ s.ranks) ∧ ((s.channel (h / 2)).sr = .awake) ∧ (refreshUnit s.dram.cfg ≤ debtNow (s.at u) h r))
    ∧ (∃ s : State, ∃ gap : Nat, ∃ i : Nat, ∃ p : PagePos, (canonOk s = true) ∧ (s.run.pages.find? (fun q => q.placed && decide (q.start + q.length = gap)) = some p) ∧ (s.web.running = true) ∧ (dramLive s = true) ∧ (i < gpSrCount (s.bank p.bank).image p.gapProg) ∧ (gap + (gpSr (s.bank p.bank).image p.gapProg i).2.1 = s.web.webPos))
    ∧ (∃ s : State, ∃ gap : Nat, ∃ i : Nat, (canonOk s = true) ∧ (s.web.running = false) ∧ ((∀ c, c < 4 → (s.channel c).held = [])))
    ∧ (∃ s : State, ∃ c : Nat, ∃ u : Nat, (canonOk s = true) ∧ (s.dev = .idle) ∧ (dramLive s = true) ∧ (c < 4) ∧ ((s.channel c).sr = .awake) ∧ ((s.channel c).lastRequest + (if s.dram.cfg.srIdle = 0 then 100 else s.dram.cfg.srIdle) * msT ≤ max s.clk.elapsed u)) :=
  ⟨⟨onDram (fun x => { x with trained := true }) (printing 100), 0, window tImage 0, by decide +kernel⟩,
   ⟨overrunning, 0, window tImage 0, by decide +kernel⟩,
   ⟨onDram (fun x => { x with trained := true }) (printing 100), 1, 0, 0, window tImage 1, by decide +kernel⟩,
   ⟨onDram (fun x => { x with trained := true }) (up .idle), 3, 0, 50 * msT, by decide +kernel⟩,
   ⟨onDram (fun x => { x with trained := true, cfg := { DramConfig.reset with timing := List.replicate 16 100 } }) (up .idle), 7, 0, 1000 * msT, by decide +kernel⟩,
   ⟨onDram (fun x => { x with trained := true }) (printing 5102), 5100, 0, tPage, by decide +kernel⟩,
   ⟨up .idle, 0, 0, by decide +kernel⟩,
   ⟨onDram (fun x => { x with trained := true }) (up .idle), 3, 100 * msT, by decide +kernel⟩⟩

/-- Every hypothesis of DramShareAndScrubComplete can be met, clause by clause. -/
theorem test_witness_dram_share_and_scrub_complete :
    (∃ s : State, ∃ cls : Nat, ∃ a : Nat, ∃ u : Nat, ∃ data : List Byte, ∃ err : ReadErr, (dramLive s = true) ∧ (cls ≤ 6) ∧ (a < dramCapacity s.dram.cfg.config) ∧ ((cls = 2 → a < reservedBase s.dram.cfg.config)) ∧ ((s.channel (subchOf s (a / 64 * 64) / 2)).sr = .awake) ∧ (tokensHeld s (subchOf s (a / 64 * 64)) cls < classTokens cls) ∧ (data.length = 64))
    ∧ (∃ s : State, ∃ cls : Nat, ∃ a : Nat, ∃ u : Nat, ∃ data : List Byte, ∃ enables : List Bool, (dramLive s = true) ∧ (cls ≤ 6) ∧ (a < dramCapacity s.dram.cfg.config) ∧ ((s.channel (subchOf s (a / 64 * 64) / 2)).sr = .awake) ∧ (tokensHeld s (subchOf s (a / 64 * 64)) cls < classTokens cls) ∧ (burstOf (physAddr s.dram.cfg.config s.dram.cfg.map (a / 64 * 64)) ∉ s.store.poison))
    ∧ (∃ s : State, ∃ cls : Nat, ∃ a : Nat, ∃ u : Nat, ∃ wr : Bool, ∃ data : List Byte, ∃ enables : List Bool, ∃ err : ReadErr, (dramLive s = true) ∧ (cls ≤ 6) ∧ (dramCapacity s.dram.cfg.config ≤ a))
    ∧ (∃ s : State, ∃ u : Nat, ∃ sup : Bool, (s.thermal.throttle = false) ∧ (rangeOn s 0 = false) ∧ (dramLive s = true) ∧ (s.dram.scrubDram < dramCapacity s.dram.cfg.config) ∧ (shareOpen s 6 [subchOf s s.dram.scrubDram] = true) ∧ (burstOf (physAddr s.dram.cfg.config s.dram.cfg.map s.dram.scrubDram) ∉ s.store.poison))
    ∧ (∃ s : State, ∃ u : Nat, ∃ err : ReadErr, (s.thermal.throttle = false) ∧ (rangeOn s 0 = false) ∧ (dramLive s = true) ∧ (s.dram.scrubDram < dramCapacity s.dram.cfg.config) ∧ (s.dram.scrubDram < reservedBase s.dram.cfg.config + 0x08B10000) ∧ (shareOpen s 6 [subchOf s s.dram.scrubDram] = true) ∧ (burstOf (physAddr s.dram.cfg.config s.dram.cfg.map s.dram.scrubDram) ∉ s.store.poison) ∧ (burstOutcome s (physAddr s.dram.cfg.config s.dram.cfg.map s.dram.scrubDram) false err = .uncorrectable))
    ∧ (∃ s : State, ∃ h : Hdr, ∃ memory : Nat, ∃ start : Nat, ∃ length : Nat, ∃ dest : Nat, (acceptsLong s h (cmdOf 0x00B0 0) = true) ∧ (memory ≤ 1) ∧ (start % scrubUnit memory = 0) ∧ (length % scrubUnit memory = 0) ∧ (length ≠ 0) ∧ (start + length ≤ memoryBytes s memory) ∧ (dest % 64 = 0) ∧ (s.dram.scrub = none))
    ∧ (∃ s : State, ∃ o : OpRef, ∃ x : ScrubOp, (runsLong s o 0x00B0 = true) ∧ (s.dram.scrub = some x) ∧ (x.ring = o.ring) ∧ (x.tag = o.tag) ∧ (s.thermal.throttle = false) ∧ (wordsToMeet s x [] x.checked (x.length / scrubUnit x.memory) = []) ∧ ((x.memory = 0 → shareOpen s 6 (spanSubs s (x.start + 64 * x.checked) (64 * (x.length / 64 - x.checked))) = true)))
    ∧ (∃ s : State, ∃ h : Hdr, ∃ period : Nat, (accepts s h (cmdOf 0x00B0 1) = true) ∧ (1 ≤ period) ∧ (period ≤ 168)) :=
  ⟨⟨onDram (fun x => { x with trained := true }) (up .idle), 6, 0, 0, List.replicate 64 0, .clean, by decide +kernel⟩,
   ⟨onDram (fun x => { x with trained := true }) (up .idle), 6, 0, 0, [], [], by decide +kernel⟩,
   ⟨onDram (fun x => { x with trained := true }) (up .idle), 0, dramCapacity 0, 0, false, [], [], .clean, by decide +kernel⟩,
   ⟨onDram (fun x => { x with trained := true }) (up .idle), 0, false, by decide +kernel⟩,
   ⟨onDram (fun x => { x with trained := true }) (up .idle), 0, { source := none, flips := [(0, 1), (8, 1)] }, by decide +kernel⟩,
   ⟨up .idle, hdr, 1, 0, scrubUnit 1, 0, by decide +kernel⟩,
   ⟨onDram (fun x => { x with scrub := some tScrub }) (running 0x00B0 (up .idle)), opr, tScrub, by decide +kernel⟩,
   ⟨up .idle, hdr, 168, by decide +kernel⟩⟩

/-- Every hypothesis of CalRunCompletes can be met, clause by clause. -/
theorem test_witness_cal_run_completes :
    (∃ s : State, ∃ h : Hdr, ∃ target : Nat, ∃ gm : Nat, ∃ lm : Nat, ∃ sm : Nat, (acceptsLong s h (cmdOf 0x00C0 0) = true) ∧ (s.thermal.op = none) ∧ (s.link.scan = none) ∧ (((target = 0 ∧ lm < 64 ∧ gm < 256 ∧ (maskList gm 8).any (groupHeld s) = false) ∨ (target = 1 ∧ sm < 2 ^ 28 ∧ gm < 256))))
    ∧ (∃ s : State, ∃ o : OpRef, ∃ x : CalOp, (runsLong s o 0x00C0 = true) ∧ (s.thermal.op = some x) ∧ (x.ring = o.ring) ∧ (x.tag = o.tag) ∧ (x.todo = []) ∧ (x.woken.all (fun g => (s.loop g).isNone) = true))
    ∧ (∃ s : State, ∃ h : Hdr, ∃ addr : Nat, (acceptsLong s h (cmdOf 0x00C0 4) = true) ∧ (canonOk s = true) ∧ (s.dev = .idle) ∧ (s.thermal.op = none) ∧ (s.dmaBad addr 64 = none) ∧ (thermalRecordOk (s.dmaRead addr 64) = true))
    ∧ (∃ s : State, ∃ h : Hdr, ∃ addr : Nat, (acceptsLong s h (cmdOf 0x00C0 5) = true) ∧ (s.host.linkUp = true))
    ∧ (∃ s : State, ∃ h : Hdr, ∃ gm : Nat, ∃ lm : Nat, ∃ pat : Nat, ∃ addr : Nat, (acceptsLong s h (cmdOf 0x00C0 1) = true) ∧ (canonOk s = true) ∧ (gm < 256) ∧ (1 ≤ lm) ∧ (lm < 64) ∧ (lm % 32 ≠ 31) ∧ (pat ≤ 1) ∧ (addr ≤ 23) ∧ (s.dev = .idle) ∧ (s.link.scan = none) ∧ (s.link.survey = none) ∧ (s.thermal.op = none) ∧ ((maskList gm 8).any (fun g => (s.loop g).isSome) = false))
    ∧ (∃ s : State, ∃ h : Hdr, ∃ gm : Nat, ∃ lm : Nat, ∃ addr : Nat, ∃ g : Nat, ∃ rest : List Nat, ∃ counts : List Nat, (acceptsLong s h (cmdOf 0x00C0 2) = true) ∧ (gm < 256) ∧ (maskList gm 8 = g :: rest) ∧ (lm < 64) ∧ (addr ≤ 23) ∧ (s.dev = .idle) ∧ (bit lm 5 = true))
    ∧ (∃ s : State, ∃ h : Hdr, ∃ gm : Nat, ∃ lm : Nat, (acceptsLong s h (cmdOf 0x00C0 3) = true) ∧ (canonOk s = true) ∧ (gm < 256) ∧ (lm < 64) ∧ (s.dev = .idle)) :=
  ⟨⟨up .idle, hdr, 1, 255, 0, 2 ^ 28 - 1, by decide +kernel⟩,
   ⟨onThermal (fun x => { x with op := some tCalOp }) (running 0x00C0 (up .idle)), opr, tCalOp, by decide +kernel⟩,
   ⟨onHost (fun x => { x with mem := img [(0, 2, 0x4854), (2, 1, 1)] }) (up .idle), hdr, 0, by decide +kernel⟩,
   ⟨up .idle, hdr, 0, by decide +kernel⟩,
   ⟨up .idle, hdr, 255, 30, 1, 23, by decide +kernel⟩,
   ⟨up .idle, hdr, 128, 63, 23, 7, [], [], by decide +kernel⟩,
   ⟨up .idle, hdr, 255, 63, by decide +kernel⟩⟩

/-- Every hypothesis of CalibrationEventsComplete can be met, clause by clause. -/
theorem test_witness_calibration_events_complete :
    (∃ s : State, ∃ c : Nat, ∃ u : Nat, ∃ r : Int, (canonOk s = true) ∧ (s.dev ≠ .boot) ∧ (s.thermal.evaluatedAt + secT ≤ max s.clk.elapsed u) ∧ (64 ≤ c) ∧ (c < 88) ∧ ((s.target c).running = false) ∧ ((s.target c).gaveUp = none) ∧ ((s.target c).retryAt = none) ∧ ((s.target c).reference = some r) ∧ (deltaT s < (median s (clusterOf c) - r).natAbs))
    ∧ (∃ s : State, ∃ c : Nat, ∃ r : Nat, ∃ u : Nat, (canonOk s = true) ∧ (64 ≤ c) ∧ (c < 88) ∧ ((s.target c).running = false) ∧ ((s.target c).gaveUp = none) ∧ ((s.target c).retryAt = some r) ∧ (r ≤ max s.clk.elapsed u))
    ∧ (∃ s : State, ∃ c : Nat, ∃ u : Nat, ∃ v : Int, (canonOk s = true) ∧ (64 ≤ c) ∧ (c < 88) ∧ ((s.target c).running = true) ∧ ((s.target c).m1 = none) ∧ (stateKept s c = true))
    ∧ (∃ s : State, ∃ c : Nat, ∃ u : Nat, ∃ v : Int, ∃ m : Int, (canonOk s = true) ∧ (64 ≤ c) ∧ (c < 88) ∧ ((s.target c).running = true) ∧ ((s.target c).m1 = some m) ∧ ((s.target c).noSpan = false) ∧ ((m - v).natAbs ≤ 3) ∧ (s.thermal.op = none) ∧ (stateKept s c = true))
    ∧ (∃ s : State, ∃ g : Nat, ∃ u : Nat, ∃ x : LoopCal, (canonOk s = true) ∧ (s.loop g = some x) ∧ (answerLate (s.at u) x = true))
    ∧ (∃ s : State, ∃ bar : Nat, ∃ slot : Nat, ∃ u : Nat, ∃ o : LoadOp, (s.link.load = some o) ∧ (o.opcode = 0x60) ∧ (o.waiting = false) ∧ (o.since + 100 * msT ≤ max s.clk.elapsed u) ∧ ((loadOf o (slotIx bar slot)).isSome = true) ∧ (runsLong s { ring := o.ring, tag := o.tag, t := u } 0x0060 = true)) :=
  ⟨⟨onThermal (fun x => { x with evaluatedAt := 0, targets := [(64, { CalTarget.reset with reference := some 100 })] }) (up .idle), 64, secT, 100, by decide +kernel⟩,
   ⟨onThermal (fun x => { x with evaluatedAt := 0, targets := [(87, { CalTarget.reset with retryAt := some 0 })] }) (up .idle), 87, 0, 0, by decide +kernel⟩,
   ⟨onThermal (fun x => { x with evaluatedAt := 0, targets := [(64, { CalTarget.reset with running := true })] }) (up .idle), 64, 0, 0, by decide +kernel⟩,
   ⟨onThermal (fun x => { x with evaluatedAt := 0, targets := [(87, { CalTarget.reset with running := true, m1 := some 3 })] }) (up .idle), 87, 0, 0, 3, by decide +kernel⟩,
   ⟨onThermal (fun x => { x with loops := [(0, some { lane := 0, phase := .entering, since := 0, lost := none, sleep := false, result := none })] }) (up .idle), 0, secT, { lane := 0, phase := .entering, since := 0, lost := none, sleep := false, result := none }, by decide +kernel⟩,
   ⟨onLink (fun x => { x with load := some (tLoad 0x60 [(0, 1)]) }) (running 0x0060 (up .idle)), 0, 0, 100 * msT, tLoad 0x60 [(0, 1)], by decide +kernel⟩⟩

/-- Every hypothesis of ThermalUnitCompletes can be met, clause by clause. -/
theorem test_witness_thermal_unit_completes :
    (∃ s : State, ∃ vs : List Int, ∃ u : Nat, (canonOk s = true) ∧ (s.boot.path = .up) ∧ (vs.length = 24) ∧ ((∀ v ∈ vs, -400 ≤ v ∧ v < 1200)) ∧ (s.thermal.convertedAt + alwaysOnCycle ≤ max s.clk.elapsed u))
    ∧ (∃ s : State, ∃ vs : List Int, ∃ u : Nat, ∃ k : Nat, (canonOk s = true) ∧ (s.boot.path = .up) ∧ (vs.length = 24) ∧ (s.thermal.convertedAt + alwaysOnCycle ≤ max s.clk.elapsed u) ∧ ((∀ v ∈ vs, -400 ≤ v ∧ v ≤ 1500)) ∧ (k < 8) ∧ (2 ≤ ((List.range 3).filter (fun j => decide (1200 ≤ nth 0 vs (3 * k + j)))).length))
    ∧ (∃ s : State, ∃ i : Nat, ∃ u : Nat, ∃ a : Nat, ((s.sensor i).inRangeSince = some a) ∧ ((s.sensor i).episode = true) ∧ ((s.sensor i).broken = false) ∧ (a + 10 * secT ≤ max s.clk.elapsed u))
    ∧ (∃ s : State, ∃ i : Nat, ∃ u : Nat, ∃ raw : RemoteRaw, ∃ v : Int, (i < 4) ∧ ((s.remote i).kind ≠ 0) ∧ (s.boot.path = .up) ∧ (nget s.thermal.remoteAt i + 10 * msT ≤ max s.clk.elapsed u) ∧ (remoteReading (s.remote i) raw = some v))
    ∧ (∃ s : State, ∃ i : Nat, ∃ u : Nat, ∃ raw : RemoteRaw, (canonOk s = true) ∧ (i < 4) ∧ ((s.remote i).kind ≠ 0) ∧ (s.boot.path = .up) ∧ (nget s.thermal.remoteAt i + 10 * msT ≤ max s.clk.elapsed u) ∧ (remoteReading (s.remote i) raw = none))
    ∧ (∃ s : State, ∃ u : Nat, (s.boot.path = .up) ∧ (s.thermal.judgedAt + msT ≤ max s.clk.elapsed u))
    ∧ (∃ s : State, ∃ u : Nat, ∃ a : Nat, (canonOk s = true) ∧ (s.thermal.belowSince = some a) ∧ (s.thermal.throttle = true) ∧ (a + secT ≤ max s.clk.elapsed u))
    ∧ (∃ s : State, ∃ u : Nat, ∃ a : Nat, (s.boot.coolSince = some a) ∧ (s.boot.path = .shutdown) ∧ (a + 10 * secT ≤ max s.clk.elapsed u))
    ∧ (∃ s : State, ∃ h : Hdr, ∃ i : Nat, ∃ seq : Nat, (accepts s h (cmdOf 0x0110 0) = true) ∧ (i ≤ 3) ∧ ((s.sensor (24 + i)).brokenSeq = some seq) ∧ ((s.sensor (24 + i)).broken = true))
    ∧ (∃ s : State, ∃ h : Hdr, ∃ i : Nat, (accepts s h (cmdOf 0x0110 1) = true) ∧ (i ≤ 3)) :=
  ⟨⟨up .idle, List.replicate 24 1199, alwaysOnCycle, by decide +kernel⟩,
   ⟨up .idle, List.replicate 22 0 ++ [1200, 1200], alwaysOnCycle, 7, by decide +kernel⟩,
   ⟨onThermal (fun x => { x with sensors := [(0, { Sensor.reset with episode := true, inRangeSince := some 0 })] }) (up .idle), 0, 10 * secT, 0, by decide +kernel⟩,
   ⟨onThermal (fun x => { x with remotes := [(3, { RemoteCfg.reset with kind := 1 })] }) (up .idle), 3, 10 * msT, .diode 500000 550000 600000, ((remoteReading { RemoteCfg.reset with kind := 1 } (.diode 500000 550000 600000)).getD 0), by decide +kernel⟩,
   ⟨onThermal (fun x => { x with remotes := [(3, { RemoteCfg.reset with kind := 1 })] }) (up .idle), 3, 10 * msT, .faulty, by decide +kernel⟩,
   ⟨up .idle, msT, by decide +kernel⟩,
   ⟨onThermal (fun x => { x with throttle := true, belowSince := some 0 }) (up .idle), secT, 0, by decide +kernel⟩,
   ⟨onBoot (fun x => { x with path := .shutdown, coolSince := some 0 }) (up .idle), 10 * secT, 0, by decide +kernel⟩,
   ⟨onThermal (fun x => { x with sensors := [(27, { Sensor.reset with broken := true, brokenSeq := some 5 })] }) (up .idle), hdr, 3, 5, by decide +kernel⟩,
   ⟨up .idle, hdr, 3, by decide +kernel⟩⟩

/-- Every hypothesis of NetworkPathsComplete can be met, clause by clause. -/
theorem test_witness_network_paths_complete :
    (∃ s : State, ∃ p : Nat, ∃ u : Nat, ∃ up : Bool, (canonOk s = true) ∧ (p ≤ 1) ∧ ((s.netPort p).mode ≠ 0) ∧ ((s.netPort p).up ≠ up))
    ∧ (∃ s : State, ∃ p : Nat, ∃ ip : Nat, ∃ u : Nat, (canonOk s = true) ∧ (portUp s p = true) ∧ (ip = s.net.ipv4))
    ∧ (∃ s : State, ∃ p : Nat, ∃ ip : Nat, ∃ u : Nat, (canonOk s = true) ∧ (portUp s p = true) ∧ (ip = s.net.ipv4))
    ∧ (∃ s : State, ∃ p : Nat, ∃ ip : Nat, ∃ u : Nat, (ip ≠ s.net.ipv4))
    ∧ (∃ s : State, ∃ u : Nat, ∃ p : Nat, (canonOk s = true) ∧ (portUp s p = true) ∧ ((∀ x, s.net.supervisedAt = some x → x + 2 * secT ≤ max s.clk.elapsed u)))
    ∧ (∃ s : State, ∃ p : Nat, ∃ source : Nat, ∃ seq : Nat, ∃ lan : Nat, ∃ length : Nat, ∃ u : Nat, ∃ content : RxContent, (portUp s p = true) ∧ (length ≤ 1536) ∧ (content ≠ .damaged) ∧ (content ≠ .fecLost))
    ∧ (∃ s : State, ∃ p : Nat, ∃ source : Nat, ∃ seq : Nat, ∃ lan : Nat, ∃ length : Nat, ∃ u : Nat, ∃ trailer : Bool, (canonOk s = true) ∧ (portUp s p = true)) :=
  ⟨⟨onNet (fun x => { x with ports := [(1, { NetPort.reset with mode := 1, up := true })] }) (up .idle), 1, 0, false, by decide +kernel⟩,
   ⟨onNet (fun x => { x with ports := [(1, { NetPort.reset with mode := 1, up := true })] }) (up .idle), 1, 0, 0, by decide +kernel⟩,
   ⟨onNet (fun x => { x with ports := [(1, { NetPort.reset with mode := 1, up := true })] }) (up .idle), 1, 0, 0, by decide +kernel⟩,
   ⟨up .idle, 0, 1, 0, by decide +kernel⟩,
   ⟨onNet (fun x => { x with ports := [(1, { NetPort.reset with mode := 1, up := true })] }) (up .idle), 0, 1, by decide +kernel, by decide +kernel, by intro x h; cases h⟩,
   ⟨onNet (fun x => { x with ports := [(1, { NetPort.reset with mode := 1, up := true })] }) (up .idle), 1, 0, 0, 0, 0, 0, .other, by decide +kernel⟩,
   ⟨onNet (fun x => { x with ports := [(1, { NetPort.reset with mode := 1, up := true })] }) (up .idle), 1, 0, 0, 0, 0, 0, false, by decide +kernel⟩⟩

/-- Every hypothesis of TimeConfigCompletes can be met, clause by clause. -/
theorem test_witness_time_config_completes :
    (∃ s : State, ∃ h : Hdr, ∃ a : Nat, ∃ b : Nat, ∃ vlan : Nat, ∃ ip : Nat, ∃ mask : Nat, (accepts s h (cmdOf 0x00D0 0) = true) ∧ (canonOk s = true) ∧ (a ≤ 3) ∧ (b ≤ 3) ∧ (bit vlan 12 = false) ∧ (s.dev = .idle))
    ∧ (∃ s : State, ∃ h : Hdr, ∃ d : Nat, (accepts s h (cmdOf 0x00D0 1) = true) ∧ (d ≤ 1) ∧ (((s.domain d).number ≤ 127 ∨ (s.domain d).number = 0xFF)) ∧ ((s.domain d).transport ≤ 1) ∧ ((s.domain d).delayMech ≤ 1) ∧ ((s.domain d).bandwidth ≤ 3))
    ∧ (∃ s : State, ∃ h : Hdr, ∃ d : Nat, ∃ number : Nat, ∃ transport : Nat, ∃ delay : Nat, ∃ bw : Nat, ∃ asymA : Int, ∃ asymB : Int, (accepts s h (cmdOf 0x00D0 1) = true) ∧ (canonOk s = true) ∧ (d ≤ 1) ∧ ((number ≤ 127 ∨ number = 0xFF)) ∧ (transport ≤ 1) ∧ (delay ≤ 1) ∧ (bw ≤ 3) ∧ ((s.domain d).number ≠ number))
    ∧ (∃ s : State, ∃ h : Hdr, ∃ d : Nat, (accepts s h (cmdOf 0x00D0 2) = true) ∧ (d ≤ 1))
    ∧ (∃ s : State, ∃ h : Hdr, ∃ sec : Nat, ∃ ns : Nat, (accepts s h (cmdOf 0x00D0 3) = true) ∧ (tracking s = false) ∧ (s.web.running = false) ∧ (ns ≤ 999999999) ∧ (0 < (s.at h.t).base))
    ∧ (∃ s : State, ∃ h : Hdr, ∃ dest : Nat, (accepts s h (cmdOf 0x00D0 4) = true) ∧ (s.host.linkUp = true))
    ∧ (∃ s : State, ∃ u : Nat, ((s.domain s.clk.prefer).estimate = true) ∧ (s.clk.prefer ≤ 1) ∧ (s.clk.source ≠ trackedSource s.clk.prefer) ∧ ((s.domain s.clk.prefer).heldSince + 10 * secT ≤ max s.clk.elapsed u))
    ∧ (∃ s : State, ∃ u : Nat, ∃ since : Nat, ∃ d : Int, (s.clk.slew = some (d, since)) ∧ (d.natAbs ≤ (max s.clk.elapsed u - since) / 100000)) :=
  ⟨⟨up .idle, hdr, 3, 3, 61439, 0, 0, by decide +kernel⟩,
   ⟨up .idle, hdr, 1, by decide +kernel⟩,
   ⟨up .idle, hdr, 1, 127, 1, 1, 3, 0, 0, by decide +kernel⟩,
   ⟨up .idle, hdr, 1, by decide +kernel⟩,
   ⟨up .idle, { hdr with t := 1 }, 0, 999999999, by decide +kernel⟩,
   ⟨up .idle, hdr, 0, by decide +kernel⟩,
   ⟨onNet (fun x => { x with domains := [(0, { tDomain with estimate := true })] }) (up .idle), 10 * secT, by decide +kernel⟩,
   ⟨{ up .idle with clk := { Clk.reset with slew := some (1, 0) } }, 100000, 0, 1, by decide +kernel⟩⟩

/-- Every hypothesis of PtpMessagesComplete can be met, clause by clause. -/
theorem test_witness_ptp_messages_complete :
    (∃ s : State, ∃ a : Announce, ∃ u : Nat, (canonOk s = true) ∧ (portUp s a.path = true) ∧ (a.domain ≤ 1) ∧ ((s.domain a.domain).on = true))
    ∧ (∃ s : State, ∃ d : Nat, ∃ p : Nat, ∃ snd : Nat, ∃ seq : Nat, ∃ origin : Nat, ∃ arr : Nat, ∃ li : Nat, ∃ u : Nat, (canonOk s = true) ∧ (portUp s p = true) ∧ (d ≤ 1) ∧ ((s.domain d).on = true) ∧ (fromMaster (s.domain d) p snd = true))
    ∧ (∃ s : State, ∃ d : Nat, ∃ p : Nat, ∃ snd : Nat, ∃ seq : Nat, ∃ origin : Nat, ∃ arr : Nat, ∃ li : Nat, ∃ u : Nat, ∃ delay, (canonOk s = true) ∧ (portUp s p = true) ∧ (d ≤ 1) ∧ ((s.domain d).on = true) ∧ (fromMaster (s.domain d) p snd = true) ∧ ((s.domain d).delayNow = some delay))
    ∧ (∃ s : State, ∃ d : Nat, ∃ p : Nat, ∃ snd : Nat, ∃ seq : Nat, ∃ origin : Nat, ∃ arr : Nat, ∃ delay : Nat, ∃ u : Nat, (canonOk s = true) ∧ (portUp s p = true) ∧ (d ≤ 1) ∧ ((s.domain d).on = true) ∧ (fromMaster (s.domain d) p snd = true) ∧ ((s.domain d).pendingSync = some (p, seq, arr)) ∧ ((s.domain d).delayNow = some delay))
    ∧ (∃ s : State, ∃ d : Nat, ∃ p : Nat, ∃ u : Nat, ∃ m : Announce, (canonOk s = true) ∧ (portUp s p = true) ∧ (d ≤ 1) ∧ ((s.domain d).on = true) ∧ ((s.domain d).delayMech = 0) ∧ ((s.domain d).selected = some m) ∧ (m.path = p) ∧ ((s.domain d).syncAt.isSome = true))
    ∧ (∃ s : State, ∃ d : Nat, ∃ p : Nat, ∃ snd : Nat, ∃ seq : Nat, ∃ received : Nat, ∃ sent : Nat, ∃ u : Nat, (canonOk s = true) ∧ (portUp s p = true) ∧ (d ≤ 1) ∧ ((s.domain d).on = true) ∧ (fromMaster (s.domain d) p snd = true) ∧ ((s.domain d).delayReq = some (seq, p, sent)))
    ∧ (∃ s : State, ∃ d : Nat, ∃ p : Nat, ∃ u : Nat, (canonOk s = true) ∧ (portUp s p = true) ∧ (d ≤ 1) ∧ ((s.domain d).on = true) ∧ ((s.domain d).delayMech = 1) ∧ (tget (fun _ => none) (s.domain d).pdelayReq p = none))
    ∧ (∃ s : State, ∃ d : Nat, ∃ p : Nat, ∃ snd : Nat, ∃ seq : Nat, ∃ u : Nat, (canonOk s = true) ∧ (portUp s p = true) ∧ (d ≤ 1) ∧ ((s.domain d).on = true) ∧ ((s.domain d).delayMech = 1))
    ∧ (∃ s : State, ∃ d : Nat, ∃ p : Nat, ∃ snd : Nat, ∃ seq : Nat, ∃ sent : Nat, ∃ at_ : Nat, ∃ rec_ : Nat, ∃ arr : Nat, ∃ stamp : Nat, ∃ u : Nat, (canonOk s = true) ∧ (portUp s p = true) ∧ (d ≤ 1) ∧ ((s.domain d).on = true) ∧ (tget (fun _ => none) (s.domain d).pdelayReq p = some (seq, sent, at_)) ∧ (tget (fun _ => none) (s.domain d).pdelayRx p = some (rec_, arr)))
    ∧ (∃ s : State, ∃ d : Nat, ∃ u : Nat, (canonOk s = true) ∧ (d ≤ 1) ∧ (masterSilent (s.at u) (s.domain d) = false) ∧ (syncSilent (s.at u) (s.domain d) = true)) :=
  ⟨⟨onNet (fun x => { x with ports := [(0, { NetPort.reset with mode := 1, up := true })], domains := [(1, { tDomain with number := 127 })] }) (up .idle), { tAnnounce with domain := 1 }, 0, by decide +kernel⟩,
   ⟨onNet (fun x => { x with ports := [(0, { NetPort.reset with mode := 1, up := true })], domains := [(1, { tDomain with number := 127 })] }) (up .idle), 1, 0, 2, 0, 0, 0, 0, 0, by decide +kernel⟩,
   ⟨onNet (fun x => { x with ports := [(0, { NetPort.reset with mode := 1, up := true })], domains := [(1, { tDomain with number := 127 })] }) (up .idle), 1, 0, 2, 0, 0, 0, 0, 0, 0, by decide +kernel⟩,
   ⟨onNet (fun x => { x with ports := [(0, { NetPort.reset with mode := 1, up := true })], domains := [(1, { tDomain with pendingSync := some (0, 9, 5) })] }) (up .idle), 1, 0, 2, 9, 0, 5, 0, 0, by decide +kernel⟩,
   ⟨onNet (fun x => { x with ports := [(0, { NetPort.reset with mode := 1, up := true })], domains := [(1, { tDomain with syncAt := some 0 })] }) (up .idle), 1, 0, 0, tAnnounce, by decide +kernel⟩,
   ⟨onNet (fun x => { x with ports := [(0, { NetPort.reset with mode := 1, up := true })], domains := [(1, { tDomain with delayReq := some (9, 0, 4) })] }) (up .idle), 1, 0, 2, 9, 0, 4, 0, by decide +kernel⟩,
   ⟨onNet (fun x => { x with ports := [(0, { NetPort.reset with mode := 1, up := true })], domains := [(1, { tDomain with delayMech := 1 })] }) (up .idle), 1, 0, 0, by decide +kernel⟩,
   ⟨onNet (fun x => { x with ports := [(0, { NetPort.reset with mode := 1, up := true })], domains := [(1, { tDomain with delayMech := 1 })] }) (up .idle), 1, 0, 0, 0, 0, by decide +kernel⟩,
   ⟨onNet (fun x => { x with ports := [(0, { NetPort.reset with mode := 1, up := true })], domains := [(1, { tDomain with pdelayReq := [(0, some (9, 4, 0))], pdelayRx := [(0, some (6, 7))] })] }) (up .idle), 1, 0, 0, 9, 4, 0, 6, 7, 0, 0, by decide +kernel⟩,
   ⟨onNet (fun x => { x with ports := [(0, { NetPort.reset with mode := 1, up := true })], domains := [(1, { tDomain with selected := none, syncAt := some 0 })] }) (up .idle), 1, 0, by decide +kernel⟩⟩

/-- Every hypothesis of LeadRoleCompletes can be met, clause by clause. -/
theorem test_witness_lead_role_completes :
    (∃ s : State, ∃ h : Hdr, ∃ home : Nat, ∃ sw : Nat, ∃ el : Nat, ∃ pid : Nat, ∃ mac : Nat, (accepts s h (cmdOf 0x00E0 0) = true) ∧ (s.net.lead.role ≠ .solo) ∧ (s.press.isSome = true) ∧ (home ≤ 1) ∧ (sw ≤ 1) ∧ (el ≤ 1) ∧ (pid ≠ 0))
    ∧ (∃ s : State, ∃ h : Hdr, ∃ i : Nat, (accepts s h (cmdOf 0x00E1 0) = true) ∧ (s.net.lead.role = .lead) ∧ (mayLead (s.at h.t) i = true) ∧ (s.net.lead.handoff = none))
    ∧ (∃ s : State, ∃ h : Hdr, ∃ i : Nat, (accepts s h (cmdOf 0x00E1 0) = true) ∧ (s.net.lead.role ≠ .lead))
    ∧ (∃ s : State, ∃ u : Nat, ∃ x : Nat, ∃ w : Wait, (s.net.lead.transferAt = some x) ∧ (s.host.waits.find? isTransfer = some w) ∧ (x + 100 * msT ≤ max s.clk.elapsed u) ∧ (w.orphan = false) ∧ ((s.ring w.ring).enabled = true) ∧ ((s.ring w.ring).fetched = []))
    ∧ (∃ s : State, ∃ h : Hdr, ∃ i : Nat, ∃ e : Nat, (accepts s h (cmdOf 0x00E2 0) = true) ∧ (s.net.lead.role = .lead) ∧ (s.press.isSome = true) ∧ (i ≤ 3) ∧ (i ≠ ownIndex s) ∧ (s.net.lead.epochSeen < e))
    ∧ (∃ s : State, ∃ u : Nat, (s.net.lead.role = .lead) ∧ (s.net.lead.renewedAt + 8 * msT ≤ max s.clk.elapsed u) ∧ (mayRenew s = true))
    ∧ (∃ s : State, ∃ u : Nat, (s.net.lead.role = .lead) ∧ (s.net.lead.leaseEnd ≤ (s.at u).base + msT))
    ∧ (∃ s : State, ∃ u : Nat, ∃ c : LeadConfig, (s.net.lead.config = some c) ∧ (mayTake (s.at u) c = true) ∧ (s.net.lead.stopReq = none))
    ∧ (∃ s : State, ∃ u : Nat, ∃ x : Handoff, (s.net.lead.handoff = some x) ∧ (x.boundary ≠ 0) ∧ (s.net.lead.role = .lead) ∧ ((s.web.running = false ∨ x.boundary ≤ s.web.webPos)) ∧ (x.target ≠ ownIndex s))
    ∧ (∃ s : State, ∃ u : Nat, ∃ e : Nat, (s.net.lead.verdictEpoch = some e) ∧ (s.net.lead.role ≠ .lead) ∧ (foreignLease (s.at u) = false) ∧ (s.net.lead.stopReq = none)) :=
  ⟨⟨{ up .idle with press := some { tPress with devices := 2 } }, hdr, 1, 1, 1, 1, 0, by decide +kernel⟩,
   ⟨onLead (fun x => { x with role := .lead, peers := [(3, some tPeer)] }) ({ up .idle with press := some { tPress with devices := 2 } }), hdr, 3, by decide +kernel⟩,
   ⟨up .idle, hdr, 0, by decide +kernel⟩,
   ⟨onLead (fun x => { x with transferAt := some 0 }) (waiting 0xE1 (.leadTransfer 1 0) (up .idle)), 100 * msT, 0, waitRec 0xE1 (.leadTransfer 1 0), by decide +kernel⟩,
   ⟨onLead (fun x => { x with role := .lead }) ({ up .idle with press := some { tPress with devices := 2 } }), hdr, 3, 1, by decide +kernel⟩,
   ⟨onLead (fun x => { x with role := .lead }) ({ onNet (fun x => { x with ports := [(1, { NetPort.reset with mode := 1, up := true })] }) (up .idle) with clk := { Clk.reset with taiValid := true, source := .tracked0 } }), 8 * msT, by decide +kernel⟩,
   ⟨onLead (fun x => { x with role := .lead }) ({ up .idle with press := some { tPress with devices := 2 } }), 0, by decide +kernel⟩,
   ⟨onLead (fun x => { x with role := .follower, leadIndex := some 1, config := some tConfig }) ({ { up .idle with press := some { tPress with devices := 2 } } with clk := { Clk.reset with taiValid := true, source := .tracked0 } }), 0, tConfig, by decide +kernel⟩,
   ⟨onLead (fun x => { x with role := .lead, handoff := some { target := 1, boundary := 1 } }) ({ up .idle with press := some { tPress with devices := 2 } }), 0, { target := 1, boundary := 1 }, by decide +kernel⟩,
   ⟨onLead (fun x => { x with verdictEpoch := some 1 }) ({ up .idle with press := some { tPress with devices := 2 } }), 0, 1, by decide +kernel⟩⟩

/-- Every hypothesis of HeartbeatsComplete can be met, clause by clause. -/
theorem test_witness_heartbeats_complete :
    (∃ s : State, ∃ u : Nat, ∃ n : Nat, ∃ c : LeadConfig, (s.net.lead.config = some c) ∧ (s.net.lead.hbLast = some n) ∧ (s.dev ∈ statesUp) ∧ (s.press.isSome = true) ∧ (s.net.lead.role ≠ .solo) ∧ (n < hbInstant (s.at u)) ∧ (s.net.lead.handoff = none))
    ∧ (∃ s : State, ∃ p : Nat, ∃ u : Nat, ∃ hb : Heartbeat, ∃ mac : Bool, ∃ c : LeadConfig, ∃ pr : Press, (s.net.lead.config = some c) ∧ (s.press = some pr) ∧ (portUp s p = true) ∧ (s.dev ∈ statesUp) ∧ (s.net.lead.role = .follower) ∧ (hb.pressId = c.pressId) ∧ (hb.version = 1) ∧ (hb.crcOk = true) ∧ (hb.index < pr.devices) ∧ (hb.index ≠ pr.index) ∧ (hb.role = 2) ∧ (bit hb.flags 0 = false) ∧ (bit hb.flags 2 = false))
    ∧ (∃ s : State, ∃ p : Nat, ∃ u : Nat, ∃ hb : Heartbeat, ∃ mac : Bool, ∃ c : LeadConfig, ∃ pr : Press, (s.net.lead.config = some c) ∧ (s.press = some pr) ∧ (portUp s p = true) ∧ (s.dev ∈ statesUp) ∧ (s.net.lead.role ≠ .solo) ∧ (hb.pressId = c.pressId) ∧ (hb.version = 1) ∧ (hb.crcOk = true) ∧ (hb.index < pr.devices) ∧ (hb.index ≠ pr.index) ∧ (hb.role = 1) ∧ (hb.epoch < s.net.lead.epochSeen))
    ∧ (∃ s : State, ∃ p : Nat, ∃ u : Nat, ∃ hb : Heartbeat, ∃ mac : Bool, ∃ c : LeadConfig, ∃ pr : Press, (s.net.lead.config = some c) ∧ (s.press = some pr) ∧ ((hb.pressId ≠ c.pressId ∨ hb.version ≠ 1 ∨ hb.crcOk = false ∨ pr.devices ≤ hb.index))) :=
  ⟨⟨onLead (fun x => { x with role := .lead, config := some tConfig, hbLast := some 0, epochSeen := 5 }) (onNet (fun x => { x with ports := [(1, { NetPort.reset with mode := 1, up := true })] }) ({ up .idle with press := some { tPress with devices := 2 } })), msT, 0, tConfig, by decide +kernel⟩,
   ⟨onLead (fun x => { x with role := .follower, config := some tConfig, hbLast := some 0, epochSeen := 5 }) (onNet (fun x => { x with ports := [(1, { NetPort.reset with mode := 1, up := true })] }) ({ up .idle with press := some { tPress with devices := 2 } })), 1, 0, tHeartbeat, false, tConfig, { tPress with devices := 2 }, by decide +kernel⟩,
   ⟨onLead (fun x => { x with role := .follower, config := some tConfig, hbLast := some 0, epochSeen := 5 }) (onNet (fun x => { x with ports := [(1, { NetPort.reset with mode := 1, up := true })] }) ({ up .idle with press := some { tPress with devices := 2 } })), 1, 0, { tHeartbeat with role := 1, epoch := 4 }, false, tConfig, { tPress with devices := 2 }, by decide +kernel⟩,
   ⟨onLead (fun x => { x with role := .follower, config := some tConfig, hbLast := some 0, epochSeen := 5 }) (onNet (fun x => { x with ports := [(1, { NetPort.reset with mode := 1, up := true })] }) ({ up .idle with press := some { tPress with devices := 2 } })), 0, 0, { tHeartbeat with index := 2 }, false, tConfig, { tPress with devices := 2 }, by decide +kernel⟩⟩

/-- Every hypothesis of ResetsComplete can be met, clause by clause. -/
theorem test_witness_resets_complete :
    (∃ s : State, ∃ held : Nat, ∃ u : Nat, (usT ≤ held))
    ∧ (∃ s : State, ∃ rail : Nat, ∃ mv : Nat, ∃ held : Nat, ∃ u : Nat, (railLow rail mv = true) ∧ (2 * usT ≤ held))
    ∧ (∃ s : State, ∃ held : Nat, ∃ u : Nat, (s.boot.porLow = false) ∧ (s.boot.supplyBad = false) ∧ (2 * alwaysOnCycle ≤ held))
    ∧ (∃ s : State, ∃ held : Nat, ∃ u : Nat, (s.boot.porLow = true ∨ s.boot.supplyBad = true) ∧ (2 * alwaysOnCycle ≤ held))
    ∧ (∃ s : State, ∃ rail : Nat, ∃ mv : Nat, ∃ held : Nat, ∃ u : Nat, (held < usT))
    ∧ (∃ s : State, ∃ rail : Nat, ∃ mv : Nat, ∃ held : Nat, ∃ u : Nat, (railLow rail mv = false ∨ held < 2 * usT))
    ∧ (∃ s : State, ∃ rail : Nat, ∃ mv : Nat, ∃ held : Nat, ∃ u : Nat, (held < 2 * alwaysOnCycle))
    ∧ (∃ s : State, ∃ core : Nat, ∃ fed : Nat, ∃ u : Nat, (core < 4) ∧ (s.boot.path ∈ [PowerPath.up, .booting, .record]) ∧ (max fed (nget s.boot.wdogFed core) + 100 * msT ≤ max s.clk.elapsed u))
    ∧ (∃ s : State, ∃ core : Nat, ∃ fed : Nat, ∃ u : Nat, (core < 4) ∧ (s.boot.path ∉ [PowerPath.up, .booting, .record] ∨ max s.clk.elapsed u < max fed (nget s.boot.wdogFed core) + 100 * msT))
    ∧ (∃ s : State, ∃ h : Hdr, ∃ kind : Nat, (accepts s h (cmdOf 0x0120 0) = true) ∧ (s.host.linkUp = true) ∧ (kind ≤ 1))
    ∧ (∃ s : State, ∃ u : Nat, ∃ c : FatalCause, (s.boot.fatal = some c) ∧ (s.boot.path = .record))
    ∧ (∃ s : State, ∃ u : Nat, ∃ c : FatalCause, (s.boot.fatal = some c) ∧ (s.boot.path = .record) ∧ (s.boot.fatalAt + 10 * msT ≤ max s.clk.elapsed u))
    ∧ (∃ s : State, ∃ i : Nat, ∃ u : Nat, (3 ≤ i) ∧ (i ≤ 7))
    ∧ (∃ s : State, ∃ i : Nat, ∃ u : Nat, (¬(3 ≤ i % 256 ∧ i % 256 ≤ 7)))
    ∧ (∃ i, (i = 0 ∨ 7 < i)) :=
  ⟨⟨up .idle, usT, 0, by decide +kernel⟩,
   ⟨up .idle, 3, 0, secT, 0, by decide +kernel⟩,
   ⟨up .idle, secT, 0, by decide +kernel⟩,
   ⟨onBoot (fun x => { x with porLow := true }) (up .idle), secT, 0, by decide +kernel⟩,
   ⟨up .idle, 0, 0, 0, 0, by decide +kernel⟩,
   ⟨up .idle, 255, 0, 0, 0, by decide +kernel⟩,
   ⟨up .idle, 0, 0, 0, 0, by decide +kernel⟩,
   ⟨up .idle, 3, 0, secT, by decide +kernel⟩,
   ⟨up .idle, 3, 0, 0, by decide +kernel⟩,
   ⟨up .idle, hdr, 1, by decide +kernel⟩,
   ⟨onBoot (fun x => { x with path := .record, fatal := some .booksFatal }) (up .idle), 0, .booksFatal, by decide +kernel⟩,
   ⟨onBoot (fun x => { x with path := .record, fatal := some .booksFatal }) (up .idle), 10 * msT, .booksFatal, by decide +kernel⟩,
   ⟨up .idle, 3, 0, by decide +kernel⟩,
   ⟨up .idle, 255, 0, by decide +kernel⟩,
   ⟨0, by decide +kernel⟩⟩

/-- Every hypothesis of BootCompletes can be met, clause by clause. -/
theorem test_witness_boot_completes :
    (∃ s : State, ∃ u : Nat, ∃ straps : Nat, ∃ sr : Bool, ∃ timing : List Nat, ∃ errs : List (Nat × ReadErr), (s.boot.path = .booting ∨ s.boot.path = .held) ∧ (s.boot.resetAt + msT ≤ max s.clk.elapsed u) ∧ (liveCopy s = none))
    ∧ (∃ s : State, ∃ u : Nat, ∃ straps : Nat, ∃ sr : Bool, ∃ timing : List Nat, ∃ errs : List (Nat × ReadErr), (¬(s.boot.path = .booting ∨ s.boot.path = .held) ∨ max s.clk.elapsed u < s.boot.resetAt + msT))
    ∧ (∃ s : State, ∃ u : Nat, ∃ straps : Nat, ∃ k : Nat, ∃ sr : Bool, ∃ timing : List Nat, ∃ errs : List (Nat × ReadErr), (s.boot.path = .booting ∨ s.boot.path = .held) ∧ (s.boot.resetAt + msT ≤ max s.clk.elapsed u) ∧ (liveCopy s = some k)) :=
  ⟨⟨State.reset, msT, 0, false, [], [], by decide +kernel⟩,
   ⟨State.reset, msT - 1, 0, false, [], [], by decide +kernel⟩,
   ⟨onBoot (fun x => { x with flash := bootFlash }) (State.reset), msT, 0, 1, false, [], [], by decide +kernel⟩⟩

/-- Every hypothesis of UpdatesComplete can be met, clause by clause. -/
theorem test_witness_updates_complete :
    (∃ s : State, ∃ h : Hdr, ∃ target : Nat, ∃ length : Nat, (accepts s h (cmdOf 0x0020 0) = true) ∧ ((target = 1 ∧ length = 64) ∨ (target = 0 ∧ 256 ≤ length ∧ length ≤ 16777216)) ∧ (s.boot.update = none))
    ∧ (∃ s : State, ∃ h : Hdr, ∃ offset : Nat, ∃ length : Nat, ∃ source : Nat, ∃ x : Update, (acceptsLong s h (cmdOf 0x0021 0) = true) ∧ (s.boot.update = some x) ∧ (s.boot.dataOp = none) ∧ (s.boot.commitOp = none) ∧ (0 < length) ∧ (length ≤ 16777216) ∧ (offset = x.written) ∧ (offset + length ≤ x.length))
    ∧ (∃ s : State, ∃ o : OpRef, ∃ offset : Nat, ∃ length : Nat, ∃ source : Nat, ∃ x : Update, (runsLong s o 0x0021 = true) ∧ (s.boot.dataOp = some (o.ring, o.tag, offset, length, source)) ∧ (s.boot.update = some x) ∧ (0 < length) ∧ (s.dmaBad source length = none))
    ∧ (∃ s : State, ∃ h : Hdr, (acceptsLong s h (cmdOf 0x0022 0) = true) ∧ (s.boot.update.isSome = true) ∧ (s.boot.dataOp = none) ∧ (s.boot.commitOp = none))
    ∧ (∃ s : State, ∃ o : OpRef, ∃ n : Nat, ∃ x : Update, (runsLong s o 0x0022 = true) ∧ (s.boot.commitOp = some (o.ring, o.tag, n)) ∧ (s.boot.update = some x) ∧ (x.target = 0))
    ∧ (∃ s : State, ∃ o : OpRef, ∃ n : Nat, ∃ x : Update, (runsLong s o 0x0022 = true) ∧ (s.boot.commitOp = some (o.ring, o.tag, n)) ∧ (s.boot.update = some x) ∧ (x.target = 1) ∧ (x.written = 64) ∧ (recordValid x.data = true))
    ∧ (∃ s : State, ∃ h : Hdr, (acceptsLong s h (cmdOf 0x0022 1) = true))
    ∧ (∃ s : State, ∃ h : Hdr, (acceptsLong s h (cmdOf 0x0022 2) = true)) :=
  ⟨⟨up .idle, hdr, 0, 16777216, by decide +kernel⟩,
   ⟨onBoot (fun x => { x with update := some (tUpdate 0 0 []) }) (up .idle), hdr, 0, 256, 0, tUpdate 0 0 [], by decide +kernel⟩,
   ⟨onBoot (fun x => { x with update := some (tUpdate 0 0 []), dataOp := some (0, 1, 0, 256, 0) }) (running 0x0021 (up .idle)), opr, 0, 256, 0, tUpdate 0 0 [], by decide +kernel⟩,
   ⟨onBoot (fun x => { x with update := some (tUpdate 0 0 []) }) (up .idle), hdr, by decide +kernel⟩,
   ⟨onBoot (fun x => { x with update := some (tUpdate 0 256 []), commitOp := some (0, 1, 0) }) (running 0x0022 (up .idle)), opr, 0, tUpdate 0 256 [], by decide +kernel⟩,
   ⟨onBoot (fun x => { x with update := some (tUpdate 1 64 bootRecord), commitOp := some (0, 1, 0) }) (running 0x0022 (up .idle)), opr, 0, tUpdate 1 64 bootRecord, by decide +kernel⟩,
   ⟨up .idle, hdr, by decide +kernel⟩,
   ⟨up .idle, hdr, by decide +kernel⟩⟩

/-- Every hypothesis of LinkAndPowerEventsComplete can be met, clause by clause. -/
theorem test_witness_link_and_power_events_complete :
    (∃ s : State, ∃ u : Nat, ∃ c : Instr, (c = .perstN u ∨ c = .pcieHotReset u ∨ c = .clockLoss .pcie u) ∧ (s.host.linkUp = true) ∧ (canonOk s = true))
    ∧ (∃ s : State, ∃ u : Nat, (s.boot.path = .up ∨ s.boot.path = .booting))
    ∧ (∃ s : State, ∃ u : Nat, ∃ c : Instr, ∃ x : FatalCause, ((c = .fatalError x u ∧ (x = .refreshOverrun → anyOverrun (s.at u) = true)) ∨ (∃ p : Pll, p ≠ .pcie ∧ c = .clockLoss p u ∧ x = .clockLoss)) ∧ (s.boot.path = .up ∨ s.boot.path = .booting))
    ∧ (∃ s : State, ∃ domain : Nat, ∃ u : Nat, (domain < 12) ∧ (bit s.boot.domains domain = true) ∧ (s.host.waits = []))
    ∧ (∃ s : State, ∃ domain : Nat, ∃ u : Nat, ∃ mask : Nat, ∃ w : Wait, ∃ result : List Byte, (domain < 12) ∧ (bit s.boot.domains domain = true) ∧ (s.host.waits = [w]) ∧ (w.kind = .domain mask result) ∧ (w.orphan = false) ∧ ((s.ring w.ring).enabled = true) ∧ ((s.ring w.ring).fetched = []) ∧ ((∀ d ∈ maskList mask 12, d = domain ∨ bit s.boot.domainsReady d = true))) :=
  ⟨⟨up .idle, 0, .perstN 0, by decide +kernel⟩,
   ⟨up .idle, 0, by decide +kernel⟩,
   ⟨overrunning, 0, .fatalError .refreshOverrun 0, .refreshOverrun, Or.inl ⟨rfl, by decide +kernel⟩, by decide +kernel⟩,
   ⟨onBoot (fun x => { x with domains := 2049 }) (up .idle), 11, 0, by decide +kernel⟩,
   ⟨onBoot (fun x => { x with domains := 2049 }) (waiting 0x90 (.domain 2048 []) (up .idle)), 11, 0, 2048, waitRec 0x90 (.domain 2048 []), [], by decide +kernel⟩⟩

/-- Every hypothesis of OutputsComplete can be met, clause by clause. -/
theorem test_witness_outputs_complete :
    (∃ s : State, ∃ h : Hdr, ∃ output : Nat, ∃ mode : Nat, ∃ flags : Nat, ∃ source : Nat, ∃ width : Nat, ∃ sec : Nat, ∃ ns : Nat, ∃ period : Nat, (accepts s h (cmdOf 0x00D1 0) = true) ∧ (canonOk s = true) ∧ (output ≤ 7) ∧ (mode ≤ 3) ∧ (flags ≤ 1) ∧ ((mode = 3 → source ≤ 7)) ∧ ((mode ≠ 0 → width % 2 = 0 ∧ 4 ≤ width ∧ width ≤ 1000000000)) ∧ ((mode = 1 ∨ mode = 2 → ns ≤ 999999999 ∧ s.clk.taiValid = true)) ∧ ((mode = 2 → 100 * nsT ≤ period ∧ period ≤ 1000 * secT ∧ width * nsT < period)) ∧ ((mode = 1 → (s.at h.t).base + 10 * usT ≤ sec * secT + ns * nsT)))
    ∧ (∃ s : State, ∃ output : Nat, ∃ u : Nat, ∃ x : Tout, (s.tout output = x) ∧ (x.prog.mode = 1) ∧ (x.nextPulse ≠ 0) ∧ (x.nextPulse ≤ (s.at u).base))
    ∧ (∃ s : State, ∃ output : Nat, ∃ u : Nat, ∃ x : Tout, (s.tout output = x) ∧ (x.prog.mode = 2) ∧ (x.nextPulse ≤ (s.at u).base))
    ∧ (∃ s : State, ∃ output : Nat, ∃ u : Nat, ∃ x : Tout, ∃ pos : Int, (s.tout output = x) ∧ (x.prog.mode = 3) ∧ (s.web.running = true) ∧ (x.pending.find? (fun p => decide (p ≤ (phaseAt s (s.at u).base : Int))) = some pos))
    ∧ (∃ s : State, ∃ output : Nat, ∃ u : Nat, ∃ x : Tout, (canonOk s = true) ∧ (s.tout output = x) ∧ (x.active = true) ∧ (x.endsAt ≤ max s.clk.elapsed u)) :=
  ⟨⟨{ up .idle with clk := { Clk.reset with taiValid := true } }, hdr, 7, 2, 1, 7, 1000000000, 0, 999999999, 1000 * secT, by decide +kernel⟩,
   ⟨onWeb (fun x => { x with touts := [(7, { Tout.reset with prog := { ToutProg.reset with mode := 1 }, nextPulse := 1 })] }) (up .idle), 7, 1, { Tout.reset with prog := { ToutProg.reset with mode := 1 }, nextPulse := 1 }, by decide +kernel⟩,
   ⟨onWeb (fun x => { x with touts := [(7, { Tout.reset with prog := { ToutProg.reset with mode := 2 }, nextPulse := 1 })] }) (up .idle), 7, 1, { Tout.reset with prog := { ToutProg.reset with mode := 2 }, nextPulse := 1 }, by decide +kernel⟩,
   ⟨onWeb (fun x => { x with touts := [(7, { Tout.reset with prog := { ToutProg.reset with mode := 3 }, pending := [0] })] }) (printing 110), 7, 0, { Tout.reset with prog := { ToutProg.reset with mode := 3 }, pending := [0] }, 0, by decide +kernel⟩,
   ⟨onWeb (fun x => { x with touts := [(7, { Tout.reset with active := true })] }) (up .idle), 7, 0, { Tout.reset with active := true }, by decide +kernel⟩⟩

/-- Every hypothesis of MotionEventsComplete can be met, clause by clause. -/
theorem test_witness_motion_events_complete :
    (∃ s : State, ∃ k : Nat, (k ≤ 7) ∧ (s.web.webPos ≠ 0) ∧ (comparatorDue s k = true) ∧ (((s.comparator k).mode = 2 → (s.comparator k).period ≠ 0)) ∧ ((∀ j, j ≤ 7 → j ≠ k → comparatorDue s j = false)))
    ∧ (∃ s : State, ∃ enc : Nat, ∃ u : Nat, ∃ held : Nat, ∃ a : Bool, ∃ b : Bool, (enc ≤ 1) ∧ (encoderFilter s ≤ held) ∧ (windowOver s ((s.at (u + encoderFilter s)).clk.baseAt u) = false) ∧ ((s.encoder enc).edges ≠ 0) ∧ (((s.encoder enc).levelA = a ↔ (s.encoder enc).levelB ≠ b)) ∧ ((s.encoder enc).overrate (encoderStamp u) = false))
    ∧ (∃ s : State, ∃ enc : Nat, ∃ u : Nat, ∃ held : Nat, ∃ a : Bool, ∃ b : Bool, (enc ≤ 1) ∧ (encoderFilter s ≤ held) ∧ (windowOver s ((s.at (u + encoderFilter s)).clk.baseAt u) = false) ∧ ((s.encoder enc).levelA ≠ a) ∧ ((s.encoder enc).levelB ≠ b))
    ∧ (∃ s : State, ∃ enc : Nat, ∃ u : Nat, ∃ held : Nat, ∃ a : Bool, ∃ b : Bool, (enc ≤ 1) ∧ (encoderFilter s ≤ held) ∧ (windowOver s ((s.at (u + encoderFilter s)).clk.baseAt u) = false) ∧ (((s.encoder enc).levelA = a ↔ (s.encoder enc).levelB ≠ b)) ∧ ((s.encoder enc).overrate (encoderStamp u) = true))
    ∧ (∃ s : State, ∃ enc : Nat, ∃ u : Nat, ∃ held : Nat, ∃ a : Bool, ∃ b : Bool, (held < encoderFilter s))
    ∧ (∃ s : State, ∃ enc : Nat, ∃ u : Nat, ∃ held : Nat, (enc ≤ 1) ∧ (canonOk s = true) ∧ (encoderFilter s ≤ held))
    ∧ (∃ s : State, ∃ u : Nat, (windowOver s (s.at u).base = false))
    ∧ (∃ s : State, ∃ u : Nat, (windowOver s (s.at u).base = true) ∧ (trims s = false))
    ∧ (∃ s : State, ∃ u : Nat, (windowOver s (s.at u).base = true) ∧ (s.web.motion.trim = 1) ∧ (s.web.motion.encSel = 0) ∧ ((s.encoder 0).bad = false) ∧ (s.net.lead.role = .solo))
    ∧ (∃ s : State, ∃ u : Nat, let pe := pEncOf s.web.motion.linePitch ((s.encoder 0).speed s.web.motion.countLen0); let p := trimPeriod s pe; (windowOver s (s.at u).base = true) ∧ (s.web.motion.trim = 1) ∧ (s.web.motion.encSel = 0) ∧ ((s.encoder 0).bad = false) ∧ (s.net.lead.role = .lead) ∧ (s.net.lead.handoff = none) ∧ (p ≠ s.web.nominal)) :=
  ⟨⟨onWeb (fun x => { x with comparators := [(7, { mode := 1, w := 110, period := 0 })] }) (printing 110), 7, by decide +kernel⟩,
   ⟨onWeb (fun x => { x with encoders := [(1, { Encoder.reset with edges := 1 })] }) (up .idle), 1, 0, secT, true, false, by decide +kernel⟩,
   ⟨up .idle, 1, 0, secT, true, true, by decide +kernel⟩,
   ⟨onWeb (fun x => { x with encoders := [(1, { Encoder.reset with lastEdge := some 0 })] }) (up .idle), 1, 0, secT, false, true, by decide +kernel⟩,
   ⟨onWeb (fun x => { x with motion := { Motion.reset with encFilter := 15 } }) (up .idle), 0, 0, 14 * nsT, false, false, by decide +kernel⟩,
   ⟨up .idle, 1, 0, secT, by decide +kernel⟩,
   ⟨up .idle, 0, by decide +kernel⟩,
   ⟨printing 110, 100 * msT, by decide +kernel⟩,
   ⟨onLead (fun x => { x with role := .solo }) (onWeb (fun x => { x with motion := { Motion.reset with trim := 1, linePitch := 1 } }) (printing 110)), 100 * msT, by dsimp only; decide +kernel⟩,
   ⟨onLead (fun x => { x with role := .lead }) (onWeb (fun x => { x with motion := { Motion.reset with trim := 1, linePitch := 1 }, nominal := 1 }) (printing 110)), 100 * msT, by dsimp only; decide +kernel⟩⟩

/-- Every hypothesis of UpdatesAndMarksComplete can be met, clause by clause. -/
theorem test_witness_updates_and_marks_complete :
    (∃ s : State, ∃ x : PeriodUpdate, (s.web.running = true) ∧ ((s.web.updates.filter (fun u => decide (u.effective ≤ s.web.webPos))).getLast? = some x))
    ∧ (∃ s : State, ∃ input : Nat, ∃ u : Nat, ∃ held : Nat, ∃ level : Bool, (s.dev = .armed) ∧ (s.run.startMark = some input) ∧ (s.web.running = false) ∧ (markFilterTime s ≤ held))
    ∧ (∃ s : State, ∃ input : Nat, ∃ u : Nat, ∃ held : Nat, ∃ level : Bool, (held < markFilterTime s))
    ∧ (∃ s : State, ∃ input : Nat, ∃ u : Nat, ∃ held : Nat, ∃ wm : Nat, ∃ p : PagePos, (registers s = true) ∧ (s.dev ≠ .armed) ∧ (s.tabNum 8 0 0 1 = input) ∧ (s.tabNum 8 0 12 4 = 0) ∧ (markFilterTime s ≤ held) ∧ (markPosition s ((s.at (u + markFilterTime s)).clk.baseAt u / nsT * nsT) = some wm) ∧ (markedPage s wm = some p))
    ∧ (∃ s : State, ∃ input : Nat, ∃ u : Nat, ∃ held : Nat, ∃ wm : Nat, (registers s = true) ∧ (s.dev ≠ .armed) ∧ (s.tabNum 8 0 0 1 = input) ∧ (markFilterTime s ≤ held) ∧ (markPosition s ((s.at (u + markFilterTime s)).clk.baseAt u / nsT * nsT) = some wm) ∧ (markedPage s wm = none))
    ∧ (∃ s : State, ∃ p : PagePos, (s.posAt p.start = some p) ∧ (registers s = true) ∧ (s.tabNum 8 0 0 1 ≠ 0xFF) ∧ (p.start ∉ s.run.marked) ∧ (markExpected s p + captureWidth s ≤ (256 * s.web.webPos : Nat))) :=
  ⟨⟨onWeb (fun x => { x with updates := [{ seq := 1, effective := 110, period := 65536, pEnc := .unset }] }) (printing 110), { seq := 1, effective := 110, period := 65536, pEnc := .unset }, by decide +kernel⟩,
   ⟨onRun (fun x => { x with startMark := some 1 }) (up .armed), 1, 0, secT, false, by decide +kernel⟩,
   ⟨up .idle, 0, 0, 0, false, by decide +kernel⟩,
   ⟨onWeb (fun x => { x with history := [(100, 0, 65536)] }) (marked 110), 0, 0, secT, 25600, tPage, by decide +kernel⟩,
   ⟨onRun (fun x => { x with pages := [] }) (onWeb (fun x => { x with history := [(100, 0, 65536)] }) (marked 110)), 0, 0, secT, 25600, by decide +kernel⟩,
   ⟨marked 116, tPage, by decide +kernel⟩⟩

/-- Every hypothesis of FetchAndDecodeCuesComplete can be met, clause by clause. -/
theorem test_witness_fetch_and_decode_cues_complete :
    (∃ s : State, ∃ bar : Nat, ∃ page : Nat, ∃ line : Nat, ∃ cue : Word64, ∃ p : PagePos, (cueIssues s 1 bar page cue p line = true))
    ∧ (∃ s : State, ∃ bar : Nat, ∃ layer : Nat, ∃ c : Nat, ∃ e : Inflight, (canonOk s = true) ∧ (s.path.inflight.find? (fun e => decide (e.bar = bar ∧ e.layer = layer ∧ e.context = c)) = some e))
    ∧ (∃ s : State, ∃ bar : Nat, ∃ page : Nat, ∃ line : Nat, ∃ c : Nat, ∃ cue : Word64, ∃ p : PagePos, let y := (Cue.ofWord cue.toNat).layer; let row := contoneRow s p bar line; let x := (s.context bar y c).turn p.start (row / 64) (row % 64 / 8); (cueIssues s 2 bar page cue p line = true) ∧ (canonOk s = true) ∧ ((Cue.ofWord cue.toNat).contexts = [c]) ∧ (ctxUsed (s.bank p.bank).image bar (Cue.ofWord cue.toNat).layer c = true) ∧ (x.outs.all (fun o => decide (¬(o.page = p.start ∧ o.row = row))) = true))
    ∧ (∃ s : State, ∃ bar : Nat, ∃ page : Nat, ∃ p : PagePos, (playedPage s page = some p) ∧ (mayIssue s bar p 0 = true)) :=
  ⟨⟨printing 110, 0, 100, 0, cueWord 1 0, tPage, by decide +kernel⟩,
   ⟨onPath (fun x => { x with inflight := [tInflight] }) (up .idle), 0, 0, 0, tInflight, by decide +kernel⟩,
   ⟨issuedTo 1 (printing 110), 0, 100, 0, 0, cueWord 2 0, tPage, by dsimp only; decide +kernel⟩,
   ⟨issuedTo 7 (printing 110), 0, 100, tPage, by decide +kernel⟩⟩

/-- Every hypothesis of ToneScreenMapCuesComplete can be met, clause by clause. -/
theorem test_witness_tone_screen_map_cues_complete :
    (∃ s : State, ∃ bar : Nat, ∃ page : Nat, ∃ line : Nat, ∃ cue : Word64, ∃ p : PagePos, let q := Cue.ofWord cue.toNat; (cueIssues s 3 bar page cue p line = true) ∧ (q.units = 1) ∧ (q.unit < 6912) ∧ ((∀ cls ∈ [0, 1, 3], s.loadLatch cls bar p.start = s)) ∧ ((∀ cls, cls ≤ 2 → (s.table cls bar).poison ((s.table cls bar).bankFor p.start) = [])) ∧ (findVals s bar p.start line (4 - q.lead) = none))
    ∧ (∃ s : State, ∃ bar : Nat, ∃ page : Nat, ∃ line : Nat, ∃ cue : Word64, ∃ p : PagePos, ∃ v : LineVals, let q := Cue.ofWord cue.toNat; (cueIssues s 4 bar page cue p line = true) ∧ (s.loadLatch 4 bar p.start = s) ∧ ((s.table 4 bar).poison ((s.table 4 bar).bankFor p.start) = []) ∧ (findVals s bar p.start line (3 - q.lead) = some v) ∧ (twf (fun _ => 0) v.levels = true))
    ∧ (∃ s : State, ∃ bar : Nat, ∃ page : Nat, ∃ line : Nat, ∃ cue : Word64, ∃ p : PagePos, let q := Cue.ofWord cue.toNat; let due := dueTick s bar q.slot p.start line; let n := recN s bar p.start q.slot; (cueIssues s 5 bar page cue p line = true) ∧ (s.fitted bar q.slot = true) ∧ (s.loadLatch 5 bar p.start = s) ∧ ((s.table 5 bar).poison ((s.table 5 bar).bankFor p.start) = []) ∧ (slotWithdrawn s bar q.slot p.start = false) ∧ (n ≠ 0) ∧ (2 ≤ due % 64)) :=
  ⟨⟨issuedTo 2 (latched), 0, 100, 0, cueWord 3 16, tPage, by decide +kernel⟩,
   ⟨onPath (fun x => { x with lines := [tVals] }) (issuedTo 3 (latched)), 0, 100, 0, cueWord 4 16, tPage, tVals, by decide +kernel⟩,
   ⟨issuedTo 4 (latched), 0, 100, 0, cueWord 5 0, tPage, by decide +kernel⟩⟩

/-- Every hypothesis of SendCuesComplete can be met, clause by clause. -/
theorem test_witness_send_cues_complete :
    (∃ s : State, ∃ bar : Nat, ∃ page : Nat, ∃ line : Nat, ∃ cue : Word64, ∃ p : PagePos, ∃ l : SlotLine, let q := Cue.ofWord cue.toNat; (cueIssues s 6 bar page cue p line = true) ∧ (canonOk s = true) ∧ (s.path.staging.find? (fun l => decide (l.bar = bar ∧ l.slot = q.slot ∧ l.page = p.start ∧ l.line = line)) = some l) ∧ (l.began = false) ∧ (q.block = 0) ∧ (0 < (s.slot bar q.slot).credit))
    ∧ (∃ s : State, ∃ bar : Nat, ∃ page : Nat, ∃ line : Nat, ∃ cue : Word64, ∃ p : PagePos, ∃ l : SlotLine, let q := Cue.ofWord cue.toNat; (cueIssues s 6 bar page cue p line = true) ∧ (canonOk s = true) ∧ (s.path.staging.find? (fun l => decide (l.bar = bar ∧ l.slot = q.slot ∧ l.page = p.start ∧ l.line = line)) = some l) ∧ (l.began = false) ∧ (q.block = 0) ∧ ((s.slot bar q.slot).credit = 0))
    ∧ (∃ s : State, ∃ bar : Nat, ∃ page : Nat, ∃ line : Nat, ∃ cue : Word64, ∃ p : PagePos, let q := Cue.ofWord cue.toNat; let x := s.slot bar q.slot; (cueIssues s 7 bar page cue p line = true) ∧ (canonOk s = true) ∧ (s.fitted bar q.slot = true) ∧ (telemForFrame s x = none))
    ∧ (∃ s : State, ∃ bar : Nat, ∃ page : Nat, ∃ line : Nat, ∃ cue : Word64, ∃ p : PagePos, let q := Cue.ofWord cue.toNat; let x := s.slot bar q.slot; let num := (s.table 7 bar).num 7 ((s.table 7 bar).bankFor p.start); ∃ y, (cueIssues s 7 bar page cue p line = true) ∧ (canonOk s = true) ∧ (s.fitted bar q.slot = true) ∧ (telemForFrame s x = some y) ∧ (s.web.webPos ≤ y.tick + 256) ∧ (supplyBad (energyVnom num q.slot) y.vsup = false)) :=
  ⟨⟨onPath (fun x => { x with staging := [tLine] }) (issuedTo 5 (latched)), 0, 100, 0, cueWord 6 0, tPage, tLine, by decide +kernel⟩,
   ⟨onLink (fun x => { x with slots := [(0, { Slot.reset with head := some tHead, credit := 0, loaded := true })] }) (onPath (fun x => { x with staging := [tLine] }) (issuedTo 5 (latched))), 0, 100, 0, cueWord 6 0, tPage, tLine, by decide +kernel⟩,
   ⟨issuedTo 6 (latched), 0, 100, 0, cueWord 7 0, tPage, by decide +kernel⟩,
   ⟨onLink (fun x => { x with slots := [(0, { Slot.reset with head := some tHead, credit := 1, telem := some tTelem })] }) (issuedTo 6 (energised)), 0, 100, 0, cueWord 7 0, tPage, tTelem, by decide +kernel⟩⟩

/-- Every hypothesis of TelemetryAndSummariesComplete can be met, clause by clause. -/
theorem test_witness_telemetry_and_summaries_complete :
    (∃ s : State, ∃ u : Up, ∃ temp : Int, ∃ vsup : Nat, ∃ flags : Nat, ∃ seq : Nat, (s.fitted u.group u.slot = true) ∧ (s.host.waits = []) ∧ (s.link.survey = none) ∧ (vsup < 65536) ∧ (flags < 256) ∧ (seq < 256))
    ∧ (∃ s : State, (s.web.running = true) ∧ (s.host.plume.enabled = true) ∧ (s.web.webPos % max 1 s.host.plume.interval = 0) ∧ (s.host.plume.summed ≠ some s.web.webPos) ∧ (s.host.plume.lostPending = 0) ∧ (s.host.plume.tail < 2 ^ s.host.plume.log2) ∧ (s.host.plume.head < 2 ^ s.host.plume.log2) ∧ (s.scheduledBars.length + 1 ≤ s.host.plume.free))
    ∧ (∃ s : State, ∃ u : Nat, (s.web.running = false) ∧ (s.host.plume.enabled = true) ∧ (s.host.plume.summaryAt + 100 * msT ≤ max s.clk.elapsed u) ∧ (s.host.plume.lostPending = 0) ∧ (0 < s.host.plume.free) ∧ (s.host.linkUp = true)) :=
  ⟨⟨fitted .idle, { group := 0, slot := 0, t := 0 }, 0, 65535, 255, 255, by decide +kernel⟩,
   ⟨onHost (fun x => { x with plume := { Plume.reset with enabled := true, log2 := 6, interval := 110 } }) (printing 110), by decide +kernel⟩,
   ⟨onHost (fun x => { x with plume := { Plume.reset with enabled := true, log2 := 6 } }) (up .idle), 100 * msT, by decide +kernel⟩⟩

/-- Every hypothesis of PressConfigCompletes can be met, clause by clause. -/
theorem test_witness_press_config_completes :
    (∃ s : State, ∃ h : Hdr, ∃ source : Nat, ∃ length : Nat, (accepts s h (cmdOf 0x0030 0) = true) ∧ (length ≠ 4928)) :=
  ⟨up .idle, hdr, 0, 4929, by decide +kernel⟩

/-- Every hypothesis of CompositeFollowsCompose can be met, clause by clause. -/
theorem test_witness_composite_follows_compose :
    (∃ s : State, ∃ p : PagePos, ∃ bar : Nat, ∃ unit : Nat, ∃ line : Nat, ∃ x : Nat, (x < 16) ∧ (s.headerNum 3 bar p.start 0 1 ≠ 1)) :=
  ⟨printing 110, tPage, 0, 0, 0, 15, by decide +kernel⟩

/-- Every hypothesis of StepRunsFrontCommand can be met, clause by clause. -/
theorem test_witness_step_runs_front_command :
    (∃ s : State, (s.pending = [])) :=
  ⟨up .idle, by decide +kernel⟩

/-- Every hypothesis of CommandsKeepQueue can be met, clause by clause. -/
theorem test_witness_commands_keep_queue :
    (∃ s : State, ∃ t : State, ∃ c : Instr, (exec c s = .next t))
    ∧ (∃ s : State, ∃ t : State, ∃ c : Instr, ∃ q : List Instr, (s.pending = c :: q) ∧ (step s = .next t)) :=
  ⟨⟨(up .idle).withPending [.nop hdr], nextOf (exec (.identify hdr) ((up .idle).withPending [.nop hdr])), .identify hdr, next_nextOf _ (by decide +kernel)⟩,
   ⟨(up .idle).withPending [.nop hdr], nextOf (step ((up .idle).withPending [.nop hdr])), .nop hdr, [], by decide +kernel, next_nextOf _ (by decide +kernel)⟩⟩

/-- Every hypothesis of PressStaysLegal can be met, clause by clause. -/
theorem test_witness_press_stays_legal :
    (∃ s : State, ∃ t : State, (pressOk s = true) ∧ (step s = .next t)) :=
  ⟨(fitted .idle).withPending [.nop hdr], nextOf (step ((fitted .idle).withPending [.nop hdr])), by decide +kernel, next_nextOf _ (by decide +kernel)⟩

/-- Every hypothesis of CanonicalFormIsKept can be met, clause by clause. -/
theorem test_witness_canonical_form_is_kept :
    (∃ s : State, ∃ t : State, (canonOk s = true) ∧ (step s = .next t)) :=
  ⟨(fitted .idle).withPending [.nop hdr], nextOf (step ((fitted .idle).withPending [.nop hdr])), by decide +kernel, next_nextOf _ (by decide +kernel)⟩

end Sys2Proof.Tests
end

section
/-! The layer that the timing contract's proofs share: reads of sparse tables after writes, folds that change one entry of a family at each
element, and what the canonical form of the machine gives of the print path and the DRAM controller. -/

namespace Sys2Proof.Machine

open Sys2Proof

/-! ## Sparse tables and folds -/

theorem nget_nput (t : Tab Nat) (k v j : Nat) (h : twf (fun _ => 0) t = true) :
    nget (nput t k v) j = if j = k then v else nget t j := tget_tput _ t k v j 0 h

/-- A write of something else than the unlisted value leaves every other key, whatever the table. -/
theorem tget_tput_of_ne {α : Type} [DecidableEq α] (d : Nat → α) (t : Tab α) {k : Nat} {v : α} (hv : v ≠ d k) {j : Nat} (hj : j ≠ k) :
    tget d (tput d t k v) j = tget d t j := by
  induction t with
  | nil => simp [tput, tget, hv, hj]
  | cons e t ih =>
    obtain ⟨k', v'⟩ := e
    unfold tput
    split
    · rw [tget, if_neg hj]
    · split
      · simp_all [tget]
      · simp only [tget, ih]

/-- A fold changes exactly the entries that its elements name. Each element `x` turns entry `key x` of the family `view` into one that `R x`
relates to it and leaves every other entry; then so does the whole fold, when no two elements name the same entry. `ok` is what the
steps need and keep. -/
theorem foldl_pointwise {σ β ι α : Type} (view : σ → ι → α) (ok : σ → Prop) (R : β → α → α → Prop) (key : β → ι) (f : σ → β → σ)
    (l : List β) (hstep : ∀ s, ∀ x ∈ l, ok s →
      ok (f s x) ∧ R x (view s (key x)) (view (f s x) (key x)) ∧ ∀ d, d ≠ key x → view (f s x) d = view s d)
    (hnodup : (l.map key).Nodup) (s : σ) (hs : ok s) :
    ok (l.foldl f s) ∧ (∀ x ∈ l, R x (view s (key x)) (view (l.foldl f s) (key x)))
      ∧ ∀ d, (∀ x ∈ l, key x ≠ d) → view (l.foldl f s) d = view s d := by
  induction l generalizing s with
  | nil => exact ⟨hs, by simp, fun _ _ => rfl⟩
  | cons y l ih =>
    obtain ⟨hy, hl⟩ := List.nodup_cons.mp hnodup
    obtain ⟨hok, hR, hother⟩ := hstep s y List.mem_cons_self hs
    obtain ⟨hend, hmem, hrest⟩ := ih (fun s x hx => hstep s x (List.mem_cons_of_mem _ hx)) hl (f s y) hok
    have hfresh : ∀ x ∈ l, key x ≠ key y := fun x hx e => hy (e ▸ List.mem_map_of_mem hx)
    refine ⟨hend, ?_, fun d hd => ?_⟩
    · intro x hx
      rcases List.mem_cons.mp hx with rfl | hx
      · rw [List.foldl_cons, hrest _ hfresh]
        exact hR
      · have := hmem x hx
        rwa [hother _ (hfresh x hx)] at this
    · rw [List.foldl_cons, hrest d (fun x hx => hd x (List.mem_cons_of_mem _ hx)), hother d (fun e => hd y List.mem_cons_self e.symm)]

/-- A list stays free of repetition under a map that tells its elements apart. -/
theorem nodup_map_of_injOn {α β : Type} {f : α → β} {l : List α} (h : l.Nodup) (hf : ∀ x ∈ l, ∀ y ∈ l, f x = f y → x = y) :
    (l.map f).Nodup :=
  List.pairwise_map.mpr (h.imp_of_mem (fun {a b} ha hb hab e => hab (hf a ha b hb e)))

theorem nodup_range_add (n k : Nat) : ((List.range n).map (k + ·)).Nodup :=
  nodup_map_of_injOn List.nodup_range (fun _ _ _ _ => Nat.add_left_cancel)

/-- A relation that is reflexive and transitive and that every element keeps holds over a fold. -/
theorem foldl_keeps {σ β : Type} (R : σ → σ → Prop) (hrefl : ∀ s, R s s) (htrans : ∀ {s t u}, R s t → R t u → R s u) (f : σ → β → σ)
    (hstep : ∀ s x, R s (f s x)) (l : List β) (s : σ) : R s (l.foldl f s) := by
  induction l generalizing s with
  | nil => exact hrefl s
  | cons x l ih => exact htrans (hstep s x) (ih (f s x))

/-- Recording a traced activity changes the trace alone. -/
theorem traceRec_withTrace (s : State) (source unit : Nat) (data : List Byte) :
    s.traceRec source unit data = s.withTrace (s.traceRec source unit data).trace := by
  unfold State.traceRec
  simp only []
  split <;> rfl

theorem maskList_nodup (mask n : Nat) : (maskList mask n).Nodup := List.nodup_range.filter _

theorem mem_maskList {mask n i : Nat} : i ∈ maskList mask n ↔ i < n ∧ bit mask i = true := by simp [maskList]

end Sys2Proof.Machine
end

section
/-! The DRAM controller's housekeeping: refresh and retraining windows, idle refresh and retraining, and self-refresh (R35 to R38, R292 to
R297; windows cut short by the end of a run, log 59). -/

namespace Sys2Proof.Machine

open Sys2Proof

/-! ## The controller's tables -/

/-- The tables that refresh, retraining and self-refresh write by key are in canonical form. -/
structure DramCanon (d : Dram) : Prop where
  debt : twf (fun _ => 0) d.debt = true
  debtAt : twf (fun _ => 0) d.debtAt = true
  windowAt : twf (fun _ => 0) d.windowAt = true
  taps : twf (fun _ => 0) d.taps = true
  channels : twf (fun _ => Channel.reset) d.channels = true

theorem dramCanon_of_canonOk {s : State} (h : canonOk s = true) : DramCanon s.dram := by
  simp only [canonOk, Bool.and_eq_true] at h
  constructor <;> simp only [h]

theorem channel_withChannel {s : State} (hs : DramCanon s.dram) (c : Nat) (x : Channel) (d : Nat) :
    (s.withChannel c x).channel d = if d = c then x else s.channel d := tget_tput _ _ c x d 0 hs.channels

theorem DramCanon.withChannel {s : State} (hs : DramCanon s.dram) (c : Nat) (x : Channel) : DramCanon (s.withChannel c x).dram :=
  { hs with channels := twf_tput _ _ c x hs.channels }

theorem ranks_lt_two {s : State} {r : Nat} (h : r ∈ s.ranks) : r < 2 := by
  simp only [State.ranks, rankCount, List.mem_range] at h
  split at h <;> omega

theorem rankIx_inj {x y : Nat × Nat} (hx : x.2 < 2) (hy : y.2 < 2) (h : rankIx x.1 x.2 = rankIx y.1 y.2) : x = y := by
  simp only [rankIx] at h
  exact Prod.ext (by omega) (by omega)

/-- Distinct ranks have distinct places in the controller's tables. -/
theorem rankIx_nodup {l : List (Nat × Nat)} (h : l.Nodup) (hr : ∀ x ∈ l, x.2 < 2) : (l.map (fun x => rankIx x.1 x.2)).Nodup :=
  nodup_map_of_injOn h (fun x hx y hy => rankIx_inj (hr x hx) (hr y hy))

/-! ## Paying refreshes (R293, R294) -/

/-- From `s` to `t` only debts have changed. -/
def OnlyDebts (s t : State) : Prop := t = { s with dram := { s.dram with debt := t.dram.debt, debtAt := t.dram.debtAt } }

theorem OnlyDebts.refl (s : State) : OnlyDebts s s := rfl

theorem OnlyDebts.trans {s t u : State} (h1 : OnlyDebts s t) (h2 : OnlyDebts t u) : OnlyDebts s u := by
  unfold OnlyDebts at *
  rw [h2, h1]

theorem payDebt_onlyDebts (h r n : Nat) (s : State) : OnlyDebts s (payDebt h r n s) := rfl

theorem DramCanon.payDebt {s : State} (hs : DramCanon s.dram) (h r n : Nat) : DramCanon (payDebt h r n s).dram :=
  { hs with debt := twf_tput _ _ _ _ hs.debt, debtAt := twf_tput _ _ _ _ hs.debtAt }

theorem nget_debt_payDebt {s : State} (hs : DramCanon s.dram) (h r n j : Nat) :
    nget (payDebt h r n s).dram.debt j
      = if j = rankIx h r then debtNow s h r - n * refreshUnit s.dram.cfg else nget s.dram.debt j := nget_nput _ _ _ _ hs.debt

/-- What a rank owes depends, beside what debts never touch, on its own entries alone. -/
theorem debtNow_congr {s t : State} (hst : OnlyDebts s t) (h r : Nat) (hd : nget t.dram.debt (rankIx h r) = nget s.dram.debt (rankIx h r))
    (ha : nget t.dram.debtAt (rankIx h r) = nget s.dram.debtAt (rankIx h r)) : debtNow t h r = debtNow s h r := by
  simp only [debtNow]
  rw [hd, ha, hst]
  rfl

theorem refreshesOwed_congr {s t : State} (hst : OnlyDebts s t) (h r : Nat) (hd : debtNow t h r = debtNow s h r) :
    refreshesOwed t h r = refreshesOwed s h r := by
  unfold refreshesOwed
  rw [hd, hst]

/-- The debt and its instant of a place of the controller's tables. -/
def debtEntry (s : State) (j : Nat) : Nat × Nat := (nget s.dram.debt j, nget s.dram.debtAt j)

/-- Ranks refreshed one after the other: each pays out of what it owed before the first. -/
theorem foldl_payDebt (n : State → Nat × Nat → Nat) (s : State) (hs : DramCanon s.dram)
    (hn : ∀ t x, OnlyDebts s t → debtNow t x.1 x.2 = debtNow s x.1 x.2 → n t x = n s x)
    (l : List (Nat × Nat)) (hl : (l.map (fun x => rankIx x.1 x.2)).Nodup) :
    let t := l.foldl (fun s x => payDebt x.1 x.2 (n s x) s) s
    OnlyDebts s t ∧ DramCanon t.dram
      ∧ (∀ x ∈ l, nget t.dram.debt (rankIx x.1 x.2) = debtNow s x.1 x.2 - n s x * refreshUnit s.dram.cfg)
      ∧ ∀ j, (∀ x ∈ l, rankIx x.1 x.2 ≠ j) → nget t.dram.debt j = nget s.dram.debt j := by
  have hstep : ∀ (t : State), ∀ x ∈ l, OnlyDebts s t ∧ DramCanon t.dram →
      (OnlyDebts s (payDebt x.1 x.2 (n t x) t) ∧ DramCanon (payDebt x.1 x.2 (n t x) t).dram)
      ∧ (debtEntry t (rankIx x.1 x.2) = debtEntry s (rankIx x.1 x.2) →
          (debtEntry (payDebt x.1 x.2 (n t x) t) (rankIx x.1 x.2)).1 = debtNow s x.1 x.2 - n s x * refreshUnit s.dram.cfg)
      ∧ ∀ j, j ≠ rankIx x.1 x.2 → debtEntry (payDebt x.1 x.2 (n t x) t) j = debtEntry t j := by
    intro t x _ ⟨hst, ht⟩
    refine ⟨⟨hst.trans (payDebt_onlyDebts _ _ _ _), ht.payDebt _ _ _⟩, fun heq => ?_, fun j hj => ?_⟩
    · obtain ⟨hd, ha⟩ := Prod.mk.inj heq
      have hnow := debtNow_congr hst x.1 x.2 hd ha
      have hcfg : t.dram.cfg = s.dram.cfg := by rw [hst]
      simp only [debtEntry, nget_debt_payDebt ht, if_true, hnow, hn t x hst hnow, hcfg]
    · exact Prod.ext ((nget_debt_payDebt ht _ _ _ _).trans (if_neg hj)) ((nget_nput _ _ _ _ ht.debtAt).trans (if_neg hj))
  obtain ⟨⟨hst, ht⟩, hpaid, hrest⟩ := foldl_pointwise debtEntry _ (fun x a b => a = debtEntry s (rankIx x.1 x.2) →
    b.1 = debtNow s x.1 x.2 - n s x * refreshUnit s.dram.cfg) (fun x => rankIx x.1 x.2) _ l hstep hl s ⟨OnlyDebts.refl s, hs⟩
  exact ⟨hst, ht, fun x hx => hpaid x hx rfl, fun j hj => congrArg Prod.fst (hrest j hj)⟩

/-! ## Refresh windows -/

theorem windowRanks_nodup (s : State) (w : Window) : ((windowRanks s w).map (fun x => rankIx x.1 x.2)).Nodup := by
  refine rankIx_nodup (List.pairwise_flatMap.mpr ⟨fun h _ => ?_, ?_⟩) (fun x hx => ?_)
  · split
    · exact nodup_map_of_injOn ((maskList_nodup _ _).filter _) (fun _ _ _ _ e => (Prod.mk.inj e).2)
    · exact List.nodup_nil
  · refine (maskList_nodup _ _).imp (fun {a b} hab x ha y hb hxy => hab ?_)
    have hfst : ∀ (c : Nat) (z : Nat × Nat), z ∈ (if (s.channel (c / 2)).sr = .awake then
        ((maskList w.rankMask 2).filter (fun r => decide (r ∈ s.ranks))).map (fun r => (c, r)) else []) → z.1 = c := by
      intro c z hc
      split at hc
      · obtain ⟨_, _, rfl⟩ := List.mem_map.mp hc
        rfl
      · cases hc
    rw [← hfst a x ha, ← hfst b y hb, hxy]
  · simp only [windowRanks, List.mem_flatMap] at hx
    obtain ⟨h, -, hx⟩ := hx
    split at hx
    · obtain ⟨r, hr, rfl⟩ := List.mem_map.mp hx
      exact (mem_maskList.mp (List.mem_filter.mp hr).1).1
    · cases hx

/-- Serving a device window leaves its mark and a trace record. -/
theorem serveWindow_frame (k : Nat) (s : State) : serveWindow k s = { s with
    trace := (serveWindow k s).trace, dram := { s.dram with windowAt := nput s.dram.windowAt k (s.web.webPos + 1) } } :=
  traceRec_withTrace _ _ _ _

theorem serveWindow_dram (k : Nat) (s : State) :
    (serveWindow k s).dram = { s.dram with windowAt := nput s.dram.windowAt k (s.web.webPos + 1) } := by rw [serveWindow_frame]

theorem DramCanon.serveWindow {s : State} (hs : DramCanon s.dram) (k : Nat) : DramCanon (serveWindow k s).dram := by
  rw [serveWindow_dram]
  exact { hs with windowAt := twf_tput _ _ _ _ hs.windowAt }

/-- The ranks that a refresh window names pay out of what they owe. -/
theorem refreshWindow_pays (w : Window) (s : State) (hs : DramCanon s.dram) :
    OnlyDebts s (refreshWindow w s)
      ∧ (∀ x ∈ windowRanks s w, nget (refreshWindow w s).dram.debt (rankIx x.1 x.2)
          = debtNow s x.1 x.2 - min (refreshesOwed s x.1 x.2) w.refreshes * refreshUnit s.dram.cfg)
      ∧ ∀ j, (∀ x ∈ windowRanks s w, rankIx x.1 x.2 ≠ j) → nget (refreshWindow w s).dram.debt j = nget s.dram.debt j := by
  obtain ⟨honly, -, hpaid, hrest⟩ := foldl_payDebt (fun t x => min (refreshesOwed t x.1 x.2) w.refreshes) s hs
    (fun t x hst hx => by rw [refreshesOwed_congr hst x.1 x.2 hx]) (windowRanks s w) (windowRanks_nodup s w)
  exact ⟨honly, hpaid, hrest⟩

/-- R35, R293: GEYSER_WINDOW of a window that applies, with no rank beyond 8 refreshes owed. -/
theorem geyserWindow_refreshes (s : State) (k : Nat) (w : Window) (hs : DramCanon s.dram) (hw : openWindow s k 1 = some w)
    (hover : anyOverrun s = false) :
    ∃ t, exec (.geyserWindow k) s = .next t ∧ nget t.dram.windowAt k = s.web.webPos + 1
      ∧ (∀ x ∈ windowRanks s w, nget t.dram.debt (rankIx x.1 x.2)
          = debtNow s x.1 x.2 - min (refreshesOwed s x.1 x.2) w.refreshes * refreshUnit s.dram.cfg)
      ∧ (∀ j, (∀ x ∈ windowRanks s w, rankIx x.1 x.2 ≠ j) → nget t.dram.debt j = nget s.dram.debt j)
      ∧ t = { s with trace := t.trace, dram := { s.dram with
          debt := t.dram.debt, debtAt := t.dram.debtAt, windowAt := t.dram.windowAt } } := by
  obtain ⟨honly, hpaid, hrest⟩ := refreshWindow_pays w (serveWindow k s) (hs.serveWindow k)
  have hrun : exec (.geyserWindow k) s = .next (refreshWindow w (serveWindow k s)) := by
    simp only [exec, execGeyserWindow, hw, hover, Bool.false_eq_true, if_false]
  refine ⟨_, hrun, ?_, ?_, ?_, ?_⟩
  · rw [honly, serveWindow_dram]
    exact (nget_nput _ _ _ _ hs.windowAt).trans (if_pos rfl)
  · rw [serveWindow_frame] at hpaid ⊢
    exact hpaid
  · rw [serveWindow_frame] at hrest ⊢
    exact hrest
  · rw [honly, serveWindow_frame]

/-! ## Retraining (R292, R293) -/

/-- The read delay of a place of the controller's tables. -/
def tapOf (s : State) (j : Nat) : Int := tget (fun _ => 0) s.dram.taps j

/-- From `s` to `t` the DRAM controller has worked on its channels: no stored byte, no setting and no other unit's state has changed. -/
structure ControllerWork (s t : State) : Prop where
  store : t.store = s.store
  press : t.press = s.press
  dev : t.dev = s.dev
  clk : t.clk = s.clk
  cfg : t.dram.cfg = s.dram.cfg

theorem ControllerWork.refl (s : State) : ControllerWork s s := ⟨rfl, rfl, rfl, rfl, rfl⟩

theorem ControllerWork.trans {s t u : State} (h1 : ControllerWork s t) (h2 : ControllerWork t u) : ControllerWork s u :=
  ⟨h2.store.trans h1.store, h2.press.trans h1.press, h2.dev.trans h1.dev, h2.clk.trans h1.clk, h2.cfg.trans h1.cfg⟩

/-- Controller work that moves no tap and touches no channel record. -/
structure DelaysStand (s t : State) : Prop where
  work : ControllerWork s t
  taps : t.dram.taps = s.dram.taps
  channels : t.dram.channels = s.dram.channels
  canon : DramCanon s.dram → DramCanon t.dram

theorem DelaysStand.trans {s t u : State} (h1 : DelaysStand s t) (h2 : DelaysStand t u) : DelaysStand s u :=
  ⟨h1.work.trans h2.work, h2.taps.trans h1.taps, h2.channels.trans h1.channels, fun hs => h2.canon (h1.canon hs)⟩

theorem readMr4_dram (mr4 : Nat) (s : State) (x : Nat × Nat) : (readMr4 mr4 s x).dram = { (payDebt x.1 x.2 0 s).dram with
    hot := tput (fun _ => false) s.dram.hot (rankIx x.1 x.2) (bit mr4 (rankIx x.1 x.2)) } := by
  unfold readMr4
  simp only []
  split
  · rw [raise_dram, report_dram]
    rfl
  · rfl

theorem readMr4_work (mr4 : Nat) (s : State) (x : Nat × Nat) : ControllerWork s (readMr4 mr4 s x) := by
  have hcfg : (readMr4 mr4 s x).dram.cfg = s.dram.cfg := by rw [readMr4_dram]; rfl
  refine ⟨?_, ?_, ?_, ?_, hcfg⟩ <;> unfold readMr4 <;> simp only [] <;> split <;> simp [payDebt]

theorem readMr4_delaysStand (mr4 : Nat) (s : State) (x : Nat × Nat) : DelaysStand s (readMr4 mr4 s x) := by
  refine ⟨readMr4_work mr4 s x, ?_, ?_, fun hs => ?_⟩ <;> rw [readMr4_dram]
  · rfl
  · rfl
  · exact { hs.payDebt x.1 x.2 0 with }

theorem moveTap_channels (s : State) (x : Nat × Nat) : (moveTap s x).dram.channels = s.dram.channels := rfl

theorem DramCanon.moveTap {s : State} (hs : DramCanon s.dram) (x : Nat × Nat) : DramCanon (moveTap s x).dram :=
  { hs with taps := twf_tput _ _ _ _ hs.taps }

theorem moveTap_work (s : State) (x : Nat × Nat) : ControllerWork s (moveTap s x) := ⟨rfl, rfl, rfl, rfl, rfl⟩

theorem tapOf_moveTap {s : State} (hs : DramCanon s.dram) (x : Nat × Nat) (j : Nat) : tapOf (moveTap s x) j =
    if j = rankIx x.1 x.2 then tapOf s j + clampInt (-1) 1 (Config.dqsStep (rankIx x.1 x.2) s.draws) else tapOf s j := by
  have h := tget_tput (fun _ => (0 : Int)) s.dram.taps (rankIx x.1 x.2)
    (tapOf s (rankIx x.1 x.2) + clampInt (-1) 1 (Config.dqsStep (rankIx x.1 x.2) s.draws)) j 0 hs.taps
  by_cases hj : j = rankIx x.1 x.2
  · subst hj
    rw [if_pos rfl] at h ⊢
    exact h
  · rw [if_neg hj] at h ⊢
    exact h

theorem clampInt_unit (v : Int) : (clampInt (-1) 1 v).natAbs ≤ 1 := by
  unfold clampInt
  split
  · omega
  · split <;> omega

/-- A rank's own tap moves by one at most. -/
theorem tapOf_moveTap_step {s : State} (hs : DramCanon s.dram) (x : Nat × Nat) :
    (tapOf (moveTap s x) (rankIx x.1 x.2) - tapOf s (rankIx x.1 x.2)).natAbs ≤ 1 := by
  have hunit := clampInt_unit (Config.dqsStep (rankIx x.1 x.2) s.draws)
  rw [tapOf_moveTap hs, if_pos rfl]
  omega

theorem channelRanks_nodup (s : State) (c : Nat) : ((channelRanks s c).map (fun x => rankIx x.1 x.2)).Nodup := by
  have hnodup : (channelRanks s c).Nodup := by
    refine List.pairwise_flatMap.mpr ⟨fun h _ => nodup_map_of_injOn List.nodup_range (fun _ _ _ _ e => (Prod.mk.inj e).2), ?_⟩
    simp
  refine rankIx_nodup hnodup (fun x hx => ?_)
  obtain ⟨h, -, hx⟩ := List.mem_flatMap.mp hx
  obtain ⟨r, hr, rfl⟩ := List.mem_map.mp hx
  exact ranks_lt_two hr

/-- The ranks of channel c stand at places 4 c to 4 c + 3 of the controller's tables. -/
theorem rankIx_channel {s : State} {c : Nat} {x : Nat × Nat} (hx : x ∈ channelRanks s c) : rankIx x.1 x.2 / 4 = c := by
  obtain ⟨h, hh, hx⟩ := List.mem_flatMap.mp hx
  obtain ⟨r, hr, rfl⟩ := List.mem_map.mp hx
  have := ranks_lt_two hr
  simp only [List.mem_cons, List.not_mem_nil, or_false] at hh
  simp only [rankIx]
  omega

/-- Taps moved one after the other: each by at most one, and no other. -/
theorem foldl_moveTap (l : List (Nat × Nat)) (hl : (l.map (fun x => rankIx x.1 x.2)).Nodup) (s : State) (hs : DramCanon s.dram) :
    let t := l.foldl moveTap s
    ControllerWork s t ∧ DramCanon t.dram ∧ t.dram.channels = s.dram.channels
      ∧ ∀ j, (tapOf t j - tapOf s j).natAbs ≤ 1 ∧ ((∀ x ∈ l, rankIx x.1 x.2 ≠ j) → tapOf t j = tapOf s j) := by
  obtain ⟨⟨hwork, hcanon, hchan⟩, hmoved, hrest⟩ := foldl_pointwise tapOf
    (fun t => ControllerWork s t ∧ DramCanon t.dram ∧ t.dram.channels = s.dram.channels) (fun _ a b => (b - a).natAbs ≤ 1)
    (fun x => rankIx x.1 x.2) moveTap l (fun t x _ ⟨hwork, hcanon, hchan⟩ =>
      ⟨⟨hwork.trans (moveTap_work t x), hcanon.moveTap x, (moveTap_channels t x).trans hchan⟩,
        tapOf_moveTap_step hcanon x,
        fun j hj => by rw [tapOf_moveTap hcanon, if_neg hj]⟩) hl s ⟨ControllerWork.refl s, hs, rfl⟩
  refine ⟨hwork, hcanon, hchan, fun j => ⟨?_, hrest j⟩⟩
  by_cases hj : ∃ x ∈ l, rankIx x.1 x.2 = j
  · obtain ⟨x, hx, rfl⟩ := hj
    exact hmoved x hx
  · simp [hrest j (fun x hx hxj => hj ⟨x, hx, hxj⟩)]

/-- The record of a channel that has just been retrained. -/
def Channel.retrained (x : Channel) (now : Time) : Channel := { x with lastRetrain := now, oscSince := now, zq := true }

/-- Retraining before it is noted in the channel's record: MR4 is read of every rank, then every read delay moves. -/
def trainDelays (mr4 c : Nat) (s : State) : State := (channelRanks s c).foldl moveTap ((channelRanks s c).foldl (readMr4 mr4) s)

theorem retrain_eq (mr4 c : Nat) (s : State) : retrain mr4 c s = (trainDelays mr4 c s).withChannel c
    (((trainDelays mr4 c s).channel c).retrained (trainDelays mr4 c s).clk.elapsed) := rfl

theorem trainDelays_spec (mr4 c : Nat) (s : State) (hs : DramCanon s.dram) :
    ControllerWork s (trainDelays mr4 c s) ∧ DramCanon (trainDelays mr4 c s).dram
      ∧ (∀ d, (trainDelays mr4 c s).channel d = s.channel d)
      ∧ ∀ j, (tapOf (trainDelays mr4 c s) j - tapOf s j).natAbs ≤ 1 ∧ (j / 4 ≠ c → tapOf (trainDelays mr4 c s) j = tapOf s j) := by
  have hread : DelaysStand s ((channelRanks s c).foldl (readMr4 mr4) s) :=
    foldl_keeps DelaysStand (fun s => ⟨ControllerWork.refl s, rfl, rfl, id⟩) DelaysStand.trans _ (readMr4_delaysStand mr4) _ s
  obtain ⟨hwork, hcanon, hchan, htaps⟩ := foldl_moveTap (channelRanks s c) (channelRanks_nodup s c) _ (hread.canon hs)
  have hread_taps : ∀ j, tapOf ((channelRanks s c).foldl (readMr4 mr4) s) j = tapOf s j := fun j => by unfold tapOf; rw [hread.taps]
  refine ⟨hread.work.trans hwork, hcanon, fun d => ?_, fun j => ?_⟩
  · unfold State.channel trainDelays
    rw [hchan, hread.channels]
  · obtain ⟨hone, hother⟩ := htaps j
    rw [hread_taps] at hone hother
    exact ⟨hone, fun hj => hother (fun x hx e => hj (e ▸ rankIx_channel hx))⟩

/-- One channel retrained (R292): its 50 ms start anew, its taps move by one at most, and the other channels stand as they were. -/
theorem retrain_spec (mr4 c : Nat) (s : State) (hs : DramCanon s.dram) :
    ControllerWork s (retrain mr4 c s) ∧ DramCanon (retrain mr4 c s).dram
      ∧ (∀ d, (retrain mr4 c s).channel d = if d = c then (s.channel c).retrained s.clk.elapsed else s.channel d)
      ∧ ∀ j, (tapOf (retrain mr4 c s) j - tapOf s j).natAbs ≤ 1 ∧ (j / 4 ≠ c → tapOf (retrain mr4 c s) j = tapOf s j) := by
  obtain ⟨hwork, hcanon, hchan, htaps⟩ := trainDelays_spec mr4 c s hs
  refine ⟨hwork.trans ⟨rfl, rfl, rfl, rfl, rfl⟩, hcanon.withChannel _ _, fun d => ?_, htaps⟩
  rw [retrain_eq, channel_withChannel hcanon, hchan, hchan, hwork.clk]

/-- What retraining may change of a channel: its record and the taps of its four places. -/
def channelDelays (s : State) (c : Nat) : Channel × (Nat → Int) := (s.channel c, fun i => tapOf s (4 * c + i % 4))

/-- Channels retrained one after the other. -/
theorem foldl_retrain (mr4 : Nat) (cs : List Nat) (hcs : cs.Nodup) (s : State) (hs : DramCanon s.dram) :
    let t := cs.foldl (fun s c => retrain mr4 c s) s
    ControllerWork s t ∧ (∀ c ∈ cs, t.channel c = (s.channel c).retrained s.clk.elapsed) ∧ ∀ j, (tapOf t j - tapOf s j).natAbs ≤ 1 := by
  have hstep : ∀ (t : State), ∀ c ∈ cs, ControllerWork s t ∧ DramCanon t.dram →
      (ControllerWork s (retrain mr4 c t) ∧ DramCanon (retrain mr4 c t).dram)
      ∧ ((channelDelays (retrain mr4 c t) c).1 = (channelDelays t c).1.retrained s.clk.elapsed
        ∧ ∀ i, ((channelDelays (retrain mr4 c t) c).2 i - (channelDelays t c).2 i).natAbs ≤ 1)
      ∧ ∀ d, d ≠ c → channelDelays (retrain mr4 c t) d = channelDelays t d := by
    intro t c _ ⟨hwork, hcanon⟩
    obtain ⟨hwork', hcanon', hchan, htaps⟩ := retrain_spec mr4 c t hcanon
    refine ⟨⟨hwork.trans hwork', hcanon'⟩, ⟨?_, fun i => (htaps _).1⟩, fun d hd => Prod.ext ?_ (funext fun i => (htaps _).2 (by omega))⟩
    · exact (hchan c).trans ((if_pos rfl).trans (by rw [hwork.clk]; rfl))
    · exact (hchan d).trans (if_neg hd)
  obtain ⟨⟨hwork, -⟩, hdone, hrest⟩ := foldl_pointwise channelDelays _ (fun _ a b => b.1 = a.1.retrained s.clk.elapsed
    ∧ ∀ i, (b.2 i - a.2 i).natAbs ≤ 1) id _ cs hstep (by simpa using hcs) s ⟨ControllerWork.refl s, hs⟩
  refine ⟨hwork, fun c hc => (hdone c hc).1, fun j => ?_⟩
  have hj : 4 * (j / 4) + j % 4 % 4 = j := by omega
  by_cases hc : j / 4 ∈ cs
  · simpa only [channelDelays, id, hj] using (hdone _ hc).2 (j % 4)
  · have := congrFun (congrArg Prod.snd (hrest (j / 4) (fun x hx e => hc (e ▸ hx)))) (j % 4)
    simp only [channelDelays, hj] at this
    simp [this]

/-- R36, R292: RETRAIN_WINDOW of a window that applies, for each awake channel whose two sub-channels it names. -/
theorem retrainWindow_retrains (s : State) (k mr4 c : Nat) (w : Window) (hs : DramCanon s.dram) (hw : openWindow s k 2 = some w)
    (hc : c < 4) (h0 : bit w.subchMask (2 * c) = true) (h1 : bit w.subchMask (2 * c + 1) = true) (hsr : (s.channel c).sr = .awake) :
    ∃ t, exec (.retrainWindow k mr4) s = .next t ∧ (t.channel c).lastRetrain = s.clk.elapsed ∧ (t.channel c).zq = true
      ∧ (∀ j, (tget (fun _ => 0) t.dram.taps j - tget (fun _ => 0) s.dram.taps j).natAbs ≤ 1)
      ∧ t.store = s.store ∧ t.press = s.press ∧ t.dev = s.dev := by
  let cs := (List.range 4).filter (fun c => bit w.subchMask (2 * c) && bit w.subchMask (2 * c + 1) && decide ((s.channel c).sr = .awake))
  have hrun : exec (.retrainWindow k mr4) s = .next (cs.foldl (fun s c => retrain mr4 c s) (serveWindow k s)) := by
    simp only [exec, execRetrainWindow, hw, cs]
  have hmem : c ∈ cs := by simp [cs, hc, h0, h1, hsr]
  obtain ⟨hwork, hdone, htaps⟩ := foldl_retrain mr4 cs (List.nodup_range.filter _) (serveWindow k s) (hs.serveWindow k)
  have hserved : ControllerWork s (serveWindow k s) := by constructor <;> rw [serveWindow_frame]
  have hall := hserved.trans hwork
  refine ⟨_, hrun, ?_, ?_, ?_, hall.store, hall.press, hall.dev⟩
  · rw [hdone c hmem, hserved.clk]
    rfl
  · rw [hdone c hmem]
    rfl
  · intro j
    have := htaps j
    simpa only [tapOf, serveWindow_dram] using this

/-- R293: IDLE_RETRAIN of a channel whose latest retraining is 50 ms old. -/
theorem idleRetrain_retrains (s : State) (c mr4 u : Nat) (hs : DramCanon s.dram) (hlive : dramLive s = true)
    (hrun : s.web.running = false) (hc : c < 4) (hsr : (s.channel c).sr = .awake)
    (hdue : (s.channel c).lastRetrain + 50 * msT ≤ max s.clk.elapsed u) :
    ∃ t, exec (.idleRetrain c mr4 u) s = .next t ∧ (t.channel c).lastRetrain = max s.clk.elapsed u
      ∧ (∀ j, (tget (fun _ => 0) t.dram.taps j - tget (fun _ => 0) s.dram.taps j).natAbs ≤ 1)
      ∧ t.store = s.store ∧ t.press = s.press ∧ t.dev = s.dev := by
  obtain ⟨hwork, -, hchan, htaps⟩ := retrain_spec mr4 c (s.at u) hs
  have hexec : exec (.idleRetrain c mr4 u) s = .next (retrain mr4 c (s.at u)) := by
    simp only [exec, execIdleRetrain]
    rw [if_pos]
    exact ⟨hlive, by simp [hrun], hc, hsr, hdue⟩
  refine ⟨_, hexec, ?_, fun j => (htaps j).1, hwork.store, hwork.press, hwork.dev⟩
  rw [hchan, if_pos rfl]
  rfl

/-- R293: IDLE_REFRESH of a rank that owes one. -/
theorem idleRefresh_refreshes (s : State) (h r u : Nat) (hs : DramCanon s.dram) (hlive : dramLive s = true)
    (hrun : s.web.running = false) (hh : h < 8) (hr : r ∈ s.ranks) (hsr : (s.channel (h / 2)).sr = .awake)
    (hdue : refreshUnit s.dram.cfg ≤ debtNow (s.at u) h r) :
    ∃ t, exec (.idleRefresh h r u) s = .next t ∧ nget t.dram.debt (rankIx h r) = debtNow (s.at u) h r - refreshUnit s.dram.cfg
      ∧ t = { s with clk := (s.at u).clk, dram := { s.dram with debt := t.dram.debt, debtAt := t.dram.debtAt } } := by
  have hexec : exec (.idleRefresh h r u) s = .next (payDebt h r 1 (s.at u)) := by
    simp only [exec, execIdleRefresh]
    rw [if_pos]
    exact ⟨hlive, by simp [hrun], hh, hr, hsr, hdue⟩
  refine ⟨_, hexec, ?_, rfl⟩
  rw [nget_debt_payDebt (s := s.at u) hs, if_pos rfl, Nat.one_mul]
  rfl

/-! ## Self-refresh (R296, R297) -/

/-- From `s` to `t` channels have gone to sleep or woken: debts, their instants and channel records may have changed. -/
def OnlySleep (s t : State) : Prop := t = { s with dram := { s.dram with
  debt := t.dram.debt, debtAt := t.dram.debtAt, channels := t.dram.channels } }

theorem OnlySleep.refl (s : State) : OnlySleep s s := rfl

theorem OnlySleep.trans {s t u : State} (h1 : OnlySleep s t) (h2 : OnlySleep t u) : OnlySleep s u := by
  unfold OnlySleep at *
  rw [h2, h1]

theorem OnlyDebts.sleep {s t : State} (h : OnlyDebts s t) : OnlySleep s t := by
  unfold OnlyDebts at h
  unfold OnlySleep
  rw [h]

theorem withChannel_onlySleep (s : State) (c : Nat) (x : Channel) : OnlySleep s (s.withChannel c x) := rfl

/-- Debts brought up to now, rank by rank, and paid of nothing. -/
theorem foldl_settleDebt (l : List (Nat × Nat)) (s : State) (hs : DramCanon s.dram) :
    OnlyDebts s (l.foldl (fun s x => payDebt x.1 x.2 0 s) s) ∧ DramCanon (l.foldl (fun s x => payDebt x.1 x.2 0 s) s).dram :=
  List.foldlRecOn (motive := fun t => OnlyDebts s t ∧ DramCanon t.dram) l _ ⟨OnlyDebts.refl s, hs⟩
    (fun _ h x _ => ⟨h.1.trans (payDebt_onlyDebts _ _ _ _), h.2.payDebt x.1 x.2 0⟩)

/-- A channel goes to sleep: only its own record changes, and there only what it says of sleep. -/
theorem sleepChannel_spec (sr : SelfRefresh) (c : Nat) (s : State) (hs : DramCanon s.dram) :
    OnlySleep s (sleepChannel sr c s) ∧ DramCanon (sleepChannel sr c s).dram
      ∧ ∀ d, (sleepChannel sr c s).channel d = if d = c then { s.channel c with sr := sr } else s.channel d := by
  obtain ⟨honly, hcanon⟩ := foldl_settleDebt (channelRanks s c) s hs
  have hchannel : ∀ d, ((channelRanks s c).foldl (fun s x => payDebt x.1 x.2 0 s) s).channel d = s.channel d :=
    fun d => by rw [honly]; rfl
  refine ⟨honly.sleep.trans (withChannel_onlySleep _ _ _), hcanon.withChannel _ _, fun d => ?_⟩
  exact (channel_withChannel hcanon _ _ d).trans (by rw [hchannel, hchannel])

/-- What the entry of an SR window does to one channel that it names (R38): awake and not called, it sleeps. -/
def enterSr (s : State) (c : Nat) : State :=
  if (s.channel c).sr = .awake ∧ !(s.channel c).cancelled then sleepChannel .windowSr c s else s

/-- The channel's record after that. -/
def Channel.enteredSr (x : Channel) : Channel := if x.sr = .awake ∧ !x.cancelled then { x with sr := .windowSr } else x

theorem enterSr_spec (c : Nat) (s : State) (hs : DramCanon s.dram) :
    OnlySleep s (enterSr s c) ∧ DramCanon (enterSr s c).dram
      ∧ ∀ d, (enterSr s c).channel d = if d = c then (s.channel c).enteredSr else s.channel d := by
  unfold enterSr Channel.enteredSr
  split
  · exact sleepChannel_spec .windowSr c s hs
  · exact ⟨OnlySleep.refl s, hs, fun d => by split <;> simp_all⟩

/-- Channels that enter an SR window one after the other. -/
theorem foldl_enterSr (l : List Nat) (hl : l.Nodup) (s : State) (hs : DramCanon s.dram) :
    OnlySleep s (l.foldl enterSr s) ∧ ∀ c ∈ l, (l.foldl enterSr s).channel c = (s.channel c).enteredSr := by
  obtain ⟨⟨honly, -⟩, hdone, -⟩ := foldl_pointwise State.channel (fun t => OnlySleep s t ∧ DramCanon t.dram)
    (fun _ a b => b = a.enteredSr) id enterSr l (fun t c _ ⟨honly, hcanon⟩ => by
      obtain ⟨hstep, hcanon', hchan⟩ := enterSr_spec c t hcanon
      exact ⟨⟨honly.trans hstep, hcanon'⟩, (hchan c).trans (if_pos rfl), fun d hd => (hchan d).trans (if_neg hd)⟩)
    (by simpa using hl) s ⟨OnlySleep.refl s, hs⟩
  exact ⟨honly, hdone⟩

/-- R38, R297: SR_WINDOW_ENTRY in the entry frame of a window. -/
theorem srWindowEntry_sleeps (s : State) (gap i : Nat) (p : PagePos) (hs : DramCanon s.dram)
    (hp : s.run.pages.find? (fun q => q.placed && decide (q.start + q.length = gap)) = some p) (hrun : s.web.running = true)
    (hlive : dramLive s = true) (hi : i < gpSrCount (s.bank p.bank).image p.gapProg)
    (hnow : gap + (gpSr (s.bank p.bank).image p.gapProg i).2.1 = s.web.webPos) :
    ∃ t, exec (.srWindowEntry gap i) s = .next t
      ∧ (∀ c ∈ maskList (gpSr (s.bank p.bank).image p.gapProg i).1 4, (s.channel c).sr = .awake → (s.channel c).cancelled = false →
        t.channel c = { s.channel c with sr := .windowSr })
      ∧ t = { s with trace := t.trace, dram := { s.dram with debt := t.dram.debt, debtAt := t.dram.debtAt, channels := t.dram.channels } } := by
  let mask := (gpSr (s.bank p.bank).image p.gapProg i).1
  let s1 := traceWindow 3 (channelSubs mask) 0 s
  have hs1 : s1 = s.withTrace s1.trace := traceRec_withTrace _ _ _ _
  have hcanon : DramCanon s1.dram := by rw [hs1]; exact hs
  obtain ⟨honly, hdone⟩ := foldl_enterSr (maskList mask 4) (maskList_nodup _ _) s1 hcanon
  have hexec : exec (.srWindowEntry gap i) s = .next ((maskList mask 4).foldl enterSr s1) := by
    simp only [exec, execSrWindowEntry, hp]
    rw [if_neg (by simp [hrun, hlive, hnow]; omega)]
    rfl
  refine ⟨_, hexec, fun c hc hsr hcan => ?_, ?_⟩
  · rw [hdone c hc, show s1.channel c = s.channel c by rw [hs1]; rfl]
    exact if_pos ⟨hsr, by simp [hcan]⟩
  · rw [honly, hs1]
    rfl

/-- R296: SR_IDLE_ENTRY of a channel that SR_IDLE has passed for. -/
theorem srIdleEntry_sleeps (s : State) (c u : Nat) (hs : DramCanon s.dram) (hdev : s.dev = .idle) (hlive : dramLive s = true)
    (hc : c < 4) (hsr : (s.channel c).sr = .awake)
    (hdue : (s.channel c).lastRequest + (if s.dram.cfg.srIdle = 0 then 100 else s.dram.cfg.srIdle) * msT ≤ max s.clk.elapsed u) :
    ∃ t, exec (.srIdleEntry c u) s = .next t ∧ t.channel c = { s.channel c with sr := .idleSr }
      ∧ t = { s with clk := (s.at u).clk, dram := { s.dram with
          debt := t.dram.debt, debtAt := t.dram.debtAt, channels := t.dram.channels } } := by
  obtain ⟨honly, -, hchan⟩ := sleepChannel_spec .idleSr c (s.at u) hs
  have hexec : exec (.srIdleEntry c u) s = .next (sleepChannel .idleSr c (s.at u)) := by
    simp only [exec, execSrIdleEntry]
    rw [if_pos]
    exact ⟨hdev, hlive, hc, hsr, hdue⟩
  refine ⟨_, hexec, (hchan c).trans (if_pos rfl), ?_⟩
  rw [honly]
  rfl

/-- From `s` to `t` channels have woken: instants of debts and channel records may have changed. -/
def OnlyWake (s t : State) : Prop := t = { s with dram := { s.dram with debtAt := t.dram.debtAt, channels := t.dram.channels } }

theorem OnlyWake.refl (s : State) : OnlyWake s s := rfl

theorem OnlyWake.trans {s t u : State} (h1 : OnlyWake s t) (h2 : OnlyWake t u) : OnlyWake s u := by
  unfold OnlyWake at *
  rw [h2, h1]

/-- Nothing waits on a channel that holds no request. -/
theorem servedChannel_nil (s : State) (c : Nat) (h : (s.channel c).held = []) : servedChannel s c = [] := by
  simp [servedChannel, h, servedOrder, roundRobin]

/-- A rank's debt accrues again from now on. -/
def accrueFrom (s : State) (x : Nat × Nat) : State :=
  s.withDram { s.dram with debtAt := nput s.dram.debtAt (rankIx x.1 x.2) s.clk.elapsed }

theorem foldl_accrueFrom (l : List (Nat × Nat)) (s : State) (hs : DramCanon s.dram) :
    OnlyWake s (l.foldl accrueFrom s) ∧ DramCanon (l.foldl accrueFrom s).dram ∧ (l.foldl accrueFrom s).dram.channels = s.dram.channels :=
  List.foldlRecOn (motive := fun t => OnlyWake s t ∧ DramCanon t.dram ∧ t.dram.channels = s.dram.channels) l _
    ⟨OnlyWake.refl s, hs, rfl⟩
    (fun _ ⟨honly, hcanon, hchan⟩ _ _ => ⟨honly.trans rfl, { hcanon with debtAt := twf_tput _ _ _ _ hcanon.debtAt }, hchan⟩)

theorem wakeChannel_eq (c : Nat) (s : State) : wakeChannel c s = (servedChannel s c).foldl (fun s r => serveRequest r s)
    (((channelRanks s c).foldl accrueFrom s).withChannel c
      { ((channelRanks s c).foldl accrueFrom s).channel c with sr := .awake, held := [], cancelled := false }) := rfl

theorem Channel.awake_of_held {x : Channel} (h : x.held = []) :
    { x with sr := .awake, held := [], cancelled := false } = { x with sr := .awake, cancelled := false } := by
  rw [← h]

/-- A channel on which nothing waits wakes. -/
theorem wakeChannel_spec (c : Nat) (s : State) (hs : DramCanon s.dram) (hheld : (s.channel c).held = []) :
    OnlyWake s (wakeChannel c s) ∧ DramCanon (wakeChannel c s).dram
      ∧ ∀ d, (wakeChannel c s).channel d = if d = c then { s.channel c with sr := .awake, cancelled := false } else s.channel d := by
  obtain ⟨honly, hcanon, hchan⟩ := foldl_accrueFrom (channelRanks s c) s hs
  have hchannel : ∀ d, ((channelRanks s c).foldl accrueFrom s).channel d = s.channel d := fun d => by unfold State.channel; rw [hchan]
  have hwake : wakeChannel c s = ((channelRanks s c).foldl accrueFrom s).withChannel c
      { s.channel c with sr := .awake, cancelled := false } := by
    rw [wakeChannel_eq, servedChannel_nil s c hheld, hchannel, List.foldl_nil, Channel.awake_of_held hheld]
  rw [hwake]
  exact ⟨honly.trans rfl, hcanon.withChannel _ _, fun d => by rw [channel_withChannel hcanon, hchannel]⟩

/-- What the end of a run does to a channel (R297): one asleep in a window wakes. -/
def leaveSr (s : State) (c : Nat) : State := if (s.channel c).sr = .windowSr then wakeChannel c s else s

/-- The channel's record after that. -/
def Channel.leftSr (x : Channel) : Channel := if x.sr = .windowSr then { x with sr := .awake, cancelled := false } else x

theorem Channel.leftSr_held (x : Channel) : x.leftSr.held = x.held := by
  unfold Channel.leftSr
  split <;> rfl

theorem leaveSr_spec (c : Nat) (s : State) (hs : DramCanon s.dram) (hheld : (s.channel c).held = []) :
    OnlyWake s (leaveSr s c) ∧ DramCanon (leaveSr s c).dram
      ∧ ∀ d, (leaveSr s c).channel d = if d = c then (s.channel c).leftSr else s.channel d := by
  unfold leaveSr Channel.leftSr
  split
  · exact wakeChannel_spec c s hs hheld
  · exact ⟨OnlyWake.refl s, hs, fun d => by split <;> simp_all⟩

/-- Channels on which nothing waits leave their windows one after the other. -/
theorem foldl_leaveSr (l : List Nat) (hl : l.Nodup) (s : State) (hs : DramCanon s.dram) (hheld : ∀ c ∈ l, (s.channel c).held = []) :
    OnlyWake s (l.foldl leaveSr s) ∧ ∀ c ∈ l, (l.foldl leaveSr s).channel c = (s.channel c).leftSr := by
  obtain ⟨⟨honly, -, -⟩, hdone, -⟩ := foldl_pointwise State.channel
    (fun t => OnlyWake s t ∧ DramCanon t.dram ∧ ∀ c ∈ l, (t.channel c).held = []) (fun _ a b => b = a.leftSr) id leaveSr l
    (fun t c hc ⟨honly, hcanon, hnone⟩ => by
      obtain ⟨hstep, hcanon', hchan⟩ := leaveSr_spec c t hcanon (hnone c hc)
      refine ⟨⟨honly.trans hstep, hcanon', fun d hd => ?_⟩, (hchan c).trans (if_pos rfl), fun d hd => (hchan d).trans (if_neg hd)⟩
      rw [hchan]
      split
      · exact (Channel.leftSr_held _).trans (hnone c hc)
      · exact hnone d hd)
    (by simpa using hl) s ⟨OnlyWake.refl s, hs, hheld⟩
  exact ⟨honly, hdone⟩

/-- R297: SR_WINDOW_EXIT with the line clock stopped, when no request waits. -/
theorem srWindowExit_wakes (s : State) (gap i : Nat) (hs : DramCanon s.dram) (hrun : s.web.running = false)
    (hheld : ∀ c, c < 4 → (s.channel c).held = []) :
    ∃ t, exec (.srWindowExit gap i) s = .next t
      ∧ (∀ c, c < 4 → t.channel c = if (s.channel c).sr = .windowSr then { s.channel c with sr := .awake, cancelled := false }
          else s.channel c)
      ∧ t = { s with dram := { s.dram with debtAt := t.dram.debtAt, channels := t.dram.channels } } := by
  obtain ⟨honly, hdone⟩ := foldl_leaveSr (List.range 4) List.nodup_range s hs (fun c hc => hheld c (List.mem_range.mp hc))
  have hexec : exec (.srWindowExit gap i) s = .next ((List.range 4).foldl leaveSr s) := by
    simp only [exec, execSrWindowExit, hrun, Bool.not_false, if_true]
    rfl
  exact ⟨_, hexec, fun c hc => hdone c (List.mem_range.mpr hc), honly⟩

/-- Settles O33: each housekeeping step by the lemma of its name, over the canonical form of the controller's tables. -/
theorem dramHousekeepingCompletes : Obligations.DramHousekeepingCompletes := by
  unfold Obligations.DramHousekeepingCompletes
  refine ⟨fun s k w hs => geyserWindow_refreshes s k w (dramCanon_of_canonOk hs), fun s k w hw hover => ?_,
    fun s k mr4 c w hs => retrainWindow_retrains s k mr4 c w (dramCanon_of_canonOk hs),
    fun s c mr4 u hs => idleRetrain_retrains s c mr4 u (dramCanon_of_canonOk hs),
    fun s h r u hs => idleRefresh_refreshes s h r u (dramCanon_of_canonOk hs),
    fun s gap i p hs => srWindowEntry_sleeps s gap i p (dramCanon_of_canonOk hs),
    fun s gap i hs => srWindowExit_wakes s gap i (dramCanon_of_canonOk hs),
    fun s c u hs => srIdleEntry_sleeps s c u (dramCanon_of_canonOk hs)⟩
  simp only [exec, execGeyserWindow, hw, hover, if_true]

end Sys2Proof.Machine
end

section
/-! SCHED_ACTIVATE in IDLE, in a state whose head links are being calibrated (R63, R203, R422). -/

namespace Sys2Proof.Machine

open Sys2Proof

/-- An idle device with a checked schedule image, in which lane 0 of group 0 is in its training loop (R200) and no CAL_RUN, scan, load or
survey needs the group. -/
def trainingInIdle : State :=
  { State.reset with
    dev := .idle
    host := { HostIf.reset with linkUp := true, rings := [(0, { Ring.reset with enabled := true, log2 := 4 })] }
    boot := { BootUnit.reset with path := .up }
    press := some { index := 0, devices := 1, barMask := 1, gateFilter := 0, motion := { Motion.reset with linePitch := 21167000 }
                    bars := [], slots := [], digest := 0 }
    run := { Run.reset with banks := [(1, { Bank.reset with loaded := true, checked := true })] }
    link := { Link.reset with groups := [(0, { Group.reset with down := .l0, up := .l0, wokeFrom := .ls, locked := true })] }
    thermal := { Thermal.reset with loops :=
      [(0, some { lane := 0, phase := .sweeping, since := 0, lost := none, sleep := false, result := none })] } }

/-- The SCHED_ACTIVATE of ring 0 in that state. -/
def activateHdr : Hdr := { ring := 0, tag := 1, flags := 0, paramLen := 56, rsv := false, paramRsv := false, t := 0 }

/-- The training loops of the state that a step answers. -/
def loopsAfter (o : Result) : Option (Tab (Option LoopCal)) :=
  match o with
  | .next t => some t.thermal.loops
  | _ => none

/-- Group 0 leaves L0, as nothing needs it (R203), so its training loop ends first (R422): LOOP_EXIT goes out. -/
theorem schedActivate_ends_training :
    loopsAfter (exec (.schedActivate activateHdr 0 0 0) trainingInIdle) ≠ some trainingInIdle.thermal.loops := by decide +kernel

/-- The state is within the invariants of O58 to O60. -/
theorem trainingInIdle_invariants :
    canonOk trainingInIdle = true ∧ pressOk trainingInIdle = true ∧ fireOk trainingInIdle = true := by decide +kernel

/-- Refutes O13: its clause for SCHED_ACTIVATE in IDLE lets only the run, the head links and the draws change, but the groups that nothing
needs then leave L0, and one in a training loop ends that loop first, which changes the calibration state. `trainingInIdle` is such a state,
within every invariant of the machine. -/
theorem not_scheduleCommandsComplete : ¬ Obligations.ScheduleCommandsComplete := by
  unfold Obligations.ScheduleCommandsComplete
  rintro ⟨-, -, -, -, -, -, hactivate, -⟩
  obtain ⟨t, hexec, -, -, hframe, -⟩ :=
    hactivate trainingInIdle activateHdr 0 0 0 (by decide +kernel) rfl (by decide +kernel)
  have hloops : t.thermal.loops = trainingInIdle.thermal.loops := by rw [hframe]
  apply schedActivate_ends_training
  rw [hexec, loopsAfter, hloops]

end Sys2Proof.Machine
end

section
/-! RUN cues, the bursts they send for, and read data on its way to a context (R30, R52, R53, R102, R117; log 64). -/

namespace Sys2Proof.Machine

open Sys2Proof

/-! ## A cue that issues (R52) -/

theorem playedPage_dev {s : State} {page : Nat} {p : PagePos} (h : playedPage s page = some p) : s.dev ∈ [DevState.run, .drain] := by
  unfold playedPage at h
  split at h
  · next hdev => simpa using hdev.2
  · cases h

/-- A cue that issues is noted, and acts on its line. -/
theorem playCue_issues {s : State} {kind bar page line : Nat} {cue : Word64} {p : PagePos}
    (h : cueIssues s kind bar page cue p line = true) (act : PagePos → Cue → Nat → State → State) :
    playCue kind bar page cue [] act s = act p (Cue.ofWord cue.toNat) line (noteCue bar page cue.toNat s) := by
  simp only [cueIssues, Bool.and_eq_true, decide_eq_true_eq] at h
  obtain ⟨⟨⟨⟨hplayed, hkind⟩, -⟩, hmay⟩, hline, hlength⟩ := h
  have hdev := playedPage_dev hplayed
  simp only [playCue, hplayed, hkind, hmay, hline, meetErrors, List.foldl_nil]
  rw [if_neg (by simp), if_pos ⟨by omega, by omega, by simpa [noteCue] using hdev⟩]
  rfl

/-- A cue that is noted adds its word to those issued and a trace record. -/
theorem noteCue_frame (bar page word : Nat) (s : State) : noteCue bar page word s = { s with
    path := { s.path with issued := s.path.issued ++ [(bar, page, word)] }, trace := (noteCue bar page word s).trace } :=
  traceRec_withTrace _ _ _ _

/-- What a cue may change, beside the list of those issued (the frame of `cueIssued`). -/
def CueEffects (s t : State) : Prop :=
  t = { s with
    path := t.path, link := t.link, counters := t.counters, keep := t.keep, log := t.log, trace := t.trace, draws := t.draws
    store := t.store, dram := t.dram
    run := { s.run with pages := t.run.pages }
    host := { s.host with evtStatus := t.host.evtStatus, messages := t.host.messages, pba := t.host.pba } }

theorem CueEffects.refl (s : State) : CueEffects s s := rfl

theorem CueEffects.trans {s t u : State} (h1 : CueEffects s t) (h2 : CueEffects t u) : CueEffects s u := by
  unfold CueEffects at *
  rw [h2, h1]

/-- After the note, a cue's own work need only keep the list of those issued. -/
theorem cueIssued_of_effects {s t : State} {bar page word : Nat} (hissued : t.path.issued = (noteCue bar page word s).path.issued)
    (h : CueEffects (noteCue bar page word s) t) : cueIssued s t bar page word := by
  rw [noteCue_frame] at hissued h
  exact ⟨hissued, h⟩

/-! ## Contexts -/

theorem Cue.context_lt (q : Cue) : q.context < 256 := Nat.mod_lt _ (by decide)

theorem turn_page (x : Context) (page tileRow group : Nat) : (x.turn page tileRow group).page = some page := by
  simp only [Context.turn, apply_ite Context.page, ite_self]
  split
  · assumption
  · rfl

theorem turn_outs (x : Context) (page tileRow group : Nat) : (x.turn page tileRow group).outs = x.outs := by
  simp only [Context.turn, apply_ite Context.outs, ite_self]

/-- A context that has turned to a page is not at its reset value. -/
theorem turn_ne_reset (x : Context) (page tileRow group : Nat) : x.turn page tileRow group ≠ Context.reset := by
  intro h
  have := turn_page x page tileRow group
  rw [h] at this
  cases this

/-- A context record other than the reset value is read back, whatever the table of contexts. -/
theorem context_withContext_self (s : State) (bar layer c : Nat) {x : Context} (hx : x ≠ Context.reset) :
    (s.withContext bar layer c x).context bar layer c = x := tget_tput_same _ _ _ _ hx

theorem context_withContext_of_ne (s : State) {bar layer c bar' layer' c' : Nat} {x : Context} (hx : x ≠ Context.reset)
    (hne : ctxIx bar' layer' c' ≠ ctxIx bar layer c) : (s.withContext bar layer c x).context bar' layer' c' = s.context bar' layer' c' :=
  tget_tput_of_ne _ _ hx hne

/-- What a base context holds does not bear on the variable tiles over its columns. -/
theorem underFull_withContext_base (s : State) (p : PagePos) (bar row c' : Nat) {c : Nat} (hc : c < 256) {x : Context}
    (hx : x ≠ Context.reset) : underFull (s.withContext bar 0 c x) p bar c' row = underFull s p bar c' row := by
  have hread : ∀ v, (s.withContext bar 0 c x).context bar 1 v = s.context bar 1 v :=
    fun v => context_withContext_of_ne s hx (by simp only [ctxIx]; omega)
  unfold underFull
  simp only [hread]
  rfl

/-! ## RUN cues (R30, R46, R53, R102) -/

/-- One burst on its way to a context. -/
def inflightOf (p : PagePos) (bar row g h : Nat) (q : Cue) (s : State) (burst : Nat) : Inflight :=
  { bar := bar, layer := q.layer, context := q.context, page := p.start, group := 8 * row + g, part := q.part, burst := burst
    phys := framePhys s.dram.cfg.config h (64 * burst), data := s.frameRead h (64 * burst) 64
    poisoned := s.burstPoisoned (framePhys s.dram.cfg.config h (64 * burst)) }

theorem foldl_fetchBurst (p : PagePos) (bar row g h : Nat) (q : Cue) (base : Nat) (span : List Nat) (s : State) :
    span.foldl (fun s i => fetchBurst p bar row g h q (base + i) s) s = s.withPath { s.path with
      inflight := s.path.inflight ++ span.map (fun i => inflightOf p bar row g h q s (base + i)) } := by
  induction span generalizing s with
  | nil => rw [List.foldl_nil, List.map_nil, List.append_nil]; rfl
  | cons i span ih =>
    have hstep : fetchBurst p bar row g h q (base + i) s
        = s.withPath { s.path with inflight := s.path.inflight ++ [inflightOf p bar row g h q s (base + i)] } := rfl
    rw [List.foldl_cons, ih, hstep, List.map_cons,
      List.append_cons s.path.inflight _ (span.map (fun i => inflightOf p bar row g h q s (base + i)))]
    rfl

/-- The contexts after a RUN cue: its own has turned to the row group, and notes a run that a full variable tile covers. -/
def runTurn (bar : Nat) (p : PagePos) (q : Cue) (r : Nat) (s : State) : State :=
  let s := s.withContext bar q.layer q.context ((s.context bar q.layer q.context).turn p.start (r / 64) (r % 64 / 8))
  if q.layer = 0 ∧ underFull s p bar q.context (r / 64) then
    s.withContext bar 0 q.context { s.context bar 0 q.context with skipped := true }
  else s

theorem runTurn_frame (bar : Nat) (p : PagePos) (q : Cue) (r : Nat) (s : State) :
    runTurn bar p q r s = s.withPath { s.path with contexts := (runTurn bar p q r s).path.contexts } := by
  unfold runTurn
  simp only []
  split <;> rfl

theorem runTurn_inflight (bar : Nat) (p : PagePos) (q : Cue) (r : Nat) (s : State) :
    (runTurn bar p q r s).path.inflight = s.path.inflight := by
  rw [runTurn_frame]
  rfl

/-- Without a full variable tile over it, a RUN cue only turns its context. -/
theorem runTurn_of_not_under (bar : Nat) (p : PagePos) (q : Cue) (r : Nat) (s : State)
    (h : q.layer = 0 → underFull s p bar q.context (r / 64) = false) :
    runTurn bar p q r s
      = s.withContext bar q.layer q.context ((s.context bar q.layer q.context).turn p.start (r / 64) (r % 64 / 8)) := by
  unfold runTurn
  simp only []
  rw [if_neg]
  rintro ⟨hlayer, hunder⟩
  rw [hlayer, underFull_withContext_base s p bar _ _ q.context_lt (turn_ne_reset _ _ _ _), h hlayer] at hunder
  cases hunder

/-- A RUN cue once its context has turned: from a tile in a frame it sends for the bursts of its span. `m` is the image, `r` the row. -/
def runFetch (m : Mem) (bar : Nat) (p : PagePos) (q : Cue) (r : Nat) (s : State) : State :=
  match tileOf s p bar q.layer q.context (r / 64) with
  | .frame h => (runSpan s p bar (r / 64) (r % 64 / 8) q).foldl (fun s i => fetchBurst p bar (r / 64) (r % 64 / 8) h q
      (baseBurst m p.pageProg bar q.context q.layer (r / 64) q.part (r % 64 / 8) + i) s) s
  | _ => s

theorem runRun_eq (bar : Nat) (p : PagePos) (q : Cue) (line : Nat) (s : State) : runRun bar p q line s
    = runFetch (s.bank p.bank).image bar p q (contoneRow s p bar line) (runTurn bar p q (contoneRow s p bar line) s) := rfl

theorem runFetch_frame {m : Mem} {bar : Nat} {p : PagePos} {q : Cue} {r h : Nat} {s : State}
    (htile : tileOf s p bar q.layer q.context (r / 64) = .frame h) : runFetch m bar p q r s = s.withPath { s.path with
      inflight := s.path.inflight ++ (runSpan s p bar (r / 64) (r % 64 / 8) q).map (fun i => inflightOf p bar (r / 64) (r % 64 / 8) h q s
        (baseBurst m p.pageProg bar q.context q.layer (r / 64) q.part (r % 64 / 8) + i)) } := by
  unfold runFetch
  rw [htile]
  exact foldl_fetchBurst p bar _ _ h q _ _ s

theorem runFetch_other {m : Mem} {bar : Nat} {p : PagePos} {q : Cue} {r : Nat} {s : State}
    (htile : ∀ h, tileOf s p bar q.layer q.context (r / 64) ≠ .frame h) : runFetch m bar p q r s = s := by
  unfold runFetch
  split
  · next h heq => exact absurd heq (htile h)
  · rfl

theorem tileOf_runTurn (bar : Nat) (p : PagePos) (q : Cue) (r : Nat) (s : State) (row : Nat) :
    tileOf (runTurn bar p q r s) p bar q.layer q.context row = tileOf s p bar q.layer q.context row := by
  rw [runTurn_frame]
  rfl

/-- A RUN cue sends for bursts and changes contexts, and does nothing else. -/
theorem runRun_path (bar : Nat) (p : PagePos) (q : Cue) (line : Nat) (s : State) : runRun bar p q line s = s.withPath { s.path with
    inflight := (runRun bar p q line s).path.inflight, contexts := (runRun bar p q line s).path.contexts } := by
  have hturn := runTurn_frame bar p q (contoneRow s p bar line) s
  rw [runRun_eq]
  unfold runFetch
  split
  · rw [foldl_fetchBurst, hturn]
    rfl
  · rw [runTurn_inflight]
    exact hturn

/-- On a tile in no frame a RUN cue sends for nothing. -/
theorem runRun_no_frame (bar : Nat) (p : PagePos) (q : Cue) (line : Nat) (s : State)
    (htile : ∀ h, tileOf s p bar q.layer q.context (contoneRow s p bar line / 64) ≠ .frame h) :
    (runRun bar p q line s).path.inflight = s.path.inflight := by
  rw [runRun_eq, runFetch_other (fun h => by rw [tileOf_runTurn]; exact htile h), runTurn_inflight]

/-- On a tile in a frame that no full variable tile covers, a RUN cue sends for the bursts of its span, and its context turns. -/
theorem runRun_frame (bar : Nat) (p : PagePos) (q : Cue) (line h : Nat) (s : State) (span : List Nat)
    (htile : tileOf s p bar q.layer q.context (contoneRow s p bar line / 64) = .frame h)
    (hunder : q.layer = 0 → underFull s p bar q.context (contoneRow s p bar line / 64) = false)
    (hspan : runSpan (runTurn bar p q (contoneRow s p bar line) s) p bar (contoneRow s p bar line / 64)
      (contoneRow s p bar line % 64 / 8) q = span) :
    let r := contoneRow s p bar line
    (runRun bar p q line s).path.inflight = s.path.inflight ++ span.map (fun i => inflightOf p bar (r / 64) (r % 64 / 8) h q s
        (baseBurst (s.bank p.bank).image p.pageProg bar q.context q.layer (r / 64) q.part (r % 64 / 8) + i))
      ∧ ∀ y, q.layer = y →
        (runRun bar p q line s).context bar y q.context = (s.context bar y q.context).turn p.start (r / 64) (r % 64 / 8) := by
  intro r
  have hsent : inflightOf p bar (r / 64) (r % 64 / 8) h q (runTurn bar p q r s) = inflightOf p bar (r / 64) (r % 64 / 8) h q s := by
    rw [runTurn_frame]
    rfl
  rw [runRun_eq, runFetch_frame (h := h) (by rw [tileOf_runTurn]; exact htile), hspan, hsent, runTurn_inflight]
  refine ⟨rfl, ?_⟩
  rintro _ rfl
  have hturn := runTurn_of_not_under bar p q r s hunder
  refine Eq.trans ?_ (context_withContext_self s bar q.layer q.context (turn_ne_reset _ p.start (r / 64) (r % 64 / 8)))
  rw [← hturn]
  rfl

/-- The span of a base run that no full variable tile covers: what the budget has of the cue's bursts. -/
theorem runSpan_base {s : State} {p : PagePos} {bar r g : Nat} {q : Cue} (hlayer : q.layer = 0)
    (hunder : underFull s p bar q.context (r / 64) = false) : runSpan (runTurn bar p q r s) p bar (r / 64) g q
      = ((List.range q.bursts).map (fun i => q.first + i)).filter
        (fun i => decide (i < (budget (s.bank p.bank).image p.pageProg bar q.context (r / 64) g).2)) := by
  have hturned : underFull (runTurn bar p q r s) p bar q.context (r / 64) = false := by
    rw [runTurn_of_not_under bar p q r s (fun _ => hunder), hlayer,
      underFull_withContext_base s p bar _ _ q.context_lt (turn_ne_reset _ _ _ _), hunder]
  have hbank : (runTurn bar p q r s).bank p.bank = s.bank p.bank := by rw [runTurn_frame]; rfl
  simp [runSpan, hlayer, hturned, hbank]

/-- The header part of a variable tile is fetched whole. -/
theorem runSpan_header {s : State} {p : PagePos} {bar row g : Nat} {q : Cue} (hlayer : q.layer = 1) (hpart : q.part = 1) :
    runSpan s p bar row g q = (List.range q.bursts).map (fun i => q.first + i) := by
  simp [runSpan, hlayer, hpart]

/-- R30, R46, R53, R102: a RUN cue. -/
theorem runCue_completes (s : State) (bar page line : Nat) (cue : Word64) (p : PagePos) (hcue : cueIssues s 1 bar page cue p line = true) :
    let q := Cue.ofWord cue.toNat
    let m := (s.bank p.bank).image
    let r := contoneRow s p bar line
    let base := baseBurst m p.pageProg bar q.context q.layer (r / 64) q.part (r % 64 / 8)
    let sent (l : List Nat) (h : Nat) : List Inflight := l.map (fun i => inflightOf p bar (r / 64) (r % 64 / 8) h q s (base + i))
    ∃ t, exec (.runCue bar page cue []) s = .next t ∧ cueIssued s t bar page cue.toNat
      ∧ (∀ h, tileOf s p bar q.layer q.context (r / 64) = .frame h → q.layer = 0 → underFull s p bar q.context (r / 64) = false →
        t.path.inflight = s.path.inflight ++ sent (((List.range q.bursts).map (fun i => q.first + i)).filter (fun i =>
          decide (i < (budget m p.pageProg bar q.context (r / 64) (r % 64 / 8)).2))) h
        ∧ t.context bar 0 q.context = (s.context bar 0 q.context).turn p.start (r / 64) (r % 64 / 8))
      ∧ (∀ h, tileOf s p bar q.layer q.context (r / 64) = .frame h → q.layer = 1 → q.part = 1 →
        t.path.inflight = s.path.inflight ++ sent ((List.range q.bursts).map (fun i => q.first + i)) h
        ∧ t.context bar 1 q.context = (s.context bar 1 q.context).turn p.start (r / 64) (r % 64 / 8))
      ∧ ((∀ h, tileOf s p bar q.layer q.context (r / 64) ≠ .frame h) → t.path.inflight = s.path.inflight)
      ∧ t = { s with trace := t.trace, path := { s.path with
          issued := t.path.issued, inflight := t.path.inflight, contexts := t.path.contexts } } := by
  intro q m r base sent
  let n := noteCue bar page cue.toNat s
  have hn : n = { s with path := { s.path with issued := s.path.issued ++ [(bar, page, cue.toNat)] }, trace := n.trace } :=
    noteCue_frame bar page cue.toNat s
  have hexec : exec (.runCue bar page cue []) s = .next (runRun bar p q line n) :=
    congrArg _ (playCue_issues hcue (runRun bar))
  have hpath := runRun_path bar p q line n
  have hrow : contoneRow n p bar line = r := by rw [hn]; rfl
  have htile : tileOf n p bar q.layer q.context (r / 64) = tileOf s p bar q.layer q.context (r / 64) := by rw [hn]; rfl
  have hbank : n.bank p.bank = s.bank p.bank := by rw [hn]; rfl
  have hflight : n.path.inflight = s.path.inflight := by rw [hn]
  have hsent : ∀ h, inflightOf p bar (r / 64) (r % 64 / 8) h q n = inflightOf p bar (r / 64) (r % 64 / 8) h q s :=
    fun h => by rw [hn]; rfl
  have hcontext : ∀ y, n.context bar y q.context = s.context bar y q.context := fun y => by rw [hn]; rfl
  have hunder : underFull n p bar q.context (r / 64) = underFull s p bar q.context (r / 64) := by rw [hn]; rfl
  have hsends : ∀ h y span, tileOf s p bar q.layer q.context (r / 64) = .frame h → q.layer = y →
      (q.layer = 0 → underFull s p bar q.context (r / 64) = false) →
      runSpan (runTurn bar p q r n) p bar (r / 64) (r % 64 / 8) q = span →
      (runRun bar p q line n).path.inflight = s.path.inflight ++ sent span h
      ∧ (runRun bar p q line n).context bar y q.context = (s.context bar y q.context).turn p.start (r / 64) (r % 64 / 8) := by
    intro h y span hh hy hu hspan
    obtain ⟨hsend, hturn⟩ := runRun_frame bar p q line h n span (by rw [hrow, htile]; exact hh) (by rw [hrow, hunder]; exact hu)
      (by rw [hrow]; exact hspan)
    rw [hrow, hflight, hsent, hbank] at hsend
    rw [hrow] at hturn
    exact ⟨hsend, by rw [hturn y hy, hcontext]⟩
  refine ⟨_, hexec, ?_, fun h hh hlayer hfull => ?_, fun h hh hlayer hpart => ?_, fun hno => ?_, ?_⟩
  · refine cueIssued_of_effects ?_ ?_ <;> rw [hpath] <;> rfl
  · refine hsends h 0 _ hh hlayer (fun _ => hfull) ?_
    rw [runSpan_base hlayer (by rw [hunder]; exact hfull), hbank]
  · exact hsends h 1 _ hh hlayer (fun h0 => by omega) (runSpan_header hlayer hpart)
  · rw [runRun_no_frame bar p q line n (by rw [hrow, htile]; exact hno), hflight]
  · rw [hpath, hn]
    rfl

/-! ## Read data (R46, R304) -/

theorem gfAdd_self (l : List Nat) : gfAdd l l = List.replicate l.length 0 := by
  induction l with
  | nil => rfl
  | cons a l ih =>
    show Nat.xor a a :: gfAdd l l = _
    rw [ih, show Nat.xor a a = 0 from Nat.xor_self a]
    rfl

/-- A poisoned burst read at its own place with no bit inverted differs from its codeword by the marker. -/
theorem burstDiff_marked (a : List Nat) (ha : a.length = 8) : burstDiff a a true [] = rsMarker := by
  unfold burstDiff
  rw [gfAdd_self, ha]
  decide +kernel

/-- A read of a poisoned burst that nothing befalls finds the marker (R303). -/
theorem burstOutcome_marked (s : State) (phys : Nat) : burstOutcome s phys true .clean = .poison := by
  show rsOutcome (burstDiff (burstAddress s.dram.cfg.config phys) (burstAddress s.dram.cfg.config phys) true []) = .poison
  rw [burstDiff_marked _ rfl]
  decide +kernel

/-- What the reader of a burst meets when nothing befalls the read: a poisoned one is counted and may not be used. -/
theorem meetBurst_unharmed (s : State) (phys : Nat) (marked : Bool) :
    meetBurst phys marked .clean s = (if marked then s.count 21 else s, !marked) := by
  cases marked with
  | false => exact meetBurst_clean s phys
  | true => simp [meetBurst, burstOutcome_marked]

/-- The tables of decoder contexts and counters are in canonical form. -/
structure CueCanon (s : State) : Prop where
  contexts : twf (fun _ => Context.reset) s.path.contexts = true
  counters : twf (fun _ => 0) s.counters = true

theorem cueCanon_of_canonOk {s : State} (h : canonOk s = true) : CueCanon s := by
  simp only [canonOk, Bool.and_eq_true] at h
  constructor <;> simp only [h]

theorem counter_countN {s : State} (h : twf (fun _ => 0) s.counters = true) (i n j : Nat) :
    (s.countN i n).counter j = if j = i then sat 8 (s.counter i + n) else s.counter j := nget_nput _ _ _ _ h

theorem twf_countN {s : State} (h : twf (fun _ => 0) s.counters = true) (i n : Nat) :
    twf (fun _ => 0) (s.countN i n).counters = true := twf_tput _ _ _ _ h

theorem context_withContext {s : State} (h : twf (fun _ => Context.reset) s.path.contexts = true) (bar layer c : Nat) (x : Context) :
    (s.withContext bar layer c x).context bar layer c = x := (tget_tput _ _ _ x _ 0 h).trans (if_pos rfl)

/-- R46, R304: READ_DATA_RETURN of the oldest burst on its way to a context. -/
theorem readDataReturn_arrives (s : State) (bar layer c : Nat) (e : Inflight) (hs : CueCanon s)
    (he : s.path.inflight.find? (fun e => decide (e.bar = bar ∧ e.layer = layer ∧ e.context = c)) = some e) :
    ∃ t, exec (.readDataReturn bar layer c .clean) s = .next t ∧ t.path.inflight = s.path.inflight.erase e
      ∧ t.context bar layer c = (s.context bar layer c).take e (!e.poisoned)
      ∧ t.counter 21 = (if e.poisoned then sat 8 (s.counter 21 + 1) else s.counter 21)
      ∧ t = { s with path := { s.path with inflight := t.path.inflight, contexts := t.path.contexts }, counters := t.counters } := by
  let u := s.withPath { s.path with inflight := s.path.inflight.erase e }
  let v := if e.poisoned then u.count 21 else u
  have hv : v = { u with counters := v.counters } := by
    simp only [v]
    split <;> rfl
  have hexec : exec (.readDataReturn bar layer c .clean) s
      = .next (v.withContext bar layer c ((v.context bar layer c).take e (!e.poisoned))) := by
    simp only [exec, execReadDataReturn, he, meetBurst_unharmed]
    rfl
  refine ⟨_, hexec, ?_, ?_, ?_, ?_⟩
  · rw [hv]
    rfl
  · rw [context_withContext (by rw [hv]; exact hs.contexts), hv]
    rfl
  · show v.counter 21 = _
    simp only [v]
    split
    · exact (counter_countN (s := u) hs.counters 21 1 21).trans (if_pos rfl)
    · rfl
  · rw [hv]
    rfl

end Sys2Proof.Machine
end

section
/-! DECODE cues, which present rows or conceal them, and END cues (R30, R46, R85 to R87; log 64). -/

namespace Sys2Proof.Machine

open Sys2Proof

/-! ## What concealing a row reaches (R87, R268, R269) -/

/-- From `s` to `t` only the DRAM controller's state has changed. -/
def OnlyDram (s t : State) : Prop := t = s.withDram t.dram

theorem OnlyDram.refl (s : State) : OnlyDram s s := rfl

theorem OnlyDram.trans {s t u : State} (h1 : OnlyDram s t) (h2 : OnlyDram t u) : OnlyDram s u := by
  unfold OnlyDram at *
  rw [h2, h1]
  rfl

theorem withDram_onlyDram (s : State) (d : Dram) : OnlyDram s (s.withDram d) := rfl

theorem wakeIdle_onlyDram (c : Nat) (s : State) : OnlyDram s (wakeIdle c s) := by
  unfold wakeIdle
  refine OnlyDram.trans (t := (payDebt (2 * c) 0 0 s).withChannel c { s.channel c with sr := .awake }) rfl ?_
  exact foldl_keeps OnlyDram OnlyDram.refl OnlyDram.trans _ (fun s _ => withDram_onlyDram s _) _ _

theorem touchChannel_onlyDram (s : State) (c : Nat) : OnlyDram s (touchChannel s c) := by
  have hwoken : OnlyDram s (if (s.channel c).sr = .idleSr then wakeIdle c s else s) := by
    split
    · exact wakeIdle_onlyDram c s
    · exact OnlyDram.refl s
  exact hwoken.trans (withDram_onlyDram _ _)

theorem share_onlyDram (s : State) (subs : List Nat) : OnlyDram s (s.share subs) := by
  unfold State.share
  split
  · exact foldl_keeps OnlyDram OnlyDram.refl OnlyDram.trans _ touchChannel_onlyDram _ s
  · exact OnlyDram.refl s

/-- From `s` to `t` only the feed history has changed, with what of it stands in DRAM and the controller's state. -/
def FeedWork (s t : State) : Prop := t = { s with keep := t.keep, store := t.store, dram := t.dram }

theorem FeedWork.refl (s : State) : FeedWork s s := rfl

theorem FeedWork.trans {s t u : State} (h1 : FeedWork s t) (h2 : FeedWork t u) : FeedWork s u := by
  unfold FeedWork at *
  rw [h2, h1]

theorem FeedWork.effects {s t : State} (h : FeedWork s t) : CueEffects s t := by
  unfold FeedWork at h
  unfold CueEffects
  rw [h]

theorem OnlyDram.feed {s t : State} (h : OnlyDram s t) : FeedWork s t := by
  unfold OnlyDram at h
  unfold FeedWork
  rw [h]
  rfl

theorem updOpen_feedWork (page block : Nat) (f : FeedOpen → FeedOpen) (s : State) : FeedWork s (updOpen page block f s) := rfl

theorem devWrite_feedWork (s : State) (a : Nat) (bs : List Byte) : FeedWork s (s.devWrite a bs) := rfl

theorem disturbBlock_feedWork (b page block : Nat) (zones : List Nat) (s : State) : FeedWork s (disturbBlock b page block zones s) := by
  unfold disturbBlock
  split
  · exact (share_onlyDram s _).feed.trans
      (foldl_keeps FeedWork FeedWork.refl FeedWork.trans _ (fun s _ => devWrite_feedWork s _ _) zones _)
  · exact updOpen_feedWork _ _ _ _

/-- Raising an event sets its bit, and beside that touches messages, pending bits and the trace alone. -/
theorem raise_frame (s : State) (i : Nat) : s.raise i = { s with
    host := { s.host with evtStatus := s.host.evtStatus ||| BitVec.ofNat 16 (2 ^ i), messages := (s.raise i).host.messages
                          pba := (s.raise i).host.pba }
    trace := (s.raise i).trace } := by
  have htrace := traceRec_withTrace s 2 (Config.traceUnit 2) (leBytes 1 i ++ [0] ++ leBytes 6 s.web.webPos)
  unfold State.raise
  simp only []
  rw [htrace]
  split
  · unfold State.signal
    split <;> rfl
  · rfl

theorem raise_evtStatus (s : State) (i : Nat) : (s.raise i).host.evtStatus = s.host.evtStatus ||| BitVec.ofNat 16 (2 ^ i) := by
  rw [raise_frame]

/-- The first row of an episode of concealment (R87): the episode is counted, raises UNDERRUN and is reported. -/
def beginEpisode (bar code value : Nat) (key fields : List Byte) (s : State) : State :=
  (((s.count 0).count (barCounter bar 0)).raise 3).report code key value fields

theorem beginEpisode_effects (bar code value : Nat) (key fields : List Byte) (s : State) :
    CueEffects s (beginEpisode bar code value key fields s) := by
  unfold beginEpisode
  rw [raise_frame]
  rfl

theorem beginEpisode_counters {s : State} (hs : twf (fun _ => 0) s.counters = true) (bar code value : Nat) (key fields : List Byte) :
    twf (fun _ => 0) (beginEpisode bar code value key fields s).counters = true
      ∧ (beginEpisode bar code value key fields s).counter 1 = s.counter 1
      ∧ (beginEpisode bar code value key fields s).counter 0 = sat 8 (s.counter 0 + 1) := by
  have h0 : twf (fun _ => 0) (s.count 0).counters = true := twf_countN hs 0 1
  have heq : (beginEpisode bar code value key fields s).counters = ((s.count 0).count (barCounter bar 0)).counters := by
    simp only [beginEpisode, report_counters, raise_counters]
  have hread : ∀ j, j < 64 → (beginEpisode bar code value key fields s).counter j = if j = 0 then sat 8 (s.counter 0 + 1) else s.counter j := by
    intro j hj
    have : (beginEpisode bar code value key fields s).counter j = ((s.count 0).count (barCounter bar 0)).counter j := by
      unfold State.counter
      rw [heq]
    rw [this, State.count, counter_countN h0, if_neg (by unfold barCounter; omega), State.count, counter_countN hs]
  exact ⟨by rw [heq]; exact twf_countN h0 _ 1, hread 1 (by decide), hread 0 (by decide)⟩

theorem beginEpisode_evtStatus (bar code value : Nat) (key fields : List Byte) (s : State) :
    (beginEpisode bar code value key fields s).host.evtStatus = s.host.evtStatus ||| BitVec.ofNat 16 8 := by
  simp only [beginEpisode, report_host, raise_evtStatus]
  rfl

theorem beginEpisode_path (bar code value : Nat) (key fields : List Byte) (s : State) :
    (beginEpisode bar code value key fields s).path = s.path := by simp [beginEpisode]

/-- A concealed row's lines are counted for the device and the bar, and on its page. -/
def countConcealed (p : PagePos) (bar lines : Nat) (s : State) : State :=
  ((s.countN 1 lines).countN (barCounter bar 1) lines).updPage p.start (fun p => { p with underrunLines := p.underrunLines + lines })

theorem countConcealed_effects (p : PagePos) (bar lines : Nat) (s : State) : CueEffects s (countConcealed p bar lines s) := rfl

theorem countConcealed_counter {s : State} (hs : twf (fun _ => 0) s.counters = true) (p : PagePos) (bar lines : Nat) (j : Nat) (hj : j < 64) :
    (countConcealed p bar lines s).counter j = if j = 1 then sat 8 (s.counter 1 + lines) else s.counter j := by
  show ((s.countN 1 lines).countN (barCounter bar 1) lines).counter j = _
  rw [counter_countN (twf_countN hs 1 lines), if_neg (by unfold barCounter; omega), counter_countN hs]

/-- The image lines that a contone row stands for on a page. -/
def concealedLines (s : State) (p : PagePos) (bar row : Nat) : Nat :=
  min (alongDiv (s.bank p.bank).image p.pageProg bar) (p.length - row * alongDiv (s.bank p.bank).image p.pageProg bar)

/-- A row concealed (R87): its episode begins, unless one goes on; its lines are counted; its zones are disturbed. -/
theorem concealRow_steps (p : PagePos) (bar layer c row : Nat) (lead : Int) (cause : Conceal) (fresh : Bool) (s : State) :
    ∃ key fields, ∃ u, u = (if fresh then beginEpisode bar 0x1001 0 key fields s else s)
      ∧ FeedWork (countConcealed p bar (concealedLines s p bar row) u) (concealRow p bar layer c row lead cause fresh s) :=
  ⟨_, _, _, rfl, disturbBlock_feedWork _ _ _ _ _⟩

/-- What concealing a row leaves. -/
theorem concealRow_spec {s : State} (hs : twf (fun _ => 0) s.counters = true) (p : PagePos) (bar layer c row : Nat) (lead : Int)
    (cause : Conceal) (fresh : Bool) :
    let t := concealRow p bar layer c row lead cause fresh s
    CueEffects s t ∧ t.path = s.path ∧ t.counter 1 = sat 8 (s.counter 1 + concealedLines s p bar row)
      ∧ (fresh = true → t.host.evtStatus = s.host.evtStatus ||| BitVec.ofNat 16 8 ∧ t.counter 0 = sat 8 (s.counter 0 + 1)) := by
  obtain ⟨key, fields, u, hu, hfeed⟩ := concealRow_steps p bar layer c row lead cause fresh s
  generalize concealRow p bar layer c row lead cause fresh s = t at hfeed ⊢
  have hcounter : ∀ j, t.counter j = (countConcealed p bar (concealedLines s p bar row) u).counter j := fun j => by
    unfold State.counter
    rw [hfeed]
  have hbegun : CueEffects s u ∧ u.path = s.path ∧ twf (fun _ => 0) u.counters = true ∧ u.counter 1 = s.counter 1
      ∧ (fresh = true → u.host.evtStatus = s.host.evtStatus ||| BitVec.ofNat 16 8 ∧ u.counter 0 = sat 8 (s.counter 0 + 1)) := by
    cases fresh with
    | false =>
      obtain rfl : u = s := hu
      exact ⟨CueEffects.refl u, rfl, hs, rfl, fun h => Bool.noConfusion h⟩
    | true =>
      obtain rfl : u = beginEpisode bar 0x1001 0 key fields s := hu
      obtain ⟨htwf, hone, hzero⟩ := beginEpisode_counters hs bar 0x1001 0 key fields
      exact ⟨beginEpisode_effects _ _ _ _ _ s, beginEpisode_path _ _ _ _ _ s, htwf, hone,
        fun _ => ⟨beginEpisode_evtStatus _ _ _ _ _ s, hzero⟩⟩
  obtain ⟨heff, hpath, htwf, hone, hfresh⟩ := hbegun
  refine ⟨(heff.trans (countConcealed_effects _ _ _ u)).trans hfeed.effects, ?_, ?_, fun hf => ⟨?_, ?_⟩⟩
  · rw [← hpath]
    exact (congrArg State.path hfeed).trans rfl
  · rw [hcounter, countConcealed_counter htwf _ _ _ _ (by decide), if_pos rfl, hone]
  · rw [← (hfresh hf).1]
    exact (congrArg (fun x => x.host.evtStatus) hfeed).trans rfl
  · rw [hcounter, countConcealed_counter htwf _ _ _ _ (by decide), if_neg (by decide), (hfresh hf).2]

/-- A CRC that fails (R88) is counted, reported and flagged on its page. -/
theorem crcFailed_spec (p : PagePos) (bar layer c row : Nat) (s : State) :
    CueEffects s (crcFailed p bar layer c row s) ∧ (crcFailed p bar layer c row s).path = s.path
      ∧ (crcFailed p bar layer c row s).store = s.store ∧ (crcFailed p bar layer c row s).keep = s.keep := ⟨rfl, rfl, rfl, rfl⟩

/-! ## DECODE cues (R85 to R88, R117) -/

/-- The context of a DECODE cue, turned to the row group of its row. -/
def turnedContext (s : State) (bar layer : Nat) (p : PagePos) (row c : Nat) : Context :=
  (s.context bar layer c).turn p.start (row / 64) (row % 64 / 8)

/-- No concealment goes on in a context whose row group has not failed. -/
def Context.settled (x : Context) : Context := if x.failed.isNone then { x with concealing := none } else x

/-- The context of a DECODE cue with its row group decoded, before it presents a row. -/
def decodedContext (s : State) (bar layer : Nat) (p : PagePos) (row c : Nat) : Context :=
  let x := turnedContext s bar layer p row c
  (if x.begun then x
    else decodeHeld (s.bank p.bank).image p.pageProg bar layer c (row / 64) (tileOf s p bar layer c (row / 64)) x).settled

theorem addCrc_outs (x : Context) (row : Nat) (px cov : List Byte) : (x.addCrc row px cov).outs = x.outs := by
  unfold Context.addCrc
  split <;> rfl

theorem addCrc_concealing (x : Context) (row : Nat) (px cov : List Byte) : (x.addCrc row px cov).concealing = x.concealing := by
  unfold Context.addCrc
  split <;> rfl

/-- A context after a row of its group, decoded. -/
def Context.present (x : Context) (p : PagePos) (row : Nat) (px cov : List Byte) : Context :=
  { x.addCrc row px cov with
    good := px, goodCov := cov
    outs := { page := p.start, row := row, pixels := px, cov := cov } :: (x.addCrc row px cov).outs.take 1 }

/-- A context after a row that it could not decode. -/
def Context.conceal (x : Context) (p : PagePos) (row : Nat) : Context :=
  { x with clean := false, concealing := some (x.failed.getD .length)
           outs := { page := p.start, row := row, pixels := x.good, cov := x.goodCov } :: x.outs.take 1 }

/-- What a context with its row group decoded makes of its next row. -/
def presentRow (bar layer : Nat) (p : PagePos) (row : Nat) (lead : Int) (s : State) (c : Nat) (x : Context) : State :=
  match x.rows.drop (row % 8) with
  | (px, cov) :: _ =>
    (if (x.addCrc row px cov).crcBad row then crcFailed p bar layer c row s else s).withContext bar layer c (x.present p row px cov)
  | [] => (concealRow p bar layer c row lead (x.failed.getD .length) x.concealing.isNone s).withContext bar layer c (x.conceal p row)

theorem decodeRow_eq (bar layer : Nat) (p : PagePos) (row : Nat) (lead : Int) (s : State) (c : Nat) :
    decodeRow bar layer p row lead s c = if !ctxUsed (s.bank p.bank).image bar layer c
        ∨ (s.context bar layer c).outs.any (fun o => decide (o.page = p.start ∧ o.row = row)) then s
      else presentRow bar layer p row lead s c (decodedContext s bar layer p row c) := rfl

section
variable {s : State} {bar layer : Nat} {p : PagePos} {row : Nat} {lead : Int} {c : Nat} {x : Context}

/-- A context that the image uses and that has not presented the row yet makes its next row. -/
theorem decodeRow_of_due (hused : ctxUsed (s.bank p.bank).image bar layer c = true)
    (houts : (s.context bar layer c).outs.all (fun o => decide (¬(o.page = p.start ∧ o.row = row))) = true) :
    decodeRow bar layer p row lead s c = presentRow bar layer p row lead s c (decodedContext s bar layer p row c) := by
  rw [decodeRow_eq, if_neg]
  simp only [hused, Bool.not_true, Bool.false_eq_true, false_or, List.any_eq_true, not_exists, not_and]
  intro o ho hpos
  have := List.all_eq_true.mp houts o ho
  simp_all

theorem presentRow_decoded {px cov : List Byte} {rest : List (List Byte × List Byte)} (hrow : x.rows.drop (row % 8) = (px, cov) :: rest) :
    presentRow bar layer p row lead s c x = (if (x.addCrc row px cov).crcBad row then crcFailed p bar layer c row s
      else s).withContext bar layer c (x.present p row px cov) := by
  unfold presentRow
  rw [hrow]

theorem presentRow_concealed (hrow : x.rows.drop (row % 8) = []) : presentRow bar layer p row lead s c x
    = (concealRow p bar layer c row lead (x.failed.getD .length) x.concealing.isNone s).withContext bar layer c (x.conceal p row) := by
  unfold presentRow
  rw [hrow]

/-- A presented row leaves, beside its context, what a failed CRC may leave. -/
theorem presentRow_decoded_spec (hs : twf (fun _ => Context.reset) s.path.contexts = true) {px cov : List Byte}
    {rest : List (List Byte × List Byte)} (hrow : x.rows.drop (row % 8) = (px, cov) :: rest) :
    let t := presentRow bar layer p row lead s c x
    t.context bar layer c = x.present p row px cov ∧ t.store = s.store ∧ t.keep = s.keep := by
  intro t
  have ht : t = _ := presentRow_decoded hrow
  obtain ⟨-, hpath, hstore, hkeep⟩ := crcFailed_spec p bar layer c row s
  rw [ht]
  split
  · exact ⟨context_withContext (by rw [hpath]; exact hs) _ _ _ _, hstore, hkeep⟩
  · exact ⟨context_withContext hs _ _ _ _, rfl, rfl⟩

/-- Presenting a row stays within the effects of a cue, and leaves the list of those issued. -/
theorem presentRow_effects (hs : twf (fun _ => 0) s.counters = true) : CueEffects s (presentRow bar layer p row lead s c x)
    ∧ (presentRow bar layer p row lead s c x).path.issued = s.path.issued := by
  have hcontext : ∀ (u : State) (y : Context), CueEffects s u → u.path = s.path →
      CueEffects s (u.withContext bar layer c y) ∧ (u.withContext bar layer c y).path.issued = s.path.issued :=
    fun u y hu hpath => ⟨hu.trans rfl, by rw [← hpath]; rfl⟩
  cases hrow : x.rows.drop (row % 8) with
  | nil =>
    obtain ⟨heff, hpath, -, -⟩ := concealRow_spec hs p bar layer c row lead (x.failed.getD .length) x.concealing.isNone
    rw [presentRow_concealed hrow]
    exact hcontext _ _ heff hpath
  | cons r rest =>
    obtain ⟨heff, hpath, -, -⟩ := crcFailed_spec p bar layer c row s
    rw [presentRow_decoded hrow]
    split
    · exact hcontext _ _ heff hpath
    · exact hcontext _ _ (CueEffects.refl s) rfl

/-- The row of a group without coverage that no CRC covers. -/
theorem blankGroup_rows (x : Context) (row : Nat) :
    x.blankGroup.rows.drop (row % 8) = (blankRow, blankCov) :: List.replicate (7 - row % 8) (blankRow, blankCov) := by
  have : 8 - row % 8 = (7 - row % 8) + 1 := by omega
  rw [Context.blankGroup, List.drop_replicate, this, List.replicate_succ]

end

/-- A group that has failed has no rows. -/
theorem failGroup_rows (x : Context) (e : Conceal) (k : Nat) : (x.failGroup e).rows.drop k = [] := List.drop_nil

/-- A group of an absent tile: a base run that was skipped is blank, and any other has failed (R46, R85). -/
theorem decodeHeld_absent (m : Mem) (pp bar layer c row : Nat) (x : Context) : decodeHeld m pp bar layer c row .absent x
    = if layer = 0 ∧ x.skipped then x.blankGroup else x.failGroup .absent := rfl

section
variable {s : State} {bar layer : Nat} {p : PagePos} {row c : Nat}

/-- A group that was decoded without error stands as it is. -/
theorem decodedContext_begun (hbegun : (turnedContext s bar layer p row c).begun = true)
    (hfailed : (turnedContext s bar layer p row c).failed = none) :
    decodedContext s bar layer p row c = { turnedContext s bar layer p row c with concealing := none } := by
  rw [decodedContext, if_pos hbegun, Context.settled, if_pos (Option.isNone_iff_eq_none.mpr hfailed)]

/-- A group of an empty tile is blank. -/
theorem decodedContext_empty (hbegun : (turnedContext s bar layer p row c).begun = false)
    (htile : tileOf s p bar layer c (row / 64) = .empty) :
    decodedContext s bar layer p row c = { (turnedContext s bar layer p row c).blankGroup with concealing := none } := by
  rw [decodedContext, if_neg (Bool.eq_false_iff.mp hbegun), htile]
  rfl

/-- A group of a base run that was skipped is blank, its tile absent. -/
theorem decodedContext_skipped (hbegun : (turnedContext s bar layer p row c).begun = false)
    (htile : tileOf s p bar layer c (row / 64) = .absent) (hlayer : layer = 0) (hskipped : (turnedContext s bar layer p row c).skipped = true) :
    decodedContext s bar layer p row c = { (turnedContext s bar layer p row c).blankGroup with concealing := none } := by
  rw [decodedContext, if_neg (Bool.eq_false_iff.mp hbegun), htile, decodeHeld_absent, if_pos ⟨hlayer, hskipped⟩]
  rfl

/-- A group of another absent tile has failed. -/
theorem decodedContext_absent (hbegun : (turnedContext s bar layer p row c).begun = false)
    (htile : tileOf s p bar layer c (row / 64) = .absent) (hskipped : layer = 0 → (turnedContext s bar layer p row c).skipped = false) :
    decodedContext s bar layer p row c = (turnedContext s bar layer p row c).failGroup .absent := by
  rw [decodedContext, if_neg (Bool.eq_false_iff.mp hbegun), htile, decodeHeld_absent,
    if_neg (fun ⟨h0, h1⟩ => Bool.eq_false_iff.mp (hskipped h0) h1)]
  rfl

end

/-- A row presented of a group without error. -/
theorem present_decoded (x : Context) (p : PagePos) (row : Nat) (px cov : List Byte) :
    let t := ({ x with concealing := none } : Context).present p row px cov
    t.outs = { page := p.start, row := row, pixels := px, cov := cov } :: x.outs.take 1 ∧ t.good = px ∧ t.goodCov = cov
      ∧ t.concealing = none := by
  unfold Context.present
  rw [addCrc_outs]
  exact ⟨rfl, rfl, rfl, addCrc_concealing _ _ _ _⟩

/-- R85 to R88, R117: a DECODE cue of one context. -/
theorem decodeCue_completes (s : State) (bar page line c : Nat) (cue : Word64) (p : PagePos) (hcue : cueIssues s 2 bar page cue p line = true)
    (hs : CueCanon s) (hc : (Cue.ofWord cue.toNat).contexts = [c])
    (hused : ctxUsed (s.bank p.bank).image bar (Cue.ofWord cue.toNat).layer c = true) :
    let y := (Cue.ofWord cue.toNat).layer
    let row := contoneRow s p bar line
    let x := turnedContext s bar y p row c
    x.outs.all (fun o => decide (¬(o.page = p.start ∧ o.row = row))) = true →
    ∃ t, exec (.decodeCue bar page cue []) s = .next t ∧ cueIssued s t bar page cue.toNat
      ∧ (∀ (px cov : List Byte) (rest : List (List Byte × List Byte)), x.begun = true → x.failed = none →
        x.rows.drop (row % 8) = (px, cov) :: rest →
        (t.context bar y c).outs = { page := p.start, row := row, pixels := px, cov := cov } :: x.outs.take 1
        ∧ (t.context bar y c).good = px ∧ (t.context bar y c).goodCov = cov ∧ (t.context bar y c).concealing = none
        ∧ t.store = s.store ∧ t.keep = s.keep)
      ∧ (x.begun = false → tileOf s p bar y c (row / 64) = .empty →
        (t.context bar y c).outs = { page := p.start, row := row, pixels := blankRow, cov := blankCov } :: x.outs.take 1
        ∧ (t.context bar y c).concealing = none)
      ∧ (x.begun = false → tileOf s p bar y c (row / 64) = .absent → y = 0 → x.skipped = true →
        (t.context bar y c).outs = { page := p.start, row := row, pixels := blankRow, cov := blankCov } :: x.outs.take 1
        ∧ (t.context bar y c).concealing = none)
      ∧ (x.begun = false → tileOf s p bar y c (row / 64) = .absent → (y = 0 → x.skipped = false) →
        (t.context bar y c).outs = { page := p.start, row := row, pixels := x.good, cov := x.goodCov } :: x.outs.take 1
        ∧ (t.context bar y c).concealing = some .absent
        ∧ t.counter 1 = sat 8 (s.counter 1 + concealedLines s p bar row)
        ∧ (x.concealing = none → t.host.evtStatus = s.host.evtStatus ||| BitVec.ofNat 16 8 ∧ t.counter 0 = sat 8 (s.counter 0 + 1))) := by
  intro y row x houts
  let n := noteCue bar page cue.toNat s
  have hn : n = { s with path := { s.path with issued := s.path.issued ++ [(bar, page, cue.toNat)] }, trace := n.trace } :=
    noteCue_frame bar page cue.toNat s
  have hcontexts : twf (fun _ => Context.reset) n.path.contexts = true := by rw [hn]; exact hs.contexts
  have hcounters : twf (fun _ => 0) n.counters = true := by rw [hn]; exact hs.counters
  have hturned : turnedContext n bar y p row c = x := by rw [hn]; rfl
  have htile : tileOf n p bar y c (row / 64) = tileOf s p bar y c (row / 64) := by rw [hn]; rfl
  have hcounter : ∀ i, n.counter i = s.counter i := fun i => by rw [hn]; rfl
  have hexec : exec (.decodeCue bar page cue []) s
      = .next (presentRow bar y p row (Cue.ofWord cue.toNat).lead n c (decodedContext n bar y p row c)) := by
    refine (congrArg Host.Outcome.next (playCue_issues hcue _)).trans ?_
    have hrow : contoneRow n p bar line = row := by rw [hn]; rfl
    show Host.Outcome.next ((Cue.ofWord cue.toNat).contexts.foldl (decodeRow bar y p (contoneRow n p bar line) (Cue.ofWord cue.toNat).lead) n) = _
    rw [hc, hrow]
    refine congrArg _ (decodeRow_of_due (by rw [hn]; exact hused) ?_)
    rw [show x.outs = (s.context bar y c).outs from turn_outs _ _ _ _] at houts
    rw [hn]
    exact houts
  have hblank : decodedContext n bar y p row c = { x.blankGroup with concealing := none } →
      ((presentRow bar y p row (Cue.ofWord cue.toNat).lead n c (decodedContext n bar y p row c)).context bar y c).outs
        = { page := p.start, row := row, pixels := blankRow, cov := blankCov } :: x.outs.take 1
      ∧ ((presentRow bar y p row (Cue.ofWord cue.toNat).lead n c (decodedContext n bar y p row c)).context bar y c).concealing = none := by
    intro hdecoded
    rw [hdecoded]
    obtain ⟨hcontext, -, -⟩ := presentRow_decoded_spec (bar := bar) (layer := y) (p := p) (lead := (Cue.ofWord cue.toNat).lead) (c := c)
      (x := { x.blankGroup with concealing := none }) hcontexts (blankGroup_rows x row)
    obtain ⟨houts, -, -, hconcealing⟩ := present_decoded x.blankGroup p row blankRow blankCov
    rw [hcontext]
    exact ⟨houts, hconcealing⟩
  obtain ⟨heffects, hissued⟩ := presentRow_effects (bar := bar) (layer := y) (p := p) (row := row) (lead := (Cue.ofWord cue.toNat).lead)
    (c := c) (x := decodedContext n bar y p row c) hcounters
  refine ⟨_, hexec, cueIssued_of_effects hissued heffects, fun px cov rest hbegun hfailed hrow => ?_, fun hbegun hempty => ?_,
    fun hbegun habsent hy hskipped => ?_, fun hbegun habsent hskipped => ?_⟩
  · rw [decodedContext_begun (by rw [hturned]; exact hbegun) (by rw [hturned]; exact hfailed), hturned]
    obtain ⟨hcontext, hstore, hkeep⟩ := presentRow_decoded_spec (bar := bar) (layer := y) (p := p) (lead := (Cue.ofWord cue.toNat).lead)
      (c := c) (x := { x with concealing := none }) hcontexts hrow
    obtain ⟨houts, hgood, hcov, hconcealing⟩ := present_decoded x p row px cov
    rw [hcontext, hstore, hkeep, hn]
    exact ⟨houts, hgood, hcov, hconcealing, rfl, rfl⟩
  · exact hblank (by rw [decodedContext_empty (by rw [hturned]; exact hbegun) (by rw [htile]; exact hempty), hturned])
  · exact hblank (by rw [decodedContext_skipped (by rw [hturned]; exact hbegun) (by rw [htile]; exact habsent) hy
      (by rw [hturned]; exact hskipped), hturned])
  · rw [decodedContext_absent (by rw [hturned]; exact hbegun) (by rw [htile]; exact habsent) (by rw [hturned]; exact hskipped), hturned,
      presentRow_concealed (failGroup_rows x .absent _)]
    obtain ⟨-, hpath, hone, hfresh⟩ := concealRow_spec (s := n) hcounters p bar y c row (Cue.ofWord cue.toNat).lead .absent
      x.concealing.isNone
    have hlines : concealedLines n p bar row = concealedLines s p bar row := by rw [hn]; rfl
    rw [hlines, hcounter] at hone
    have hcontext : ((concealRow p bar y c row (Cue.ofWord cue.toNat).lead .absent x.concealing.isNone n).withContext bar y c
        ((x.failGroup .absent).conceal p row)).context bar y c = (x.failGroup .absent).conceal p row :=
      context_withContext (by rw [hpath]; exact hcontexts) _ _ _ _
    refine ⟨congrArg Context.outs hcontext, congrArg Context.concealing hcontext, hone, fun hnone => ?_⟩
    obtain ⟨hevent, hzero⟩ := hfresh (by rw [hnone]; rfl)
    rw [hcounter] at hzero
    exact ⟨hevent.trans (by rw [hn]), hzero⟩

/-- R52: an END cue is noted, and does nothing else. -/
theorem endCue_completes (s : State) (bar page : Nat) (p : PagePos) (hplayed : playedPage s page = some p) (hmay : mayIssue s bar p 0 = true) :
    ∃ t, exec (.endCue bar page) s = .next t
      ∧ t = { s with trace := t.trace, path := { s.path with issued := s.path.issued ++ [(bar, page, 0)] } } := by
  refine ⟨noteCue bar page 0 s, ?_, noteCue_frame bar page 0 s⟩
  simp only [exec, execEndCue, hplayed, hmay, if_true]

/-- Settles O50: RUN, read data, DECODE and END by the lemma of each. -/
theorem fetchAndDecodeCuesComplete : Obligations.FetchAndDecodeCuesComplete := by
  unfold Obligations.FetchAndDecodeCuesComplete
  exact ⟨fun s bar page line cue p hcue => runCue_completes s bar page line cue p hcue,
    fun s bar layer c e hs => readDataReturn_arrives s bar layer c e (cueCanon_of_canonOk hs),
    fun s bar page line c cue p hcue hs hc hused => decodeCue_completes s bar page line c cue p hcue (cueCanon_of_canonOk hs) hc hused,
    endCue_completes⟩

end Sys2Proof.Machine
end

section
/-! TONE, SCREEN and MAP cues: print values, drop levels and slot lines (R136 to R145, R159; log 65). -/

namespace Sys2Proof.Machine

open Sys2Proof

/-! ## Tables without poison, latches that are loaded (R149, R158) -/

/-- Reads of a bank without a poisoned word meet nothing. -/
theorem meetWords_clean {s : State} {cls bar start : Nat} (h : (s.table cls bar).poison ((s.table cls bar).bankFor start) = [])
    (offs : List Nat) : s.meetWords cls bar start offs = s := by
  unfold State.meetWords State.meetSpans
  simp only []
  rw [if_pos h]

/-- A map that agrees on both branches goes into a choice. -/
theorem ite_map {α β : Type} {c : Prop} [Decidable c] (f : α → β) {a b : α} {x y : β} (hx : x = f a) (hy : y = f b) :
    (if c then x else y) = f (if c then a else b) := by
  rw [hx, hy, apply_ite f]

/-- The state with another print path and another trace. -/
def State.withPathTrace (s : State) (x : PrintPath) (y : Trace) : State := { s with path := x, trace := y }

/-- The print path and the trace have no part in what a read of a table word meets. -/
theorem meetSpans_withPathTrace (s : State) (x : PrintPath) (y : Trace) (cls bar start : Nat) (spans : List (Nat × Nat)) :
    (s.withPathTrace x y).meetSpans cls bar start spans = (s.meetSpans cls bar start spans).withPathTrace x y := by
  unfold State.meetSpans
  refine ite_map (fun s : State => s.withPathTrace x y) rfl ?_
  exact List.foldl_hom (fun s : State => s.withPathTrace x y) (init := (s.countN 21 _).withTable cls bar _) (fun _ _ => rfl)

/-- They have none in the loading of a header latch either. -/
theorem loadLatch_withPathTrace (s : State) (x : PrintPath) (y : Trace) (cls bar start : Nat) :
    (s.withPathTrace x y).loadLatch cls bar start = (s.loadLatch cls bar start).withPathTrace x y := by
  unfold State.loadLatch
  exact ite_map (fun s : State => s.withPathTrace x y) rfl
    (ite_map (fun s : State => s.withPathTrace x y) rfl
      (ite_map (fun s : State => s.withPathTrace x y) (meetSpans_withPathTrace (s.withLatch cls bar _) x y cls bar start _) rfl))

/-- A latch that is loaded for a page stays as it is when a cue of that page is noted. -/
theorem loadLatch_noteCue {s : State} {cls bar start : Nat} (h : s.loadLatch cls bar start = s) (b page word : Nat) :
    (noteCue b page word s).loadLatch cls bar start = noteCue b page word s := by
  rw [noteCue_frame]
  exact (loadLatch_withPathTrace _ _ _ _ _ _).trans (congrArg (fun s : State => s.withPathTrace _ _) h)

/-! ## Tables of a line's columns -/

/-- Values put under distinct keys are read back, and other keys read as before. -/
theorem foldl_nput {β : Type} (key val : β → Nat) (l : List β) (hl : (l.map key).Nodup) (t : Tab Nat) (ht : twf (fun _ => 0) t = true) :
    (∀ y ∈ l, nget (l.foldl (fun t y => nput t (key y) (val y)) t) (key y) = val y)
      ∧ ∀ k, (∀ y ∈ l, key y ≠ k) → nget (l.foldl (fun t y => nput t (key y) (val y)) t) k = nget t k := by
  obtain ⟨-, hput, hrest⟩ := foldl_pointwise nget (fun t => twf (fun _ => 0) t = true) (fun y _ b => b = val y) key
    (fun t y => nput t (key y) (val y)) l (fun t y _ ht => ⟨twf_tput _ _ _ _ ht, (nget_nput _ _ _ _ ht).trans (if_pos rfl),
      fun k hk => (nget_nput _ _ _ _ ht).trans (if_neg hk)⟩) hl t ht
  exact ⟨hput, hrest⟩

theorem placed_fst {α : Type} (l : List α) : (placed l).map Prod.fst = List.range l.length := List.map_fst_zip (by simp)

theorem mem_placed {α : Type} {l : List α} {x : Nat} {a : α} (h : l[x]? = some a) : (x, a) ∈ placed l := by
  obtain ⟨hx, rfl⟩ := List.getElem?_eq_some_iff.mp h
  exact List.mem_iff_getElem.mpr ⟨x, by simpa [placed] using hx, by simp [placed]⟩

/-! ## Line values -/

theorem findVals_key {s : State} {bar page line : Nat} {above : Int} {v : LineVals} (h : findVals s bar page line above = some v) :
    v.bar = bar ∧ v.page = page ∧ v.line = line ∧ v.above = above := by
  simpa using List.find?_some h

theorem vals_of_none {s : State} {bar page line : Nat} {above : Int} (h : findVals s bar page line above = none) :
    s.vals bar page line above = { bar := bar, page := page, line := line, above := above, toned := 0, print := [], levels := [] } := by
  rw [State.vals, h]
  rfl

theorem vals_of_some {s : State} {bar page line : Nat} {above : Int} {v : LineVals} (h : findVals s bar page line above = some v) :
    s.vals bar page line above = v := by
  rw [State.vals, h]
  rfl

/-- Values of a pass that has not begun join those of the other passes. -/
theorem withVals_new {s : State} {v : LineVals} (h : findVals s v.bar v.page v.line v.above = none) :
    s.withVals v = s.withPath { s.path with lines := s.path.lines ++ [v] } := by
  unfold State.withVals
  rw [h]

theorem vals_withVals_new {s : State} {v : LineVals} (h : findVals s v.bar v.page v.line v.above = none) :
    (s.withVals v).vals v.bar v.page v.line v.above = v := by
  rw [withVals_new h]
  refine vals_of_some ?_
  unfold findVals at h ⊢
  rw [withPath_path, List.find?_append, h]
  simp

/-- New levels of a pass that has begun take the place of the earlier ones. -/
theorem withVals_levels {s : State} {bar page line : Nat} {above : Int} {v : LineVals} (h : findVals s bar page line above = some v)
    (levels : Tab Nat) : s.withVals { v with levels := levels }
      = s.withPath { s.path with lines := s.path.lines.map (fun l => if l = v then { v with levels := levels } else l) } := by
  obtain ⟨rfl, rfl, rfl, rfl⟩ := findVals_key h
  unfold State.withVals
  rw [h]

theorem vals_withVals_levels {s : State} {bar page line : Nat} {above : Int} {v : LineVals} (h : findVals s bar page line above = some v)
    (levels : Tab Nat) : (s.withVals { v with levels := levels }).vals bar page line above = { v with levels := levels } := by
  rw [withVals_levels h]
  obtain ⟨rfl, rfl, rfl, rfl⟩ := findVals_key h
  have hsame : (fun l : LineVals => decide (l.bar = v.bar ∧ l.page = v.page ∧ l.line = v.line ∧ l.above = v.above))
        ∘ (fun l => if l = v then { v with levels := levels } else l)
      = fun l => decide (l.bar = v.bar ∧ l.page = v.page ∧ l.line = v.line ∧ l.above = v.above) := by
    funext l
    by_cases hl : l = v <;> simp [hl]
  refine vals_of_some ?_
  unfold findVals at h ⊢
  rw [withPath_path, List.find?_map, hsame, h, Option.map_some, if_pos rfl]

/-! ## TONE (R136 to R142, R268) -/

/-- The print value of column `x.1` of a unit, whose tone is `x.2`. -/
def printAt (s : State) (p : PagePos) (bar unit line : Nat) (x : Nat × Nat) : Nat :=
  printValue x.2 (lineGain s bar p.start (unit / 16) line) (s.liveNum 2 bar p.start (2 * (16 * unit + x.1)) 2 0x8000)
    (s.headerNum 0 bar p.start 2 2)

/-- The print values of a line whose first toned unit is `unit`. -/
def firstPrint (s : State) (p : PagePos) (bar unit line : Nat) : Tab Nat :=
  (placed ((unitComposites s p bar unit line).map (toneOf s bar p.start))).foldl (fun t x =>
    nput t (16 * unit + x.1) (printAt s p bar unit line x)) []

theorem nodup_placed_keys {α : Type} (l : List α) (k : Nat) : ((placed l).map (fun x => k + x.1)).Nodup := by
  have : (placed l).map (fun x => k + x.1) = (List.range l.length).map (k + ·) := by rw [← placed_fst, List.map_map]; rfl
  rw [this]
  exact nodup_range_add _ _

theorem nget_firstPrint {s : State} {p : PagePos} {bar unit line x c : Nat} (h : (unitComposites s p bar unit line)[x]? = some c) :
    nget (firstPrint s p bar unit line) (16 * unit + x) = printAt s p bar unit line (x, toneOf s bar p.start c) := by
  have hmem : (x, toneOf s bar p.start c) ∈ placed ((unitComposites s p bar unit line).map (toneOf s bar p.start)) :=
    mem_placed (by rw [List.getElem?_map, h]; rfl)
  have hput := (foldl_nput (fun y => 16 * unit + y.1) (printAt s p bar unit line) _ (nodup_placed_keys _ _) [] rfl).1 _ hmem
  exact hput

/-- The values of a line whose first toned unit is `unit`. -/
def firstVals (s : State) (p : PagePos) (bar unit line : Nat) (above : Int) : LineVals :=
  { bar := bar, page := p.start, line := line, above := above, toned := 2 ^ unit, print := firstPrint s p bar unit line, levels := [] }

theorem nget_firstVals {s : State} {p : PagePos} {bar unit line x c : Nat} (above : Int)
    (h : (unitComposites s p bar unit line)[x]? = some c) :
    nget (firstVals s p bar unit line above).print (16 * unit + x) = printValue (toneOf s bar p.start c) (lineGain s bar p.start (unit / 16) line)
      (s.liveNum 2 bar p.start (2 * (16 * unit + x)) 2 0x8000) (s.headerNum 0 bar p.start 2 2) := by
  simpa only [firstVals, printAt] using nget_firstPrint h

theorem feedUnit_feedWork (b page line unit sum : Nat) (ramp : Bool) (s : State) : FeedWork s (feedUnit b page line unit sum ramp s) := rfl

theorem withKeep_feedWork (s : State) (k : Keeping) : FeedWork s (s.withKeep k) := rfl

theorem withPoison_feedWork (s : State) (l : List Nat) : FeedWork s (s.withPoison l) := rfl

theorem writeSlotBytes_feedWork (slot : Nat) (bs : List Byte) (s : State) : FeedWork s (writeSlotBytes slot bs s) := by
  unfold writeSlotBytes
  exact (share_onlyDram s _).feed.trans ((devWrite_feedWork _ _ _).trans (withPoison_feedWork _ _))

theorem writeFeed_feedWork (p : PagePos) (o : FeedOpen) (s : State) : FeedWork s (writeFeed p o s) := by
  unfold writeFeed
  exact (writeSlotBytes_feedWork _ _ s).trans (withKeep_feedWork _ _)

theorem feedLineDone_feedWork (b page line : Nat) (s : State) : FeedWork s (feedLineDone b page line s) := by
  unfold feedLineDone
  split
  · exact FeedWork.refl s
  · split
    · exact FeedWork.refl s
    · have hopen : FeedWork s (updOpen page (line / 64) (fun o => { o with bars := setBit o.bars b true }) s) := updOpen_feedWork _ _ _ s
      refine hopen.trans ?_
      simp only []
      split
      · exact FeedWork.refl _
      · split
        · exact writeFeed_feedWork _ _ _
        · exact FeedWork.refl _

/-- A unit of a line that the pass has not begun: its values are added, and beside that the feed history's sums alone change. -/
theorem toneUnit_begins {s : State} {bar line unit : Nat} {p : PagePos} {above : Int}
    (hclean : ∀ cls, cls ≤ 2 → (s.table cls bar).poison ((s.table cls bar).bankFor p.start) = [])
    (hnew : findVals s bar p.start line above = none) :
    FeedWork (s.withVals (firstVals s p bar unit line above)) (toneUnit bar p line above s unit) := by
  have hset : setBit 0 unit true = 2 ^ unit := by simp [setBit]
  unfold toneUnit
  simp only [vals_of_none hnew, hset]
  rw [meetWords_clean (hclean 0 (by decide)), meetWords_clean (hclean 1 (by decide)), meetWords_clean (hclean 2 (by decide))]
  split
  · exact feedUnit_feedWork _ _ _ _ _ _ _
  · exact FeedWork.refl _

/-- TONE of one unit, its latches loaded: the unit is toned, and the line's last one may close a block of the feed history. -/
theorem runTone_oneUnit {s : State} {bar line : Nat} {p : PagePos} {q : Cue} (hunits : q.units = 1) (hunit : q.unit < 6912)
    (hlatches : ∀ cls ∈ [0, 1, 3], s.loadLatch cls bar p.start = s) :
    FeedWork (toneUnit bar p line (4 - q.lead) s q.unit) (runTone bar p q line s) := by
  have hlist : ((List.range q.units).map (fun i => q.unit + i)).filter (fun u => decide (u < 6912)) = [q.unit] := by
    simp [hunits, hunit]
  unfold runTone
  simp only [List.foldl_cons, List.foldl_nil, hlatches 0 (by decide), hlatches 1 (by decide), hlatches 3 (by decide), hlist]
  split
  · exact feedLineDone_feedWork _ _ _ _
  · exact FeedWork.refl _

theorem FeedWork.path {s t : State} (h : FeedWork s t) : t.path = s.path := by
  unfold FeedWork at h
  rw [h]

theorem FeedWork.link {s t : State} (h : FeedWork s t) : t.link = s.link := by
  unfold FeedWork at h
  rw [h]

theorem FeedWork.vals {s t : State} (h : FeedWork s t) (bar page line : Nat) (above : Int) :
    t.vals bar page line above = s.vals bar page line above := by
  unfold State.vals findVals
  rw [h.path]

theorem toneCue_completes (s : State) (bar page line : Nat) (cue : Word64) (p : PagePos) (hcue : cueIssues s 3 bar page cue p line = true) :
    let q := Cue.ofWord cue.toNat
    q.units = 1 → q.unit < 6912 → (∀ cls ∈ [0, 1, 3], s.loadLatch cls bar p.start = s) →
    (∀ cls, cls ≤ 2 → (s.table cls bar).poison ((s.table cls bar).bankFor p.start) = []) → findVals s bar p.start line (4 - q.lead) = none →
    ∃ t, exec (.toneCue bar page cue []) s = .next t ∧ cueIssued s t bar page cue.toNat
      ∧ (∀ x c, (unitComposites s p bar q.unit line)[x]? = some c → nget (t.vals bar p.start line (4 - q.lead)).print (16 * q.unit + x) =
        printValue (toneOf s bar p.start c) (lineGain s bar p.start (q.unit / 16) line)
          (s.liveNum 2 bar p.start (2 * (16 * q.unit + x)) 2 0x8000) (s.headerNum 0 bar p.start 2 2))
      ∧ (t.vals bar p.start line (4 - q.lead)).toned = 2 ^ q.unit ∧ t.link = s.link := by
  intro q hunits hunit hlatches hclean hnew
  let n := noteCue bar page cue.toNat s
  let v := firstVals s p bar q.unit line (4 - q.lead)
  have hn : n = { s with path := { s.path with issued := s.path.issued ++ [(bar, page, cue.toNat)] }, trace := n.trace } :=
    noteCue_frame bar page cue.toNat s
  have hnewn : findVals n bar p.start line (4 - q.lead) = none := by rw [hn]; exact hnew
  have hvals : firstVals n p bar q.unit line (4 - q.lead) = v := by rw [hn]; rfl
  have hwork : FeedWork (n.withVals v) (runTone bar p q line n) := by
    have hbegins := toneUnit_begins (unit := q.unit) (by rw [hn]; exact hclean) hnewn
    rw [hvals] at hbegins
    exact hbegins.trans (runTone_oneUnit hunits hunit (fun cls hcls => loadLatch_noteCue (hlatches cls hcls) _ _ _))
  have hadd : n.withVals v = n.withPath { n.path with lines := n.path.lines ++ [v] } := withVals_new hnewn
  have hv : (runTone bar p q line n).vals bar p.start line (4 - q.lead) = v := (hwork.vals _ _ _ _).trans (vals_withVals_new hnewn)
  refine ⟨runTone bar p q line n, congrArg Host.Outcome.next (playCue_issues hcue _), cueIssued_of_effects ?_ ?_, ?_, ?_, ?_⟩
  · rw [hwork.path, hadd]
    rfl
  · exact CueEffects.trans (t := n.withVals v) (by rw [hadd]; rfl) hwork.effects
  · intro x c hx
    rw [hv]
    exact nget_firstVals (4 - q.lead) hx
  · rw [hv]
    rfl
  · rw [hwork.link, hadd, hn]
    rfl

/-! ## SCREEN (R143 to R145) -/

/-- The columns of a cue that lie on the bar. -/
def barColumns (q : Cue) : List Nat := q.columns.filter (fun x => decide (x < 110592))

/-- The levels of a line after a SCREEN cue. -/
def screenedLevels (s : State) (bar start line : Nat) (q : Cue) (v : LineVals) : Tab Nat :=
  (barColumns q).foldl (fun t x => nput t x (screenCol s bar start line x (nget v.print x))) v.levels

theorem barColumns_nodup (q : Cue) : ((barColumns q).map id).Nodup := by
  rw [List.map_id]
  exact (nodup_range_add _ _).filter _

theorem screenedLevels_spec (s : State) (bar start line : Nat) (q : Cue) {v : LineVals} (hv : twf (fun _ => 0) v.levels = true) :
    (∀ x ∈ q.columns, x < 110592 → nget (screenedLevels s bar start line q v) x = screenCol s bar start line x (nget v.print x))
      ∧ ∀ x, x ∉ q.columns → nget (screenedLevels s bar start line q v) x = nget v.levels x := by
  obtain ⟨hput, hrest⟩ := foldl_nput id (fun x => screenCol s bar start line x (nget v.print x)) (barColumns q) (barColumns_nodup q) v.levels hv
  refine ⟨fun x hx hlt => hput x (List.mem_filter.mpr ⟨hx, decide_eq_true hlt⟩), fun x hx => hrest x ?_⟩
  intro y hy hxy
  exact hx (hxy ▸ (List.mem_filter.mp hy).1)

/-- SCREEN of a line whose print values stand, its latch loaded and its mask clean: the levels are replaced. -/
theorem runScreen_levels {s : State} {bar line : Nat} {p : PagePos} {q : Cue} {v : LineVals} (hlatch : s.loadLatch 4 bar p.start = s)
    (hclean : (s.table 4 bar).poison ((s.table 4 bar).bankFor p.start) = []) (hv : findVals s bar p.start line (3 - q.lead) = some v) :
    runScreen bar p q line s = s.withVals { v with levels := screenedLevels s bar p.start line q v } := by
  unfold runScreen
  simp only [hlatch, vals_of_some hv]
  rw [meetWords_clean hclean]
  rfl

theorem screenCue_completes (s : State) (bar page line : Nat) (cue : Word64) (p : PagePos) (v : LineVals)
    (hcue : cueIssues s 4 bar page cue p line = true) :
    let q := Cue.ofWord cue.toNat
    s.loadLatch 4 bar p.start = s → (s.table 4 bar).poison ((s.table 4 bar).bankFor p.start) = [] →
    findVals s bar p.start line (3 - q.lead) = some v → twf (fun _ => 0) v.levels = true →
    ∃ t, exec (.screenCue bar page cue []) s = .next t ∧ cueIssued s t bar page cue.toNat
      ∧ (∀ x ∈ q.columns, x < 110592 → nget (t.vals bar p.start line (3 - q.lead)).levels x = screenCol s bar p.start line x (nget v.print x))
      ∧ (∀ x, x ∉ q.columns → nget (t.vals bar p.start line (3 - q.lead)).levels x = nget v.levels x)
      ∧ (t.vals bar p.start line (3 - q.lead)).print = v.print
      ∧ t = { s with trace := t.trace, path := { s.path with issued := t.path.issued, lines := t.path.lines } } := by
  intro q hlatch hclean hv hlevels
  let n := noteCue bar page cue.toNat s
  let levels := screenedLevels s bar p.start line q v
  have hn : n = { s with path := { s.path with issued := s.path.issued ++ [(bar, page, cue.toNat)] }, trace := n.trace } :=
    noteCue_frame bar page cue.toNat s
  have hvn : findVals n bar p.start line (3 - q.lead) = some v := by rw [hn]; exact hv
  have hcleann : (n.table 4 bar).poison ((n.table 4 bar).bankFor p.start) = [] := by rw [hn]; exact hclean
  have hsame : screenedLevels n bar p.start line q v = levels := by rw [hn]; rfl
  have hrun : runScreen bar p q line n = n.withVals { v with levels := levels } := by
    rw [runScreen_levels (loadLatch_noteCue hlatch _ _ _) hcleann hvn, hsame]
  have hlines := withVals_levels hvn levels
  have hvals := vals_withVals_levels hvn levels
  obtain ⟨hput, hrest⟩ := screenedLevels_spec s bar p.start line q hlevels
  refine ⟨n.withVals { v with levels := levels }, ?_, cueIssued_of_effects ?_ ?_, ?_, ?_, ?_, ?_⟩
  · rw [← hrun]
    exact congrArg Host.Outcome.next (playCue_issues hcue _)
  · rw [hlines]
    rfl
  · rw [hlines]
    rfl
  · rwa [hvals]
  · rwa [hvals]
  · rw [hvals]
  · rw [hlines, hn]
    rfl

/-! ## MAP (R159 to R173) -/

/-- The slot line that MAP makes of a slot which the record describes. -/
def mappedLine (s : State) (bar start line : Nat) (q : Cue) : SlotLine :=
  let due := dueTick s bar q.slot start line
  let n := recN s bar start q.slot
  let levels := mapLevels s bar q.slot start line (s.vals bar start line (3 - q.lead)).levels
  { bar := bar, slot := q.slot, due := due, page := start, line := line, row := firingRow due
    trail := firesTrail (recLeadB s bar start q.slot) due
    stream := packLevels n (2 ^ recNum s bar start q.slot 7 1) (fun j => nth 0 levels (nozzleOf n (recDesc s bar start q.slot) j))
    began := false, voided := false, gate := false, sent := 0 }

/-- Line staging with a slot line in place of an earlier one of the same line. -/
def stagingWith (staging : List SlotLine) (x : SlotLine) : List SlotLine :=
  staging.filter (fun l => !decide (l.bar = x.bar ∧ l.slot = x.slot ∧ l.page = x.page ∧ l.line = x.line)) ++ [x]

/-- A slot line of a tick that is not sampled adds no wear (R171). -/
theorem wearLine_unsampled {t : Nat} (h : 2 ≤ t % 64) (b sl start : Nat) (byNozzle : List (Nat × Nat)) (s : State) :
    wearLine b sl start t byNozzle s = s := if_neg (Nat.not_lt.mpr h)

/-- MAP of a slot that the latched record describes: its slot line goes into staging. -/
theorem runMap_stages {s : State} {bar line : Nat} {p : PagePos} {q : Cue} (hfitted : s.fitted bar q.slot = true)
    (hlatch : s.loadLatch 5 bar p.start = s) (hclean : (s.table 5 bar).poison ((s.table 5 bar).bankFor p.start) = [])
    (hslot : slotWithdrawn s bar q.slot p.start = false) (hdescribed : recN s bar p.start q.slot ≠ 0)
    (hdue : 2 ≤ dueTick s bar q.slot p.start line % 64) :
    runMap bar p q line s = s.withPath { s.path with staging := stagingWith s.path.staging (mappedLine s bar p.start line q) } := by
  unfold runMap
  simp only [hfitted, hlatch, hdescribed, Bool.not_true, Bool.false_eq_true, if_false]
  rw [meetWords_clean hclean, wearLine_unsampled hdue, hslot]
  rfl

theorem mapCue_completes (s : State) (bar page line : Nat) (cue : Word64) (p : PagePos) (hcue : cueIssues s 5 bar page cue p line = true) :
    let q := Cue.ofWord cue.toNat
    s.fitted bar q.slot = true → s.loadLatch 5 bar p.start = s → (s.table 5 bar).poison ((s.table 5 bar).bankFor p.start) = [] →
    slotWithdrawn s bar q.slot p.start = false → recN s bar p.start q.slot ≠ 0 → 2 ≤ dueTick s bar q.slot p.start line % 64 →
    ∃ t, exec (.mapCue bar page cue []) s = .next t ∧ cueIssued s t bar page cue.toNat
      ∧ t.path.staging = stagingWith s.path.staging (mappedLine s bar p.start line q)
      ∧ t = { s with trace := t.trace, path := { s.path with issued := t.path.issued, staging := t.path.staging } } := by
  intro q hfitted hlatch hclean hslot hdescribed hdue
  let n := noteCue bar page cue.toNat s
  have hn : n = { s with path := { s.path with issued := s.path.issued ++ [(bar, page, cue.toNat)] }, trace := n.trace } :=
    noteCue_frame bar page cue.toNat s
  have hsame : mappedLine n bar p.start line q = mappedLine s bar p.start line q := by rw [hn]; rfl
  have hrun : runMap bar p q line n
      = n.withPath { n.path with staging := stagingWith n.path.staging (mappedLine s bar p.start line q) } := by
    rw [← hsame]
    exact runMap_stages (by rw [hn]; exact hfitted) (loadLatch_noteCue hlatch _ _ _) (by rw [hn]; exact hclean) (by rw [hn]; exact hslot)
      (by rw [hn]; exact hdescribed) (by rw [hn]; exact hdue)
  refine ⟨n.withPath { n.path with staging := stagingWith n.path.staging (mappedLine s bar p.start line q) }, ?_,
    cueIssued_of_effects rfl rfl, ?_, ?_⟩
  · rw [← hrun]
    exact congrArg Host.Outcome.next (playCue_issues hcue _)
  · rw [withPath_path, hn]
  · rw [hn]
    rfl

/-- Settles O51: TONE, SCREEN and MAP by the lemma of each. -/
theorem toneScreenMapCuesComplete : Obligations.ToneScreenMapCuesComplete := by
  unfold Obligations.ToneScreenMapCuesComplete
  exact ⟨toneCue_completes, screenCue_completes, mapCue_completes⟩

end Sys2Proof.Machine
end

section
/-! PAGE_READY: its refusals in their order, and the binding (R47, R82, R105, R378). -/

namespace Sys2Proof.Machine

open Sys2Proof

/-! ## Accepted commands that answer at once -/

theorem hostOnly.trans_reply {s t u : State} {h : Hdr} (h1 : hostOnly s t h) (h2 : replyFrame t u) : hostOnly s u h := by
  unfold hostOnly replyFrame at *
  rw [h2, h1]

/-- An accepted command whose rules answer at once: its answer is its ring's latest reply, and beside that reply it has done what its
rules do to the accepted state. -/
theorem hostCmd_answers {i : Instr} {h : Hdr} {c : CmdInfo} {body : State → State × Answer} {s s' u : State} {a : Answer}
    (ha : accepts s h c = true) (hbody : body (begun s h c) = (u, a)) (hring : u.ring h.ring = (begun s h c).ring h.ring)
    (hu : hostOnly s' u h) :
    repliedWith (hostCmd i h c body s) h.ring h.tag c.opcode a.status a.result = true ∧ hostOnly s' (hostCmd i h c body s) h := by
  have hr : (body (begun s h c)).1.ring h.ring = (begun s h c).ring h.ring := by rw [hbody]; exact hring
  have hreply := (hostCmd_replies i h c body s ha hr).2.2
  have hframe := hostCmd_frame i h c body s ha hr
  rw [hbody] at hreply hframe
  exact ⟨hreply, hu.trans_reply hframe⟩

/-- An accepted command that is refused changes nothing but for its reply. -/
theorem hostCmd_refuses {i : Instr} {h : Hdr} {c : CmdInfo} {body : State → State × Answer} {s : State} {st : Nat}
    (ha : accepts s h c = true) (hbody : body (begun s h c) = (begun s h c, refuse st)) :
    repliedWith (hostCmd i h c body s) h.ring h.tag c.opcode st [] = true ∧ hostOnly s (hostCmd i h c body s) h :=
  hostCmd_answers ha hbody rfl rfl

/-! ## What the checks of PAGE_READY read -/

theorem spansFrom_congr {s s' : State} (hbank : s.bank = s'.bank) (k n e used index : Nat) :
    spansFrom s k n e used index = spansFrom s' k n e used index := by
  induction n generalizing e used index with
  | zero => rfl
  | succ n ih => simp only [spansFrom, hbank, ih]

/-- Which page programs place the pages of a range depends on the run and its banks alone. -/
theorem rangePrograms_begun (s : State) (h : Hdr) (c : CmdInfo) (job first count : Nat) :
    rangePrograms (begun s h c) job first count = rangePrograms s job first count := by
  have hspans : ∀ k n e used index, spansFrom (begun s h c) k n e used index = spansFrom s k n e used index :=
    spansFrom_congr rfl
  have hjob : jobSpans (begun s h c) job = jobSpans s job := by
    simp only [jobSpans, hspans]
    rfl
  simp only [rangePrograms, hjob]

/-! ## The cases of PAGE_READY -/

section
variable {s : State} {job first count d : Nat} (hcount : count ≠ 0) (hjob : jobKnown s job = true) (harea : (s.area d).isSome = true)
include hcount hjob harea

/-- A page of the range has passed its fence. -/
theorem readyBody_passed (hpassed : rangePassed s job first count = true) :
    readyBody job first count d s = (s, refuse stWrongState) := by
  simp [readyBody, hcount, hjob, Option.isNone_eq_false_iff.mpr harea, hpassed]

/-- The ready queue is full. -/
theorem readyBody_full (hpassed : rangePassed s job first count = false) (hfull : 1024 ≤ s.run.ready.length) :
    readyBody job first count d s = (s, refuse stNoResource) := by
  simp [readyBody, hcount, hjob, Option.isNone_eq_false_iff.mpr harea, hpassed, hfull]

/-- The descriptor is wrong in itself, or does not fit a page program of the range. -/
theorem readyBody_unfit (hpassed : rangePassed s job first count = false) (hroom : s.run.ready.length < 1024)
    (hunfit : descriptorSound s d = false ∨ ∃ x ∈ rangePrograms s job first count, descriptorFits s d x.1 x.2 = false) :
    readyBody job first count d s = (s, refuse stBadParam) := by
  have hunfit : descriptorSound s d = false ∨ (rangePrograms s job first count).any (fun x => !descriptorFits s d x.1 x.2) = true := by
    simpa using hunfit
  simp only [readyBody, hcount, hjob, Option.isNone_eq_false_iff.mpr harea, hpassed, Nat.not_le.mpr hroom, Bool.not_true,
    Bool.not_eq_true', hunfit, Bool.false_eq_true, or_self, if_false, if_true]

/-- A descriptor that fits, over stored base tiles that have the budget's spans, is bound. -/
theorem readyBody_binds (hpassed : rangePassed s job first count = false) (hroom : s.run.ready.length < 1024)
    (hsound : descriptorSound s d = true)
    (hfit : ∀ x ∈ rangePrograms s job first count, descriptorFits s d x.1 x.2 = true ∧ budgetMiss s d x.1 x.2 = none) :
    readyBody job first count d s = (mirrorReady (s.withRun { s.run with ready := s.run.ready ++
      [{ jobId := job, first := first, count := count, descriptor := d, signature := descSignature s d }] }), refuse stOk) := by
  have hfits : (rangePrograms s job first count).any (fun x => !descriptorFits s d x.1 x.2) = false := by
    simpa using fun a b hx => (hfit (a, b) hx).1
  have hbudget : (rangePrograms s job first count).findSome? (fun x => budgetMiss s d x.1 x.2) = none :=
    List.findSome?_eq_none_iff.mpr fun x hx => (hfit x hx).2
  simp only [readyBody, hcount, hjob, Option.isNone_eq_false_iff.mpr harea, hpassed, Nat.not_le.mpr hroom, hsound, hfits, hbudget,
    Bool.not_true, Bool.false_eq_true, or_self, if_false]

end

/-- Settles O12: each case of the command's rules, on the accepted state, whose run, store and banks are those of the state before. -/
theorem pageReadyBinds : Obligations.PageReadyBinds := by
  unfold Obligations.PageReadyBinds
  intro s h job first count d ha hcount hjob harea
  refine ⟨fun hpassed => ?_, fun hpassed hfull => ?_, fun hpassed hroom hunfit => ?_, fun hpassed hroom hsound hfit => ?_⟩
  · exact ⟨_, rfl, hostCmd_refuses ha (readyBody_passed hcount hjob harea hpassed)⟩
  · exact ⟨_, rfl, hostCmd_refuses ha (readyBody_full hcount hjob harea hpassed hfull)⟩
  · rw [← rangePrograms_begun s h (cmdOf 0x0053 0)] at hunfit
    exact ⟨_, rfl, hostCmd_refuses ha (readyBody_unfit hcount hjob harea hpassed hroom hunfit)⟩
  · rw [← rangePrograms_begun s h (cmdOf 0x0053 0)] at hfit
    exact ⟨_, rfl, hostCmd_answers ha (readyBody_binds hcount hjob harea hpassed hroom hsound hfit) rfl rfl⟩

end Sys2Proof.Machine
end

section
/-! Period updates take effect; registration marks start a run, measure pages and go missing (R71, R94, R238 to R241, R246, R247). -/

namespace Sys2Proof.Machine

open Sys2Proof

/-! ## Counters -/

/-- A counter that counts reads one more, up to its limit, whatever the table of counters. -/
theorem counter_count_self (s : State) (i : Nat) : (s.count i).counter i = sat 8 (s.counter i + 1) :=
  tget_tput_same _ _ _ _ (by simp [sat])

/-! ## Period updates (R94, R246, R247) -/

/-- What `applyUpdates` leaves when `x` is the last update due. -/
theorem applyUpdates_due {s : State} {x : PeriodUpdate}
    (hx : (s.web.updates.filter (fun u => decide (u.effective ≤ s.web.webPos))).getLast? = some x) :
    applyUpdates s = setPeriod (clampPeriod s x.period) (s.withWeb { s.web with
      pEnc := x.pEnc, updates := s.web.updates.filter (fun u => decide (s.web.webPos < u.effective)) }) := by
  simp only [applyUpdates, hx]
  rfl

/-- A new period: the nominal one is set, the frame's own holds what late updates add, and the record of frames follows. -/
theorem setPeriod_eq (p : Nat) (s : State) : setPeriod p s = { s with
    trace := (setPeriod p s).trace
    web := { s.web with
      nominal := p
      period := if lateSum s s.web.webPos = 0 then p else clampPeriod s ((p : Int) + lateSum s s.web.webPos).toNat
      history := s.web.history.map (fun f => if f.1 = s.web.webPos then
        (f.1, f.2.1, if lateSum s s.web.webPos = 0 then p else clampPeriod s ((p : Int) + lateSum s s.web.webPos).toNat) else f) } } :=
  traceRec_withTrace _ _ _ _

theorem periodUpdateEffective_completes (s : State) (x : PeriodUpdate) (hrun : s.web.running = true)
    (hx : (s.web.updates.filter (fun u => decide (u.effective ≤ s.web.webPos))).getLast? = some x) :
    ∃ t, exec .periodUpdateEffective s = .next t
      ∧ t.web.period = (if lateSum s s.web.webPos = 0 then clampPeriod s x.period
          else clampPeriod s ((clampPeriod s x.period : Int) + lateSum s s.web.webPos).toNat)
      ∧ t = { s with
          trace := t.trace
          web := { s.web with
            period := t.web.period, nominal := clampPeriod s x.period, pEnc := x.pEnc
            updates := s.web.updates.filter (fun u => decide (s.web.webPos < u.effective))
            history := s.web.history.map (fun f => if f.1 = s.web.webPos then (f.1, f.2.1, t.web.period) else f) } } := by
  have hstep : exec .periodUpdateEffective s = .next (applyUpdates s) := congrArg Host.Outcome.next (if_pos hrun)
  rw [applyUpdates_due hx, setPeriod_eq] at hstep
  exact ⟨_, hstep, rfl, rfl⟩

/-! ## An edge of a mark input (R238) -/

/-- A level held for less than the filter time changes nothing. -/
theorem markEdge_filtered (s : State) (input u held : Nat) (level : Bool) (hheld : held < markFilterTime s) :
    exec (.markEdge input level held u) s = .next (s.at u) := if_pos hheld

/-- The state in which an accepted edge acts: the filter time has passed. -/
def atMark (s : State) (u : Time) : State := s.at (u + markFilterTime s)

/-- The time stamp of an edge, to 1 ns. -/
def markStamp (s : State) (u : Time) : Nat := (atMark s u).clk.baseAt u / nsT * nsT

/-- An accepted edge may start a run; with the line clock stopped it does no more. -/
theorem markEdge_unplaced {s t : State} {input u held : Nat} {level : Bool} (hheld : markFilterTime s ≤ held)
    (hstart : startAtMark input (markStamp s u) (atMark s u) = t) (hpos : markPosition t (markStamp s u) = none) :
    exec (.markEdge input level held u) s = .next t := by
  subst hstart
  change execMarkEdge input level held u s = _
  simp only [markStamp, atMark] at hpos ⊢
  simp only [execMarkEdge, Nat.not_lt.mpr hheld, if_false, hpos]

/-- With the line clock running, the edge then has its position. -/
theorem markEdge_placed {s t : State} {input u held wm : Nat} {level : Bool} (hheld : markFilterTime s ≤ held)
    (hstart : startAtMark input (markStamp s u) (atMark s u) = t) (hpos : markPosition t (markStamp s u) = some wm) :
    exec (.markEdge input level held u) s = .next (takeMark input level wm t) := by
  subst hstart
  change execMarkEdge input level held u s = _
  simp only [markStamp, atMark] at hpos ⊢
  simp only [execMarkEdge, Nat.not_lt.mpr hheld, if_false, hpos]

/-- In ARMED with the line clock stopped, the edge that RUN_START waits for sets T_run, and no more (R71). -/
theorem markEdge_starts (s : State) (input u held : Nat) (level : Bool) (hdev : s.dev = .armed) (hmark : s.run.startMark = some input)
    (hstop : s.web.running = false) (hheld : markFilterTime s ≤ held) :
    exec (.markEdge input level held u) s = .next ((atMark s u).withRun { s.run with
      startMark := none, startArmed := true, tRun := markStamp s u + msT }) :=
  markEdge_unplaced hheld (if_pos ⟨hdev, hmark⟩) (if_pos (by simp [atMark, hstop]))

/-- The state after an accepted edge whose position is kept. -/
def markKept (s : State) (u : Time) (input wm : Nat) : State :=
  (atMark s u).withWeb { s.web with marks := nput s.web.marks input wm }

/-- Outside ARMED, an edge of the registration input in its direction registers a page. -/
theorem markEdge_registers {s : State} {input held wm : Nat} {u : Time} (hreg : registers s = true) (hdev : s.dev ≠ .armed)
    (hinput : s.tabNum 8 0 0 1 = input) (hheld : markFilterTime s ≤ held) (hpos : markPosition s (markStamp s u) = some wm) :
    exec (.markEdge input (decide (s.tabNum 8 0 1 1 = 0)) held u) s = .next (registerEdge wm (markKept s u input wm)) := by
  have hregisters : (registers (markKept s u input wm) && decide (s.tabNum 8 0 0 1 = input)
      && (decide (s.tabNum 8 0 1 1 = 0) == decide (s.tabNum 8 0 1 1 = 0))) = true := by
    simp only [beq_self_eq_true, hinput, decide_true, Bool.and_true]
    exact hreg
  rw [markEdge_placed (t := atMark s u) hheld (if_neg fun h => hdev h.1) hpos]
  exact congrArg Host.Outcome.next (if_pos hregisters)

/-! ## Which page an edge is of (R240) -/

/-- A walk over the positions of the run depends on the state only through what follows a position. -/
theorem walkPages_congr {s s' : State} (hfollow : following s = following s') (want stop : PagePos → Bool) (n : Nat) (p : PagePos)
    (rest : List PagePos) : walkPages s want stop n p rest = walkPages s' want stop n p rest := by
  induction n generalizing p rest with
  | zero => rfl
  | succ n ih => simp only [walkPages, hfollow, ih]

/-- Neither elapsed time nor the positions kept of marks bear on which page an edge is of. -/
theorem markedPage_markKept (s : State) (u : Time) (input kept : Nat) (wm : Int) :
    markedPage (markKept s u input kept) wm = markedPage s wm := by
  have hwalk := @walkPages_congr (markKept s u input kept) s rfl
  simp only [markedPage, findPage, hwalk]
  rfl

/-- An edge in the capture of a page, without a tolerance: its error is kept and logged, and the page's mark has come. -/
theorem registerEdge_measures {s : State} {wm : Int} {p : PagePos} (hpage : markedPage s wm = some p) (htol : s.tabNum 8 0 12 4 = 0) :
    registerEdge wm s = State.report ((s.noteMarked p.start).withWeb { s.web with eps := some (wm - markExpected s p), regActive := true })
      0x3006 (logKey none none none none) 0 (leInt 4 (wm - markExpected s p) ++ leBytes 4 p.pageIndex) := by
  simp only [registerEdge, hpage]
  exact if_neg fun h => h.1 htol

/-- An edge in no capture is counted. -/
theorem registerEdge_counts {s : State} {wm : Int} (hpage : markedPage s wm = none) : registerEdge wm s = s.count 16 := by
  simp only [registerEdge, hpage]

theorem markEdge_measures (s : State) (input u held wm : Nat) (p : PagePos) (hreg : registers s = true) (hdev : s.dev ≠ .armed)
    (hinput : s.tabNum 8 0 0 1 = input) (htol : s.tabNum 8 0 12 4 = 0) (hheld : markFilterTime s ≤ held)
    (hpos : markPosition s (markStamp s u) = some wm) (hpage : markedPage s wm = some p) :
    ∃ t, exec (.markEdge input (decide (s.tabNum 8 0 1 1 = 0)) held u) s = .next t ∧ t.web.eps = some (wm - markExpected s p)
      ∧ t = { s with
          clk := (atMark s u).clk, log := t.log, run := { s.run with marked := s.run.marked ++ [p.start] }
          web := { s.web with marks := nput s.web.marks input wm, eps := t.web.eps, regActive := true } } := by
  have hstep := markEdge_registers hreg hdev hinput hheld hpos
  rw [registerEdge_measures ((markedPage_markKept s u input wm wm).trans hpage) htol] at hstep
  exact ⟨_, hstep, rfl, rfl⟩

theorem markEdge_counts (s : State) (input u held wm : Nat) (hreg : registers s = true) (hdev : s.dev ≠ .armed)
    (hinput : s.tabNum 8 0 0 1 = input) (hheld : markFilterTime s ≤ held) (hpos : markPosition s (markStamp s u) = some wm)
    (hpage : markedPage s wm = none) :
    ∃ t, exec (.markEdge input (decide (s.tabNum 8 0 1 1 = 0)) held u) s = .next t ∧ t.counter 16 = sat 8 (s.counter 16 + 1)
      ∧ t = { s with
          clk := (atMark s u).clk, counters := t.counters, web := { s.web with marks := nput s.web.marks input wm } } := by
  have hstep := markEdge_registers hreg hdev hinput hheld hpos
  rw [registerEdge_counts ((markedPage_markKept s u input wm wm).trans hpage)] at hstep
  exact ⟨_, hstep, counter_count_self _ 16, rfl⟩

/-! ## A mark that does not come (R240, R241) -/

theorem markMissing_completes (s : State) (p : PagePos) (hpos : s.posAt p.start = some p) (hreg : registers s = true)
    (hinput : s.tabNum 8 0 0 1 ≠ 0xFF) (hopen : p.start ∉ s.run.marked)
    (hpassed : markExpected s p + captureWidth s ≤ (256 * s.web.webPos : Nat)) :
    ∃ t, exec (.markMissing p.start) s = .next t ∧ t.counter 17 = sat 8 (s.counter 17 + 1)
      ∧ t = { s with
          counters := t.counters, web := { s.web with regActive := false }
          run := { s.run with marked := s.run.marked ++ [p.start] } } := by
  have hdue : (registers s && decide (s.tabNum 8 0 0 1 ≠ 0xFF) && decide (p.start ∉ s.run.marked)
      && decide (markExpected s p + captureWidth s ≤ (256 * s.web.webPos : Nat))) = true := by
    simp only [hreg, hinput, hopen, hpassed, ne_eq, not_false_eq_true, decide_true, Bool.and_self]
  have hstep : exec (.markMissing p.start) s
      = .next (((s.noteMarked p.start).count 17).withWeb { s.web with regActive := false }) := by
    change execMarkMissing p.start s = _
    simp only [execMarkMissing, hpos]
    exact if_pos hdue
  exact ⟨_, hstep, counter_count_self _ 17, rfl⟩

/-- Settles O49: the update, the edge in its four cases and the missing mark, by the lemma of each. -/
theorem updatesAndMarksComplete : Obligations.UpdatesAndMarksComplete := by
  unfold Obligations.UpdatesAndMarksComplete
  exact ⟨periodUpdateEffective_completes, markEdge_starts, markEdge_filtered, markEdge_measures, markEdge_counts, markMissing_completes⟩

end Sys2Proof.Machine
end

section
/-! A RUN_ARM beside a CAL_RUN, a tick at which a period update is due, and a RUN_STOP on the lead of a press at a later instant (R68, R94,
R95, R246, R329, R412, R415). -/

namespace Sys2Proof.Machine

open Sys2Proof

/-! ## Small states -/

/-- The state that a step answers, if it answers one. -/
def stateAfter (o : Result) : Option State :=
  match o with
  | .next t => some t
  | _ => none

/-- A step that answers `t`, read through a function of the state. -/
theorem map_of_next {α : Type} {o : Result} {t : State} (h : o = .next t) (f : State → α) : (stateAfter o).map f = some (f t) := by
  rw [h]
  rfl

/-- A device up in a state, with ring 0 served, as device 0 of a press of `n` devices with one bar and no head. -/
def pressDevice (d : DevState) (n : Nat) : State :=
  { State.reset with
    dev := d
    host := { HostIf.reset with linkUp := true, rings := [(0, { Ring.reset with enabled := true, replyBase := 8192, log2 := 4 })] }
    boot := { BootUnit.reset with path := .up }
    press := some { index := 0, devices := n, barMask := 1, gateFilter := 0, motion := { Motion.reset with linePitch := 21167000 }
                    bars := [], slots := [], digest := 0 } }

/-- The header of a command of ring 0 and TAG 1 that comes at elapsed time `t`. -/
def headerAtTime (t : Time) : Hdr := { ring := 0, tag := 1, flags := 0, paramLen := 56, rsv := false, paramRsv := false, t := t }

/-- The active bank: periods of 10 to 100 µs, bar 0, and one sequence entry without end. -/
def smallBank : Bank :=
  { Bank.reset with
    loaded := true, checked := true
    image := [(32, leBytes 8 (10 * usT)), (40, leBytes 8 (100 * usT)), (52, [1]), (128, [7]), (140, [1])].foldl
      (fun m e => mwrite zeroByte m e.1 e.2) [] }

/-! ## RUN_ARM beside a CAL_RUN (R68, R329, R415) -/

/-- A CAL_RUN of TAG 2 that names lane 0 of group 0 alone and has not begun it. -/
def waitingCalRun : CalOp := { ring := 0, tag := 2, todo := [0], counts := [], firstBad := 0xFFFF, total := 1, woken := [0] }

/-- An idle device with that CAL_RUN, in which DS has come to substitute for lane 2 of group 0. -/
def calibratingInIdle : State :=
  let s := pressDevice .idle 1
  { s with
    clk := { s.clk with elapsed := 20 * msT }
    host := { s.host with
      rings := [(0, { Ring.reset with enabled := true, replyBase := 8192, log2 := 4, owed := 1 })]
      longOps := [{ ring := 0, tag := 2, opcode := 0xC0, orphan := false, progress := 0, pos := false, quiet := false, skipped := false
                    lastProgress := 0, lastAt := 0, acceptedAt := 0 }] }
    run := { s.run with banks := [(0, smallBank)] }
    link := { s.link with groups :=
      [(0, { Group.reset with down := .l0, up := .l0, wokeFrom := .ls, locked := true, failedLane := some 2, dsLane := some 2 })] }
    thermal := { s.thermal with op := some waitingCalRun } }

theorem calibratingInIdle_invariants :
    canonOk calibratingInIdle = true ∧ pressOk calibratingInIdle = true ∧ fireOk calibratingInIdle = true := by decide +kernel

/-- RUN_ARM lets the waiting target begin; it ends at once for its lane is on DS (R420), and with it PROGRESS of the CAL_RUN comes to 10,000. -/
theorem runArm_advances_calRun :
    (stateAfter (exec (.runArm (headerAtTime (20 * msT)) 0 0 0 0 64) calibratingInIdle)).map
      (fun t => t.host.longOps.map (fun l => (l.tag, l.progress))) = some [(2, 10000), (1, 0)] := by decide +kernel

/-- Refutes O18: its first clause has the long operations after RUN_ARM be those before it and its own, but RUN_ARM lets pending calibrations
begin (R415), and one that ends at once advances the CAL_RUN that names it. -/
theorem not_runArmCompletes : ¬ Obligations.RunArmCompletes := by
  unfold Obligations.RunArmCompletes
  rintro ⟨harm, -⟩
  obtain ⟨t, hexec, ⟨hops, -⟩, -⟩ :=
    harm calibratingInIdle (headerAtTime (20 * msT)) 0 0 0 0 64 (by decide +kernel) (by decide +kernel)
  have hprogress := runArm_advances_calRun
  rw [map_of_next hexec, hops] at hprogress
  exact absurd hprogress (by decide +kernel)

/-! ## A tick at which a period update is due (R94, R246) -/

/-- A follower at tick 100 of a run with a period of 20 µs, for which the lead's update to 21 µs from tick 100 on has still to take effect. -/
def updateDueInRun : State :=
  let s := pressDevice .run 2
  { s with
    clk := { s.clk with elapsed := 2 * msT }
    net := { s.net with lead := { s.net.lead with role := .follower } }
    run := { s.run with banks := [(0, smallBank)], p0 := 20 * usT }
    web := { s.web with
      running := true, ticked := true, webPos := 100, tickTime := 2 * msT, period := 20 * usT, nominal := 20 * usT
      updates := [{ seq := 1, effective := 100, period := 21 * usT, pEnc := .unset }] } }

theorem updateDueInRun_invariants :
    canonOk updateDueInRun = true ∧ pressOk updateDueInRun = true ∧ fireOk updateDueInRun = true := by decide +kernel

/-- The frame that the tick ends has the updated period. -/
theorem lineClockTick_at_updated_period :
    (stateAfter (exec (.lineClockTick 0) updateDueInRun)).map (fun t => t.web.tickTime) = some (2 * msT + 21 * usT) := by
  decide +kernel

/-- Refutes O19: its last clause has a tick come one `period` after the one before, but a period update that is due takes effect first. -/
theorem not_runStartsAndTicks : ¬ Obligations.RunStartsAndTicks := by
  unfold Obligations.RunStartsAndTicks
  rintro ⟨-, -, htick⟩
  obtain ⟨t, hexec, -, htime, -⟩ :=
    htick updateDueInRun 0 rfl rfl (by decide +kernel) rfl (by decide +kernel) (by intro w hw; cases hw)
  have hupdated := lineClockTick_at_updated_period
  rw [map_of_next hexec, htime] at hupdated
  exact absurd hupdated (by decide +kernel)

/-! ## RUN_STOP on the lead of a press (R95, R412) -/

/-- The lead of a press at tick 100 of a run, 2 ms after T_run, whose first page ends at web position 605. -/
def leadInRun : State :=
  let s := pressDevice .run 2
  { s with
    clk := { s.clk with elapsed := 2 * msT }
    net := { s.net with lead := { s.net.lead with role := .lead } }
    run := { s.run with
      banks := [(0, smallBank)], leadIn := 5, p0 := 20 * usT
      pages := [{ start := 5, length := 590, gap := 10, bank := 0, pageProg := 0, gapProg := 0, seqEntry := 0, repeatNo := 0, pageIndex := 0
                  jobId := 0, placed := true, resolved := true, blank := true, descriptor := none, baseOnly := false, flags := 0
                  underrunLines := 0, absent := [], gapRaised := false, done := false, patterned := false }] }
    web := { s.web with running := true, ticked := true, webPos := 100, tickTime := 2 * msT, period := 20 * usT, nominal := 20 * usT } }

theorem leadInRun_invariants : canonOk leadInRun = true ∧ pressOk leadInRun = true ∧ fireOk leadInRun = true := by decide +kernel

/-- Tick 600 lies exactly 10 ms ahead of that state, and less than 10 ms ahead of a RUN_STOP that comes 10 µs later. -/
theorem runStop_too_late :
    (stateAfter (exec (.runStop (headerAtTime (2 * msT + 10 * usT)) 1 605) leadInRun)).map (fun t => t.dev) = some .run := by
  decide +kernel

/-- Refutes O21: its clause for AT_BOUNDARY asks whether the boundary is free in the state before the command, but on the lead of a press
tick B - 5 must lie 10 ms ahead of the instant of the command itself (R412). -/
theorem not_runEndsAndRejoins : ¬ Obligations.RunEndsAndRejoins := by
  unfold Obligations.RunEndsAndRejoins
  rintro ⟨-, -, hstop, -⟩
  obtain ⟨t, hexec, -, hdev, -⟩ :=
    hstop leadInRun (headerAtTime (2 * msT + 10 * usT)) 605 (by decide +kernel) rfl (by decide +kernel) (by decide +kernel) rfl
  have hlate := runStop_too_late
  rw [map_of_next hexec, hdev] at hlate
  exact absurd hlate (by decide +kernel)

end Sys2Proof.Machine
end

section
/-! STORE_ALLOC hands out areas whose units were free (R98, R106), and STORE_WRITE takes the bursts it covers out of the poison map (R108, R289,
R305). -/

namespace Sys2Proof.Machine

open Sys2Proof

/-! ## The search for an area (R106) -/

/-- A unit is free when it lies in the heap and no area holds it. -/
theorem unitFree_iff (s : State) (u : Nat) : unitFree s u = true ↔ heapUnit s u = true ∧ ∀ a ∈ s.store.areas, a.holds u = false := by
  simp [unitFree]

/-- The search over the `k` units from `u` on, when the `run` units before `u` are free and still too few: what it finds ends among those
units, and each of its `n` units is free. -/
theorem fitFrom_free {s : State} {n v : Nat} (k u run : Nat) (hrun : run ≤ u) (hshort : run < n)
    (hbefore : ∀ w, u - run ≤ w → w < u → unitFree s w = true) (hfit : fitFrom s n k u run = some v) :
    v + n ≤ u + k ∧ ∀ w, v ≤ w → w < v + n → unitFree s w = true := by
  induction k generalizing u run with
  | zero => simp [fitFrom] at hfit
  | succ k ih =>
    rw [fitFrom] at hfit
    split at hfit
    next hu =>
      have hthrough : ∀ w, u - run ≤ w → w < u + 1 → unitFree s w = true := fun w hlo hhi =>
        (Nat.lt_succ_iff_lt_or_eq.mp hhi).elim (hbefore w hlo) (fun e => e ▸ hu)
      split at hfit
      next hlast =>
        cases hfit
        exact ⟨by omega, fun w hlo hhi => hthrough w hlo (by omega)⟩
      next hmore =>
        obtain ⟨hend, hfree⟩ := ih (u + 1) (run + 1) (by omega) (by omega) (fun w hlo => hthrough w (by omega)) hfit
        exact ⟨by omega, hfree⟩
    next hu =>
      obtain ⟨hend, hfree⟩ := ih (u + 1) 0 (Nat.zero_le _) (by omega) (fun w hlo hhi => by omega) hfit
      exact ⟨by omega, hfree⟩

/-- Settles O11: the search from the first unit on, with no free unit before it. -/
theorem allocatedAreaWasFree : Obligations.AllocatedAreaWasFree := by
  unfold Obligations.AllocatedAreaWasFree
  intro s n u hn hfit
  obtain ⟨hend, hfree⟩ := fitFrom_free (heapEnd s) 0 0 (Nat.le_refl 0) hn (fun w _ hw => absurd hw (Nat.not_lt_zero w)) hfit
  exact ⟨by omega, fun i hi => (unitFree_iff s (u + i)).mp (hfree (u + i) (by omega) (by omega))⟩

/-! ## STORE_WRITE over a burst that the poison map names (R108, R289, R305) -/

/-- An idle device with one area, of heap unit 0, whose first burst holds the poison marker and stands in the poison map. -/
def poisonedArea : State :=
  let s := pressDevice .idle 1
  { s with store := { s.store with areas := [{ handle := 0, units := 1, bytes := 4096 }], poison := [0], poisonMap := [0] } }

theorem poisonedArea_invariants : canonOk poisonedArea = true ∧ pressOk poisonedArea = true ∧ fireOk poisonedArea = true := by
  decide +kernel

/-- A STORE_WRITE of that burst clears its poison, and its entry of the poison map goes with the marker. -/
theorem storeWrite_empties_poisonMap :
    (stateAfter (exec (.storeWrite (headerAtTime 0) 1 0 0 4096 64 0) poisonedArea)).map (fun t => (t.store.poison, t.store.poisonMap))
      = some ([], []) := by
  decide +kernel

/-- Refutes O10: its clause for a STORE_WRITE of an area leaves every field of the store but the bytes and the poison as it was, but the
entries that the poison map has for the bursts written leave it with their markers. -/
theorem not_storeCommandsComplete : ¬ Obligations.StoreCommandsComplete := by
  unfold Obligations.StoreCommandsComplete
  rintro ⟨-, -, -, -, -, hwrite⟩
  obtain ⟨t, hexec, -, hstore, -⟩ :=
    hwrite poisonedArea (headerAtTime 0) 0 4096 64 0 { handle := 0, units := 1, bytes := 4096 } (by decide +kernel) rfl rfl (by decide) rfl
      (by decide) (by decide +kernel) rfl
  have hmap := storeWrite_empties_poisonMap
  rw [map_of_next hexec, hstore] at hmap
  exact absurd (congrArg (Option.map Prod.snd) hmap) (by decide)

end Sys2Proof.Machine
end

section
/-! Long operations from ACCEPTED to their final reply (R326, R329, R330): what their start leaves, and the one of a ring and tag while it runs. -/

namespace Sys2Proof.Machine

open Sys2Proof

/-! ## The operation of a ring and tag -/

/-- The list of long operations replaced. -/
def State.withLongs (s : State) (l : List LongOp) : State := s.withHost { s.host with longOps := l }

theorem liveOp_spec {s : State} {ring tag : Nat} {l : LongOp} (h : s.liveOp ring tag = some l) :
    l ∈ s.host.longOps ∧ l.ring = ring ∧ l.tag = tag ∧ l.orphan = false := by
  have hl := List.find?_some h
  simp only [Bool.and_eq_true, decide_eq_true_eq, Bool.not_eq_true'] at hl
  obtain ⟨⟨hring, htag⟩, horphan⟩ := hl
  exact ⟨List.mem_of_find?_eq_some h, hring, htag, horphan⟩

/-- An event finds the operation whose ring still answers. -/
theorem longOp_of_liveOp {s : State} {ring tag : Nat} {l : LongOp} (h : s.liveOp ring tag = some l) : s.longOp ring tag = some l := by
  unfold State.liveOp at h
  simp only [State.longOp, h]

theorem liveOp_of_longOp {s : State} {ring tag : Nat} {l : LongOp} (h : s.longOp ring tag = some l) (hl : l.orphan = false) :
    s.liveOp ring tag = some l := by
  unfold State.longOp at h
  split at h
  next l' hl' =>
    cases h
    exact hl'
  next hnone =>
    have hnamed : decide (l.ring = ring ∧ l.tag = tag) = true :=
      List.find?_some (p := fun o : LongOp => decide (o.ring = ring ∧ o.tag = tag)) h
    have hlive := List.find?_eq_none.mp hnone l (List.mem_of_find?_eq_some h)
    simp [hl, of_decide_eq_true hnamed] at hlive

/-- The first operation with a property, replaced by another one with that property. -/
theorem find?_replaceLong {p : LongOp → Bool} {o x : LongOp} {l : List LongOp} (ho : l.find? p = some o) (hx : p x = true) :
    (replaceLong o x l).find? p = some x := by
  induction l with
  | nil => simp at ho
  | cons y l ih =>
    unfold replaceLong
    split
    · exact List.find?_cons_of_pos hx
    next hy =>
      have hpy : ¬p y = true := fun hpy => hy (Option.some.inj (by rwa [List.find?_cons_of_pos hpy] at ho))
      rw [List.find?_cons_of_neg hpy] at ho ⊢
      exact ih ho

theorem length_erase_add_one {α : Type} [BEq α] [LawfulBEq α] {a : α} {l : List α} (h : a ∈ l) : (l.erase a).length + 1 = l.length := by
  rw [List.length_erase_of_mem h]
  exact Nat.sub_add_cancel (List.length_pos_of_mem h)

theorem length_replaceLong (o x : LongOp) (l : List LongOp) : (replaceLong o x l).length = l.length := by
  induction l with
  | nil => rfl
  | cons y l ih =>
    unfold replaceLong
    split
    · rfl
    · simp [ih]

theorem length_longOps_updLong (s : State) (ring tag : Nat) (f : LongOp → LongOp) :
    (s.updLong ring tag f).host.longOps.length = s.host.longOps.length := by
  simp only [State.updLong, State.withHost]
  split
  · rfl
  · exact length_replaceLong _ _ _

theorem liveOp_updLong {s : State} {ring tag : Nat} {f : LongOp → LongOp} {l : LongOp} (h : s.liveOp ring tag = some l)
    (hring : (f l).ring = ring) (htag : (f l).tag = tag) (horphan : (f l).orphan = false) :
    (s.updLong ring tag f).liveOp ring tag = some (f l) := by
  simp only [State.updLong, longOp_of_liveOp h]
  exact find?_replaceLong h (by simp [hring, htag, horphan])

/-! ## Replies -/

theorem replied_of_last {s : State} {ring : Nat} {r : Reply} (h : (s.ring ring).last = some r) :
    replied s ring r.tag r.opcode r.status r.final = true := by simp [replied, h]

theorem repliedWith_of_last {s : State} {ring : Nat} {r : Reply} (h : (s.ring ring).last = some r) (hfinal : r.final = true) :
    repliedWith s ring r.tag r.opcode r.status r.result = true := by simp [repliedWith, replied, h, hfinal]

theorem longOps_putReply (s : State) (r : Reply) : (s.putReply r).host.longOps = s.host.longOps := by
  have hframe := putReply_frame s r
  unfold replyFrame at hframe
  rw [hframe]

/-- A reply that uses an owed entry of an enabled ring. -/
theorem ring_oweLess_putReply {s : State} {r : Reply} (h : (s.ring r.ring).enabled = true) (n : Nat) :
    (((s.oweLess r.ring n).putReply r).ring r.ring).last = some { r with phase := (s.ring r.ring).phase, timestamp := s.baseUs }
      ∧ (((s.oweLess r.ring n).putReply r).ring r.ring).fetched = (s.ring r.ring).fetched := by
  have howed := oweLess_ring s r.ring n h
  rw [putReply_ring _ _ (by rw [howed]; exact h), howed]
  exact ⟨rfl, rfl⟩

/-! ## A running operation -/

/-- A long operation of this ring, tag and opcode runs, and its ring is enabled and holds no fetched entry. -/
structure LongRuns (s : State) (ring tag opcode : Nat) : Prop where
  live : ∃ l, s.liveOp ring tag = some l ∧ l.opcode = opcode
  enabled : (s.ring ring).enabled = true
  fetched : (s.ring ring).fetched = []

/-- What `runsLong` says of the operation that an event names, whose work is complete. -/
theorem longRuns_of_runsLong {s : State} {o : OpRef} {opcode : Nat} (h : runsLong s o opcode = true) :
    LongRuns s o.ring o.tag opcode ∧ o.reach = none := by
  simp only [runsLong, Bool.and_eq_true, decide_eq_true_eq, Option.isNone_iff_eq_none] at h
  obtain ⟨⟨⟨hop, henabled⟩, hfetched⟩, hreach⟩ := h
  split at hop
  · cases hop
  next l hl =>
    simp only [Bool.and_eq_true, decide_eq_true_eq, Bool.not_eq_true'] at hop
    obtain ⟨hcode, horphan⟩ := hop
    exact ⟨⟨⟨l, liveOp_of_longOp hl horphan, hcode⟩, henabled, hfetched⟩, hreach⟩

theorem LongRuns.congr {s t : State} {ring tag opcode : Nat} (h : LongRuns s ring tag opcode) (hrings : t.host.rings = s.host.rings)
    (hlongs : t.host.longOps = s.host.longOps) : LongRuns t ring tag opcode := by
  obtain ⟨hlive, henabled, hfetched⟩ := h
  constructor
  · simpa only [State.liveOp, hlongs] using hlive
  · simpa only [State.ring, hrings] using henabled
  · simpa only [State.ring, hrings] using hfetched

/-- An event of an operation that runs acts on it. -/
theorem withStep_runs {s : State} {o : OpRef} {opcode : Nat} (h : LongRuns s o.ring o.tag opcode) (f : LongOp → State → State) :
    ∃ l, withStep o opcode f s = (f l (s.at o.t)).settle o.ring := by
  obtain ⟨l, hl, hop⟩ := h.live
  have hlong : (s.at o.t).longOp o.ring o.tag = some l := longOp_of_liveOp hl
  exact ⟨l, by simp only [withStep, hlong, hop, if_true]⟩

theorem LongRuns.putReply {s : State} {ring tag opcode : Nat} (h : LongRuns s ring tag opcode) {r : Reply} (hr : r.ring = ring) :
    LongRuns (s.putReply r) ring tag opcode := by
  subst hr
  obtain ⟨hlive, henabled, hfetched⟩ := h
  have hring := putReply_ring s r henabled
  constructor
  · simpa only [State.liveOp, longOps_putReply] using hlive
  · rw [hring]
    exact henabled
  · rw [hring]
    exact hfetched

theorem LongRuns.updLong {s : State} {ring tag opcode : Nat} (h : LongRuns s ring tag opcode) {f : LongOp → LongOp}
    (hf : ∀ l, s.longOp ring tag = some l →
      (f l).ring = l.ring ∧ (f l).tag = l.tag ∧ (f l).opcode = l.opcode ∧ (f l).orphan = l.orphan) :
    LongRuns (s.updLong ring tag f) ring tag opcode := by
  obtain ⟨⟨l, hl, hop⟩, henabled, hfetched⟩ := h
  obtain ⟨-, hring, htag, horphan⟩ := liveOp_spec hl
  obtain ⟨hfring, hftag, hfop, hforphan⟩ := hf l (longOp_of_liveOp hl)
  exact ⟨⟨f l, liveOp_updLong hl (hfring.trans hring) (hftag.trans htag) (hforphan.trans horphan), hfop.trans hop⟩, henabled, hfetched⟩

/-! ## The end of a running operation -/

/-- The final reply of a long operation (R329). -/
def finalReply (l : LongOp) (a : Answer) : Reply :=
  { ring := l.ring, tag := l.tag, status := a.status, progress := if a.status = stOk ∧ !l.pos then 10000 else l.progress, phase := false
    final := true, pos := l.pos, skipped := l.skipped, opcode := l.opcode, timestamp := 0, result := a.result }

theorem finishLong_eq {s : State} {ring tag : Nat} {l : LongOp} (h : s.liveOp ring tag = some l) (a : Answer) :
    s.finishLong ring tag a = ((s.withLongs (s.host.longOps.erase l)).oweLess l.ring 1).putReply (finalReply l a) := by
  obtain ⟨-, -, -, horphan⟩ := liveOp_spec h
  simp only [State.finishLong, longOp_of_liveOp h, State.finishOp, horphan, Bool.false_eq_true, if_false]
  rfl

/-- The final reply of an operation that runs is its ring's latest, and the operation is gone (R329). -/
theorem finishLong_ends {s : State} {ring tag opcode : Nat} (h : LongRuns s ring tag opcode) (a : Answer) :
    repliedWith (s.finishLong ring tag a) ring tag opcode a.status a.result = true
      ∧ (s.finishLong ring tag a).host.longOps.length + 1 = s.host.longOps.length
      ∧ ((s.finishLong ring tag a).ring ring).fetched = [] := by
  obtain ⟨⟨l, hl, hop⟩, henabled, hfetched⟩ := h
  obtain ⟨hmem, hring, htag, -⟩ := liveOp_spec hl
  subst hring htag hop
  obtain ⟨hlast, hkept⟩ :=
    ring_oweLess_putReply (s := s.withLongs (s.host.longOps.erase l)) (r := finalReply l a) henabled 1
  rw [finishLong_eq hl]
  refine ⟨repliedWith_of_last hlast rfl, ?_, hkept.trans hfetched⟩
  rw [longOps_putReply]
  exact length_erase_add_one hmem

/-! ## The start of an accepted operation -/

/-- The record of a long operation that starts (R329). -/
def newLong (s : State) (h : Hdr) (c : CmdInfo) : LongOp :=
  { ring := h.ring, tag := h.tag, opcode := c.opcode, orphan := false, progress := 0, pos := c.pos, quiet := bit h.flags 1, skipped := false
    lastProgress := 0, lastAt := max s.clk.elapsed h.t, acceptedAt := max s.clk.elapsed h.t }

/-- The reply ACCEPTED (R329). -/
def acceptedReply (h : Hdr) (c : CmdInfo) : Reply :=
  { ring := h.ring, tag := h.tag, status := stAccepted, progress := 0, phase := false, final := false, pos := c.pos, skipped := false
    opcode := c.opcode, timestamp := 0, result := [] }

/-- The state in which an accepted long operation begins its work: it runs, and ACCEPTED is written. -/
def acceptedLong (s : State) (h : Hdr) (c : CmdInfo) : State :=
  (((begun s h c).withLongs (s.host.longOps ++ [newLong s h c])).oweLess h.ring 1).putReply (acceptedReply h c)

theorem accepts_of_acceptsLong {s : State} {h : Hdr} {c : CmdInfo} (ha : acceptsLong s h c = true) :
    accepts s h c = true ∧ s.host.longOps.length < 16 := by
  simpa only [acceptsLong, Bool.and_eq_true, decide_eq_true_eq] using ha

theorem hostLong_eq {s : State} {h : Hdr} {c : CmdInfo} (ha : acceptsLong s h c = true) (i : Instr) (body : State → State) :
    hostLong i h c body s = (body (acceptedLong s h c)).settle h.ring := by
  obtain ⟨hacc, hroom⟩ := accepts_of_acceptsLong ha
  rw [hostLong_accepts i h c body s hacc]
  have hroom : ¬16 ≤ (begun s h c).host.longOps.length := Nat.not_le.mpr hroom
  simp only [State.startLong, hroom, if_false]
  rfl

theorem longFrame.trans_reply {s t u : State} {at_ : Time} (h1 : longFrame s t at_) (h2 : replyFrame t u) : longFrame s u at_ := by
  unfold longFrame replyFrame at *
  rw [h2, h1]

theorem longFrame.withStore {s t : State} {u : Time} (h : longFrame s t u) (x : Store) : longFrame (s.withStore x) (t.withStore x) u := by
  unfold longFrame at *
  rw [h]
  rfl

/-- What the start of a long operation leaves: it runs and is the newest, ACCEPTED is its ring's latest reply, and nothing else has changed. -/
theorem acceptedLong_spec {s : State} {h : Hdr} {c : CmdInfo} (ha : acceptsLong s h c = true) :
    startedLong s (acceptedLong s h c) h c ∧ longFrame s (acceptedLong s h c) h.t ∧ ((acceptedLong s h c).ring h.ring).fetched = [] := by
  obtain ⟨hacc, -⟩ := accepts_of_acceptsLong ha
  have henabled := begun_enabled s h c hacc
  have hfetched := begun_fetched s h c hacc
  obtain ⟨hlast, hkept⟩ :=
    ring_oweLess_putReply (s := (begun s h c).withLongs (s.host.longOps ++ [newLong s h c])) (r := acceptedReply h c) henabled 1
  exact ⟨⟨longOps_putReply _ _, replied_of_last hlast⟩, longFrame.trans_reply
    (t := ((begun s h c).withLongs (s.host.longOps ++ [newLong s h c])).oweLess h.ring 1) rfl (putReply_frame _ _), hkept.trans hfetched⟩

/-- An accepted long operation whose work begins outside the host interface. -/
theorem hostLong_begins {s s' u : State} {h : Hdr} {c : CmdInfo} {body : State → State} (i : Instr) (ha : acceptsLong s h c = true)
    (hbody : body (acceptedLong s h c) = u) (hhost : u.host = (acceptedLong s h c).host) (hu : longFrame s' u h.t) :
    startedLong s (hostLong i h c body s) h c ∧ longFrame s' (hostLong i h c body s) h.t := by
  obtain ⟨hstarted, -, hfetched⟩ := acceptedLong_spec ha
  have hring : u.ring h.ring = (acceptedLong s h c).ring h.ring := by simp only [State.ring, hhost]
  rw [hostLong_eq ha, hbody, settle_nil u h.ring (by rw [hring]; exact hfetched)]
  exact ⟨by simpa only [startedLong, replied, hring, hhost] using hstarted, hu⟩

end Sys2Proof.Machine
end

section
/-! The codec's commands: COMPRESS and DECOMPRESS_TEST take an engine, work for their long operation, and give the engine back at its end (R121
to R129). -/

namespace Sys2Proof.Machine

open Sys2Proof

/-! ## Engines (R121) -/

/-- The list of the operations that the codec holds, replaced. -/
def State.withCodec (s : State) (l : List CodecOp) : State := s.withStore { s.store with codec := l }

theorem freeEngine_of_unused {s : State} (h : ∀ o ∈ s.store.codec, o.engine ≠ 0) : freeEngine s = some 0 := by
  have hunused : s.store.codec.any (fun o => decide (o.engine = 0)) = false := by simpa using h
  unfold freeEngine codecEngines
  split <;> simp [hunused]

/-- The first operation that the idle codec is given takes engine 0. -/
theorem codecBegin_idle {s : State} {o : CodecOp} (hidle : s.store.codec = []) (hwaits : o.engine = 2) :
    codecBegin o s = s.withCodec [{ o with engine := 0 }] := by
  have hfree : freeEngine (s.withCodec [o]) = some 0 := freeEngine_of_unused (by simp [State.withCodec, hwaits])
  have hgive : giveEngines 1 (s.withCodec [o]) = (s.withCodec [o]).withCodec [{ o with engine := 0 }] := by
    have hfirst : (s.withCodec [o]).store.codec.find? (fun o => decide (o.engine = 2)) = some o :=
      List.find?_cons_of_pos (by simpa using hwaits)
    simp only [giveEngines, hfree, hfirst]
    simp [State.withCodec]
  unfold codecBegin
  rw [hidle]
  exact hgive

/-- Handing out free engines changes the engines of the operations that wait, and nothing else. -/
theorem giveEngines_eq (n : Nat) (s : State) : ∃ l, giveEngines n s = s.withCodec l ∧ l.length = s.store.codec.length := by
  induction n generalizing s with
  | zero => exact ⟨s.store.codec, rfl, rfl⟩
  | succ n ih =>
    unfold giveEngines
    split
    next e o _ _ =>
      obtain ⟨l, hl, hlength⟩ := ih (s.withCodec (s.store.codec.map (fun x => if x = o then { x with engine := e } else x)))
      exact ⟨l, hl, hlength.trans (List.length_map _)⟩
    · exact ⟨s.store.codec, rfl, rfl⟩

/-- One operation leaves the codec. -/
theorem dropCodec_eq {s : State} {o : CodecOp} (h : o ∈ s.store.codec) :
    ∃ l, dropCodec o s = s.withCodec l ∧ l.length + 1 = s.store.codec.length := by
  obtain ⟨l, hl, hlength⟩ := giveEngines_eq 2 (s.withCodec (s.store.codec.erase o))
  exact ⟨l, hl, by rw [hlength]; exact length_erase_add_one h⟩

theorem codecOp_spec {s : State} {ring tag : Nat} {x : CodecOp} (h : codecOp s ring tag = some x) :
    x ∈ s.store.codec ∧ x.ring = ring ∧ x.tag = tag :=
  ⟨List.mem_of_find?_eq_some h, of_decide_eq_true (List.find?_some (p := fun o : CodecOp => decide (o.ring = ring ∧ o.tag = tag)) h)⟩

/-! ## The work of an engine for a long operation -/

/-- From `s` to `t` the operation of a ring and tag keeps running, none begins or ends, and the operations that the codec holds, the bytes
of DRAM, the device state and the press stand. -/
structure CodecWork (ring tag : Nat) (s t : State) : Prop where
  runs : ∀ opcode, LongRuns s ring tag opcode → LongRuns t ring tag opcode
  longs : t.host.longOps.length = s.host.longOps.length
  codec : t.store.codec = s.store.codec
  dram : t.store.dram = s.store.dram
  dev : t.dev = s.dev
  press : t.press = s.press

section
variable {ring tag : Nat} {s t u : State}

theorem CodecWork.refl (s : State) : CodecWork ring tag s s := ⟨fun _ h => h, rfl, rfl, rfl, rfl, rfl⟩

theorem CodecWork.trans (h1 : CodecWork ring tag s t) (h2 : CodecWork ring tag t u) : CodecWork ring tag s u where
  runs opcode h := h2.runs opcode (h1.runs opcode h)
  longs := h2.longs.trans h1.longs
  codec := h2.codec.trans h1.codec
  dram := h2.dram.trans h1.dram
  dev := h2.dev.trans h1.dev
  press := h2.press.trans h1.press

theorem CodecWork.ite {c : Prop} [Decidable c] (h1 : CodecWork ring tag s t) (h2 : CodecWork ring tag s u) :
    CodecWork ring tag s (if c then t else u) := by
  split
  · exact h1
  · exact h2

/-- Work that neither rings nor long operations see. -/
theorem CodecWork.of_unseen (hrings : t.host.rings = s.host.rings) (hlongs : t.host.longOps = s.host.longOps)
    (hcodec : t.store.codec = s.store.codec) (hdram : t.store.dram = s.store.dram) (hdev : t.dev = s.dev) (hpress : t.press = s.press) :
    CodecWork ring tag s t :=
  ⟨fun _ h => h.congr hrings hlongs, by rw [hlongs], hcodec, hdram, hdev, hpress⟩

theorem dmaWrite_work (s : State) (a : Nat) (bs : List Byte) : CodecWork ring tag s (s.dmaWrite a bs) := by
  unfold State.dmaWrite
  split
  · exact .of_unseen rfl rfl rfl rfl rfl rfl
  · exact .refl s

theorem dmaFault_work (s : State) (a : Nat) : CodecWork ring tag s (s.dmaFault a) := .of_unseen rfl rfl rfl rfl rfl rfl

theorem putReply_work (s : State) {r : Reply} (hr : r.ring = ring) : CodecWork ring tag s (s.putReply r) where
  runs _ h := h.putReply hr
  longs := by rw [longOps_putReply]
  codec := by rw [putReply_store]
  dram := by rw [putReply_store]
  dev := putReply_dev s r
  press := putReply_press s r

theorem updLong_work {f : LongOp → LongOp} (hf : ∀ l, s.longOp ring tag = some l →
    (f l).ring = l.ring ∧ (f l).tag = l.tag ∧ (f l).opcode = l.opcode ∧ (f l).orphan = l.orphan) :
    CodecWork ring tag s (s.updLong ring tag f) :=
  ⟨fun _ h => h.updLong hf, length_longOps_updLong s ring tag f, rfl, rfl, rfl, rfl⟩

theorem progressTo_work (p : Nat) (s : State) : CodecWork ring tag s (s.progressTo ring tag p) := by
  unfold State.progressTo
  split
  · exact .refl s
  next o ho =>
    have hsame : ∀ x : LongOp, x.ring = o.ring ∧ x.tag = o.tag ∧ x.opcode = o.opcode ∧ x.orphan = o.orphan →
        CodecWork ring tag s (s.updLong ring tag (fun _ => x)) := fun x hx =>
      updLong_work (fun l hl => by cases ho.symm.trans hl; exact hx)
    refine .ite (hsame _ ⟨rfl, rfl, rfl, rfl⟩) (.ite (hsame _ ⟨rfl, rfl, rfl, rfl⟩) (.trans ?_ (putReply_work _ rfl)))
    exact hsame _ ⟨rfl, rfl, rfl, rfl⟩

theorem notifyLong_work (s : State) : CodecWork ring tag s (notifyLong ring tag s) := by
  unfold notifyLong
  split
  · exact .refl s
  · refine .ite (.refl s) (.ite (updLong_work fun _ _ => ⟨rfl, rfl, rfl, rfl⟩) (.trans ?_ (putReply_work _ rfl)))
    exact updLong_work fun _ _ => ⟨rfl, rfl, rfl, rfl⟩

/-! ## COMPRESS (R122 to R128) -/

theorem noteTile_work (port : Option Nat) (r : Stored) (s : State) : CodecWork ring tag s (noteTile port r s) := by
  cases r <;> exact .of_unseen rfl rfl rfl rfl rfl rfl

theorem closeBuffer_work (p : ChainPos) (state : Nat) (s : State) : CodecWork ring tag s (closeBuffer p state s) :=
  (dmaWrite_work s _ _).trans (dmaWrite_work _ _ _)

theorem chainPut_work (n : Nat) (p : ChainPos) (bs : List Byte) (s : State) :
    CodecWork ring tag s (chainPut (notifyLong ring tag) n p bs s).1 := by
  induction n generalizing p bs s with
  | zero => exact .refl s
  | succ n ih =>
    unfold chainPut
    split
    · exact .refl s
    · dsimp only
      split
      · exact (CodecWork.ite ((closeBuffer_work p 1 s).trans (notifyLong_work _)) (closeBuffer_work p 1 s)).trans (ih _ _ _)
      · exact (dmaWrite_work s _ _).trans (ih _ _ _)

theorem closeFinal_work (o : CodecOp) (p : ChainPos) (s : State) : CodecWork o.ring o.tag s (closeFinal o p s) :=
  .ite ((closeBuffer_work p 2 s).trans (notifyLong_work _)) (closeBuffer_work p 2 s)

/-- A tile stops the COMPRESS, or the next one follows. -/
theorem compressTile_spec (o : CodecOp) (r : CodeRun) (s : State) :
    CodecWork o.ring o.tag s (compressTile o r s).1
      ∧ ((compressTile o r s).2.stop.isSome = true ∨ (compressTile o r s).2.index = r.index + 1) := by
  unfold compressTile
  dsimp only
  split
  · exact ⟨dmaFault_work s _, .inl rfl⟩
  · split
    · exact ⟨.refl s, .inl rfl⟩
    · split
      · exact ⟨noteTile_work none _ s, .inl rfl⟩
      · exact ⟨((noteTile_work none _ s).trans (progressTo_work _ _)).trans (chainPut_work _ _ _ _), .inr rfl⟩

/-- Tiles are coded up to the one that stops the COMPRESS, or as many as were asked for. -/
theorem compressTiles_spec (o : CodecOp) (n : Nat) (r : CodeRun) (s : State) :
    CodecWork o.ring o.tag s (compressTiles o n r s).1
      ∧ ((compressTiles o n r s).2.stop.isSome = true ∨ (compressTiles o n r s).2.index = r.index + n) := by
  induction n generalizing r s with
  | zero => exact ⟨.refl s, .inr rfl⟩
  | succ n ih =>
    obtain ⟨hwork, hnext⟩ := compressTile_spec o r s
    unfold compressTiles
    dsimp only
    split
    next hstop => exact ⟨hwork, .inl hstop⟩
    next hgoes =>
      obtain ⟨hrest, hend⟩ := ih (compressTile o r s).2 (compressTile o r s).1
      exact ⟨hwork.trans hrest, hend.imp_right fun hindex => by rw [hindex, hnext.resolve_left hgoes]; omega⟩

end

/-! ## The end of a codec operation -/

/-- From `s` to `t` the operation has ended with an answer and has left the codec; bytes of DRAM, device state and press stand. -/
structure CodecEnds (ring tag opcode : Nat) (a : Answer) (s t : State) : Prop where
  reply : repliedWith t ring tag opcode a.status a.result = true
  fetched : (t.ring ring).fetched = []
  longs : t.host.longOps.length + 1 = s.host.longOps.length
  codec : t.store.codec.length + 1 = s.store.codec.length
  dram : t.store.dram = s.store.dram
  dev : t.dev = s.dev
  press : t.press = s.press

/-- An operation that runs and that the codec holds leaves the codec and writes its final reply. -/
theorem dropCodec_ends {s : State} {ring tag opcode : Nat} {x : CodecOp} (hruns : LongRuns s ring tag opcode) (hx : x ∈ s.store.codec)
    (a : Answer) : CodecEnds ring tag opcode a s ((dropCodec x s).finishLong ring tag a) := by
  obtain ⟨l, hdrop, hlength⟩ := dropCodec_eq hx
  rw [hdrop]
  obtain ⟨hreply, hlongs, hfetched⟩ := finishLong_ends (hruns.congr (t := s.withCodec l) rfl rfl) a
  exact ⟨hreply, hfetched, hlongs, by rw [finishLong_store]; exact hlength, by rw [finishLong_store]; rfl, finishLong_dev _ _ _ _,
    finishLong_press _ _ _ _⟩

theorem CodecEnds.after_work {ring tag opcode : Nat} {a : Answer} {s t u : State} (h2 : CodecEnds ring tag opcode a t u)
    (h1 : CodecWork ring tag s t) : CodecEnds ring tag opcode a s u where
  reply := h2.reply
  fetched := h2.fetched
  longs := h2.longs.trans h1.longs
  codec := h2.codec.trans (congrArg List.length h1.codec)
  dram := h2.dram.trans h1.dram
  dev := h2.dev.trans h1.dev
  press := h2.press.trans h1.press

/-- A COMPRESS whose operation runs hands its last buffer back and ends (R126 to R128). -/
theorem compressEnd_ends {s : State} {opcode : Nat} {x : CodecOp} (hruns : LongRuns s x.ring x.tag opcode) (hx : x ∈ s.store.codec)
    (status : Nat) :
    CodecEnds x.ring x.tag opcode (answer (x.run.stop.getD status) (compressResult x.run)) s (compressEnd x status s) := by
  have hclosed := closeFinal_work x x.run.pos s
  exact (dropCodec_ends (hclosed.runs opcode hruns) (hclosed.codec ▸ hx) _).after_work hclosed

/-- What the codec holds after an operation has come to a state of its run. -/
def comeTo (x : CodecOp) (r : CodeRun) (l : List CodecOp) : List CodecOp := l.map (fun y => if y = x then { x with run := r } else y)

theorem mem_comeTo {x : CodecOp} {l : List CodecOp} (h : x ∈ l) (r : CodeRun) : { x with run := r } ∈ comeTo x r l :=
  List.mem_map.mpr ⟨x, h, if_pos rfl⟩

theorem CodecEnds.of_withCodec {ring tag opcode : Nat} {a : Answer} {s t : State} {l : List CodecOp}
    (h : CodecEnds ring tag opcode a (s.withCodec l) t) (hlength : l.length = s.store.codec.length) : CodecEnds ring tag opcode a s t :=
  { h with codec := h.codec.trans hlength }

theorem compressSome_stops {s s' : State} {x : CodecOp} {n : Nat} {r : CodeRun}
    (hr : compressTiles x (min n (x.total - x.run.index)) x.run s = (s', r)) (hend : r.stop.isSome = true ∨ x.total ≤ r.index) :
    compressSome x n s = compressEnd { x with run := r } stOk (s'.withCodec (comeTo x r s'.store.codec)) := by
  simp only [compressSome, hr]
  exact if_pos hend

/-- A COMPRESS that codes all its tiles that are left, or those up to one that stops it, ends with the result of that run. -/
theorem compressSome_ends {s : State} {opcode : Nat} {x : CodecOp} (hruns : LongRuns s x.ring x.tag opcode) (hx : x ∈ s.store.codec) :
    CodecEnds x.ring x.tag opcode
      (answer ((compressTiles x (x.total - x.run.index) x.run s).2.stop.getD stOk)
        (compressResult (compressTiles x (x.total - x.run.index) x.run s).2))
      s (compressSome x (x.total - x.run.index) s) := by
  obtain ⟨hwork, hend⟩ := compressTiles_spec x (x.total - x.run.index) x.run s
  cases hrun : compressTiles x (x.total - x.run.index) x.run s with
  | mk s' r =>
    rw [hrun] at hwork hend
    have hends := compressEnd_ends (s := s'.withCodec (comeTo x r s'.store.codec)) (x := { x with run := r })
      ((hwork.runs opcode hruns).congr rfl rfl) (mem_comeTo (hwork.codec ▸ hx) r) stOk
    rw [compressSome_stops (by rw [Nat.min_self, hrun]) (hend.imp_right fun hindex => by omega)]
    exact (hends.of_withCodec (List.length_map _)).after_work hwork

/-! ## DECOMPRESS_TEST (R129) -/

/-- A test that comes to a CRC has met no read that fails. -/
def TestOut.readable (out : TestOut) : Prop := ∀ c, out.crc = some c → out.status ≠ stDataUe

theorem testFails_readable (status row offset : Nat) : (testFails status row offset).readable := nofun

theorem verdict_ne_dataUe (c : Prop) [Decidable c] : (if c then stOk else stCrc) ≠ stDataUe := by
  split
  · decide
  · decide

theorem testDecode_readable (h mask : List Byte) (bad : Nat → Bool) (group : Nat → List Byte) (maskBad : Bool) :
    (testDecode h bad group maskBad mask).readable := by
  unfold testDecode
  split
  · exact testFails_readable _ _ _
  · dsimp only
    split
    · exact testFails_readable _ _ _
    · split
      · exact testFails_readable _ _ _
      · exact fun _ _ => verdict_ne_dataUe _

theorem testHost_readable (s : State) (source : Nat) : (testHost s source).readable := by
  unfold testHost
  split
  · exact testFails_readable _ _ _
  · exact testDecode_readable _ _ _ _ _

/-- The answer of a test that comes to a CRC. -/
def testAnswer (out : TestOut) (c : Nat) : Answer := answer out.status (leBytes 4 c ++ leBytes 2 out.row ++ [0, 0] ++ leBytes 4 out.offset)

/-- The pixels and the mask of a test that produced them go to DEST. -/
def testWritten (x : CodecOp) (out : TestOut) (s : State) : State :=
  match out.bytes with
  | some bs => if x.dest = 0 then s else s.dmaWrite x.dest bs
  | none => s

theorem testWritten_work (x : CodecOp) (out : TestOut) (s : State) : CodecWork x.ring x.tag s (testWritten x out s) := by
  unfold testWritten
  split
  · exact .ite (.refl s) (dmaWrite_work s _ _)
  · exact .refl s

theorem testEnd_host {s : State} {c : Nat} {x : CodecOp} (hkind : x.kind = 0) (hcrc : (testHost s x.source).crc = some c) :
    testEnd x s
      = (dropCodec x (testWritten x (testHost s x.source) s)).finishLong x.ring x.tag (testAnswer (testHost s x.source) c) := by
  have hframe : ¬x.kind = 1 := by omega
  simp only [testEnd, hframe, if_false, hcrc, testHost_readable s x.source c hcrc, ne_eq, not_false_eq_true, if_true]
  rfl

/-- A test of a host tile that comes to a CRC ends with it. -/
theorem testEnd_ends {s : State} {opcode c : Nat} {x : CodecOp} (hruns : LongRuns s x.ring x.tag opcode) (hx : x ∈ s.store.codec)
    (hkind : x.kind = 0) (hcrc : (testHost s x.source).crc = some c) :
    CodecEnds x.ring x.tag opcode (testAnswer (testHost s x.source) c) s (testEnd x s) := by
  have hwork := testWritten_work x (testHost s x.source) s
  rw [testEnd_host hkind hcrc]
  exact (dropCodec_ends (hwork.runs opcode hruns) (hwork.codec ▸ hx) _).after_work hwork

/-! ## The commands and their events -/

theorem acceptedLong_store (s : State) (h : Hdr) (c : CmdInfo) : (acceptedLong s h c).store = s.store := by
  simp [acceptedLong, State.withLongs]

/-- An operation that the idle codec is given by an accepted command takes engine 0. -/
theorem hostLong_codecBegin {s : State} {h : Hdr} {c : CmdInfo} {o : CodecOp} {body : State → State} (i : Instr)
    (ha : acceptsLong s h c = true) (hidle : s.store.codec = []) (hwaits : o.engine = 2)
    (hbody : body (acceptedLong s h c) = codecBegin o (acceptedLong s h c)) :
    startedLong s (hostLong i h c body s) h c
      ∧ longFrame (s.withStore { s.store with codec := [{ o with engine := 0 }] }) (hostLong i h c body s) h.t := by
  obtain ⟨-, hframe, -⟩ := acceptedLong_spec ha
  rw [codecBegin_idle (by rw [acceptedLong_store]; exact hidle) hwaits] at hbody
  exact hostLong_begins i ha hbody rfl (by rw [← acceptedLong_store s h c]; exact hframe.withStore _)

theorem compressBegin_idle {s : State} {o : CodecOp} (hidle : s.store.codec = []) (hok : compressOk o = true) :
    compressBegin o s = codecBegin o s := by
  have hfree : freeEngine s = some 0 := freeEngine_of_unused (by simp [hidle])
  simp [compressBegin, hok, hfree]

/-- The operation that a DECOMPRESS_TEST gives the codec. -/
def testOp (h : Hdr) (kind layer source dest : Nat) : CodecOp :=
  { ring := h.ring, tag := h.tag, compress := false, engine := 2, source := source, stride := 0, tileCols := 0, tileRows := 0, format := 0
    planes := 0, options := 0, coverCh := 0, firstTile := 0, chain := 0, kind := kind, layer := layer, dest := dest, run := CodeRun.reset }

theorem testBegin_sound {s : State} {o : CodecOp} (hlayer : o.layer ≤ 1) (hkind : o.kind = 0 ∨ (o.kind = 1 ∧ o.source ∈ s.store.frames)) :
    testBegin o s = codecBegin o s := by
  refine if_neg ?_
  rintro (h | h | ⟨h, hsource⟩)
  · omega
  · omega
  · obtain h0 | ⟨-, hframe⟩ := hkind
    · omega
    · exact hsource hframe

/-- An event with which an operation of the codec ends. -/
theorem withStep_ends {s : State} {o : OpRef} {opcode : Nat} {f : LongOp → State → State} {a : Answer}
    (hruns : LongRuns s o.ring o.tag opcode) (hf : ∀ l, CodecEnds o.ring o.tag opcode a (s.at o.t) (f l (s.at o.t))) :
    CodecEnds o.ring o.tag opcode a s (withStep o opcode f s) := by
  obtain ⟨l, hl⟩ := withStep_runs hruns f
  rw [hl, settle_nil _ _ (hf l).fetched]
  exact (hf l).after_work (.of_unseen rfl rfl rfl rfl rfl rfl)

theorem compressDone_ends {s : State} {o : OpRef} {x : CodecOp} (hlong : runsLong s o 0x0100 = true)
    (hx : codecOp s o.ring o.tag = some x) (hengine : x.engine ≠ 2) (hthrottle : s.thermal.throttle = false) :
    ∃ t, exec (.compressDone o) s = .next t ∧ CodecEnds o.ring o.tag 0x0100
      (answer ((compressTiles x (x.total - x.run.index) x.run (s.at o.t)).2.stop.getD stOk)
        (compressResult (compressTiles x (x.total - x.run.index) x.run (s.at o.t)).2)) s t := by
  obtain ⟨hruns, hreach⟩ := longRuns_of_runsLong hlong
  refine ⟨_, rfl, withStep_ends hruns fun _ => ?_⟩
  have hx' : codecOp (s.at o.t) o.ring o.tag = some x := hx
  obtain ⟨hmem, hring, htag⟩ := codecOp_spec hx
  simp only [hx', hengine, at_thermal, hthrottle, Bool.false_eq_true, or_self, if_false, hreach, Option.getD_none]
  rw [← hring, ← htag] at hruns ⊢
  exact compressSome_ends (hruns.congr rfl rfl) hmem

theorem decompressTestDone_ends {s : State} {o : OpRef} {x : CodecOp} {c : Nat} (hlong : runsLong s o 0x0101 = true)
    (hx : codecOp s o.ring o.tag = some x) (hengine : x.engine ≠ 2) (hthrottle : s.thermal.throttle = false) (hkind : x.kind = 0)
    (hcrc : (testHost s x.source).crc = some c) :
    ∃ t, exec (.decompressTestDone o) s = .next t ∧ CodecEnds o.ring o.tag 0x0101 (testAnswer (testHost s x.source) c) s t := by
  obtain ⟨hruns, hreach⟩ := longRuns_of_runsLong hlong
  refine ⟨_, rfl, withStep_ends hruns fun _ => ?_⟩
  have hx' : codecOp (s.at o.t) o.ring o.tag = some x := hx
  obtain ⟨hmem, hring, htag⟩ := codecOp_spec hx
  simp only [hx', hengine, at_thermal, hthrottle, Bool.false_eq_true, or_self, if_false, hreach]
  rw [← hring, ← htag] at hruns ⊢
  exact testEnd_ends (s := s.at o.t) (hruns.congr rfl rfl) hmem hkind hcrc

/-- Settles O32: the start and the end of each command by the lemma of its name. -/
theorem codecCommandsComplete : Obligations.CodecCommandsComplete := by
  unfold Obligations.CodecCommandsComplete
  refine ⟨?_, ?_, ?_, ?_⟩
  · intro s h source stride cols rows format planes options cover first chain o ha hidle ho hok
    subst ho
    exact ⟨_, rfl, hostLong_codecBegin _ ha hidle rfl (compressBegin_idle (by rw [acceptedLong_store]; exact hidle) hok)⟩
  · intro s o x hlong hx hengine hthrottle
    obtain ⟨t, hexec, hends⟩ := compressDone_ends hlong hx hengine hthrottle
    exact ⟨t, _, hexec, rfl, ⟨hends.reply, hends.longs⟩, hends.codec, hends.dev, hends.press, hends.dram⟩
  · intro s h kind layer source dest ha hidle hlayer hkind
    refine ⟨_, rfl, hostLong_codecBegin (o := testOp h kind layer source dest) _ ha hidle rfl (testBegin_sound hlayer ?_)⟩
    rw [acceptedLong_store]
    exact hkind
  · intro s o x c hlong hx hengine hthrottle hkind hcrc
    obtain ⟨t, hexec, hends⟩ := decompressTestDone_ends hlong hx hengine hthrottle hkind hcrc
    exact ⟨t, hexec, ⟨hends.reply, hends.longs⟩, hends.codec, hends.dev, hends.press, hends.dram⟩

end Sys2Proof.Machine
end

section
/-! The composite of a column of a TONE unit (R135, R136). -/

namespace Sys2Proof.Machine

open Sys2Proof

/-- R136: coverage selects the variable pixel, before COMPOSE is looked at. -/
@[simp] theorem composite_covered (mode b v : Nat) : composite mode b v true = v := if_pos rfl

theorem composite_max (b v : Nat) : composite 0 b v false = if b ≤ v then v else b := Nat.max_def

theorem composite_add (b v : Nat) : composite 1 b v false = if b + v ≤ 255 then b + v else 255 := by
  have hmin : composite 1 b v false = min 255 (b + v) := rfl
  rw [hmin, Nat.min_comm, Nat.min_def]

theorem composite_base (b v : Nat) : composite 2 b v false = b := rfl

/-- A unit of 16 columns lies in one tile column of 256. -/
theorem tileColumn_of_unit (unit : Nat) : 16 * unit / 256 = unit / 16 := Nat.mul_div_mul_left unit 16 (by decide : 0 < 16)

/-- Where a pixel covers one column, a tile row has one pixel for each of its 256 columns. -/
theorem pixelOf_full (x : Nat) : pixelOf 256 x = x % 256 := if_neg (by decide)

/-- The composite of column `x` of a unit: the pixels and the coverage bit that the page's layers present there, under its COMPOSE. -/
theorem unitComposites_getElem? {s : State} {p : PagePos} {bar x : Nat} (unit line : Nat) (hx : x < 16)
    (hfull : s.headerNum 3 bar p.start 0 1 ≠ 1) :
    let base := presented s (s.bank p.bank).image bar 0 (unit / 16) p.start (contoneRow s p bar line)
    let var := presented s (s.bank p.bank).image bar 1 (unit / 16) p.start (contoneRow s p bar line)
    let px := (16 * unit + x) % 256
    (unitComposites s p bar unit line)[x]? = some (composite (s.headerNum 0 bar p.start 0 2) (nth 0 base.1 px).toNat (nth 0 var.1 px).toNat
      ((nth 0 var.2 (px / 8)).getLsbD (px % 8))) := by
  simp only [unitComposites, if_neg hfull, tileColumn_of_unit, pixelOf_full, List.getElem?_map, List.getElem?_range hx, Option.map_some]

/-- Settles O55: the cases of the composite, and the column's place in the unit and in the tile row. -/
theorem compositeFollowsCompose : Obligations.CompositeFollowsCompose := by
  unfold Obligations.CompositeFollowsCompose
  exact ⟨composite_covered, composite_max, composite_add, composite_base,
    fun _ _ _ unit line _ hx hfull => unitComposites_getElem? unit line hx hfull⟩

end Sys2Proof.Machine
end

section
/-! Protection inputs, gate latches and FIRE_EN: what settling the gates does to each bar, and what it leaves (R225 to R227). -/

namespace Sys2Proof.Machine

open Sys2Proof

/-! ## The bars of the head links -/

/-- The bars' table is in canonical form. -/
def BarCanon (s : State) : Prop := twf (fun _ => Bar.reset) s.link.bars = true

theorem barCanon_of_canonOk {s : State} (h : canonOk s = true) : BarCanon s := by
  simp only [canonOk, Bool.and_eq_true] at h
  simp only [BarCanon, h]

theorem BarCanon.withBar {s : State} (hs : BarCanon s) (b : Nat) (x : Bar) : BarCanon (s.withBar b x) := twf_tput _ _ _ _ hs

theorem bar_withBar {s : State} (hs : BarCanon s) (b : Nat) (x : Bar) (j : Nat) :
    (s.withBar b x).bar j = if j = b then x else s.bar j := tget_tput _ _ _ _ _ 0 hs

/-- From `s` to `t` only the bars have changed. -/
def OnlyBars (s t : State) : Prop := t = s.withLink { s.link with bars := t.link.bars }

theorem OnlyBars.refl (s : State) : OnlyBars s s := rfl

theorem OnlyBars.trans {s t u : State} (h1 : OnlyBars s t) (h2 : OnlyBars t u) : OnlyBars s u := by
  unfold OnlyBars at *
  rw [h2, h1]
  rfl

theorem withBar_onlyBars (s : State) (b : Nat) (x : Bar) : OnlyBars s (s.withBar b x) := rfl

theorem OnlyBars.inputsClear {s t : State} (h : OnlyBars s t) (b : Nat) : inputsClear t b = inputsClear s b := by
  rw [h]
  rfl

theorem OnlyBars.runEnabled {s t : State} (h : OnlyBars s t) : runEnabled t = runEnabled s := by
  rw [h]
  rfl

theorem OnlyBars.dev {s t : State} (h : OnlyBars s t) : t.dev = s.dev := by
  rw [h]
  rfl

/-! ## One bar's latch and FIRE_EN (R226, R227) -/

/-- A step for bar `b`: only bars change, in canonical form, and of them only `b`. -/
structure BarStep (s t : State) (b : Nat) : Prop where
  only : OnlyBars s t
  canon : BarCanon t
  other : ∀ d, d ≠ b → t.bar d = s.bar d

theorem BarStep.refl {s : State} (hs : BarCanon s) (b : Nat) : BarStep s s b := ⟨OnlyBars.refl s, hs, fun _ _ => rfl⟩

theorem BarStep.withBar {s : State} (hs : BarCanon s) (b : Nat) (x : Bar) : BarStep s (s.withBar b x) b :=
  ⟨withBar_onlyBars s b x, hs.withBar b x, fun d hd => by rw [bar_withBar hs, if_neg hd]⟩

/-- An open input sets the latch of its bar in these device states (R227). -/
def latchSets (s : State) (b : Nat) : Bool := decide (s.dev ∈ [DevState.armed, .run, .drain]) && !inputsClear s b

theorem latchBar_spec {s : State} (hs : BarCanon s) (b : Nat) :
    BarStep s (latchBar s b) b ∧ ((latchBar s b).bar b).latch = ((s.bar b).latch || latchSets s b) := by
  unfold latchBar
  split
  next hopen =>
    have hsets : latchSets s b = true := by simpa [latchSets] using hopen
    exact ⟨BarStep.withBar hs b _, by rw [bar_withBar hs, if_pos rfl, hsets, Bool.or_true]⟩
  next hshut =>
    have hsets : latchSets s b = false := by simpa [latchSets] using hshut
    exact ⟨BarStep.refl hs b, by rw [hsets, Bool.or_false]⟩

theorem driveFire_spec {s : State} (hs : BarCanon s) (b : Nat) :
    BarStep s (driveFire s b) b ∧ ((driveFire s b).bar b).latch = (s.bar b).latch
      ∧ ((driveFire s b).bar b).fireEn = fireEnValue s b := by
  unfold driveFire
  simp only []
  split
  next hsame => exact ⟨BarStep.refl hs b, rfl, hsame⟩
  next =>
    split
    next hon => exact ⟨BarStep.withBar hs b _, by rw [bar_withBar hs, if_pos rfl], by rw [bar_withBar hs, if_pos rfl, hon]⟩
    next hoff =>
      refine ⟨BarStep.withBar hs b _, by rw [bar_withBar hs, if_pos rfl], ?_⟩
      rw [bar_withBar hs, if_pos rfl, Bool.eq_false_iff.mpr hoff]

/-! ## Every bar -/

/-- The state with every bar's latch brought up to its inputs. -/
def latchedBars (s : State) : State := (List.range 8).foldl latchBar s

/-- The state with every bar's FIRE_EN driven. -/
def drivenBars (s : State) : State := (List.range 8).foldl driveFire s

theorem range_id_nodup (n : Nat) : ((List.range n).map id).Nodup := by
  rw [List.map_id]
  exact List.nodup_range

theorem latchedBars_spec {s : State} (hs : BarCanon s) :
    OnlyBars s (latchedBars s) ∧ BarCanon (latchedBars s)
      ∧ ∀ b, b < 8 → ((latchedBars s).bar b).latch = ((s.bar b).latch || latchSets s b) := by
  obtain ⟨⟨honly, hcanon⟩, hbars, -⟩ := foldl_pointwise State.bar (fun t => OnlyBars s t ∧ BarCanon t)
    (fun b x y => y.latch = (x.latch || latchSets s b)) id latchBar (List.range 8)
    (fun t b _ ⟨honly, hcanon⟩ => by
      obtain ⟨hstep, hlatch⟩ := latchBar_spec hcanon b
      have hsets : latchSets t b = latchSets s b := by simp only [latchSets, honly.inputsClear, honly.dev]
      exact ⟨⟨honly.trans hstep.only, hstep.canon⟩, by rw [← hsets]; exact hlatch, hstep.other⟩)
    (range_id_nodup 8) s ⟨OnlyBars.refl s, hs⟩
  exact ⟨honly, hcanon, fun b hb => hbars b (List.mem_range.mpr hb)⟩

theorem drivenBars_spec {s : State} (hs : BarCanon s) :
    OnlyBars s (drivenBars s)
      ∧ ∀ b, b < 8 → ((drivenBars s).bar b).latch = (s.bar b).latch ∧ ((drivenBars s).bar b).fireEn = fireEnValue s b := by
  obtain ⟨⟨honly, -⟩, hbars, -⟩ := foldl_pointwise State.bar (fun t => OnlyBars s t ∧ BarCanon t)
    (fun b x y => y.latch = x.latch ∧ y.fireEn = (runEnabled s && inputsClear s b && !x.latch)) id driveFire (List.range 8)
    (fun t b _ ⟨honly, hcanon⟩ => by
      obtain ⟨hstep, hlatch, hfire⟩ := driveFire_spec hcanon b
      rw [fireEnValue, honly.runEnabled, honly.inputsClear] at hfire
      exact ⟨⟨honly.trans hstep.only, hstep.canon⟩, ⟨hlatch, hfire⟩, hstep.other⟩)
    (range_id_nodup 8) s ⟨OnlyBars.refl s, hs⟩
  exact ⟨honly, fun b hb => hbars b (List.mem_range.mpr hb)⟩

/-! ## Settling the gates -/

/-- From `s` to `t` something was announced: events, messages, log and trace alone have changed. -/
def Announced (s t : State) : Prop := t = { s with host := t.host, log := t.log, trace := t.trace }

theorem Announced.refl (s : State) : Announced s s := rfl

theorem Announced.trans {s t u : State} (h1 : Announced s t) (h2 : Announced t u) : Announced s u := by
  unfold Announced at *
  rw [h2, h1]

theorem raise_announced (s : State) (i : Nat) : Announced s (s.raise i) := by
  rw [raise_frame]
  rfl

theorem report_announced (s : State) (code value : Nat) (key fields : List Byte) : Announced s (s.report code key value fields) := rfl

theorem traceRec_announced (s : State) (source unit : Nat) (data : List Byte) : Announced s (s.traceRec source unit data) := by
  rw [traceRec_withTrace]
  rfl

/-- Settling the gates latches and drives every bar, and then announces the edges. -/
theorem settleGates_announces (s : State) : Announced (drivenBars (latchedBars s)) s.settleGates := by
  unfold State.settleGates
  simp only []
  split
  · exact Announced.refl _
  · exact ((raise_announced _ _).trans (report_announced _ _ _ _ _)).trans
      (foldl_keeps Announced Announced.refl Announced.trans _ (fun t b => traceRec_announced t _ b _) _ _)

theorem Announced.bar {s t : State} (h : Announced s t) (b : Nat) : t.bar b = s.bar b := by
  rw [h]
  rfl

/-- From `s` to `t` the gates have settled: the bars, and what announces their edges, alone have changed. -/
def GatesSettled (s t : State) : Prop :=
  t = { s with link := { s.link with bars := t.link.bars }, host := t.host, log := t.log, trace := t.trace }

theorem OnlyBars.announced {s t u : State} (h1 : OnlyBars s t) (h2 : Announced t u) : GatesSettled s u := by
  unfold OnlyBars at h1
  unfold Announced at h2
  unfold GatesSettled
  rw [h2, h1]
  rfl

theorem settleGates_settled {s : State} (hs : BarCanon s) : GatesSettled s s.settleGates := by
  obtain ⟨hlatched, hcanon, -⟩ := latchedBars_spec hs
  exact (hlatched.trans (drivenBars_spec hcanon).1).announced (settleGates_announces s)

theorem GatesSettled.inputs {s t : State} (h : GatesSettled s t) : t.link.inputs = s.link.inputs := by
  rw [h]

theorem GatesSettled.inputsClear {s t : State} (h : GatesSettled s t) (b : Nat) : inputsClear t b = inputsClear s b := by
  rw [h]
  rfl

theorem GatesSettled.runEnabled {s t : State} (h : GatesSettled s t) : runEnabled t = runEnabled s := by
  rw [h]
  rfl

theorem GatesSettled.frame {s t : State} (h : GatesSettled s t) :
    t.dev = s.dev ∧ t.run = s.run ∧ t.press = s.press ∧ t.tables = s.tables ∧ t.store = s.store ∧ t.web = s.web ∧ t.cams = s.cams := by
  rw [h]
  exact ⟨rfl, rfl, rfl, rfl, rfl, rfl, rfl⟩

/-- R227: the latch of a bar after its gates settle. -/
theorem settleGates_latch {s : State} (hs : BarCanon s) {b : Nat} (hb : b < 8) :
    (s.settleGates.bar b).latch = ((s.bar b).latch || latchSets s b) := by
  obtain ⟨-, hcanon, hlatch⟩ := latchedBars_spec hs
  rw [(settleGates_announces s).bar, ((drivenBars_spec hcanon).2 b hb).1, hlatch b hb]

/-- R226: FIRE_EN of a bar after its gates settle is as its truth table has it. -/
theorem settleGates_fireEn {s : State} (hs : BarCanon s) {b : Nat} (hb : b < 8) :
    (s.settleGates.bar b).fireEn = fireEnValue s.settleGates b := by
  obtain ⟨hlatched, hcanon, -⟩ := latchedBars_spec hs
  obtain ⟨hdriven, hbars⟩ := drivenBars_spec hcanon
  obtain ⟨hlatch, hfire⟩ := hbars b hb
  have hsettled := settleGates_settled hs
  rw [fireEnValue, hsettled.runEnabled, hsettled.inputsClear, (settleGates_announces s).bar, hfire, hlatch, fireEnValue,
    hlatched.runEnabled, hlatched.inputsClear]

/-! ## An edge of a protection input -/

/-- The state in which a filtered edge settles the gates. -/
def edgeTaken (s : State) (g : GateInput) (level : Bool) (u : Time) : State :=
  (s.at (u + gateFilterTime s)).withLink { s.link with inputs := s.link.inputs.edge g level }

theorem gatingInputEdge_filtered {s : State} {held : Time} (h : held < gateFilterTime s) (g : GateInput) (level : Bool) (u : Time) :
    exec (.gatingInputEdge g level held u) s = .next (s.at u) := if_pos h

theorem gatingInputEdge_taken {s : State} {held : Time} (h : gateFilterTime s ≤ held) (g : GateInput) (level : Bool) (u : Time) :
    exec (.gatingInputEdge g level held u) s = .next (edgeTaken s g level u).settleGates := if_neg (Nat.not_lt.mpr h)

/-- Settles O16: the edge settles the gates, and FIRE_EN and the latch of each bar are as `settleGates_fireEn` and `settleGates_latch`
have them. -/
theorem gatingEdgeSettlesFireEnable : Obligations.GatingEdgeSettlesFireEnable := by
  unfold Obligations.GatingEdgeSettlesFireEnable
  intro s g level held u hcanon
  refine ⟨fun hshort => gatingInputEdge_filtered hshort g level u, fun hlong => ⟨_, gatingInputEdge_taken hlong g level u, ?_⟩⟩
  have hs : BarCanon (edgeTaken s g level u) := barCanon_of_canonOk hcanon
  have hsettled := settleGates_settled hs
  refine ⟨hsettled.inputs, fun b hb => settleGates_fireEn hs hb, fun b hb hdev hopen => ?_, fun b hb hset => ?_, hsettled.frame⟩
  · have hsets : latchSets (edgeTaken s g level u) b = true := by
      rw [latchSets, ← hsettled.inputsClear, hopen]
      exact (Bool.and_true _).trans (decide_eq_true hdev)
    refine ⟨by rw [settleGates_latch hs hb, hsets, Bool.or_true], ?_⟩
    rw [settleGates_fireEn hs hb, fireEnValue, hopen, Bool.and_false, Bool.false_and]
  · rw [settleGates_latch hs hb, show ((edgeTaken s g level u).bar b).latch = true from hset, Bool.true_or]

end Sys2Proof.Machine
end

section
/-! The resistance survey from its start to its end (R215 to R219). -/

namespace Sys2Proof.Machine

open Sys2Proof

/-! ## Blocks that leave on a group -/

/-- From `s` to `t` blocks have left: of the head links the groups alone have changed, and beside them the trace and the free values drawn. -/
def Sent (s t : State) : Prop := t = { s with link := { s.link with groups := t.link.groups }, trace := t.trace, draws := t.draws }

theorem Sent.refl (s : State) : Sent s s := rfl

theorem Sent.trans {s t u : State} (h1 : Sent s t) (h2 : Sent t u) : Sent s u := by
  unfold Sent at *
  rw [h2, h1]

theorem withGroup_sent (s : State) (g : Nat) (x : Group) : Sent s (s.withGroup g x) := rfl

theorem traceSent_sent (g : Nat) (s : State) (b : Blk) : Sent s (traceSent g s b) := by
  unfold traceSent
  split
  · rw [traceRec_withTrace]
    rfl
  · exact Sent.refl s

theorem sendBlocks_sent (s : State) (g : Nat) (bs : List Blk) : Sent s (s.sendBlocks g bs) :=
  Sent.trans (t := (s.draw (2 ^ 58)).2.withGroup g _) rfl (foldl_keeps Sent Sent.refl Sent.trans _ (traceSent_sent g) bs _)

theorem wakeDown_sent (g : Nat) (s : State) : Sent s (wakeDown g s) := by
  unfold wakeDown
  simp only []
  split
  · exact Sent.refl s
  · exact withGroup_sent s g _

theorem sleepDown_sent (g : Nat) (s : State) : Sent s (sleepDown g s) := by
  unfold sleepDown
  split
  · exact (sendBlocks_sent s g _).trans (withGroup_sent _ g _)
  · exact Sent.refl s

theorem sleepGroups_sent (gs : List Nat) (s : State) : Sent s (sleepGroups gs s) :=
  foldl_keeps Sent Sent.refl Sent.trans _ (fun s g => sleepDown_sent g s) gs s

/-! ## The start (R215, R216) -/

/-- The slots that a survey takes: the fitted ones named, of the bars named. -/
def surveySlots (s : State) (mask slotMask : Nat) : List Nat :=
  (scanBars s mask).flatMap (fun b => ((s.fittedSlots b).filter (bit slotMask)).map (slotIx b))

/-- A slot's HDM is asked for its TELEM. -/
def askTelem (s : State) (k : Nat) : State := s.sendBlocks (k / 24) [cmdBlk 0x06 (s.slotDesc (k / 24) (k % 24)).q 0]

/-- The state with the groups of a survey woken and its slots asked for their TELEM. -/
def surveyAsked (s : State) (mask slotMask : Nat) : State :=
  (surveySlots s mask slotMask).foldl askTelem ((scanBars s mask).foldl (fun s g => wakeDown g s) s)

theorem surveyAsked_sent (s : State) (mask slotMask : Nat) : Sent s (surveyAsked s mask slotMask) :=
  (foldl_keeps Sent Sent.refl Sent.trans _ (fun s g => wakeDown_sent g s) _ s).trans
    (foldl_keeps Sent Sent.refl Sent.trans _ (fun s k => sendBlocks_sent s (k / 24) _) _ _)

/-- The record of a survey that begins. -/
def newSurvey (s : State) (h : Hdr) (mask rows slotMask tmax : Nat) : SurveyOp :=
  { ring := h.ring, tag := h.tag, rows := rows, tmax := if tmax = 0 then 400 else tmax, slots := surveySlots s mask slotMask
    checked := [], measuring := false, discarded := false, dropped := [], lost := 0 }

/-- A survey with legal operands, whose heads are read and in whose way nothing stands, begins. -/
theorem surveyBegin_legal {s : State} {mask rows slotMask : Nat} (hlow : 1 ≤ rows) (hhigh : rows ≤ 3) (hslots : slotMask < 2 ^ 24)
    (hpress : s.press.isSome = true) (hread : s.firstUnread mask = none) (hprbs : prbsActive s mask = false)
    (hsurvey : s.link.survey = none) (hscan : s.link.scan = none) (hcal : s.thermal.op = none) (h : Hdr) (tmax : Nat) :
    surveyBegin h mask rows slotMask tmax s
      = (surveyAsked s mask slotMask).withSurvey (some (newSurvey s h mask rows slotMask tmax)) := by
  have hlegal : ¬(rows = 0 ∨ 3 < rows ∨ 2 ^ 24 ≤ slotMask) := by omega
  have hstate : ¬(s.press.isNone = true ∨ (s.firstUnread mask).isSome = true) := by simp [hread, Option.isSome_iff_ne_none.mp hpress]
  have hfree : ¬(prbsActive s mask = true ∨ s.link.survey.isSome = true ∨ s.link.scan.isSome = true ∨ s.thermal.op.isSome = true) := by
    simp [hprbs, hsurvey, hscan, hcal]
  rw [surveyBegin, if_neg hlegal, if_neg hstate, if_neg hfree]
  rfl

/-- An operation that begins with work on the head links: from its acceptance on, the links, the trace and the draws have changed. -/
theorem longFrame.begun_links {s a u : State} {at_ : Time} (ha : longFrame s a at_)
    (hu : u = { a with link := u.link, trace := u.trace, draws := u.draws }) :
    longFrame { s with link := u.link, draws := u.draws } u at_ := by
  unfold longFrame at *
  rw [hu, ha]
  rfl

theorem longFrame_link_draws {s t : State} {at_ : Time} (h : longFrame s t at_) : t.link = s.link ∧ t.draws = s.draws := by
  rw [h]
  exact ⟨rfl, rfl⟩

theorem nozzleSurvey_starts {s : State} {h : Hdr} {mask rows slotMask tmax : Nat} (ha : acceptsLong s h (cmdOf 0x0080 0) = true)
    (hlow : 1 ≤ rows) (hhigh : rows ≤ 3) (hslots : slotMask < 2 ^ 24)
    (hpress : s.press.isSome = true) (hread : s.firstUnread mask = none) (hprbs : prbsActive s mask = false)
    (hsurvey : s.link.survey = none) (hscan : s.link.scan = none) (hcal : s.thermal.op = none) :
    ∃ t, exec (.nozzleSurvey h mask rows slotMask tmax) s = .next t ∧ startedLong s t h (cmdOf 0x0080 0)
      ∧ t.link.survey = some (newSurvey s h mask rows slotMask tmax)
      ∧ longFrame { s with link := t.link, draws := t.draws } t h.t := by
  obtain ⟨-, hframe, -⟩ := acceptedLong_spec ha
  generalize hacc : acceptedLong s h (cmdOf 0x0080 0) = a at hframe
  have hnew : newSurvey a h mask rows slotMask tmax = newSurvey s h mask rows slotMask tmax := by
    rw [hframe]
    rfl
  have hbegun : surveyBegin h mask rows slotMask tmax a
      = (surveyAsked a mask slotMask).withSurvey (some (newSurvey a h mask rows slotMask tmax)) :=
    surveyBegin_legal hlow hhigh hslots (by rw [hframe]; exact hpress) (by rw [hframe]; exact hread) (by rw [hframe]; exact hprbs)
      (by rw [hframe]; exact hsurvey) (by rw [hframe]; exact hscan) (by rw [hframe]; exact hcal) h tmax
  have hsent := surveyAsked_sent a mask slotMask
  generalize surveyAsked a mask slotMask = v at hbegun hsent
  have hlinks : v.withSurvey (some (newSurvey a h mask rows slotMask tmax)) = { a with
      link := { v.link with survey := some (newSurvey a h mask rows slotMask tmax) }, trace := v.trace, draws := v.draws } := by
    rw [hsent]
    rfl
  obtain ⟨hstarted, hlong⟩ := hostLong_begins (body := surveyBegin h mask rows slotMask tmax)
    (.nozzleSurvey (unstarted h) mask rows slotMask tmax) ha (by rw [hacc]; exact hbegun) (by rw [hacc, hlinks])
    (hframe.begun_links hlinks)
  obtain ⟨hlink, hdraws⟩ := longFrame_link_draws hlong
  refine ⟨_, rfl, hstarted, ?_, ?_⟩
  · exact (congrArg Link.survey hlink).trans (congrArg some hnew)
  · rw [hlink, hdraws]
    exact hlong

/-! ## Results and slots without their end (R217, R219) -/

theorem survey_gathers {s : State} {u : Up} {o : SurveyOp} {v : SlotSurvey} (ho : s.link.survey = some o)
    (hv : (s.slot u.group u.slot).survey = some v) (nozzle row res : Nat) :
    ∃ t, exec (.survey u nozzle row res) s = .next t
      ∧ t.link = (s.withSlot u.group u.slot { s.slot u.group u.slot with
          survey := some { v with results := v.results ++ [(nozzle, row, res)] } }).link
      ∧ t.dev = s.dev ∧ t.tables = s.tables ∧ t.run = s.run := by
  have htraced : (s.at u.t).traceUp u 0xCC (nozzle % 8192 + 8192 * (row % 2) + 16384 * (res % 2 ^ 20)) = _ := traceRec_withTrace _ _ _ _
  simp only [exec, execSurvey]
  rw [htraced]
  simp only [State.slot, withTrace_link, at_link] at hv ⊢
  simp only [ho, hv]
  exact ⟨_, rfl, by rw [progressTo_link]; rfl, by rw [progressTo_dev]; rfl, by rw [progressTo_tables]; rfl, by rw [progressTo_run]; rfl⟩

theorem surveySlotTimeout_discards {s : State} {bar slot u : Nat} {o : SurveyOp} {v : SlotSurvey} (ho : s.link.survey = some o)
    (hv : (s.slot bar slot).survey = some v) (hopen : v.finished = false) (hlate : v.startAt + secT ≤ max s.clk.elapsed u) :
    exec (.surveySlotTimeout bar slot u) s = .next ((((s.at u).withSurvey (some { o with
      dropped := o.dropped ++ [slotIx bar slot], lost := o.lost + v.results.length, discarded := true })).withSlot bar slot
        { s.slot bar slot with survey := none }).report 0x200B (logKey (some bar) (some slot) none none) 0 []) := by
  have ho' : (s.at u).link.survey = some o := ho
  have hv' : ((s.at u).slot bar slot).survey = some v := hv
  have hdue : (!v.finished) = true ∧ v.startAt + secT ≤ (s.at u).clk.elapsed := ⟨by rw [hopen]; rfl, hlate⟩
  simp only [exec, execSurveySlotTimeout, hv', if_pos hdue, surveyDiscard, ho']
  rfl

/-! ## The end (R219) -/

/-- From `s` to `t` a survey has stored or closed something: the host interface, the device state and the press stand. -/
structure SurveyWork (s t : State) : Prop where
  host : t.host = s.host
  dev : t.dev = s.dev
  press : t.press = s.press

theorem SurveyWork.refl (s : State) : SurveyWork s s := ⟨rfl, rfl, rfl⟩

theorem SurveyWork.trans {s t u : State} (h1 : SurveyWork s t) (h2 : SurveyWork t u) : SurveyWork s u :=
  ⟨h2.host.trans h1.host, h2.dev.trans h1.dev, h2.press.trans h1.press⟩

theorem withLink_surveyWork (s : State) (x : Link) : SurveyWork s (s.withLink x) := ⟨rfl, rfl, rfl⟩

theorem Sent.surveyWork {s t : State} (h : Sent s t) : SurveyWork s t := by
  rw [h]
  exact ⟨rfl, rfl, rfl⟩

theorem setHealth_surveyWork (b sl row j hp : Nat) (s : State) : SurveyWork s (setHealth b sl row j hp s) := by
  unfold setHealth
  split
  · exact .refl s
  · exact withLink_surveyWork s _

theorem notePlan_surveyWork (b sl row j : Nat) (s : State) : SurveyWork s (notePlan b sl row j s) := by
  unfold notePlan
  simp only []
  split
  · exact .refl s
  · exact withLink_surveyWork s _

theorem setWord_surveyWork (b sl row j w : Nat) (s : State) : SurveyWork s (setWord b sl row j w s) := ⟨rfl, rfl, rfl⟩

theorem takeFinding_surveyWork (b sl row j hp : Nat) (s : State) : SurveyWork s (takeFinding b sl row j hp s) := by
  have hnoted := (setHealth_surveyWork b sl row j hp s).trans (notePlan_surveyWork b sl row j _)
  unfold takeFinding
  simp only []
  split
  · exact withLink_surveyWork s _
  · split
    · exact hnoted
    · exact hnoted.trans (setWord_surveyWork b sl row j _ _)

theorem storeResult_surveyWork (b sl : Nat) (m : HeadMem) (s : State) (r : Nat × Nat × Nat) : SurveyWork s (storeResult b sl m s r) := by
  unfold storeResult
  simp only []
  split
  · exact withLink_surveyWork s _
  · exact (withLink_surveyWork s _).trans (takeFinding_surveyWork b sl _ _ _ _)

theorem surveyStore_surveyWork (o : SurveyOp) (s : State) : SurveyWork s (surveyStore o s).1 := by
  refine foldl_keeps SurveyWork .refl .trans _ (fun s x => ?_) _ s
  exact foldl_keeps SurveyWork .refl .trans _ (storeResult_surveyWork (x.1 / 24) (x.1 % 24) x.2.1) x.2.2 s

/-- A slot's survey is over. -/
def clearSlot (s : State) (k : Nat) : State := s.withSlot (k / 24) (k % 24) { s.slot (k / 24) (k % 24) with survey := none }

/-- The state with no survey, its slots cleared and its groups asleep. -/
def surveyCleared (o : SurveyOp) (s : State) : State :=
  sleepGroups (distinct (o.slots.map (· / 24))) (o.slots.foldl clearSlot (s.withSurvey none))

theorem surveyCleared_surveyWork (o : SurveyOp) (s : State) : SurveyWork s (surveyCleared o s) :=
  ((withLink_surveyWork s _).trans (foldl_keeps SurveyWork .refl .trans _ (fun s _ => withLink_surveyWork s _) o.slots _)).trans
    (sleepGroups_sent _ _).surveyWork

theorem surveyCleared_survey (o : SurveyOp) (s : State) : (surveyCleared o s).link.survey = none := by
  have hcleared : (o.slots.foldl clearSlot (s.withSurvey none)).link.survey = none :=
    foldl_keeps (fun s t : State => t.link.survey = s.link.survey) (fun _ => rfl) (fun h1 h2 => Eq.trans h2 h1) clearSlot (fun _ _ => rfl)
      o.slots _
  rw [surveyCleared, sleepGroups_sent]
  exact hcleared

/-- The close of a survey whose operation runs is its operation's end. -/
theorem surveyClose_ends {s : State} {o : SurveyOp} {opcode : Nat} (hruns : LongRuns s o.ring o.tag opcode) (a : Answer) :
    let t := surveyClose o a s
    repliedWith t o.ring o.tag opcode a.status a.result = true ∧ t.host.longOps.length + 1 = s.host.longOps.length
      ∧ (t.ring o.ring).fetched = [] ∧ t.link.survey = none ∧ t.dev = s.dev ∧ t.press = s.press := by
  intro t
  have ht : t = (surveyCleared o s).finishLong o.ring o.tag a := rfl
  have hwork := surveyCleared_surveyWork o s
  obtain ⟨hreply, hlongs, hfetched⟩ := finishLong_ends (hruns.congr (t := surveyCleared o s) (by rw [hwork.host]) (by rw [hwork.host])) a
  rw [ht, finishLong_link, finishLong_dev, finishLong_press]
  exact ⟨hreply, by rw [hlongs, hwork.host], hfetched, surveyCleared_survey o s, hwork.dev, hwork.press⟩

/-- A survey of which every slot has ended stores its results and closes. -/
theorem nozzleSurveyDone_ends {s : State} {o : OpRef} {v : SurveyOp} (hlong : runsLong s o 0x0080 = true) (hv : s.link.survey = some v)
    (hring : v.ring = o.ring) (htag : v.tag = o.tag) (hready : v.measuring = true ∨ v.slots = [])
    (hslots : ∀ k ∈ v.slots, k ∈ v.dropped ∨ (s.slot (k / 24) (k % 24)).survey.any (fun x => x.finished) = true) :
    ∃ t, exec (.nozzleSurveyDone o) s = .next t
      ∧ endedWith s t o 0x0080 (if v.discarded then stTimeout else stOk) (surveyStore v (s.at o.t)).2
      ∧ t.link.survey = none ∧ t.dev = s.dev ∧ t.press = s.press := by
  obtain ⟨hruns, hreach⟩ := longRuns_of_runsLong hlong
  have hended : v.slots.all (fun k => decide (k ∈ v.dropped) || match ((s.at o.t).slot (k / 24) (k % 24)).survey with
      | none => false
      | some x => x.finished) = true := by
    rw [List.all_eq_true]
    intro k hk
    rw [Bool.or_eq_true, decide_eq_true_eq]
    refine (hslots k hk).imp_right fun hfinished => ?_
    obtain ⟨x, hx, hx'⟩ := Option.any_eq_true _ _ |>.mp hfinished
    rw [show ((s.at o.t).slot (k / 24) (k % 24)).survey = some x from hx]
    exact hx'
  have hv' : (s.at o.t).link.survey = some v := hv
  have hstored := surveyStore_surveyWork v (s.at o.t)
  have hruns' : LongRuns (surveyStore v (s.at o.t)).1 v.ring v.tag 0x0080 := by
    rw [hring, htag]
    exact hruns.congr (by rw [hstored.host]; rfl) (by rw [hstored.host]; rfl)
  obtain ⟨hreply, hlongs, hfetched, hsurvey, hdev, hpress⟩ :=
    surveyClose_ends hruns' (answer (if v.discarded then stTimeout else stOk) (surveyStore v (s.at o.t)).2)
  rw [hring] at hreply hfetched
  rw [htag] at hreply
  have hexec : exec (.nozzleSurveyDone o) s = .next (surveyClose v
      (answer (if v.discarded then stTimeout else stOk) (surveyStore v (s.at o.t)).2) (surveyStore v (s.at o.t)).1) := by
    refine congrArg Host.Outcome.next ?_
    obtain ⟨l, hl⟩ := withStep_runs hruns _
    rw [withOp, hl]
    simp only [hreach, hv']
    rw [if_pos ⟨hready, hended⟩, settle_nil _ _ hfetched]
  exact ⟨_, hexec, ⟨hreply, by rw [hlongs, hstored.host]; rfl⟩, hsurvey, hdev.trans hstored.dev, hpress.trans hstored.press⟩

end Sys2Proof.Machine
end

section
/-! The wear harvest and the balance that follows it (R170, R172). -/

namespace Sys2Proof.Machine

open Sys2Proof

/-! ## Every counter goes into its total -/

/-- A key below those of a table reads as unlisted. -/
theorem tget_below {α : Type} [DecidableEq α] (d : Nat → α) {t : Tab α} {lo k : Nat} (h : twfFrom d lo t = true) (hk : k < lo) :
    tget d t k = d k := by
  induction t generalizing lo with
  | nil => rfl
  | cons e t ih =>
    simp only [twfFrom, Bool.and_eq_true, decide_eq_true_eq] at h
    obtain ⟨⟨hlo, -⟩, hrest⟩ := h
    rw [tget, if_neg (by omega), ih hrest (by omega)]

/-- One wear counter is added to its total, within 64 bits. -/
def addTotal (t : Tab Nat) (e : Nat × Nat) : Tab Nat := nput t e.1 (sat 8 (nget t e.1 + e.2))

theorem nget_foldl_addTotal {w t : Tab Nat} {lo : Nat} (hw : twfFrom (fun _ => 0) lo w = true) (ht : twf (fun _ => 0) t = true) (k : Nat) :
    nget (w.foldl addTotal t) k = if nget w k = 0 then nget t k else sat 8 (nget t k + nget w k) := by
  induction w generalizing t lo with
  | nil => rfl
  | cons e w ih =>
    obtain ⟨j, v⟩ := e
    simp only [twfFrom, Bool.and_eq_true, decide_eq_true_eq] at hw
    obtain ⟨⟨-, hv⟩, hrest⟩ := hw
    have hread : nget ((j, v) :: w) k = if k = j then v else nget w k := rfl
    have hadded : nget (addTotal t (j, v)) k = if k = j then sat 8 (nget t j + v) else nget t k := nget_nput t j _ k ht
    rw [List.foldl_cons, ih hrest (t := addTotal t (j, v)) (twf_tput _ _ _ _ ht), hread, hadded]
    by_cases hk : k = j
    · have hnone : nget w k = 0 := tget_below _ hrest (by omega)
      rw [if_pos hk, if_pos hk, if_pos hnone, if_neg hv, hk]
    · rw [if_neg hk, if_neg hk]

theorem harvest_wearTotals {p : PrintPath} (hwear : twf (fun _ => 0) p.wear = true) (htotals : twf (fun _ => 0) p.wearTotals = true)
    (now : Time) (k : Nat) : nget (harvest p now).wearTotals k
      = if nget p.wear k = 0 then nget p.wearTotals k else sat 8 (nget p.wearTotals k + nget p.wear k) :=
  nget_foldl_addTotal hwear htotals k

/-! ## The totals that are read -/

theorem OnlyDram.poison {s t : State} (h : OnlyDram s t) : t.store.poison = s.store.poison := by
  rw [h]
  rfl

theorem wakeIdle_cfg (c : Nat) (s : State) : (wakeIdle c s).dram.cfg = s.dram.cfg := rfl

theorem touchChannel_cfg (s : State) (c : Nat) : (touchChannel s c).dram.cfg = s.dram.cfg := by
  have hwoken : (if (s.channel c).sr = .idleSr then wakeIdle c s else s).dram.cfg = s.dram.cfg := by
    split
    · exact wakeIdle_cfg c s
    · rfl
  exact hwoken

/-- Accesses of the dynamic share leave the configuration of the DRAM. -/
theorem share_cfg (s : State) (subs : List Nat) : (s.share subs).dram.cfg = s.dram.cfg := by
  unfold State.share
  split
  · exact foldl_keeps (fun s t : State => t.dram.cfg = s.dram.cfg) (fun _ => rfl) (fun h1 h2 => Eq.trans h2 h1) _ touchChannel_cfg _ s
  · rfl

/-- Which bursts of a span are poisoned is up to the markers and the address map. -/
theorem lostBursts_congr {s t : State} (hpoison : t.store.poison = s.store.poison) (hcfg : t.dram.cfg = s.dram.cfg) (a n : Nat) :
    lostBursts t a n = lostBursts s a n := by simp only [lostBursts, State.burstPoisoned, hpoison, hcfg]

theorem meetTotals_clean {s : State} {a n : Nat} (h : lostBursts s a n = []) : meetTotals a n s = s.countN 21 0 := by
  simp only [meetTotals, h, List.length_nil, List.foldl_nil]

/-! ## The balance -/

/-- From `s` to `t` wear has been balanced: the print path, the device state, the press and the store stand. -/
structure BalanceWork (s t : State) : Prop where
  path : t.path = s.path
  dev : t.dev = s.dev
  press : t.press = s.press
  store : t.store = s.store

theorem BalanceWork.refl (s : State) : BalanceWork s s := ⟨rfl, rfl, rfl, rfl⟩

theorem BalanceWork.trans {s t u : State} (h1 : BalanceWork s t) (h2 : BalanceWork t u) : BalanceWork s u :=
  ⟨h2.path.trans h1.path, h2.dev.trans h1.dev, h2.press.trans h1.press, h2.store.trans h1.store⟩

theorem BalanceWork.ite {c : Prop} [Decidable c] {s t u : State} (h1 : BalanceWork s t) (h2 : BalanceWork s u) :
    BalanceWork s (if c then t else u) := by
  split
  · exact h1
  · exact h2

theorem withTable_balanceWork (s : State) (cls bar : Nat) (x : TableSt) : BalanceWork s (s.withTable cls bar x) := ⟨rfl, rfl, rfl, rfl⟩

theorem setWord_balanceWork (b sl row j w : Nat) (s : State) : BalanceWork s (setWord b sl row j w s) := withTable_balanceWork s _ _ _

theorem balanceZone_balanceWork (b : Nat) (s : State) (sl : Nat) : BalanceWork s (balanceZone b s sl) :=
  .ite (.refl s) (.ite (.refl s) (withTable_balanceWork s _ _ _))

theorem balanceNozzle_balanceWork (b : Nat) (s : State) (p : Nat × Nat × Nat) : BalanceWork s (balanceNozzle b s p) := by
  have hword : ∀ (c : Prop) [Decidable c] (u : State) (sl row j w : Nat), BalanceWork u (if c then u else setWord b sl row j w u) :=
    fun c _ u sl row j w => .ite (.refl u) (setWord_balanceWork b sl row j w u)
  exact .ite (.refl s) ((hword _ s _ _ _ _).trans (hword _ _ _ _ _ _))

theorem dropRestored_balanceWork (b : Nat) (s : State) : BalanceWork s (dropRestored b s) := by
  refine foldl_keeps BalanceWork .refl .trans _ (fun s sl => ?_) _ s
  split
  · exact .ite ⟨rfl, rfl, rfl, rfl⟩ (.refl s)
  · exact .refl s

theorem commitNow_balanceWork (p : Nat × Nat) (s : State) : BalanceWork s (commitNow p s) := by
  obtain ⟨cls, b⟩ := p
  simp -zeta only [commitNow]
  extract_lets t m bad tabled latch latched restored tables ramped
  have hlatched : BalanceWork s latched := ⟨rfl, rfl, rfl, rfl⟩
  have hrestored : BalanceWork latched restored := .ite (dropRestored_balanceWork b latched) (.refl latched)
  have hramped : BalanceWork restored ramped := .ite ⟨rfl, rfl, rfl, rfl⟩ (.refl restored)
  exact ((hlatched.trans hrestored).trans hramped).trans ⟨rfl, rfl, rfl, rfl⟩

theorem firmwareCommit_balanceWork (cls b : Nat) (s : State) : BalanceWork s (firmwareCommit cls b s) := by
  have hnow : BalanceWork s (if (imageBad s cls b).isSome then s else commitNow (cls, b) s) :=
    .ite (.refl s) (commitNow_balanceWork (cls, b) s)
  unfold firmwareCommit
  split
  next =>
    refine .ite (.refl s) ?_
    split
    · exact .refl s
    · exact .ite ⟨rfl, rfl, rfl, rfl⟩ ⟨rfl, rfl, rfl, rfl⟩
  next => exact hnow
  next => exact hnow
  next => exact .refl s

theorem balanceBar_balanceWork (s : State) (b : Nat) : BalanceWork s (balanceBar s b) := by
  unfold balanceBar
  simp only []
  refine .ite (.refl s) ?_
  refine ((foldl_keeps BalanceWork .refl .trans _ (balanceZone_balanceWork b) _ s).trans
    (foldl_keeps BalanceWork .refl .trans _ (balanceNozzle_balanceWork b) _ _)).trans (.ite ?_ (.refl _))
  exact firmwareCommit_balanceWork 5 b _

/-! ## The harvest -/

/-- The state whose wear counters a harvest takes: their totals are read, and their markers go (R303). -/
def harvestReady (s : State) : State :=
  let u := meetTotals (wearBase s) wearBytes (s.share (spanSubs s (wearBase s) wearBytes))
  u.withDram { u.dram with sramPoison := u.dram.sramPoison.filter (fun w => match sramUse w with
    | .wear _ => false
    | _ => true) }

/-- Where no total is poisoned, reading them touches the DRAM controller and writes one counter as it stands. -/
theorem harvestReady_frame {s : State} (h : lostBursts s (wearBase s) wearBytes = []) :
    harvestReady s = { s with dram := (harvestReady s).dram, counters := (harvestReady s).counters } := by
  have hshared := share_onlyDram s (spanSubs s (wearBase s) wearBytes)
  have hclean := (lostBursts_congr hshared.poison (share_cfg s (spanSubs s (wearBase s) wearBytes)) (wearBase s) wearBytes).trans h
  unfold harvestReady
  simp only []
  rw [meetTotals_clean hclean, hshared]
  rfl

theorem wearHarvest_completes {s : State} (hwear : twf (fun _ => 0) s.path.wear = true)
    (htotals : twf (fun _ => 0) s.path.wearTotals = true) (hclean : lostBursts s (wearBase s) wearBytes = []) (u : Nat) :
    ∃ t, exec (.wearHarvest u) s = .next t ∧ t.path.wear = [] ∧ t.path.lastHarvest = max s.clk.elapsed u
      ∧ (∀ k, nget t.path.wearTotals k = (if nget s.path.wear k = 0 then nget s.path.wearTotals k
          else sat 8 (nget s.path.wearTotals k + nget s.path.wear k)))
      ∧ t.dev = s.dev ∧ t.press = s.press ∧ t.store = s.store := by
  have hready := harvestReady_frame (s := s.at u) hclean
  let v := (harvestReady (s.at u)).withPath (harvest (harvestReady (s.at u)).path (harvestReady (s.at u)).clk.elapsed)
  have hexec : exec (.wearHarvest u) s = .next ((List.range 8).foldl balanceBar v) := rfl
  have hv : v.path = harvest s.path (max s.clk.elapsed u) ∧ v.dev = s.dev ∧ v.press = s.press ∧ v.store = s.store := by
    simp only [v]
    rw [hready]
    exact ⟨rfl, rfl, rfl, rfl⟩
  obtain ⟨hpath, hdev, hpress, hstore⟩ := hv
  obtain ⟨hbpath, hbdev, hbpress, hbstore⟩ :=
    foldl_keeps BalanceWork .refl .trans balanceBar balanceBar_balanceWork (List.range 8) v
  refine ⟨_, hexec, ?_⟩
  rw [hbpath, hbdev, hbpress, hbstore, hpath]
  exact ⟨rfl, rfl, harvest_wearTotals hwear htotals _, hdev, hpress, hstore⟩

theorem wear_of_canonOk {s : State} (h : canonOk s = true) :
    twf (fun _ => 0) s.path.wear = true ∧ twf (fun _ => 0) s.path.wearTotals = true := by
  simp only [canonOk, Bool.and_eq_true] at h
  simp only [h, and_self]

/-- Settles O26: the survey's start, results, discards and end, and the harvest, by the lemma of each. -/
theorem surveyAndWearComplete : Obligations.SurveyAndWearComplete := by
  unfold Obligations.SurveyAndWearComplete
  refine ⟨?_, ?_, ?_, ?_, ?_⟩
  · intro s h mask rows slotMask tmax ha hlow hhigh hslots hpress hread hprbs hsurvey hscan hcal
    exact nozzleSurvey_starts ha hlow hhigh hslots hpress hread hprbs hsurvey hscan hcal
  · intro s u nozzle row res o v ho hv
    exact survey_gathers ho hv nozzle row res
  · intro s bar slot u o v ho hv hopen hlate
    exact surveySlotTimeout_discards ho hv hopen hlate
  · intro s o v hlong hv hring htag hready hslots
    exact nozzleSurveyDone_ends hlong hv hring htag hready hslots
  · intro s u hcanon hclean
    obtain ⟨hwear, htotals⟩ := wear_of_canonOk hcanon
    exact wearHarvest_completes hwear htotals hclean u

end Sys2Proof.Machine
end

section
/-! Position outputs: TOUT_PROGRAM, their pulses and the ends of those (R242, R397 to R399; a ONCE instant that passes while its program
waits, log 72). -/

namespace Sys2Proof.Machine

open Sys2Proof

/-! ## The table of outputs -/

theorem touts_of_canonOk {s : State} (h : canonOk s = true) : twf (fun _ => Tout.reset) s.web.touts = true := by
  simp only [canonOk, Bool.and_eq_true] at h
  simp only [h]

theorem tout_withTout {s : State} (hs : twf (fun _ => Tout.reset) s.web.touts = true) (k : Nat) (x : Tout) (j : Nat) :
    (s.withTout k x).tout j = if j = k then x else s.tout j := tget_tput _ _ k x j 0 hs

/-- An output in a pulse reads back whatever the table, for it is not at its reset value. -/
theorem tout_withTout_of_active (s : State) (k : Nat) {x : Tout} (hx : x.active = true) : (s.withTout k x).tout k = x :=
  tget_tput_same _ _ _ _ (fun e => by rw [e] at hx; cases hx)

/-! ## TOUT_PROGRAM (R397 to R399) -/

/-- An output under a new program: at once, or after the pulse in progress. -/
def programmed (x : Tout) (p : ToutProg) : Tout :=
  if x.active then { x with waiting := some p }
  else { prog := p, waiting := none, active := false, endsAt := 0, nextPulse := firstInstant p p.earliest, pending := [] }

/-- A program with its fields in range, at a valid TAI where it names instants, is taken. -/
theorem toutBody_programs {s : State} {output mode flags source width sec ns period : Nat} (houtput : output ≤ 7) (hmode : mode ≤ 3)
    (hflags : flags ≤ 1) (hsource : mode = 3 → source ≤ 7) (hwidth : mode ≠ 0 → width % 2 = 0 ∧ 4 ≤ width ∧ width ≤ 1000000000)
    (htai : mode = 1 ∨ mode = 2 → ns ≤ 999999999 ∧ s.clk.taiValid = true)
    (hperiod : mode = 2 → 100 * nsT ≤ period ∧ period ≤ 1000 * secT ∧ width * nsT < period)
    (hstart : mode = 1 → s.base + 10 * usT ≤ sec * secT + ns * nsT) :
    toutBody output mode flags source width sec ns period s = (s.withTout output (programmed (s.tout output)
      { mode := mode, activeLow := bit flags 0, source := source, width := width, start := sec * secT + ns * nsT
        period := period, earliest := s.base + 10 * usT }), refuse stOk) := by
  have hfields : ¬(7 < output ∨ 3 < mode ∨ 2 ≤ flags ∨ (mode = 3 ∧ 7 < source)
      ∨ (mode ≠ 0 ∧ (width % 2 ≠ 0 ∨ width < 4 ∨ 1000000000 < width)) ∨ ((mode = 1 ∨ mode = 2) ∧ 999999999 < ns)
      ∨ (mode = 2 ∧ (period < 100 * nsT ∨ 1000 * secT < period ∨ period ≤ width * nsT))
      ∨ (mode = 1 ∧ sec * secT + ns * nsT < s.base + 10 * usT)) := by
    omega
  have hinstants : ¬((mode = 1 ∨ mode = 2) ∧ (!s.clk.taiValid) = true) := by
    rintro ⟨hm, hinvalid⟩
    simp [(htai hm).2] at hinvalid
  simp only [toutBody, if_neg hfields, if_neg hinstants, programmed, installTout, Nat.max_eq_left (Nat.le_add_right _ _)]
  split <;> rfl

theorem toutProgram_completes (s : State) (h : Hdr) (output mode flags source width sec ns period : Nat)
    (ha : accepts s h (cmdOf 0x00D1 0) = true) (hs : canonOk s = true) (houtput : output ≤ 7) (hmode : mode ≤ 3)
    (hflags : flags ≤ 1) (hsource : mode = 3 → source ≤ 7) (hwidth : mode ≠ 0 → width % 2 = 0 ∧ 4 ≤ width ∧ width ≤ 1000000000)
    (htai : mode = 1 ∨ mode = 2 → ns ≤ 999999999 ∧ s.clk.taiValid = true)
    (hperiod : mode = 2 → 100 * nsT ≤ period ∧ period ≤ 1000 * secT ∧ width * nsT < period)
    (hstart : mode = 1 → (s.at h.t).base + 10 * usT ≤ sec * secT + ns * nsT) :
    let p : ToutProg := { mode := mode, activeLow := bit flags 0, source := source, width := width, start := sec * secT + ns * nsT
                          period := period, earliest := (s.at h.t).base + 10 * usT }
    ∃ t, exec (.toutProgram h output mode flags source width sec ns period) s = .next t
      ∧ repliedWith t h.ring h.tag 0x00D1 stOk [] = true ∧ t.tout output = programmed (s.tout output) p
      ∧ (∀ k, k ≠ output → t.tout k = s.tout k) ∧ hostOnly (s.withWeb { s.web with touts := t.web.touts }) t h := by
  intro p
  let u := (begun s h (cmdOf 0x00D1 0)).withTout output (programmed (s.tout output) p)
  have hbody : toutBody output mode flags source width sec ns period (begun s h (cmdOf 0x00D1 0)) = (u, refuse stOk) :=
    toutBody_programs houtput hmode hflags hsource hwidth htai hperiod hstart
  obtain ⟨hreply, hframe⟩ := hostCmd_answers (i := .toutProgram (unstarted h) output mode flags source width sec ns period)
    (s' := s.withWeb u.web) ha hbody rfl rfl
  have htable := tout_withTout (touts_of_canonOk hs) output (programmed (s.tout output) p)
  refine ⟨_, rfl, hreply, ?_, fun k hk => ?_, ?_⟩
  · rw [hframe]
    exact (htable output).trans (if_pos rfl)
  · rw [hframe]
    exact (htable k).trans (if_neg hk)
  · rw [hframe]
    rfl

/-! ## Pulses (R242, R398) -/

/-- From `s` to `t` time has come to `u`, and beside that the outputs alone have changed. -/
def OutputsAt (u : Time) (s t : State) : Prop := t = { s with clk := (s.at u).clk, web := { s.web with touts := t.web.touts } }

/-- A pulse that begins at `u` lasts for the width of the program. -/
theorem pulse_at (s : State) (k : Nat) (u : Time) (y : Tout) :
    (pulse k y (s.at u)).tout k = { y with active := true, endsAt := max s.clk.elapsed u + y.prog.width * nsT }
      ∧ OutputsAt u s (pulse k y (s.at u)) :=
  ⟨tout_withTout_of_active _ _ rfl, rfl⟩

theorem toutPulse_single {s : State} {output : Nat} {u : Time} (hmode : (s.tout output).prog.mode = 1)
    (hset : (s.tout output).nextPulse ≠ 0) (hdue : (s.tout output).nextPulse ≤ (s.at u).base) :
    exec (.toutPulse output u) s = .next (pulse output { s.tout output with nextPulse := 0 } (s.at u)) := by
  have hmode' : ((s.at u).tout output).prog.mode = 1 := hmode
  change execToutPulse output u s = _
  simp only [execToutPulse, hmode']
  exact congrArg Host.Outcome.next (if_pos ⟨hset, hdue⟩)

theorem toutPulse_periodic {s : State} {output : Nat} {u : Time} (hmode : (s.tout output).prog.mode = 2)
    (hdue : (s.tout output).nextPulse ≤ (s.at u).base) :
    exec (.toutPulse output u) s = .next (pulse output
      { s.tout output with nextPulse := (s.tout output).nextPulse + (s.tout output).prog.period } (s.at u)) := by
  have hmode' : ((s.at u).tout output).prog.mode = 2 := hmode
  change execToutPulse output u s = _
  simp only [execToutPulse, hmode']
  exact congrArg Host.Outcome.next (if_pos hdue)

theorem toutPulse_position {s : State} {output : Nat} {u : Time} {pos : Int} (hmode : (s.tout output).prog.mode = 3)
    (hrun : s.web.running = true)
    (hpos : (s.tout output).pending.find? (fun p => decide (p ≤ (phaseAt s (s.at u).base : Int))) = some pos) :
    exec (.toutPulse output u) s = .next (pulse output
      { s.tout output with pending := (s.tout output).pending.erase pos } (s.at u)) := by
  have hmode' : ((s.at u).tout output).prog.mode = 3 := hmode
  have hpos' : ((s.at u).tout output).pending.find? (fun p => decide (p ≤ (phaseAt (s.at u) (s.at u).base : Int))) = some pos := hpos
  change execToutPulse output u s = _
  simp only [execToutPulse, hmode', hpos']
  exact congrArg Host.Outcome.next (if_pos hrun)

/-! ## Ends of pulses (R398, R399) -/

/-- An output after its pulse: a program that waits takes effect at time-base instant `now`. -/
def pulseEnded (x : Tout) (now : Nat) : Tout :=
  match x.waiting with
  | some p => { prog := p, waiting := none, active := false, endsAt := 0, nextPulse := firstInstant p (max p.earliest now), pending := [] }
  | none => { x with active := false }

theorem toutPulseEnd_due {s : State} {output : Nat} {u : Time} (hactive : (s.tout output).active = true)
    (hend : (s.tout output).endsAt ≤ max s.clk.elapsed u) :
    exec (.toutPulseEnd output u) s = .next ((s.at u).withTout output (pulseEnded (s.tout output) (s.at u).base)) := by
  have hx : (s.at u).tout output = s.tout output := rfl
  have hdue : ¬((!(s.tout output).active) = true ∨ (s.at u).clk.elapsed < (s.tout output).endsAt) := by
    rintro (hidle | hearly)
    · rw [hactive] at hidle
      cases hidle
    · exact Nat.not_lt.mpr hend hearly
  change execToutPulseEnd output u s = _
  simp only [execToutPulseEnd, hx, if_neg hdue, pulseEnded]
  cases (s.tout output).waiting <;> rfl

theorem toutPulseEnd_completes (s : State) (output u : Nat) (x : Tout) (hs : canonOk s = true) (hx : s.tout output = x)
    (hactive : x.active = true) (hend : x.endsAt ≤ max s.clk.elapsed u) :
    ∃ t, exec (.toutPulseEnd output u) s = .next t
      ∧ (x.waiting = none → t.tout output = { x with active := false })
      ∧ (∀ p, x.waiting = some p → t.tout output =
          { prog := p, waiting := none, active := false, endsAt := 0, nextPulse := firstInstant p (max p.earliest (s.at u).base)
            pending := [] })
      ∧ OutputsAt u s t := by
  subst hx
  have hout := (tout_withTout (s := s.at u) (touts_of_canonOk hs) output (pulseEnded (s.tout output) (s.at u).base) output).trans
    (if_pos rfl)
  refine ⟨_, toutPulseEnd_due hactive hend, fun hnone => ?_, fun p hp => ?_, rfl⟩
  · rw [hout, pulseEnded, hnone]
  · rw [hout, pulseEnded, hp]

/-- Settles O47: the program, the three kinds of pulse and the end of a pulse, by the lemma of each. -/
theorem outputsComplete : Obligations.OutputsComplete := by
  unfold Obligations.OutputsComplete
  refine ⟨?_, ?_, toutPulseEnd_completes⟩
  · intro s h output mode flags source width sec ns period ha hs houtput hmode hflags hsource hwidth htai hperiod hstart
    exact toutProgram_completes s h output mode flags source width sec ns period ha hs houtput hmode hflags hsource hwidth htai hperiod
      hstart
  · rintro s output u x rfl
    refine ⟨fun hmode hset hdue => ?_, fun hmode hdue => ?_, fun pos hmode hrun hpos => ?_⟩
    · exact ⟨_, toutPulse_single hmode hset hdue, pulse_at _ _ _ _⟩
    · exact ⟨_, toutPulse_periodic hmode hdue, pulse_at _ _ _ _⟩
    · exact ⟨_, toutPulse_position hmode hrun hpos, pulse_at _ _ _ _⟩

end Sys2Proof.Machine
end

section
/-! Comparators match (R244; log 39, log 49), encoders count (R233, R234; log 86), and the ends of speed windows trim the line clock (R235,
R245, R246). -/

namespace Sys2Proof.Machine

open Sys2Proof

/-! ## Comparators (R244) -/

/-- From `s` to `t` positions have gone to outputs or are counted as late. -/
def PositionWork (s t : State) : Prop :=
  t = { s with counters := t.counters, web := { s.web with touts := t.web.touts } }

theorem PositionWork.refl (s : State) : PositionWork s s := rfl

theorem PositionWork.trans {s t u : State} (h1 : PositionWork s t) (h2 : PositionWork t u) : PositionWork s u := by
  unfold PositionWork at *
  rw [h2, h1]

theorem boundPulse_positionWork (j : Nat) (pos : Int) (s : State) (k : Nat) : PositionWork s (boundPulse j pos s k) := by
  simp only [boundPulse]
  split
  · exact PositionWork.refl s
  · split <;> rfl

theorem produce_positionWork (kind : Nat) (comparator : Option Nat) (w : Nat) (s : State) :
    PositionWork s (produce kind comparator w s) := by
  refine foldl_keeps PositionWork PositionWork.refl PositionWork.trans _ (fun t j => ?_) _ s
  simp only []
  split
  · exact foldl_keeps PositionWork PositionWork.refl PositionWork.trans _ (boundPulse_positionWork j _) _ t
  · exact PositionWork.refl t

/-- A comparator after its match at web position `now`: a PERIODIC one moves on, a ONCE one has no position any more. -/
def Comparator.matched (c : Comparator) (now : Nat) : Comparator := { c with w := if c.mode = 2 then now + c.period else 0 }

/-- Past its match at a position above 0, a comparator does not match there again. -/
theorem matched_w_ne {c : Comparator} {now : Nat} (hnow : now ≠ 0) (hperiod : c.mode = 2 → c.period ≠ 0) :
    (c.matched now).w ≠ now := by
  simp only [Comparator.matched]
  split
  · have := hperiod ‹_›
    omega
  · exact hnow.symm

/-- A comparator that is on reads back, and the others stay, whatever the table. -/
theorem comparator_withComparator (s : State) (k : Nat) {c : Comparator} (hc : c.mode ≠ 0) (j : Nat) :
    (s.withComparator k c).comparator j = if j = k then c else s.comparator j := by
  have hset : c ≠ Comparator.reset := fun e => hc (by rw [e]; rfl)
  by_cases hj : j = k
  · rw [if_pos hj, hj]
    exact tget_tput_same (fun _ => Comparator.reset) _ _ _ hset
  · rw [if_neg hj]
    exact tget_tput_of_ne (fun _ => Comparator.reset) _ hset hj

theorem comparatorDue_iff (s : State) (k : Nat) :
    comparatorDue s k = true ↔ s.web.running = true ∧ (s.comparator k).mode ≠ 0 ∧ (s.comparator k).w = s.web.webPos := by
  simp [comparatorDue]

/-- Comparator `k` has matched: its status bit is set and it moves on. The positions it gives and the event come after that. -/
def markMatched (k : Nat) (s : State) : State :=
  (s.withHost { s.host with matchStatus := s.host.matchStatus ||| BitVec.ofNat 8 (2 ^ k) }).withComparator k
    ((s.comparator k).matched s.web.webPos)

section
variable {s t : State} {k : Nat} (hdue : comparatorDue s k = true) (hwork : PositionWork (markMatched k s) t)
include hwork

theorem matched_frame : t = { s with
    counters := t.counters, web := { s.web with comparators := (markMatched k s).web.comparators, touts := t.web.touts }
    host := { s.host with matchStatus := s.host.matchStatus ||| BitVec.ofNat 8 (2 ^ k) } } := hwork

include hdue

theorem matched_comparator (j : Nat) :
    t.comparator j = if j = k then (s.comparator k).matched s.web.webPos else s.comparator j := by
  obtain ⟨-, hmode, -⟩ := (comparatorDue_iff s k).mp hdue
  have hcomparators : t.comparator j = (markMatched k s).comparator j := congrArg (fun x => x.comparator j) hwork
  exact hcomparators.trans (comparator_withComparator _ k (c := (s.comparator k).matched s.web.webPos) hmode j)

/-- After the only match of a tick no comparator is due there. -/
theorem matched_none_due (hpos : s.web.webPos ≠ 0) (hperiod : (s.comparator k).mode = 2 → (s.comparator k).period ≠ 0)
    (hothers : ∀ j, j ≤ 7 → j ≠ k → comparatorDue s j = false) : (List.range 8).any (comparatorDue t) = false := by
  have hrun : t.web.running = s.web.running := congrArg (fun x => x.web.running) hwork
  have hat : t.web.webPos = s.web.webPos := congrArg (fun x => x.web.webPos) hwork
  refine List.any_eq_false.mpr fun j hj hagain => ?_
  rw [comparatorDue_iff, matched_comparator hdue hwork, hrun, hat] at hagain
  obtain ⟨hr, hmode, hw⟩ := hagain
  by_cases hjk : j = k
  · rw [if_pos hjk] at hw
    exact matched_w_ne hpos hperiod hw
  · rw [if_neg hjk] at hmode hw
    have := hothers j (Nat.lt_succ_iff.mp (List.mem_range.mp hj)) hjk
    rw [(comparatorDue_iff s j).mpr ⟨hr, hmode, hw⟩] at this
    cases this

end

/-- The only match of a tick gives its positions and raises LINE_MATCH. -/
theorem lineMatch_raises {s : State} {k : Nat} (hk : k ≤ 7) (hpos : s.web.webPos ≠ 0) (hdue : comparatorDue s k = true)
    (hperiod : (s.comparator k).mode = 2 → (s.comparator k).period ≠ 0) (hothers : ∀ j, j ≤ 7 → j ≠ k → comparatorDue s j = false) :
    ∃ t, PositionWork (markMatched k s) t ∧ exec (.lineMatch k) s = .next (t.raise 1) := by
  obtain ⟨-, -, hw⟩ := (comparatorDue_iff s k).mp hdue
  have htaken : ¬(7 < k ∨ (!comparatorDue s k) = true) := by
    rw [hdue]
    simpa using hk
  have hwork := produce_positionWork 3 (some k) s.web.webPos (markMatched k s)
  have hnone := matched_none_due hdue hwork hpos hperiod hothers
  refine ⟨_, hwork, ?_⟩
  change execLineMatch k s = _
  simp only [execLineMatch, if_neg htaken, hw]
  exact congrArg Host.Outcome.next (if_neg (ne_true_of_eq_false hnone))

theorem lineMatch_completes (s : State) (k : Nat) (hk : k ≤ 7) (hpos : s.web.webPos ≠ 0) (hdue : comparatorDue s k = true)
    (hperiod : (s.comparator k).mode = 2 → (s.comparator k).period ≠ 0) (hothers : ∀ j, j ≤ 7 → j ≠ k → comparatorDue s j = false) :
    ∃ t, exec (.lineMatch k) s = .next t ∧ t.host.matchStatus = s.host.matchStatus ||| BitVec.ofNat 8 (2 ^ k)
      ∧ t.host.evtStatus = s.host.evtStatus ||| BitVec.ofNat 16 2
      ∧ t.comparator k = (s.comparator k).matched s.web.webPos ∧ (∀ j, j ≠ k → t.comparator j = s.comparator j)
      ∧ t = { s with
          counters := t.counters, trace := t.trace, web := { s.web with comparators := t.web.comparators, touts := t.web.touts }
          host := { s.host with matchStatus := t.host.matchStatus, evtStatus := t.host.evtStatus, messages := t.host.messages
                                pba := t.host.pba } } := by
  obtain ⟨t, hwork, hstep⟩ := lineMatch_raises hk hpos hdue hperiod hothers
  have hraise := raise_frame t 1
  have hframe := matched_frame hwork
  have hevt : t.host.evtStatus = s.host.evtStatus := congrArg (fun x => x.host.evtStatus) hwork
  have hcomparator (j : Nat) : (t.raise 1).comparator j = if j = k then (s.comparator k).matched s.web.webPos else s.comparator j := by
    rw [hraise]
    exact matched_comparator hdue hwork j
  refine ⟨_, hstep, ?_, ?_, (hcomparator k).trans (if_pos rfl), fun j hj => (hcomparator j).trans (if_neg hj), ?_⟩
  · rw [hraise, hframe]
  · exact (raise_evtStatus t 1).trans (congrArg (· ||| BitVec.ofNat 16 2) hevt)
  · rw [hraise, hframe]

/-! ## Encoders (R233, R234) -/

/-- An encoder that is not at its reset value reads back, whatever the table. -/
theorem encoder_withEncoder (s : State) (enc : Nat) {x : Encoder} (hx : x ≠ Encoder.reset) : (s.withEncoder enc x).encoder enc = x :=
  tget_tput_same _ _ _ _ hx

theorem bad_ne_reset {x : Encoder} (hx : x.bad = true) : x ≠ Encoder.reset := fun e => by
  rw [e] at hx
  cases hx

theorem edged_ne_reset {x : Encoder} {stamp : Time} (hx : x.lastEdge = some stamp) : x ≠ Encoder.reset := fun e => by
  rw [e] at hx
  cases hx

/-- An open window does not end. -/
theorem endWindows_open {s : State} {now : Nat} (hopen : windowOver s now = false) (n : Nat) : endWindows now n s = s := by
  cases n with
  | zero => rfl
  | succ n => simp [endWindows, hopen]

/-- Levels held for less than the filter time change nothing. -/
theorem encoderCount_filtered (s : State) (enc u held : Nat) (a b : Bool) (hheld : held < encoderFilter s) :
    exec (.encoderCount enc a b held u) s = .next (s.at u) := if_pos (Or.inl hheld)

/-- Levels that hold for the filter time within the open window are the encoder's. -/
theorem encoderCount_accepts {s : State} {enc u held : Nat} (a b : Bool) (henc : enc ≤ 1) (hheld : encoderFilter s ≤ held)
    (hopen : windowOver s ((s.at (u + encoderFilter s)).clk.baseAt u) = false) :
    exec (.encoderCount enc a b held u) s = .next (encoderLevels enc a b (encoderStamp u) (s.at (u + encoderFilter s))) := by
  have hopen' : windowOver (s.at (u + encoderFilter s)) ((s.at (u + encoderFilter s)).clk.baseAt u) = false := hopen
  have htaken : ¬(held < encoderFilter s ∨ 1 < enc) := not_or.mpr ⟨Nat.not_lt.mpr hheld, Nat.not_lt.mpr henc⟩
  change execEncoderCount enc a b held u s = _
  simp only [execEncoderCount, if_neg htaken, endWindows_open hopen']

/-- Exactly one of two levels has changed. -/
theorem one_changed {x y a b : Bool} (h : x = a ↔ y ≠ b) : ¬(x = a ∧ y = b) ∧ ¬(x ≠ a ∧ y ≠ b) := by
  by_cases hx : x = a <;> simp_all

theorem edge_of_counted {x : Encoder} (hx : x.edges ≠ 0) (up : Bool) (stamp : Time) : x.edge up stamp = { x with
    edges := x.edges + 1, count := x.count + (if up then 1 else -1), lastAt := stamp, lastEdge := some stamp } := if_neg hx

/-- One level has changed, at a rate that counts. -/
theorem encoderLevels_counts {s : State} {enc : Nat} {a b : Bool} {stamp : Time} (hedges : (s.encoder enc).edges ≠ 0)
    (hone : (s.encoder enc).levelA = a ↔ (s.encoder enc).levelB ≠ b) (hrate : (s.encoder enc).overrate stamp = false) :
    encoderLevels enc a b stamp s = s.withEncoder enc { s.encoder enc with
      levelA := a, levelB := b, edges := (s.encoder enc).edges + 1
      count := (s.encoder enc).count + (if (s.encoder enc).countsUp a (bit s.web.motion.dir enc) then 1 else -1)
      lastAt := stamp, lastEdge := some stamp } := by
  have hedge := edge_of_counted (x := { s.encoder enc with levelA := a, levelB := b }) hedges
    ((s.encoder enc).countsUp a (bit s.web.motion.dir enc)) stamp
  obtain ⟨hsame, hboth⟩ := one_changed hone
  simp only [encoderLevels, if_neg hsame, if_neg hboth, hrate, Bool.false_eq_true, if_false, hedge]

/-- One level has changed too soon after the edge before. -/
theorem encoderLevels_overrates {s : State} {enc : Nat} {a b : Bool} {stamp : Time}
    (hone : (s.encoder enc).levelA = a ↔ (s.encoder enc).levelB ≠ b) (hrate : (s.encoder enc).overrate stamp = true) :
    ∃ x, x.bad = true ∧ encoderLevels enc a b stamp s = (s.withEncoder enc x).count (12 + enc) := by
  obtain ⟨hsame, hboth⟩ := one_changed hone
  simp only [encoderLevels, if_neg hsame, if_neg hboth, if_pos hrate]
  exact ⟨_, rfl, rfl⟩

/-- Both levels have changed. -/
theorem encoderLevels_skips {s : State} {enc : Nat} {a b : Bool} {stamp : Time} (ha : (s.encoder enc).levelA ≠ a)
    (hb : (s.encoder enc).levelB ≠ b) :
    encoderLevels enc a b stamp s
      = (s.withEncoder enc { s.encoder enc with levelA := a, levelB := b, bad := true }).count (10 + enc) := by
  simp only [encoderLevels, ha, hb, ne_eq, not_false_eq_true, and_self, if_false, if_true]

theorem encoderCount_counts (s : State) (enc u held : Nat) (a b : Bool) (henc : enc ≤ 1) (hheld : encoderFilter s ≤ held)
    (hopen : windowOver s ((s.at (u + encoderFilter s)).clk.baseAt u) = false) (hedges : (s.encoder enc).edges ≠ 0)
    (hone : (s.encoder enc).levelA = a ↔ (s.encoder enc).levelB ≠ b) (hrate : (s.encoder enc).overrate (encoderStamp u) = false) :
    ∃ t, exec (.encoderCount enc a b held u) s = .next t
      ∧ t.encoder enc = { s.encoder enc with
          levelA := a, levelB := b, edges := (s.encoder enc).edges + 1
          count := (s.encoder enc).count + (if (s.encoder enc).countsUp a (bit s.web.motion.dir enc) then 1 else -1)
          lastAt := encoderStamp u, lastEdge := some (encoderStamp u) }
      ∧ t = { s with clk := (s.at (u + encoderFilter s)).clk, web := { s.web with encoders := t.web.encoders } } := by
  have hstep := encoderCount_accepts a b henc hheld hopen
  rw [encoderLevels_counts (s := s.at (u + encoderFilter s)) hedges hone hrate] at hstep
  exact ⟨_, hstep, encoder_withEncoder _ _ (edged_ne_reset rfl), rfl⟩

theorem encoderCount_skips (s : State) (enc u held : Nat) (a b : Bool) (henc : enc ≤ 1) (hheld : encoderFilter s ≤ held)
    (hopen : windowOver s ((s.at (u + encoderFilter s)).clk.baseAt u) = false) (ha : (s.encoder enc).levelA ≠ a)
    (hb : (s.encoder enc).levelB ≠ b) :
    ∃ t, exec (.encoderCount enc a b held u) s = .next t ∧ t.encoder enc = { s.encoder enc with levelA := a, levelB := b, bad := true }
      ∧ t.counter (10 + enc) = sat 8 (s.counter (10 + enc) + 1)
      ∧ t = { s with
          clk := (s.at (u + encoderFilter s)).clk, web := { s.web with encoders := t.web.encoders }, counters := t.counters } := by
  have hstep := encoderCount_accepts a b henc hheld hopen
  rw [encoderLevels_skips (s := s.at (u + encoderFilter s)) ha hb] at hstep
  exact ⟨_, hstep, encoder_withEncoder _ _ (bad_ne_reset rfl), counter_count_self _ _, rfl⟩

theorem encoderCount_overrates (s : State) (enc u held : Nat) (a b : Bool) (henc : enc ≤ 1) (hheld : encoderFilter s ≤ held)
    (hopen : windowOver s ((s.at (u + encoderFilter s)).clk.baseAt u) = false)
    (hone : (s.encoder enc).levelA = a ↔ (s.encoder enc).levelB ≠ b) (hrate : (s.encoder enc).overrate (encoderStamp u) = true) :
    ∃ t, exec (.encoderCount enc a b held u) s = .next t ∧ (t.encoder enc).bad = true
      ∧ t.counter (12 + enc) = sat 8 (s.counter (12 + enc) + 1)
      ∧ t = { s with
          clk := (s.at (u + encoderFilter s)).clk, web := { s.web with encoders := t.web.encoders }, counters := t.counters } := by
  have hstep := encoderCount_accepts a b henc hheld hopen
  obtain ⟨x, hbad, hlevels⟩ := encoderLevels_overrates (s := s.at (u + encoderFilter s)) hone hrate
  rw [hlevels] at hstep
  have hread := encoder_withEncoder (s.at (u + encoderFilter s)) enc (bad_ne_reset hbad)
  exact ⟨_, hstep, (congrArg Encoder.bad hread).trans hbad, counter_count_self _ _, rfl⟩

theorem encoderIndex_counts (s : State) (enc u held : Nat) (henc : enc ≤ 1) (hs : canonOk s = true) (hheld : encoderFilter s ≤ held) :
    ∃ t, exec (.encoderIndex enc held u) s = .next t ∧ t.counter (14 + enc) = (s.counter (14 + enc) + 1) % 2 ^ 32
      ∧ (∀ i, i ≠ 14 + enc → t.counter i = s.counter i)
      ∧ t = { s with clk := (s.at (u + encoderFilter s)).clk, counters := t.counters } := by
  have htaken : ¬(held < encoderFilter s ∨ 1 < enc) := not_or.mpr ⟨Nat.not_lt.mpr hheld, Nat.not_lt.mpr henc⟩
  have hcounters (i : Nat) := nget_nput s.counters (14 + enc) ((s.counter (14 + enc) + 1) % 2 ^ 32) i (cueCanon_of_canonOk hs).counters
  exact ⟨_, if_neg htaken, (hcounters _).trans (if_pos rfl), fun i hi => (hcounters i).trans (if_neg hi), rfl⟩

/-! ## Speed windows and drift trim (R234, R235, R245, R246) -/

theorem speedWindowEnd_early (s : State) (u : Nat) (hopen : windowOver s (s.at u).base = false) :
    exec (.speedWindowEnd u) s = .next (s.at u) := by
  have hopen' : windowOver (s.at u) (s.at u).base = false := hopen
  exact congrArg Host.Outcome.next (if_neg (ne_true_of_eq_false hopen'))

theorem speedWindowEnd_over {s : State} {u : Nat} (hover : windowOver s (s.at u).base = true) :
    exec (.speedWindowEnd u) s = .next (endWindow (s.at u)) := by
  have hover' : windowOver (s.at u) (s.at u).base = true := hover
  exact congrArg Host.Outcome.next (if_pos hover')

/-- Taking the speed of a window may log a disagreement of the encoders, and no more. -/
theorem windowSpeed_logs (s : State) : (windowSpeed s).1 = s.withLog (windowSpeed s).1.log := by
  simp only [windowSpeed]
  split
  · rfl
  · rfl
  · generalize (if s.web.motion.checkTol = 0 then 50 else s.web.motion.checkTol) = tol
    split
    · rfl
    · split <;> rfl

/-- Where the device does not trim, a window leaves its successor and no correction. -/
theorem endWindow_untrimmed {s : State} (htrims : trims s = false) : endWindow s = { s with
    log := (windowSpeed s).1.log
    web := { s.web with encoders := s.web.freshEncoders, windowStart := s.web.windowStart + 100 * msT, eps := none } } := by
  have hlog := windowSpeed_logs s
  have hidle : (!trims s) = true := by rw [htrims, Bool.not_false]
  unfold endWindow
  generalize windowSpeed s = r at hlog ⊢
  obtain ⟨v, speed⟩ := r
  simp only at hlog ⊢
  rw [hlog]
  cases speed with
  | none => rfl
  | some speed => exact if_pos hidle

theorem speedWindowEnd_untrimmed (s : State) (u : Nat) (hover : windowOver s (s.at u).base = true) (htrims : trims s = false) :
    ∃ t, exec (.speedWindowEnd u) s = .next t
      ∧ t = { s with
          clk := (s.at u).clk, log := t.log
          web := { s.web with encoders := s.web.freshEncoders, windowStart := s.web.windowStart + 100 * msT, eps := none } } := by
  have hstep := speedWindowEnd_over hover
  rw [endWindow_untrimmed (s := s.at u) htrims] at hstep
  exact ⟨_, hstep, rfl⟩

/-- The p_enc of encoder 0 over the window that ends. -/
def windowPEnc (s : State) : PEnc := pEncOf s.web.motion.linePitch ((s.encoder 0).speed s.web.motion.countLen0)

/-- The line clock's unit after a window whose speed is used, but for the period that the trim gives. -/
def trimmedWeb (s : State) : Web :=
  { s.web with encoders := s.web.freshEncoders, windowStart := s.web.windowStart + 100 * msT, pEnc := windowPEnc s, eps := none }

theorem withWeb_withWeb (s : State) (v w : Web) : (s.withWeb v).withWeb w = s.withWeb w := rfl

/-- Of the line clock's unit, the range of periods reads the web position alone. -/
theorem clampPeriod_withWeb (s : State) {w : Web} (hpos : w.webPos = s.web.webPos) (p : Nat) :
    clampPeriod (s.withWeb w) p = clampPeriod s p := by
  have hrange : periodRange (s.withWeb w) = periodRange s := by
    simp only [periodRange, windowOpen, withWeb_web, withWeb_run, hpos]
    rfl
  simp only [clampPeriod, hrange]

/-- Of the line clock's unit, the trim reads the web position, the nominal period and the registration error alone. -/
theorem trimPeriod_withWeb (s : State) {w : Web} (pe : PEnc) (hpos : w.webPos = s.web.webPos) (hnominal : w.nominal = s.web.nominal)
    (hreg : w.regActive = s.web.regActive) (heps : w.eps = s.web.eps) : trimPeriod (s.withWeb w) pe = trimPeriod s pe := by
  have htab (cls bar off n : Nat) : (s.withWeb w).tabNum cls bar off n = s.tabNum cls bar off n := by
    simp only [State.tabNum, withWeb_web, hpos]
    rfl
  simp only [trimPeriod, withWeb_web, withWeb_run, htab, hnominal, hreg, heps, clampPeriod_withWeb s hpos]

/-- A device that trims by a valid encoder 0: the trimmed period is issued by a lead and taken two ticks later by a solo device. -/
theorem endWindow_trims {s : State} (htrim : s.web.motion.trim = 1) (hsel : s.web.motion.encSel = 0) (hgood : (s.encoder 0).bad = false)
    (hrole : s.net.lead.role = .solo ∨ s.net.lead.role = .lead) :
    endWindow s =
      if trimPeriod s (windowPEnc s) = s.web.nominal ∨ (s.net.lead.role = .lead ∧ handoffNear (s.withWeb (trimmedWeb s)) = true) then
        s.withWeb (trimmedWeb s)
      else if s.net.lead.role = .lead then issueUpdate (trimPeriod s (windowPEnc s)) (s.withWeb (trimmedWeb s))
      else s.withWeb { trimmedWeb s with trims := s.web.trims ++ [(s.web.webPos + 2, trimPeriod s (windowPEnc s))] } := by
  have hspeed : windowSpeed s = (s, some ((s.encoder 0).speed s.web.motion.countLen0)) := by
    simp [windowSpeed, hsel, hgood]
  have htrims (w : Web) (hmotion : w.motion = s.web.motion) : trims (s.withWeb w) = true := by
    simp [trims, hmotion, htrim, hrole]
  simp only [endWindow, hspeed, withWeb_web, withWeb_net, withWeb_withWeb, htrims, trimPeriod_withWeb, Bool.not_true, Bool.false_eq_true,
    if_false]
  rfl

theorem speedWindowEnd_solo {s : State} {u : Nat} (hover : windowOver s (s.at u).base = true) (htrim : s.web.motion.trim = 1)
    (hsel : s.web.motion.encSel = 0) (hgood : (s.encoder 0).bad = false) (hrole : s.net.lead.role = .solo) :
    exec (.speedWindowEnd u) s = .next ((s.at u).withWeb { trimmedWeb s with
      trims := if trimPeriod s (windowPEnc s) = s.web.nominal then s.web.trims
        else s.web.trims ++ [(s.web.webPos + 2, trimPeriod s (windowPEnc s))] }) := by
  have hlead : (s.at u).net.lead.role ≠ .lead := by simp [hrole]
  rw [speedWindowEnd_over hover, endWindow_trims (s := s.at u) htrim hsel hgood (Or.inl hrole)]
  simp only [hlead, false_and, or_false, if_false]
  change Host.Outcome.next (if trimPeriod s (windowPEnc s) = s.web.nominal then _ else _) = _
  split <;> rfl

theorem speedWindowEnd_lead {s : State} {u : Nat} (hover : windowOver s (s.at u).base = true) (htrim : s.web.motion.trim = 1)
    (hsel : s.web.motion.encSel = 0) (hgood : (s.encoder 0).bad = false) (hrole : s.net.lead.role = .lead)
    (hhandoff : s.net.lead.handoff = none) (hnew : trimPeriod s (windowPEnc s) ≠ s.web.nominal) :
    exec (.speedWindowEnd u) s = .next (issueUpdate (trimPeriod s (windowPEnc s)) ((s.at u).withWeb (trimmedWeb s))) := by
  have hfar : handoffNear ((s.at u).withWeb (trimmedWeb s)) = false := by simp [handoffNear, hhandoff]
  have hissues : ¬(trimPeriod (s.at u) (windowPEnc (s.at u)) = (s.at u).web.nominal
      ∨ ((s.at u).net.lead.role = .lead ∧ handoffNear ((s.at u).withWeb (trimmedWeb (s.at u))) = true)) := by
    rintro (hsame | ⟨-, hnear⟩)
    · exact hnew hsame
    · exact ne_true_of_eq_false hfar hnear
  rw [speedWindowEnd_over hover, endWindow_trims (s := s.at u) htrim hsel hgood (Or.inr hrole), if_neg hissues]
  exact congrArg Host.Outcome.next (if_pos hrole)

/-- Settles O48: the match, the encoders' edges in their cases, and the ends of windows, by the lemma of each. -/
theorem motionEventsComplete : Obligations.MotionEventsComplete := by
  unfold Obligations.MotionEventsComplete
  refine ⟨lineMatch_completes, encoderCount_counts, encoderCount_skips, encoderCount_overrates, encoderCount_filtered,
    encoderIndex_counts, speedWindowEnd_early, speedWindowEnd_untrimmed, ?_⟩
  intro s u hover htrim hsel hgood pe p w
  refine ⟨speedWindowEnd_solo hover htrim hsel hgood, fun hrole hhandoff hnew => ?_⟩
  exact ⟨_, _, speedWindowEnd_lead hover htrim hsel hgood hrole hhandoff hnew, rfl, rfl, rfl, rfl, rfl, rfl, rfl, rfl, rfl, rfl⟩

end Sys2Proof.Machine
end

section
/-! Camera ports: reads after writes, and what the pipeline's work on a port leaves of its frames and waiting lines (R257 to R267). -/

namespace Sys2Proof.Machine

open Sys2Proof

/-! ## The table of ports -/

/-- The camera ports are in canonical form. -/
def CamsCanon (s : State) : Prop := twf (fun _ => CamPort.reset) s.cams = true

theorem camsCanon_of_canonOk {s : State} (h : canonOk s = true) : CamsCanon s := by
  simp only [canonOk, Bool.and_eq_true] at h
  simp only [CamsCanon, h]

theorem CamsCanon.withCam {s : State} (h : CamsCanon s) (p : Nat) (x : CamPort) : CamsCanon (s.withCam p x) :=
  twf_tput _ _ p x h

theorem cam_withCam {s : State} (h : CamsCanon s) (p : Nat) (x : CamPort) (q : Nat) :
    (s.withCam p x).cam q = if q = p then x else s.cam q := tget_tput _ _ p x q 0 h

theorem cam_withCam_same {s : State} (h : CamsCanon s) (p : Nat) (x : CamPort) : (s.withCam p x).cam p = x := by
  rw [cam_withCam h, if_pos rfl]

theorem cam_withCam_other {s : State} (h : CamsCanon s) {p q : Nat} (hq : q ≠ p) (x : CamPort) : (s.withCam p x).cam q = s.cam q := by
  rw [cam_withCam h, if_neg hq]

theorem cam_congr {s t : State} (h : t.cams = s.cams) (p : Nat) : t.cam p = s.cam p := by simp only [State.cam, h]

/-! ## Work on a port's lines -/

/-- Two states of a port with the same context, the same lines waiting, the same frame open, its histogram included, and the same frames
closing. -/
structure SameLines (p q : CamPort) : Prop where
  ctx : q.ctx = p.ctx
  lineBuf : q.lineBuf = p.lineBuf
  frame : q.frame.map (fun f => (f.seq, f.hist)) = p.frame.map (fun f => (f.seq, f.hist))
  closing : q.closing.map (·.seq) = p.closing.map (·.seq)

theorem SameLines.refl (p : CamPort) : SameLines p p := ⟨rfl, rfl, rfl, rfl⟩

theorem SameLines.trans {p q r : CamPort} (h1 : SameLines p q) (h2 : SameLines q r) : SameLines p r :=
  ⟨h2.ctx.trans h1.ctx, h2.lineBuf.trans h1.lineBuf, h2.frame.trans h1.frame, h2.closing.trans h1.closing⟩

/-- From `s` to `t` a port's lines stand, and so do the other ports, the device state, the press and the run. -/
structure LineWork (port : Nat) (s t : State) : Prop where
  canon : CamsCanon s → CamsCanon t
  lines : CamsCanon s → SameLines (s.cam port) (t.cam port)
  other : CamsCanon s → ∀ q, q ≠ port → t.cam q = s.cam q
  dev : t.dev = s.dev
  press : t.press = s.press
  run : t.run = s.run

section
variable {port : Nat} {s t u : State}

theorem LineWork.refl (s : State) : LineWork port s s := ⟨id, fun _ => .refl _, fun _ _ _ => rfl, rfl, rfl, rfl⟩

theorem LineWork.trans (h1 : LineWork port s t) (h2 : LineWork port t u) : LineWork port s u where
  canon hs := h2.canon (h1.canon hs)
  lines hs := (h1.lines hs).trans (h2.lines (h1.canon hs))
  other hs q hq := (h2.other (h1.canon hs) q hq).trans (h1.other hs q hq)
  dev := h2.dev.trans h1.dev
  press := h2.press.trans h1.press
  run := h2.run.trans h1.run

theorem LineWork.ite {c : Prop} [Decidable c] (h1 : LineWork port s t) (h2 : LineWork port s u) :
    LineWork port s (if c then t else u) := by
  split
  · exact h1
  · exact h2

/-- Work that no camera port sees. -/
theorem LineWork.of_unseen (hcams : t.cams = s.cams) (hdev : t.dev = s.dev) (hpress : t.press = s.press) (hrun : t.run = s.run) :
    LineWork port s t where
  canon hs := by unfold CamsCanon; rwa [hcams]
  lines _ := by rw [cam_congr hcams]; exact .refl _
  other _ q _ := cam_congr hcams q
  dev := hdev
  press := hpress
  run := hrun

theorem LineWork.of_withCam {x : CamPort} (h : SameLines (s.cam port) x) : LineWork port s (s.withCam port x) where
  canon hs := hs.withCam port x
  lines hs := by rw [cam_withCam_same hs]; exact h
  other hs _ hq := cam_withCam_other hs hq x
  dev := rfl
  press := rfl
  run := rfl

theorem foldl_lineWork {β : Type} (f : State → β → State) (hstep : ∀ s x, LineWork port s (f s x)) (l : List β) (s : State) :
    LineWork port s (l.foldl f s) :=
  foldl_keeps (LineWork port) .refl .trans f hstep l s

/-! ## Operations that other units share -/

theorem dmaWrite_lineWork (s : State) (a : Nat) (bs : List Byte) : LineWork port s (s.dmaWrite a bs) :=
  .of_unseen (by simp) (by simp) (by simp) (by simp)

theorem count_lineWork (s : State) (i : Nat) : LineWork port s (s.count i) := .of_unseen rfl rfl rfl rfl

theorem report_lineWork (s : State) (code value : Nat) (key fields : List Byte) : LineWork port s (s.report code key value fields) :=
  .of_unseen rfl rfl rfl rfl

theorem raise_lineWork (s : State) (i : Nat) : LineWork port s (s.raise i) := .of_unseen (by simp) (by simp) (by simp) (by simp)

theorem share_lineWork (s : State) (subs : List Nat) : LineWork port s (s.share subs) := by
  have honly := share_onlyDram s subs
  unfold OnlyDram at honly
  rw [honly]
  exact .of_unseen rfl rfl rfl rfl

theorem progressTo_lineWork (s : State) (ring tag p : Nat) : LineWork port s (s.progressTo ring tag p) :=
  .of_unseen (by simp) (by simp) (by simp) (by simp)

/-- Engines are handed out within the store (R121). -/
theorem giveEngines_withStore (n : Nat) (s : State) : giveEngines n s = s.withStore (giveEngines n s).store := by
  obtain ⟨l, hl, -⟩ := giveEngines_eq n s
  rw [hl]
  rfl

/-- PD10 goes, where it does, within the boot unit; then engine 1 may go to a command that waits (R121, R435). -/
theorem powerDown_eq (s : State) :
    giveEngines 2 (cameraPower s) = (s.withBoot (cameraPower s).boot).withStore (giveEngines 2 (cameraPower s)).store := by
  have hpower : cameraPower s = s.withBoot (cameraPower s).boot := by
    unfold cameraPower
    split <;> rfl
  rw [← hpower]
  exact giveEngines_withStore 2 _

/-! ## Frames of a port -/

/-- A port whose frames of a sequence number are changed. -/
def CamPort.mapFrames (p : CamPort) (seq : Nat) (f : CamFrame → CamFrame) : CamPort :=
  { p with frame := p.frame.map (fun x => if x.seq = seq then f x else x)
           closing := p.closing.map (fun x => if x.seq = seq then f x else x) }

theorem withFrame_eq (port seq : Nat) (f : CamFrame → CamFrame) (s : State) :
    withFrame port seq f s = s.withCam port ((s.cam port).mapFrames seq f) := rfl

/-- A change of a frame that leaves its number and its histogram. -/
def KeepsStatistics (f : CamFrame → CamFrame) : Prop := ∀ x, (f x).seq = x.seq ∧ (f x).hist = x.hist

theorem mapFrames_sameLines (p : CamPort) (seq : Nat) {f : CamFrame → CamFrame} (hf : KeepsStatistics f) :
    SameLines p (p.mapFrames seq f) where
  ctx := rfl
  lineBuf := rfl
  frame := by
    cases hframe : p.frame with
    | none => simp [CamPort.mapFrames, hframe]
    | some x =>
      obtain ⟨hseq, hhist⟩ := hf x
      simp only [CamPort.mapFrames, hframe, Option.map_some]
      split <;> simp [hseq, hhist]
  closing := by
    simp only [CamPort.mapFrames, List.map_map]
    refine List.map_congr_left fun x _ => ?_
    simp only [Function.comp]
    split
    · exact (hf x).1
    · rfl

theorem withFrame_lineWork (seq : Nat) {f : CamFrame → CamFrame} (s : State)
    (hf : KeepsStatistics f := by exact fun _ => ⟨rfl, rfl⟩) : LineWork port s (withFrame port seq f s) :=
  .of_withCam (mapFrames_sameLines _ seq hf)

theorem frameFlag_lineWork (seq i : Nat) (s : State) : LineWork port s (frameFlag port seq i s) :=
  withFrame_lineWork seq s

theorem updCaptures_lineWork (f : CamCapture → CamCapture) (s : State) : LineWork port s (updCaptures port f s) :=
  .of_withCam ⟨rfl, rfl, rfl, rfl⟩

/-- An incomplete scan line goes: the frame counts it (R255). -/
theorem dropPart_lineWork (s : State) : LineWork port s (dropPart port s) := by
  unfold dropPart
  dsimp only
  split
  next _ f _ _ =>
    have hgone : LineWork port s (s.withCam port { s.cam port with part := none, badLine := false }) := .of_withCam ⟨rfl, rfl, rfl, rfl⟩
    refine hgone.trans (.ite ?_ ?_)
    · exact (count_lineWork _ _).trans (withFrame_lineWork f.seq _)
    · exact withFrame_lineWork f.seq _
  · exact .refl s

theorem dropPart_host (port : Nat) (s : State) : (dropPart port s).host = s.host := by
  unfold dropPart
  dsimp only
  split
  · split <;> rfl
  · rfl

/-! ## Coding (R264, R265) -/

theorem noteTile_lineWork (p : Option Nat) (how : Stored) (s : State) : LineWork port s (noteTile p how s) := by
  cases how <;> exact .of_unseen rfl rfl rfl rfl

theorem closeBuffer_lineWork (p : ChainPos) (state : Nat) (s : State) : LineWork port s (closeBuffer p state s) :=
  (dmaWrite_lineWork s _ _).trans (dmaWrite_lineWork _ _ _)

theorem chainPut_lineWork (n : Nat) (p : ChainPos) (bs : List Byte) (s : State) : LineWork port s (chainPut id n p bs s).1 := by
  induction n generalizing p bs s with
  | zero => exact .refl s
  | succ n ih =>
    unfold chainPut
    split
    · exact .refl s
    · dsimp only
      split
      · exact (LineWork.ite (closeBuffer_lineWork p 1 s) (closeBuffer_lineWork p 1 s)).trans (ih _ _ _)
      · exact (dmaWrite_lineWork s _ _).trans (ih _ _ _)

theorem endChain_lineWork (n : Nat) (p : ChainPos) (s : State) : LineWork port s (endChain n p s) := by
  induction n generalizing p s with
  | zero => exact closeBuffer_lineWork p 2 s
  | succ n ih =>
    unfold endChain
    split
    · exact (closeBuffer_lineWork p 1 s).trans (ih _ _)
    · exact closeBuffer_lineWork p 2 s

theorem codeTile_lineWork (chain : Nat) (s : State) (x : TileIn) : LineWork port s (codeTile port chain s x) := by
  have hset : ∀ (u : State) (c : Tab (Option ChainPos)), LineWork port u (u.withCam port { u.cam port with chains := c }) :=
    fun _ _ => .of_withCam ⟨rfl, rfl, rfl, rfl⟩
  unfold codeTile
  split
  · exact .refl s
  · dsimp only
    split
    · exact (endChain_lineWork _ _ s).trans (hset _ _)
    · exact ((noteTile_lineWork _ _ s).trans (chainPut_lineWork _ _ _ _)).trans (hset _ _)

theorem codeFrame_lineWork (s : State) (j : CodeJob) : LineWork port s (codeFrame port s j) :=
  foldl_lineWork _ (fun _ _ => foldl_lineWork _ (fun _ _ => foldl_lineWork _ (fun _ _ => codeTile_lineWork _ _ _) _ _) _ _) _ _

theorem drainCode_lineWork (s : State) : LineWork port s (drainCode port s) := by
  unfold drainCode
  dsimp only
  exact .ite (.refl s) ((foldl_lineWork _ codeFrame_lineWork _ s).trans (.of_withCam ⟨rfl, rfl, rfl, rfl⟩))

/-! ## The vision output (R262, R263) -/

theorem putRecord_lineWork (seq : Nat) (s : State) (r : ZoneRec) : LineWork port s (putRecord port seq s r) :=
  .ite ((count_lineWork s _).trans (frameFlag_lineWork seq 8 _)) (.of_withCam ⟨rfl, rfl, rfl, rfl⟩)

theorem putRow_lineWork (seq : Nat) (s : State) (r : WindowRow) : LineWork port s (putRow port seq s r) :=
  .ite ((count_lineWork s _).trans (frameFlag_lineWork seq 8 _)) (.of_withCam ⟨rfl, rfl, rfl, rfl⟩)

theorem visionLine_lineWork (c : CamContext) (l : CamLine) (px : List (Nat × Nat × Nat)) (s : State) :
    LineWork port s (visionLine port c l px s) := by
  have hblock : ∀ b, LineWork port s (s.withCam port { s.cam port with block := b }) := fun _ => .of_withCam ⟨rfl, rfl, rfl, rfl⟩
  unfold visionLine
  split
  · exact .refl s
  · exact ((hblock _).trans (.ite (foldl_lineWork _ (putRecord_lineWork l.seq) _ _) (.refl _))).trans
      (foldl_lineWork _ (putRow_lineWork l.seq) _ _)

/-! ## A line in the pipeline -/

theorem takeCapture_lineWork (c : CamContext) (l : CamLine) (px : List (Nat × Nat × Nat)) (full : Bool) (s : State) (x : CamCapture) :
    LineWork port s (takeCapture port c l px full s x) := by
  unfold takeCapture
  refine .ite (.refl s) (.ite (updCaptures_lineWork _ s) ?_)
  exact (dmaWrite_lineWork s _ _).trans (progressTo_lineWork _ _ _ _)

/-- What a line adds to the statistics of its frame (R259). -/
def countLine (c : CamContext) (l : CamLine) (throttle : Bool) (f : CamFrame) : CamFrame :=
  { f with
    hist := histLine c l f.hist
    gridSum := gridLine c l (c.corrected l) f.gridSum
    gridCount := gridLine c l (fun _ _ => 1) f.gridCount
    flags := if throttle then setBit f.flags 10 true else f.flags }

/-- The line in the display image, unless the staging queue is full (R260, R265). -/
def displayStage (port : Nat) (c : CamContext) (l : CamLine) (full : Bool) (s : State) : State :=
  if !bit c.outputs 0 then s
  else if full then frameFlag port l.seq 6 (s.count (camCounter port 8))
  else withFrame port l.seq (displayLine c l (c.xyz l)) s

/-- The line among those to be coded, unless the staging queue is full (R264, R265). -/
def codingStage (port : Nat) (c : CamContext) (l : CamLine) (full : Bool) (s : State) : State :=
  if !bit c.outputs 1 then s
  else if full then frameFlag port l.seq 7 (s.count (camCounter port 9))
  else
    let s := withFrame port l.seq (fun f => { f with coded := tput (fun _ => []) f.coded l.index ((c.xyz l).flatMap (srgbBytes c)) }) s
    if s.thermal.throttle then
      let p := s.cam port
      s.withCam port ({ p with staged := p.staged ++ [(l.seq, l.index)] }.setStaging (p.staging + 3 * c.pixels))
    else s

/-- A line's outputs and captures, behind the statistics (R260 to R267). -/
def lineOutputs (port : Nat) (c : CamContext) (l : CamLine) (s : State) : State :=
  let s := drainCode port s
  let full := stagingFull s port (3 * c.pixels)
  let s := s.withCam port { s.cam port with lineLost := (s.cam port).lineLost && decide (bits c.outputs 0 2 = 0) }
  let s := if bits c.outputs 0 2 = 0 ∨ full then s else shareStaging port s
  let s := codingStage port c l full (displayStage port c l full s)
  let s := if bit c.outputs 2 then visionLine port c l (c.xyz l) s else s
  (s.cam port).captures.foldl (takeCapture port c l (c.xyz l) full) s

theorem processLine_eq (port : Nat) (c : CamContext) (l : CamLine) (s : State) :
    processLine port c l s = lineOutputs port c l (withFrame port l.seq (countLine c l s.thermal.throttle) s) := rfl

theorem displayStage_lineWork (c : CamContext) (l : CamLine) (full : Bool) (s : State) :
    LineWork port s (displayStage port c l full s) :=
  .ite (.refl s) (.ite ((count_lineWork s _).trans (frameFlag_lineWork l.seq 6 _)) (withFrame_lineWork l.seq s))

theorem codingStage_lineWork (c : CamContext) (l : CamLine) (full : Bool) (s : State) :
    LineWork port s (codingStage port c l full s) := by
  refine .ite (.refl s) (.ite ((count_lineWork s _).trans (frameFlag_lineWork l.seq 7 _)) ?_)
  refine (withFrame_lineWork l.seq s).trans (.ite (.of_withCam ⟨rfl, rfl, rfl, rfl⟩) (.refl _))

theorem lineOutputs_lineWork (c : CamContext) (l : CamLine) (s : State) : LineWork port s (lineOutputs port c l s) := by
  have hlost : ∀ (u : State) (b : Bool), LineWork port u (u.withCam port { u.cam port with lineLost := b }) :=
    fun _ _ => .of_withCam ⟨rfl, rfl, rfl, rfl⟩
  unfold lineOutputs
  refine .trans ?_ (foldl_lineWork _ (takeCapture_lineWork c l _ _) _ _)
  refine .trans ?_ (.ite (visionLine_lineWork c l _ _) (.refl _))
  refine .trans ?_ ((displayStage_lineWork c l _ _).trans (codingStage_lineWork c l _ _))
  refine .trans ?_ (.ite (.refl _) (share_lineWork _ _))
  exact (drainCode_lineWork s).trans (hlost _ _)

end

end Sys2Proof.Machine
end

section
/-! Camera frames from their start to their end: the lines they gather, their close, and the lines that the pipeline takes (R248 to R261; that a
closed frame ends when its last line has passed is log 69). -/

namespace Sys2Proof.Machine

open Sys2Proof

/-! ## The end of a frame (R255, R256, R266) -/

section
variable {port : Nat} {s t : State}

theorem writeSlot_lineWork (c : CamContext) (f : CamFrame) (s : State) : LineWork port s (writeSlot port c f s) := by
  unfold writeSlot
  refine .trans (.trans ?_ (.ite (dmaWrite_lineWork _ _ _) (.refl _))) (dmaWrite_lineWork _ _ _)
  exact ((dmaWrite_lineWork s _ _).trans (dmaWrite_lineWork _ _ _)).trans (dmaWrite_lineWork _ _ _)

/-- CAM_FRAME is raised, and a frame that closed by its time is counted and reported. -/
def announceFrame (port : Nat) (f : CamFrame) (s : State) : State :=
  let s := (s.count (camCounter port 10)).raise 12
  if f.why = some 2 then (s.count (camCounter port 11)).report 0x4001 (logKey none none (some port) none) 0 [] else s

theorem announceFrame_lineWork (f : CamFrame) (s : State) : LineWork port s (announceFrame port f s) :=
  ((count_lineWork s _).trans (raise_lineWork _ 12)).trans (.ite ((count_lineWork _ _).trans (report_lineWork _ _ _ _ _)) (.refl _))

theorem announceFrame_raises (port : Nat) (f : CamFrame) (s : State) : (announceFrame port f s).host.evtStatus.getLsbD 12 = true := by
  have hraised : ((s.count (camCounter port 10)).raise 12).host.evtStatus.getLsbD 12 = true := by
    rw [raise_evtStatus]
    simp
  unfold announceFrame
  dsimp only
  split <;> exact hraised

/-- A frame ends in three steps: it leaves those that are closing, it is coded and written, and it is announced. -/
theorem finishFrame_eq (port : Nat) (f : CamFrame) (s : State) : ∃ p g d,
    SameLines { s.cam port with closing := (s.cam port).closing.filter (fun x => decide (x.seq ≠ f.seq)) } p ∧
    finishFrame port f s
      = announceFrame port f (updCaptures port g (writeSlot port f.ctx d (drainCode port (s.withCam port p)))) := by
  refine ⟨_, _, _, ?_, rfl⟩
  exact ⟨rfl, rfl, rfl, rfl⟩

/-- From `s` to `t` the only closing frame of a port has ended. -/
structure FrameEnds (port : Nat) (s t : State) : Prop where
  lines : SameLines { s.cam port with closing := [] } (t.cam port)
  other : ∀ q, q ≠ port → t.cam q = s.cam q
  raised : t.host.evtStatus.getLsbD 12 = true
  dev : t.dev = s.dev
  press : t.press = s.press
  run : t.run = s.run

theorem FrameEnds.closing (h : FrameEnds port s t) : (t.cam port).closing = [] := List.map_eq_nil_iff.mp h.lines.closing

/-- The way of PD10 and of engine 1 leaves the end of a frame as it is. -/
theorem FrameEnds.powerDown (h : FrameEnds port s t) : FrameEnds port s (giveEngines 2 (cameraPower t)) := by
  rw [powerDown_eq]
  exact ⟨h.lines, h.other, h.raised, h.dev, h.press, h.run⟩

theorem finishFrame_ends (hs : CamsCanon s) {f : CamFrame} (hclosing : (s.cam port).closing = [f]) :
    FrameEnds port s (finishFrame port f s) := by
  obtain ⟨p, g, d, hp, hfinish⟩ := finishFrame_eq port f s
  have hwork : LineWork port (s.withCam port p) (finishFrame port f s) := by
    rw [hfinish]
    exact (((drainCode_lineWork _).trans (writeSlot_lineWork _ _ _)).trans (updCaptures_lineWork _ _)).trans (announceFrame_lineWork _ _)
  have hlines := hwork.lines (hs.withCam port p)
  rw [cam_withCam_same hs] at hlines
  have hnone : (s.cam port).closing.filter (fun x => decide (x.seq ≠ f.seq)) = [] := by simp [hclosing]
  rw [hnone] at hp
  exact
    { lines := hp.trans hlines
      other := fun q hq => (hwork.other (hs.withCam port p) q hq).trans (cam_withCam_other hs hq p)
      raised := by rw [hfinish]; exact announceFrame_raises _ _ _
      dev := hwork.dev
      press := hwork.press
      run := hwork.run }

/-- Does a line of a frame wait for the pipeline? -/
def lineWaits (p : CamPort) (f : CamFrame) : Bool := p.lineBuf.any (fun l => decide (l.seq = f.seq))

theorem settleFrames_ends (hs : CamsCanon s) {f : CamFrame} (hclosing : (s.cam port).closing = [f])
    (hlast : lineWaits (s.cam port) f = false) : FrameEnds port s (settleFrames port s) := by
  have hfinish : finishFrames port 1 s = finishFrame port f s := by
    have hlast : (s.cam port).lineBuf.any (fun l => decide (l.seq = f.seq)) = false := hlast
    simp only [finishFrames, hclosing, hlast, Bool.false_eq_true, if_false]
  have hends := finishFrame_ends hs hclosing
  unfold settleFrames
  rw [hclosing, List.length_singleton, hfinish]
  dsimp only
  split
  · exact hends.powerDown
  · exact hends

/-- A frame of which a line still waits stays closing. -/
theorem settleFrames_waits {f : CamFrame} (hclosing : (s.cam port).closing = [f]) (hwaits : lineWaits (s.cam port) f = true) :
    (settleFrames port s).cams = s.cams ∧ (settleFrames port s).host = s.host ∧ (settleFrames port s).dev = s.dev
      ∧ (settleFrames port s).press = s.press ∧ (settleFrames port s).run = s.run := by
  have hstays : finishFrames port 1 s = s := by
    have hwaits : (s.cam port).lineBuf.any (fun l => decide (l.seq = f.seq)) = true := hwaits
    simp only [finishFrames, hclosing, hwaits, if_true]
  unfold settleFrames
  rw [hclosing, List.length_singleton, hstays]
  dsimp only
  split
  · rw [powerDown_eq]
    exact ⟨rfl, rfl, rfl, rfl, rfl⟩
  · exact ⟨rfl, rfl, rfl, rfl, rfl⟩

theorem settleFrames_none {c : CamContext} (hctx : (s.cam port).ctx = some c) (hclosing : (s.cam port).closing = []) :
    settleFrames port s = s := by
  simp [settleFrames, hclosing, finishFrames, hctx]

/-! ## A frame start (R250, R255) -/

/-- The frame that opens on a port. -/
def newFrame (port number : Nat) (c : CamContext) (s : State) : CamFrame :=
  { seq := (s.cam port).frames % 2 ^ 32, ctx := c, installed := (s.cam port).installed, why := none, csiFrame := number,
    openedAt := s.clk.elapsed, stamp := camStamp s, seen := 0, kept := 0, excess := 0, lost := 0, errors := 0,
    flags := if s.thermal.throttle then 1024 else 0, firstPos := none, lastPos := none, hist := [], gridSum := [], gridCount := [],
    display := [], displayN := [], coded := [] }

/-- The captures of a port, those without a frame waiting for this one. -/
def takeFrame (f : CamFrame) (l : List CamCapture) : List CamCapture :=
  l.map (fun x => if x.seq = none then { x with seq := some f.seq } else x)

theorem frameStart_opens {c : CamContext} (number : Nat) (hctx : (s.cam port).ctx = some c) (hnext : (s.cam port).next = none)
    (hframe : (s.cam port).frame = none) : frameStart port c.vcBase number s = openFrame port number c s := by
  simp [frameStart, hctx, hnext, hframe, installContext]

theorem openFrame_cam (hs : CamsCanon s) (number : Nat) (c : CamContext) :
    (openFrame port number c s).cam port = { s.cam port with
      windows := [], frame := some (newFrame port number c s), frames := (s.cam port).frames + 1, part := none, badLine := false
      captures := takeFrame (newFrame port number c s) (s.cam port).captures } := by
  have hread : (readRows port s).cam port = { s.cam port with windows := [] } := cam_withCam_same hs port _
  have hcanon : CamsCanon (readRows port s) := hs.withCam port _
  unfold openFrame updCaptures
  dsimp only
  rw [cam_withCam_same (hcanon.withCam port _), cam_withCam_same hcanon, hread]
  rfl

/-! ## A line arrives (R248, R249, R255, R261) -/

/-- The frame with one more line, kept. -/
def keepLine (l : CamLine) (f : CamFrame) : CamFrame :=
  { f with seen := f.seen + 1, kept := f.kept + 1, flags := if l.pos.isNone then setBit f.flags 9 true else f.flags
           firstPos := if f.firstPos.isSome then f.firstPos else l.pos
           lastPos := if l.pos.isSome then l.pos else f.lastPos }

/-- A correct line with all its exposures, within FRAME_LINES, of the context of high priority is kept and waits. -/
theorem completeLine_keeps (hs : CamsCanon s) {c : CamContext} {f : CamFrame} {l : CamLine} (hpart : (s.cam port).part = some l)
    (hframe : (s.cam port).frame = some f) (hgood : (s.cam port).badLine = false) (hexposures : c.exposures ≤ l.exposures.length)
    (hroom : f.seen < c.frameLines) (hpriority : c.priority = 0) :
    (completeLine port c s).cam port = { s.cam port with
      part := none, badLine := false, frame := some (keepLine l f)
      lineBuf := (s.cam port).lineBuf ++ [{ l with index := f.kept, seq := f.seq }] }
    ∧ completeLine port c s = s.withCams (completeLine port c s).cams := by
  have hline : completeLine port c s = (s.withCam port { s.cam port with part := none, badLine := false }).withCam port
      { (s.withCam port { s.cam port with part := none, badLine := false }).cam port with
        frame := some (keepLine l f), lineBuf := (s.cam port).lineBuf ++ [{ l with index := f.kept, seq := f.seq }] } := by
    simp only [completeLine, hpart, hframe, hgood, Nat.not_lt.mpr hexposures, Nat.not_le.mpr hroom, hpriority, Nat.zero_ne_one,
      false_and, Bool.false_eq_true, if_false]
    rfl
  rw [hline]
  exact ⟨by rw [cam_withCam_same (hs.withCam port _), cam_withCam_same hs], rfl⟩

/-- The only exposure of a correct line. -/
theorem takeExposure_keeps (hs : CamsCanon s) {c : CamContext} {f : CamFrame} {pixels : List Nat} (hpart : (s.cam port).part = none)
    (hframe : (s.cam port).frame = some f) (hexposures : c.exposures = 1) (hroom : f.seen < c.frameLines) (hpriority : c.priority = 0) :
    (takeExposure port c 0 c.lineWords pixels true s).cam port = { s.cam port with
      part := none, badLine := false
      frame := some (keepLine { index := 0, seq := 0, exposures := [pixels], pos := printPosition s c } f)
      lineBuf := (s.cam port).lineBuf ++ [{ index := f.kept, seq := f.seq, exposures := [pixels], pos := printPosition s c }] }
    ∧ takeExposure port c 0 c.lineWords pixels true s = s.withCams (takeExposure port c 0 c.lineWords pixels true s).cams := by
  let arrived : CamPort :=
    { s.cam port with part := some { index := 0, seq := 0, exposures := [pixels], pos := printPosition s c }, badLine := false }
  have htake : takeExposure port c 0 c.lineWords pixels true s = completeLine port c (s.withCam port arrived) := by
    simp [takeExposure, dropPart, hpart, hframe, arrived]
  have hcam : (s.withCam port arrived).cam port = arrived := cam_withCam_same hs port arrived
  obtain ⟨hport, honly⟩ := completeLine_keeps (hs.withCam port arrived) (port := port) (c := c) (f := f) (by rw [hcam])
    (by rw [hcam]; exact hframe) (by rw [hcam]) (by exact Nat.le_of_eq hexposures) hroom hpriority
  rw [htake]
  exact ⟨by rw [hport, hcam], honly⟩

/-! ## A frame closes (R255) -/

/-- From `s` to `t` the open frame `f` of a port, with what it had gathered, has closed; no other was closing. -/
structure FrameClosed (port : Nat) (why : Option Nat) (f : CamFrame) (s t : State) : Prop where
  canon : CamsCanon t
  frame : (t.cam port).frame = none
  closing : ∃ x, (t.cam port).closing = [x] ∧ x.seq = f.seq ∧ x.why = why
  lineBuf : (t.cam port).lineBuf = (s.cam port).lineBuf
  host : t.host = s.host
  dev : t.dev = s.dev
  press : t.press = s.press
  run : t.run = s.run

theorem closeFrame_closes (hs : CamsCanon s) {f : CamFrame} (why : Option Nat) (hframe : (s.cam port).frame = some f)
    (hclosing : (s.cam port).closing = []) : ∃ t, FrameClosed port why f s t ∧ closeFrame port why s = settleFrames port t := by
  have hdrop := dropPart_lineWork (port := port) s
  have hcanon := hdrop.canon hs
  have hlines := hdrop.lines hs
  obtain ⟨x, hx, hstatistics⟩ := Option.map_eq_some_iff.mp (hlines.frame.trans (by rw [hframe]; rfl))
  have hnone : ((dropPart port s).cam port).closing = [] := List.map_eq_nil_iff.mp (hlines.closing.trans (by rw [hclosing]; rfl))
  refine ⟨(dropPart port s).withCam port { (dropPart port s).cam port with
    frame := none, closing := ((dropPart port s).cam port).closing ++ [{ x with why := why }]
    ctx := if ((dropPart port s).cam port).disabling then none else ((dropPart port s).cam port).ctx, disabling := false }, ?_, ?_⟩
  · have hcam := cam_withCam_same hcanon port
    exact
      { canon := hcanon.withCam port _
        frame := by rw [hcam]
        closing := ⟨{ x with why := why }, by rw [hcam, hnone]; rfl, congrArg Prod.fst hstatistics, rfl⟩
        lineBuf := by rw [hcam]; exact hlines.lineBuf
        host := dropPart_host port s
        dev := hdrop.dev
        press := hdrop.press
        run := hdrop.run }
  · unfold closeFrame
    dsimp only
    rw [hx]

/-- Whether a line of a frame waits is up to the lines that wait and the number of the frame. -/
theorem lineWaits_congr {p q : CamPort} {f x : CamFrame} (hlines : q.lineBuf = p.lineBuf) (hseq : x.seq = f.seq) :
    lineWaits q x = lineWaits p f := by simp only [lineWaits, hlines, hseq]

/-- A frame that closes, none of its lines waiting, ends at once. -/
theorem closeFrame_ends (hs : CamsCanon s) {f : CamFrame} (why : Option Nat) (hframe : (s.cam port).frame = some f)
    (hclosing : (s.cam port).closing = []) (hlast : lineWaits (s.cam port) f = false) :
    ((closeFrame port why s).cam port).frame = none ∧ ((closeFrame port why s).cam port).lineBuf = (s.cam port).lineBuf
      ∧ ((closeFrame port why s).cam port).closing = [] ∧ (closeFrame port why s).host.evtStatus.getLsbD 12 = true
      ∧ (closeFrame port why s).dev = s.dev ∧ (closeFrame port why s).press = s.press ∧ (closeFrame port why s).run = s.run := by
  obtain ⟨t, hclosed, hsettle⟩ := closeFrame_closes hs why hframe hclosing
  obtain ⟨x, hx, hseq, -⟩ := hclosed.closing
  have hends := settleFrames_ends hclosed.canon hx ((lineWaits_congr hclosed.lineBuf hseq).trans hlast)
  rw [hsettle]
  exact ⟨Option.map_eq_none_iff.mp (hends.lines.frame.trans (by rw [hclosed.frame]; rfl)), hends.lines.lineBuf.trans hclosed.lineBuf,
    hends.closing, hends.raised, hends.dev.trans hclosed.dev, hends.press.trans hclosed.press, hends.run.trans hclosed.run⟩

/-- A frame that closes, a line of its waiting, is closing. -/
theorem closeFrame_waits (hs : CamsCanon s) {f : CamFrame} (why : Option Nat) (hframe : (s.cam port).frame = some f)
    (hclosing : (s.cam port).closing = []) (hwaits : lineWaits (s.cam port) f = true) :
    ((closeFrame port why s).cam port).frame = none ∧ ((closeFrame port why s).cam port).lineBuf = (s.cam port).lineBuf
      ∧ ((closeFrame port why s).cam port).closing.map (fun x => (x.seq, x.why)) = [(f.seq, why)]
      ∧ (closeFrame port why s).host = s.host
      ∧ (closeFrame port why s).dev = s.dev ∧ (closeFrame port why s).press = s.press ∧ (closeFrame port why s).run = s.run := by
  obtain ⟨t, hclosed, hsettle⟩ := closeFrame_closes hs why hframe hclosing
  obtain ⟨x, hx, hseq, hwhy⟩ := hclosed.closing
  obtain ⟨hcams, hhost, hdev, hpress, hrun⟩ := settleFrames_waits hx ((lineWaits_congr hclosed.lineBuf hseq).trans hwaits)
  rw [hsettle, cam_congr hcams]
  exact ⟨hclosed.frame, hclosed.lineBuf, by rw [hx, List.map_singleton, hseq, hwhy], hhost.trans hclosed.host, hdev.trans hclosed.dev,
    hpress.trans hclosed.press, hrun.trans hclosed.run⟩

/-! ## The pipeline takes a line (R257, R259, R261) -/

/-- A port's next line goes through the pipeline; the lines behind it wait on. -/
def passLine (port : Nat) (c : CamContext) (l : CamLine) (rest : List CamLine) (s : State) : State :=
  processLine port c l (s.withCam port { s.cam port with lineBuf := rest })

/-- A line has passed: it adds to the statistics of its frame, and beside that the port's frames and lines stand. -/
theorem passLine_counts (hs : CamsCanon s) (c : CamContext) (l : CamLine) (rest : List CamLine) :
    CamsCanon (passLine port c l rest s)
      ∧ SameLines (({ s.cam port with lineBuf := rest } : CamPort).mapFrames l.seq (countLine c l s.thermal.throttle))
          ((passLine port c l rest s).cam port)
      ∧ (∀ q, q ≠ port → (passLine port c l rest s).cam q = s.cam q)
      ∧ (passLine port c l rest s).dev = s.dev ∧ (passLine port c l rest s).press = s.press ∧ (passLine port c l rest s).run = s.run := by
  have htaken := hs.withCam port { s.cam port with lineBuf := rest }
  have hcounted := htaken.withCam port (({ s.cam port with lineBuf := rest } : CamPort).mapFrames l.seq (countLine c l s.thermal.throttle))
  have hwork := lineOutputs_lineWork (port := port) c l ((s.withCam port { s.cam port with lineBuf := rest }).withCam port
    (({ s.cam port with lineBuf := rest } : CamPort).mapFrames l.seq (countLine c l s.thermal.throttle)))
  have hlines := hwork.lines hcounted
  rw [cam_withCam_same htaken] at hlines
  unfold passLine
  rw [processLine_eq, withFrame_eq, cam_withCam_same hs]
  refine ⟨hwork.canon hcounted, hlines, fun q hq => (hwork.other hcounted q hq).trans ?_, hwork.dev, hwork.press, hwork.run⟩
  rw [cam_withCam_other htaken hq, cam_withCam_other hs hq]

/-- The line that a port's pipeline takes next goes to its frame. -/
theorem takeLine_passes {f : CamFrame} {l : CamLine} {rest : List CamLine} (hbuf : (s.cam port).lineBuf = l :: rest)
    (hframe : (s.cam port).frameOf l.seq = some f) : takeLine port s = settleFrames port (passLine port f.ctx l rest s) := by
  simp only [takeLine, hbuf, hframe]
  rfl

/-- A line of the open frame passes (R259). -/
theorem takeLine_counts (hs : CamsCanon s) {c : CamContext} {f : CamFrame} {l : CamLine} {rest : List CamLine}
    (hbuf : (s.cam port).lineBuf = l :: rest) (hctx : (s.cam port).ctx = some c) (hframe : (s.cam port).frame = some f)
    (hseq : f.seq = l.seq) (hclosing : (s.cam port).closing = []) :
    ((takeLine port s).cam port).lineBuf = rest ∧ (∀ q, q ≠ port → (takeLine port s).cam q = s.cam q)
      ∧ ((takeLine port s).cam port).frame.map (fun x => (x.seq, x.hist)) = some (f.seq, histLine f.ctx l f.hist)
      ∧ (takeLine port s).dev = s.dev ∧ (takeLine port s).press = s.press ∧ (takeLine port s).run = s.run := by
  have hof : (s.cam port).frameOf l.seq = some f := by simp [CamPort.frameOf, hframe, hseq]
  obtain ⟨-, hlines, hother, hunits⟩ := passLine_counts (port := port) hs f.ctx l rest
  have hnone : ((passLine port f.ctx l rest s).cam port).closing = [] :=
    List.map_eq_nil_iff.mp (hlines.closing.trans (by simp [CamPort.mapFrames, hclosing]))
  rw [takeLine_passes hbuf hof, settleFrames_none (hlines.ctx.trans hctx) hnone]
  refine ⟨hlines.lineBuf, hother, hlines.frame.trans ?_, hunits⟩
  simp [CamPort.mapFrames, hframe, hseq, countLine]

/-- The last line of a frame that is closing passes, and the frame ends. -/
theorem takeLine_ends (hs : CamsCanon s) {f : CamFrame} {l : CamLine} {rest : List CamLine} (hbuf : (s.cam port).lineBuf = l :: rest)
    (hframe : (s.cam port).frame = none) (hclosing : (s.cam port).closing = [f]) (hseq : f.seq = l.seq)
    (hlast : rest.any (fun x => decide (x.seq = f.seq)) = false) :
    ((takeLine port s).cam port).lineBuf = rest ∧ ((takeLine port s).cam port).closing = []
      ∧ (takeLine port s).host.evtStatus.getLsbD 12 = true
      ∧ (takeLine port s).dev = s.dev ∧ (takeLine port s).press = s.press ∧ (takeLine port s).run = s.run := by
  have hof : (s.cam port).frameOf l.seq = some f := by simp [CamPort.frameOf, hframe, hclosing, hseq]
  obtain ⟨hcanon, hlines, -, hdev, hpress, hrun⟩ := passLine_counts (port := port) hs f.ctx l rest
  have hnumber : ((passLine port f.ctx l rest s).cam port).closing.map (·.seq) = [f.seq] :=
    hlines.closing.trans (by simp [CamPort.mapFrames, hclosing, hseq, countLine])
  obtain ⟨x, hx, hxseq⟩ := List.map_eq_singleton_iff.mp hnumber
  have hends := settleFrames_ends hcanon hx ((lineWaits_congr hlines.lineBuf hxseq).trans hlast)
  rw [takeLine_passes hbuf hof]
  exact ⟨hends.lines.lineBuf.trans hlines.lineBuf, hends.closing, hends.raised, hends.dev.trans hdev, hends.press.trans hpress,
    hends.run.trans hrun⟩

end

/-! ## The events -/

theorem csi2FrameStart_opens (s : State) (port vc number u : Nat) (c : CamContext) (hs : canonOk s = true)
    (hpower : cameraPowered s port = true) (hctx : (s.cam port).ctx = some c) (hnext : (s.cam port).next = none)
    (hframe : (s.cam port).frame = none) (hvc : vc = c.vcBase) :
    ∃ t f, exec (.csi2FrameStart port vc number u) s = .next t ∧ (t.cam port).frame = some f ∧ f.seq = (s.cam port).frames % 2 ^ 32
      ∧ f.ctx = c ∧ f.csiFrame = number ∧ f.seen = 0 ∧ f.kept = 0 ∧ f.hist = [] ∧ f.openedAt = max s.clk.elapsed u
      ∧ (t.cam port).frames = (s.cam port).frames + 1 ∧ (t.cam port).ctx = some c ∧ (t.cam port).windows = []
      ∧ t = { s with clk := (s.at u).clk, cams := t.cams, keep := { s.keep with rows := t.keep.rows } } := by
  subst hvc
  have hstep : exec (.csi2FrameStart port c.vcBase number u) s = .next (openFrame port number c (s.at u)) := by
    rw [← frameStart_opens (s := s.at u) number hctx hnext hframe]
    exact congrArg Host.Outcome.next (if_pos hpower)
  have hcam := openFrame_cam (s := s.at u) (port := port) (camsCanon_of_canonOk hs) number c
  refine ⟨_, newFrame port number c (s.at u), hstep, ?_, rfl, rfl, rfl, rfl, rfl, rfl, rfl, ?_, ?_, ?_, rfl⟩ <;> rw [hcam]
  · rfl
  · exact hctx

theorem csi2LongPacket_keeps (s : State) (port vc wc u : Nat) (pixels : List Nat) (c : CamContext) (f : CamFrame) (hs : canonOk s = true)
    (hpower : cameraPowered s port = true) (hctx : (s.cam port).ctx = some c) (hframe : (s.cam port).frame = some f)
    (hpart : (s.cam port).part = none) (hexposures : c.exposures = 1) (hvc : vc = c.vcBase) (hwc : wc = c.lineWords)
    (hroom : f.seen < c.frameLines) (hpriority : c.priority = 0) :
    ∃ t, exec (.csi2LongPacket port vc c.typeCode wc pixels true true u) s = .next t
      ∧ (t.cam port).lineBuf = (s.cam port).lineBuf
          ++ [{ index := f.kept, seq := f.seq, exposures := [pixels], pos := printPosition (s.at u) c }]
      ∧ (t.cam port).frame.map (fun f => (f.seen, f.kept)) = some (f.seen + 1, f.kept + 1)
      ∧ t = { s with clk := (s.at u).clk, cams := t.cams } := by
  subst hvc hwc
  have hcontext : ((s.at u).cam port).ctx = some c := hctx
  have hpowered : cameraPowered (s.at u) port = true := hpower
  have hstep : exec (.csi2LongPacket port c.vcBase c.typeCode c.lineWords pixels true true u) s
      = .next (takeExposure port c 0 c.lineWords pixels true (s.at u)) := by
    have hours : ¬(c.typeCode ≠ c.typeCode ∨ c.vcBase < c.vcBase ∨ c.vcBase + c.exposures ≤ c.vcBase) := by omega
    change execCsi2LongPacket port c.vcBase c.typeCode c.lineWords pixels true true u s = _
    simp only [execCsi2LongPacket, hpowered, hcontext, if_neg hours, Nat.sub_self, Bool.not_true, Bool.false_eq_true, if_false]
  have hcanon : CamsCanon (s.at u) := camsCanon_of_canonOk hs
  obtain ⟨hcam, honly⟩ := takeExposure_keeps (port := port) (pixels := pixels) hcanon hpart hframe hexposures hroom hpriority
  refine ⟨_, hstep, ?_, ?_, ?_⟩
  · rw [hcam]
    rfl
  · rw [hcam]
    rfl
  · rw [honly]
    rfl

theorem csi2FrameEnd_closes (s : State) (port vc u : Nat) (c : CamContext) (f : CamFrame) (hs : canonOk s = true)
    (hpower : cameraPowered s port = true) (hctx : (s.cam port).ctx = some c) (hframe : (s.cam port).frame = some f)
    (hclosing : (s.cam port).closing = []) (hvc : vc = c.vcBase) :
    ∃ t, exec (.csi2FrameEnd port vc u) s = .next t ∧ (t.cam port).frame = none
      ∧ (t.cam port).lineBuf = (s.cam port).lineBuf
      ∧ ((s.cam port).lineBuf.any (fun l => decide (l.seq = f.seq)) = false →
          (t.cam port).closing = [] ∧ t.host.evtStatus.getLsbD 12 = true)
      ∧ ((s.cam port).lineBuf.any (fun l => decide (l.seq = f.seq)) = true →
          (t.cam port).closing.map (fun x => (x.seq, x.why)) = [(f.seq, none)] ∧ t.host = s.host)
      ∧ t.dev = s.dev ∧ t.press = s.press ∧ t.run = s.run := by
  subst hvc
  have hcontext : ((s.at u).cam port).ctx = some c := hctx
  have hopen : ((s.at u).cam port).frame = some f := hframe
  have hpowered : cameraPowered (s.at u) port = true := hpower
  have hstep : exec (.csi2FrameEnd port c.vcBase u) s = .next (closeFrame port none (s.at u)) := by
    change execCsi2FrameEnd port c.vcBase u s = _
    simp [execCsi2FrameEnd, hpowered, hcontext, hopen]
  have hcanon : CamsCanon (s.at u) := camsCanon_of_canonOk hs
  refine ⟨_, hstep, ?_⟩
  cases hwaits : lineWaits (s.cam port) f with
  | false =>
    obtain ⟨hnone, hlines, hgone, hraised, hframes⟩ := closeFrame_ends hcanon none hopen hclosing hwaits
    exact ⟨hnone, hlines, fun _ => ⟨hgone, hraised⟩, fun hsome => absurd (hsome.symm.trans hwaits) (by decide), hframes⟩
  | true =>
    obtain ⟨hnone, hlines, hstays, hhost, hframes⟩ := closeFrame_waits hcanon none hopen hclosing hwaits
    exact ⟨hnone, hlines, fun hsome => absurd (hsome.symm.trans hwaits) (by decide), fun _ => ⟨hstays, hhost⟩, hframes⟩

theorem camFrameTimeout_closes (s : State) (port u : Nat) (c : CamContext) (f : CamFrame) (hs : canonOk s = true)
    (hpower : cameraPowered s port = true) (hctx : (s.cam port).ctx = some c) (hframe : (s.cam port).frame = some f)
    (hclosing : (s.cam port).closing = []) (hlast : (s.cam port).lineBuf.any (fun l => decide (l.seq = f.seq)) = false)
    (hdue : f.openedAt + 2 * c.frameLines * c.linePeriod * nsT ≤ max s.clk.elapsed u) :
    ∃ t, exec (.camFrameTimeout port u) s = .next t ∧ (t.cam port).frame = none ∧ (t.cam port).closing = []
      ∧ t.host.evtStatus.getLsbD 12 = true ∧ t.dev = s.dev ∧ t.press = s.press ∧ t.run = s.run := by
  have hcontext : ((s.at u).cam port).ctx = some c := hctx
  have hopen : ((s.at u).cam port).frame = some f := hframe
  have hstep : exec (.camFrameTimeout port u) s = .next (closeFrame port (some 2) (s.at u)) := by
    change execCamFrameTimeout port u s = _
    simp only [execCamFrameTimeout, hcontext, hopen]
    exact congrArg Host.Outcome.next (if_pos ⟨hpower, hdue⟩)
  obtain ⟨hnone, -, hgone⟩ := closeFrame_ends (s := s.at u) (camsCanon_of_canonOk hs) (some 2) hopen hclosing hlast
  exact ⟨_, hstep, hnone, hgone⟩

theorem csi2ShortPacket_counts (s : State) (port vc ty u : Nat) (hpower : cameraPowered s port = true) :
    exec (.csi2ShortPacket port vc ty false u) s = .next ((s.at u).count (camCounter port 1))
      ∧ exec (.csi2ShortPacket port vc ty true u) s
        = .next (if ty = 2 ∨ ty = 3 then s.at u else (s.at u).count (camCounter port 0)) := by
  have hpowered : cameraPowered (s.at u) port = true := hpower
  constructor
  · change execCsi2ShortPacket port vc ty false u s = _
    simp [execCsi2ShortPacket, hpowered]
  · change execCsi2ShortPacket port vc ty true u s = _
    simp [execCsi2ShortPacket, hpowered]

/-- The port of high priority presents its line first. -/
theorem camLinePipeline_takes {s : State} (u : Nat) {port : Nat} {l : CamLine} {rest : List CamLine}
    (hport : port = if linePriority s 1 = some 0 then 1 else 0) (hbuf : (s.cam port).lineBuf = l :: rest) :
    exec (.camLinePipeline u) s = .next (takeLine port (s.at u)) := by
  subst hport
  have hsome : (s.cam (if linePriority s 1 = some 0 then 1 else 0)).lineBuf ≠ [] := by simp [hbuf]
  exact congrArg Host.Outcome.next (if_pos hsome)

/-- The camera ports are 0 and 1. -/
theorem otherPort_ne (n : Nat) : 1 - n ≠ n := by omega

/-- Settles O28: a frame start opens a frame, a line is kept, a frame end or the frame's time closes the frame, which ends when its last line
has passed (log 69), a short packet counts, and the pipeline takes a line of an open frame or the last one of a frame that is closing. -/
theorem cameraFramesComplete : Obligations.CameraFramesComplete := by
  unfold Obligations.CameraFramesComplete
  refine ⟨csi2FrameStart_opens, csi2LongPacket_keeps, csi2FrameEnd_closes, camFrameTimeout_closes, csi2ShortPacket_counts, ?_, ?_⟩
  · intro s u port c f l rest hs hport hbuf hctx hframe hseq hclosing
    obtain ⟨hrest, hother, hcounted⟩ := takeLine_counts (s := s.at u) (camsCanon_of_canonOk hs) hbuf hctx hframe hseq hclosing
    exact ⟨_, camLinePipeline_takes u hport hbuf, hrest, hother _ (otherPort_ne port), hcounted⟩
  · intro s u port c f l rest hs hport hbuf _ hframe hclosing hseq hlast
    exact ⟨_, camLinePipeline_takes u hport hbuf, takeLine_ends (s := s.at u) (camsCanon_of_canonOk hs) hbuf hframe hclosing hseq hlast⟩

end Sys2Proof.Machine
end

section
/-! The commands of the camera ports: CAM_CONFIG, which waits for PD10 where it is not ready (log 70), and CAM_CAPTURE (R250 to R252, R267, R435,
R436). -/

namespace Sys2Proof.Machine

open Sys2Proof

/-! ## Accepted commands that may wait -/

section
variable {i : Instr} {h : Hdr} {c : CmdInfo} {body : Bool → State → State × Option Answer} {s s' u : State}

/-- A command that may wait and whose rules answer does as one that never waits. -/
theorem hostWait_answers {a : Answer} (ha : accepts s h c = true) (hbody : body false (begun s h c) = (u, some a))
    (hring : u.ring h.ring = (begun s h c).ring h.ring) (hu : hostOnly s' u h) :
    repliedWith (hostWait i h c body s) h.ring h.tag c.opcode a.status a.result = true ∧ hostOnly s' (hostWait i h c body s) h := by
  have hcmd : hostWait i h c body s = hostCmd i h c (fun _ => (u, a)) s := by
    rw [hostWait_accepts i h c body s ha, hostCmd_accepts i h c _ s ha, hbody]
  rw [hcmd]
  exact hostCmd_answers (body := fun _ => (u, a)) ha rfl hring hu

/-- A command whose rules give no answer leaves what they make of the accepted state. -/
theorem hostWait_waiting (ha : accepts s h c = true) (hbody : body false (begun s h c) = (u, none))
    (hring : u.ring h.ring = (begun s h c).ring h.ring) : hostWait i h c body s = u := by
  rw [hostWait_accepts i h c body s ha, hbody]
  exact settle_nil u h.ring (by rw [hring]; exact begun_fetched s h c ha)

end

/-! ## CAM_CONFIG ENABLE (R250 to R252, R436) -/

theorem readContext_congr {s t : State} (hmem : t.host.mem = s.host.mem) (hlink : t.host.linkUp = s.host.linkUp)
    (hbad : t.host.badReads = s.host.badReads) (record : Nat) : readContext t record = readContext s record := by
  have hread : ∀ a n, t.dmaRead a n = s.dmaRead a n := fun a n => by simp only [State.dmaRead, hmem]
  have hfails : ∀ a n, t.dmaBad a n = s.dmaBad a n := fun a n => by simp only [State.dmaBad, hlink, hbad]
  simp only [readContext, hread, hfails]

theorem freeEngine_congr {s t : State} (hcams : t.cams = s.cams) (hstore : t.store = s.store) : freeEngine t = freeEngine s := by
  unfold freeEngine codecEngines codingOn
  rw [hcams, hstore]

/-- Which engines are handed out is up to the codec's operations and the camera ports. -/
theorem giveEngines_congr {s t : State} (hcams : t.cams = s.cams) (hstore : t.store = s.store) (n : Nat) :
    (giveEngines n t).store = (giveEngines n s).store := by
  induction n generalizing s t with
  | zero => exact hstore
  | succ n ih =>
    simp only [giveEngines, freeEngine_congr hcams hstore, hstore]
    split
    · exact ih hcams rfl
    · exact hstore

/-- A context that a port has been given, and PD10 asked for. -/
def giveContext (port : Nat) (c : CamContext) (s : State) : State :=
  (giveEngines 2 (s.withCam port { s.cam port with next := some c, disabling := false })).withBoot
    { s.boot with domains := setBit s.boot.domains 10 true }

theorem giveContext_eq (port : Nat) (c : CamContext) (s : State) :
    giveContext port c s
      = ((s.withCam port { s.cam port with next := some c, disabling := false }).withStore (giveContext port c s).store).withBoot
        { s.boot with domains := setBit s.boot.domains 10 true } := by
  have hengines := giveEngines_withStore 2 (s.withCam port { s.cam port with next := some c, disabling := false })
  unfold giveContext
  rw [hengines]
  rfl

theorem giveContext_begun (port : Nat) (c : CamContext) (s : State) (h : Hdr) (i : CmdInfo) :
    hostOnly (giveContext port c s) (giveContext port c (begun s h i)) h := by
  have hstore : (giveContext port c (begun s h i)).store = (giveContext port c s).store :=
    giveEngines_congr (s := s.withCam port { s.cam port with next := some c, disabling := false })
      (t := (begun s h i).withCam port { s.cam port with next := some c, disabling := false }) rfl rfl 2
  rw [giveContext_eq port c (begun s h i), giveContext_eq port c s, hstore]
  rfl

/-- A context within its ranges is given to its port; the command answers where PD10 is ready, and waits for it otherwise. -/
theorem camEnableBody_gives {s : State} {h : Hdr} {port record : Nat} {c : CamContext} (hport : port ≤ 1)
    (hread : readContext s record = (c, false, none)) (hok : c.ok = true) (hfree : priorityTaken s port c = false)
    (hengine : (bit c.outputs 1 && engine1Busy s) = false) :
    camEnableBody h port record false s =
      if bit s.boot.domainsReady 10 then (giveContext port c s, some (answer stOk (leBytes 4 (s.cam port).frames)))
      else ((giveContext port c s).addWait false h (cmdOf 0x0090 1) (.domain 1024 (leBytes 4 (s.cam port).frames)), none) := by
  have hidle : ¬(bit c.outputs 1 = true ∧ engine1Busy s = true) := by rw [← Bool.and_eq_true, hengine]; decide
  have hboot : (giveEngines 2 (s.withCam port { s.cam port with next := some c, disabling := false })).boot = s.boot := by
    rw [giveEngines_withStore]
    rfl
  simp only [camEnableBody, Nat.not_lt.mpr hport, hread, hok, hfree, hidle, hboot, Bool.not_true, Bool.false_eq_true, or_self, if_false]
  rfl

theorem camConfigEnable_completes (s : State) (h : Hdr) (port record : Nat) (c : CamContext) (ha : accepts s h (cmdOf 0x0090 1) = true)
    (hport : port ≤ 1) (hread : readContext s record = (c, false, none)) (hok : c.ok = true) (hfree : priorityTaken s port c = false)
    (hengine : (bit c.outputs 1 && engine1Busy s) = false) :
    (bit s.boot.domainsReady 10 = true →
      ∃ t, exec (.camConfigEnable h port record) s = .next t
        ∧ repliedWith t h.ring h.tag 0x0090 stOk (leBytes 4 (s.cam port).frames) = true
        ∧ hostOnly (giveContext port c s) t h)
    ∧ (bit s.boot.domainsReady 10 = false →
      ∃ t, exec (.camConfigEnable h port record) s = .next t
        ∧ t.host.waits = s.host.waits ++ [{ ring := h.ring, tag := h.tag, opcode := 0x0090, orphan := false
                                            since := max s.clk.elapsed h.t, kind := .domain 1024 (leBytes 4 (s.cam port).frames) }]
        ∧ t.cams = (s.withCam port { s.cam port with next := some c, disabling := false }).cams
        ∧ t.boot = { s.boot with domains := setBit s.boot.domains 10 true }) := by
  have hbody := camEnableBody_gives (s := begun s h (cmdOf 0x0090 1)) (h := h) hport
    ((readContext_congr (s := s) rfl rfl rfl record).trans hread) hok hfree hengine
  have hgiven := giveContext_eq port c (begun s h (cmdOf 0x0090 1))
  refine ⟨fun hready => ?_, fun hwaits => ?_⟩
  · rw [if_pos (show bit (begun s h (cmdOf 0x0090 1)).boot.domainsReady 10 = true from hready)] at hbody
    refine ⟨_, rfl, hostWait_answers ha hbody ?_ (giveContext_begun port c s h _)⟩
    rw [hgiven]
    rfl
  · rw [if_neg (show ¬bit (begun s h (cmdOf 0x0090 1)).boot.domainsReady 10 = true from ne_true_of_eq_false hwaits)] at hbody
    refine ⟨_, congrArg Host.Outcome.next (hostWait_waiting ha hbody ?_), ?_⟩
    all_goals rw [hgiven]
    · rfl
    · exact ⟨rfl, rfl, rfl⟩

/-! ## CAM_CONFIG DISABLE (R250, R435) -/

/-- A frame that is open ends before its context goes. -/
theorem camConfigDisable_open (s : State) (h : Hdr) (port : Nat) (ha : accepts s h (cmdOf 0x0090 0) = true) (hport : port ≤ 1)
    (hframe : (s.cam port).frame.isSome = true) :
    ∃ t, exec (.camConfigDisable h port) s = .next t ∧ repliedWith t h.ring h.tag 0x0090 stOk [] = true
      ∧ hostOnly (s.withCam port { s.cam port with next := none, disabling := true }) t h := by
  have hopen : ((begun s h (cmdOf 0x0090 0)).cam port).frame.isSome = true := hframe
  have hbody : camDisableBody port (begun s h (cmdOf 0x0090 0)) = ((begun s h (cmdOf 0x0090 0)).withCam port
      { (begun s h (cmdOf 0x0090 0)).cam port with next := none, disabling := true }, refuse stOk) := by
    simp only [camDisableBody, Nat.not_lt.mpr hport, hopen, if_true, if_false]
  exact ⟨_, rfl, hostCmd_answers ha hbody rfl rfl⟩

/-- Without an open frame the context goes at once. -/
theorem camConfigDisable_closed (s : State) (h : Hdr) (port : Nat) (ha : accepts s h (cmdOf 0x0090 0) = true) (hs : canonOk s = true)
    (hport : port ≤ 1) (hframe : (s.cam port).frame = none) :
    ∃ t, exec (.camConfigDisable h port) s = .next t ∧ repliedWith t h.ring h.tag 0x0090 stOk [] = true
      ∧ t.cam port = { s.cam port with ctx := none, next := none, disabling := false } ∧ t.cam (1 - port) = s.cam (1 - port)
      ∧ t.press = s.press ∧ t.dev = s.dev ∧ t.run = s.run := by
  have hclosed : ((begun s h (cmdOf 0x0090 0)).cam port).frame = none := hframe
  have hbody : camDisableBody port (begun s h (cmdOf 0x0090 0)) = (giveEngines 2 (cameraPower ((begun s h (cmdOf 0x0090 0)).withCam port
      { s.cam port with ctx := none, next := none, disabling := false })), refuse stOk) := by
    exact (if_neg (Nat.not_lt.mpr hport)).trans (if_neg (by simp [hclosed]))
  have hring : (camDisableBody port (begun s h (cmdOf 0x0090 0))).1.ring h.ring = (begun s h (cmdOf 0x0090 0)).ring h.ring := by
    rw [hbody, powerDown_eq]
    rfl
  have hreply := (hostCmd_replies (.camConfigDisable (unstarted h) port) h _ _ s ha hring).2.2
  have hleft := hostCmd_frame (.camConfigDisable (unstarted h) port) h _ _ s ha hring
  rw [hbody] at hreply
  refine ⟨_, rfl, hreply, ?_⟩
  rw [hbody, powerDown_eq] at hleft
  rw [hleft]
  have hcanon := camsCanon_of_canonOk hs
  exact ⟨cam_withCam_same hcanon port _, cam_withCam_other hcanon (otherPort_ne port) _, rfl, rfl, rfl⟩

/-! ## CAM_CAPTURE (R267) -/

/-- A capture that waits for the next frame. -/
def newCapture (h : Hdr) (stage dest : Nat) : CamCapture :=
  { ring := h.ring, tag := h.tag, stage := stage, dest := dest, seq := none, dropped := 0, closed := none }

theorem captureBegin_waits {s : State} (h : Hdr) {port stage dest size : Nat} {c : CamContext} (hport : port ≤ 1) (hstage : stage ≤ 2)
    (hctx : (s.cam port).enabled = some c) (hroom : c.frameLines * captureLineBytes c stage ≤ size) :
    captureBegin h port stage dest size s
      = s.withCam port { s.cam port with captures := (s.cam port).captures ++ [newCapture h stage dest] } := by
  simp only [captureBegin, Nat.not_lt.mpr hport, Nat.not_lt.mpr hstage, hctx, Nat.not_lt.mpr hroom, or_self, if_false]
  rfl

theorem longFrame.withCams {s t : State} {u : Time} (h : longFrame s t u) (x : Tab CamPort) : longFrame (s.withCams x) (t.withCams x) u := by
  unfold longFrame at *
  rw [h]
  rfl

theorem camCapture_starts (s : State) (h : Hdr) (port stage dest size : Nat) (c : CamContext)
    (ha : acceptsLong s h (cmdOf 0x0091 0) = true) (hport : port ≤ 1) (hstage : stage ≤ 2) (hctx : (s.cam port).enabled = some c)
    (hroom : c.frameLines * captureLineBytes c stage ≤ size) :
    ∃ t, exec (.camCapture h port stage dest size) s = .next t ∧ startedLong s t h (cmdOf 0x0091 0)
      ∧ longFrame (s.withCam port { s.cam port with captures := (s.cam port).captures ++ [newCapture h stage dest] }) t h.t := by
  obtain ⟨-, hframe, -⟩ := acceptedLong_spec ha
  have hcams : (acceptedLong s h (cmdOf 0x0091 0)).cams = s.cams := by rw [hframe]
  have hbegun := captureBegin_waits (s := acceptedLong s h (cmdOf 0x0091 0)) h (dest := dest) hport hstage
    (by rw [cam_congr hcams]; exact hctx) hroom
  refine ⟨_, rfl, hostLong_begins (.camCapture (unstarted h) port stage dest size) ha hbegun rfl ?_⟩
  rw [cam_congr hcams]
  unfold State.withCam
  rw [hcams]
  exact hframe.withCams _

theorem findCapture_spec {s : State} {ring tag p : Nat} {x : CamCapture} (h : findCapture s ring tag = some (p, x)) :
    x.ring = ring ∧ x.tag = tag := by
  obtain ⟨q, -, hq⟩ := List.exists_of_findSome?_eq_some h
  obtain ⟨y, hy, hpair⟩ := Option.map_eq_some_iff.mp hq
  cases hpair
  exact of_decide_eq_true (List.find?_some (p := fun z : CamCapture => decide (z.ring = ring ∧ z.tag = tag)) hy)

/-- The final reply of a long operation touches the host interface and the trace alone. -/
theorem longFrame.finishLong {s t : State} {u : Time} (h : longFrame s t u) (ring tag : Nat) (a : Answer) :
    longFrame s (t.finishLong ring tag a) u := by
  unfold State.finishLong
  split
  · exact h
  next l _ =>
    have hgone : longFrame s (t.withLongs (t.host.longOps.erase l)) u := by
      unfold longFrame at *
      rw [h]
      rfl
    unfold State.finishOp
    dsimp only
    split
    · exact hgone
    · exact (hgone.trans_reply (withRing_frame _ _ _)).trans_reply (putReply_frame _ _)

theorem camCaptureDone_ends (s : State) (o : OpRef) (p : Nat) (x : CamCapture) (late : Bool) (hlong : runsLong s o 0x0091 = true)
    (hx : findCapture s o.ring o.tag = some (p, x)) (hclosed : x.closed = some late) :
    ∃ t, exec (.camCaptureDone o) s = .next t
      ∧ endedWith s t o 0x0091 (if late then stTimeout else stOk) (leBytes 4 (x.seq.getD 0) ++ leBytes 4 x.dropped)
      ∧ longFrame (s.withCam p { s.cam p with captures := (s.cam p).captures.erase x }) t o.t := by
  obtain ⟨hruns, hreach⟩ := longRuns_of_runsLong hlong
  obtain ⟨hring, htag⟩ := findCapture_spec hx
  have hfound : findCapture (s.at o.t) o.ring o.tag = some (p, x) := hx
  obtain ⟨hreply, hlongs, hfetched⟩ := finishLong_ends
    (hruns.congr (t := (s.at o.t).withCam p { s.cam p with captures := (s.cam p).captures.erase x }) rfl rfl)
    (answer (if late then stTimeout else stOk) (leBytes 4 (x.seq.getD 0) ++ leBytes 4 x.dropped))
  have hleft : longFrame (s.withCam p { s.cam p with captures := (s.cam p).captures.erase x })
      ((s.at o.t).withCam p { s.cam p with captures := (s.cam p).captures.erase x }) o.t := rfl
  refine ⟨_, congrArg Host.Outcome.next ?_, ⟨hreply, hlongs⟩, hleft.finishLong _ _ _⟩
  obtain ⟨l, hl⟩ := withStep_runs hruns _
  rw [withOp, hl]
  simp only [hreach, hfound, hclosed, endCapture, hring, htag]
  exact settle_nil _ _ hfetched

/-- Settles O27: each command by its lemma; that CAM_CONFIG ENABLE is what waits for POWER_DOMAIN_READY of PD10 is log 70. -/
theorem cameraCommandsComplete : Obligations.CameraCommandsComplete := by
  unfold Obligations.CameraCommandsComplete
  exact ⟨camConfigEnable_completes, camConfigDisable_open, camConfigDisable_closed, camCapture_starts, camCaptureDone_ends⟩

end Sys2Proof.Machine
end

section
/-! KEEP_CONFIG ENABLE and DISABLE, and KEEP_TARGET: capture, load, read and clear (R272, R275, R276, R283). -/

namespace Sys2Proof.Machine

open Sys2Proof

/-! ## Host memory after a reply (R321, R326) -/

theorem leBytes_length (w v : Nat) : (leBytes w v).length = w := by
  induction w generalizing v with
  | zero => rfl
  | succ w ih => simp [leBytes, ih]

theorem toBytes_length (r : Reply) : r.toBytes.length = 32 := by simp [Reply.toBytes, leBytes_length, padTo]

theorem withMem_mem (s : State) (m : Mem) : (s.withMem m).host.mem = m := rfl

theorem withRing_mem (s : State) (r : Nat) (x : Ring) : (s.withRing r x).host.mem = s.host.mem := rfl

theorem oweLess_mem (s : State) (r n : Nat) : (s.oweLess r n).host.mem = s.host.mem := rfl

theorem signal_mem (s : State) (v : Nat) : (s.signal v).host.mem = s.host.mem := by
  unfold State.signal
  split <;> rfl

/-- While the link is up, the final reply of a command on an enabled ring lies in the entry at REPLY_TAIL. -/
theorem finalShort_mem {s : State} {ring : Nat} (tag opcode : Nat) (a : Answer) (henabled : (s.ring ring).enabled = true)
    (hup : s.host.linkUp = true) : ∃ rep : List Byte, rep.length = 32 ∧ (s.finalShort false ring tag opcode a).host.mem
      = mwrite zeroByte s.host.mem ((s.ring ring).replyBase + 32 * (s.ring ring).replyTail) rep := by
  have howed := oweLess_ring s ring 1 henabled
  have hup' : (s.oweLess ring 1).host.linkUp = true := hup
  simp only [State.finalShort, State.putReply, howed, henabled, State.dmaWrite, hup', Bool.not_true, Bool.false_eq_true, if_false, if_true]
  split
  · simp only [signal_mem, traceRec_host, withRing_mem, withMem_mem, oweLess_mem]
    exact ⟨_, toBytes_length _, rfl⟩
  · simp only [traceRec_host, withRing_mem, withMem_mem, oweLess_mem]
    exact ⟨_, toBytes_length _, rfl⟩

/-- An accepted command that writes `data` at `dest` and answers at once, while the link is up. -/
theorem hostCmd_delivers {i : Instr} {h : Hdr} {c : CmdInfo} {body : State → State × Answer} {s : State} {dest : Nat} {data : List Byte}
    {a : Answer} (ha : accepts s h c = true) (hup : s.host.linkUp = true)
    (hbody : body (begun s h c) = ((begun s h c).dmaWrite dest data, a)) : delivered s (hostCmd i h c body s) h.ring dest data := by
  have hwrite : (begun s h c).dmaWrite dest data = (begun s h c).withMem (mwrite zeroByte s.host.mem dest data) := if_pos hup
  have hring : ((begun s h c).withMem (mwrite zeroByte s.host.mem dest data)).ring h.ring = _ := begun_ring s h c ha
  rw [hwrite] at hbody
  rw [(hostCmd_replies i h c body s ha (by rw [hbody]; rfl)).1, hbody]
  obtain ⟨rep, hlength, hmem⟩ := finalShort_mem (s := (begun s h c).withMem (mwrite zeroByte s.host.mem dest data)) h.tag c.opcode a
    (begun_enabled s h c ha) hup
  rw [hring] at hmem
  exact ⟨rep, hlength, hmem⟩

/-! ## The state of each bar's keeping -/

theorem keepBars_of_canonOk {s : State} (h : canonOk s = true) : twf (fun _ => KeepBar.reset) s.keep.bars = true := by
  simp only [canonOk, Bool.and_eq_true] at h
  simp only [h]

theorem keepBar_withKeepBar {s : State} (hs : twf (fun _ => KeepBar.reset) s.keep.bars = true) (b : Nat) (x : KeepBar) (d : Nat) :
    (s.withKeepBar b x).keepBar d = if d = b then x else s.keepBar d := tget_tput _ _ b x d 0 hs

/-- From `s` to `t` only the bars' keeping has changed. -/
def OnlyKeepBars (s t : State) : Prop := t = s.withKeep { s.keep with bars := t.keep.bars }

theorem OnlyKeepBars.withKeepBar {s t : State} (h : OnlyKeepBars s t) (b : Nat) (x : KeepBar) : OnlyKeepBars s (t.withKeepBar b x) := by
  unfold OnlyKeepBars at *
  rw [h]
  rfl

/-- Each bar of a list is given anew once, with what `R` says of it while nothing but other bars' keeping has changed; the bars outside
the list stay. -/
theorem foldl_withKeepBar {R : Nat → KeepBar → KeepBar → Prop} (g : State → Nat → KeepBar) {l : List Nat} (hl : l.Nodup) {s : State}
    (hs : twf (fun _ => KeepBar.reset) s.keep.bars = true) (hR : ∀ u b, OnlyKeepBars s u → R b (u.keepBar b) (g u b)) :
    OnlyKeepBars s (l.foldl (fun u b => u.withKeepBar b (g u b)) s)
      ∧ (∀ b ∈ l, R b (s.keepBar b) ((l.foldl (fun u b => u.withKeepBar b (g u b)) s).keepBar b))
      ∧ ∀ b, b ∉ l → (l.foldl (fun u b => u.withKeepBar b (g u b)) s).keepBar b = s.keepBar b := by
  obtain ⟨⟨-, honly⟩, hin, hout⟩ := foldl_pointwise State.keepBar
    (fun u => twf (fun _ => KeepBar.reset) u.keep.bars = true ∧ OnlyKeepBars s u) R id (fun u b => u.withKeepBar b (g u b)) l
    (fun u b _ ⟨hu, honly⟩ => ⟨⟨twf_tput _ _ b _ hu, honly.withKeepBar b _⟩,
      by rw [id, keepBar_withKeepBar hu, if_pos rfl]; exact hR u b honly,
      fun d hd => by rw [keepBar_withKeepBar hu, if_neg (show d ≠ b from hd)]⟩)
    (by rwa [List.map_id]) s ⟨hs, rfl⟩
  exact ⟨honly, hin, fun b hb => hout b (fun x hx e => hb (e ▸ hx))⟩

/-- An accepted command that gives the bars of a list anew and answers OK. -/
theorem hostCmd_keepBars {R : Nat → KeepBar → KeepBar → Prop} (i : Instr) {h : Hdr} {c : CmdInfo} {body : State → State × Answer}
    {s : State} (g : State → Nat → KeepBar) {l : List Nat} (hl : l.Nodup) (ha : accepts s h c = true) (hs : canonOk s = true)
    (hbody : body (begun s h c) = (l.foldl (fun u b => u.withKeepBar b (g u b)) (begun s h c), refuse stOk))
    (hR : ∀ u b, OnlyKeepBars (begun s h c) u → R b (u.keepBar b) (g u b)) :
    repliedWith (hostCmd i h c body s) h.ring h.tag c.opcode stOk [] = true
      ∧ (∀ b ∈ l, R b (s.keepBar b) ((hostCmd i h c body s).keepBar b))
      ∧ (∀ b, b ∉ l → (hostCmd i h c body s).keepBar b = s.keepBar b)
      ∧ hostOnly (s.withKeep { s.keep with bars := (hostCmd i h c body s).keep.bars }) (hostCmd i h c body s) h := by
  obtain ⟨honly, hin, hout⟩ := foldl_withKeepBar g hl (s := begun s h c) (keepBars_of_canonOk (s := s) hs) hR
  generalize l.foldl (fun u b => u.withKeepBar b (g u b)) (begun s h c) = u at hbody honly hin hout
  have hring : u.ring h.ring = (begun s h c).ring h.ring := by rw [honly]; rfl
  obtain ⟨hreply, hleft⟩ := hostCmd_answers (i := i) (s' := s.withKeep { s.keep with bars := u.keep.bars }) ha hbody hring
    (by rw [honly]; rfl)
  have hbars : (hostCmd i h c body s).keep.bars = u.keep.bars := by rw [hleft]; rfl
  have hbar (b : Nat) : (hostCmd i h c body s).keepBar b = u.keepBar b := by rw [State.keepBar, hbars]; rfl
  simp only [hbar, hbars]
  exact ⟨hreply, hin, hout, hleft⟩

/-! ## KEEP_CONFIG (R275, R276, R283) -/

/-- A bar whose keeping a record enables: its interval opens with the next tick in RUN, and its gains now are the reference. -/
def enabledBar (r : List Byte) (s : State) (b : Nat) : KeepBar :=
  { s.keepBar b with
    enabled := true, record := keepRecordOf r, intervals := 0, acc := [], rangeLogged := [], thinLogged := [], ownedUntil := none
    computed := none, gRef := (List.range 432).foldl (fun t z => tput (fun _ => 0x8000) t z (zoneTo s b z)) []
    intervalStart := if s.dev = .run then some (s.web.webPos + 1) else none }

/-- A bar whose keeping is disabled: a step that is pending still takes effect. -/
def disabledBar (k : KeepBar) : KeepBar :=
  { k with enabled := false, intervalStart := none, acc := [], computed := none, ownedUntil := k.stepAt }

theorem keepEnableBody_enables {s : State} {mask record : Nat} (hread : s.dmaBad record 64 = none)
    (hdev : s.dev ∈ [DevState.idle, .armed, .run]) (hrec : keepRecordOk (s.dmaRead record 64) = true)
    (hdist : (camContexts s).any (fun c => decide (1040000 * 256 < c.camDist)) = false)
    (hvalid : (maskList mask 8).all (fun b => bit (barValid s) b) = true) (hcam : (camContexts s).any (fun c => bit c.outputs 2) = true) :
    keepEnableBody mask record s
      = ((maskList mask 8).foldl (fun u b => u.withKeepBar b (enabledBar (s.dmaRead record 64) u b)) s, refuse stOk) := by
  have hno_invalid : (maskList mask 8).any (fun b => !bit (barValid s) b) = false := by
    rw [← Bool.not_eq_true', ← List.all_eq_not_any_not]
    exact hvalid
  simp only [keepEnableBody, hread, hdev, hrec, hdist, hno_invalid, hcam, not_true_eq_false, Bool.not_true, Bool.false_eq_true, or_self,
    if_false]
  rfl

theorem keepConfigEnable_completes (s : State) (h : Hdr) (mask record : Nat) (ha : accepts s h (cmdOf 0x00A0 0) = true)
    (hs : canonOk s = true) (hread : s.dmaBad record 64 = none) (hdev : s.dev ∈ [DevState.idle, .armed, .run])
    (hrec : keepRecordOk (s.dmaRead record 64) = true) (hdist : (camContexts s).any (fun c => decide (1040000 * 256 < c.camDist)) = false)
    (hvalid : (maskList mask 8).all (fun b => bit (barValid s) b) = true) (hcam : (camContexts s).any (fun c => bit c.outputs 2) = true) :
    ∃ t, exec (.keepConfigEnable h mask record) s = .next t ∧ repliedWith t h.ring h.tag 0x00A0 stOk [] = true
      ∧ (∀ b ∈ maskList mask 8, (t.keepBar b).enabled = true ∧ (t.keepBar b).record = keepRecordOf (s.dmaRead record 64)
        ∧ (t.keepBar b).intervalStart = (if s.dev = .run then some (s.web.webPos + 1) else none) ∧ (t.keepBar b).acc = [])
      ∧ (∀ b, b ∉ maskList mask 8 → t.keepBar b = s.keepBar b)
      ∧ hostOnly (s.withKeep { s.keep with bars := t.keep.bars }) t h := by
  refine ⟨_, rfl, hostCmd_keepBars _ _ (maskList_nodup mask 8) ha hs
    (keepEnableBody_enables (s := begun s h (cmdOf 0x00A0 0)) hread hdev hrec hdist hvalid hcam)
    (R := fun _ _ k => k.enabled = true ∧ k.record = keepRecordOf (s.dmaRead record 64)
      ∧ k.intervalStart = (if s.dev = .run then some (s.web.webPos + 1) else none) ∧ k.acc = []) (fun u b hu => ?_)⟩
  refine ⟨rfl, rfl, ?_, rfl⟩
  rw [hu]
  rfl

theorem keepConfigDisable_completes (s : State) (h : Hdr) (mask : Nat) (ha : accepts s h (cmdOf 0x00A0 1) = true)
    (hs : canonOk s = true) :
    ∃ t, exec (.keepConfigDisable h mask) s = .next t ∧ repliedWith t h.ring h.tag 0x00A0 stOk [] = true
      ∧ (∀ b ∈ maskList mask 8, t.keepBar b = disabledBar (s.keepBar b))
      ∧ (∀ b, b ∉ maskList mask 8 → t.keepBar b = s.keepBar b)
      ∧ hostOnly (s.withKeep { s.keep with bars := t.keep.bars }) t h :=
  ⟨_, rfl, hostCmd_keepBars _ (fun u b => disabledBar (u.keepBar b)) (maskList_nodup mask 8) ha hs rfl
    (R := fun _ k x => x = disabledBar k) (fun _ _ _ => rfl)⟩

/-! ## KEEP_TARGET CAPTURE (R272) -/

theorem longFrame.withKeep {s t : State} {u : Time} (h : longFrame s t u) (x : Keeping) : longFrame (s.withKeep x) (t.withKeep x) u := by
  unfold longFrame at *
  rw [h]
  rfl

/-- A capture of pages still to come, which has gathered nothing. -/
def newTargetCapture (h : Hdr) (mask first count : Nat) (s : State) : CaptureOp :=
  { ring := h.ring, tag := h.tag, barMask := mask % 256, first := first, count := count, accepted := s.web.webPos, jobId := s.run.jobId
    sums := [], lastDone := none, lastEnd := 0 }

theorem captureStart_gathers {s : State} (h : Hdr) {mask first count : Nat} (hdev : s.dev = .run) (hoff : keepOn s mask = false)
    (hcount : count ≠ 0) (hpages : ∀ p ∈ s.run.pages, p.jobId = s.run.jobId → first ≤ p.pageIndex → s.web.webPos < p.start)
    (hnone : s.keep.capture = none) :
    captureStart h mask first count s = s.withKeep { s.keep with capture := some (newTargetCapture h mask first count s) } := by
  have hahead : s.run.pages.any (fun p => decide (p.jobId = s.run.jobId ∧ first ≤ p.pageIndex ∧ p.start ≤ s.web.webPos)) = false := by
    simp only [List.any_eq_false, decide_eq_true_eq, not_and, Nat.not_le]
    exact hpages
  simp only [captureStart, hdev, hoff, hcount, hahead, hnone, ne_eq, not_true_eq_false, Option.isSome_none, Bool.false_eq_true, or_self,
    if_false]
  rfl

theorem keepTargetCapture_starts (s : State) (h : Hdr) (mask first count : Nat) (ha : acceptsLong s h (cmdOf 0x00A1 0) = true)
    (hdev : s.dev = .run) (hoff : keepOn s mask = false) (hcount : count ≠ 0)
    (hpages : ∀ p ∈ s.run.pages, p.jobId = s.run.jobId → first ≤ p.pageIndex → s.web.webPos < p.start)
    (hnone : s.keep.capture = none) :
    ∃ t, exec (.keepTargetCapture h mask first count) s = .next t ∧ startedLong s t h (cmdOf 0x00A1 0)
      ∧ longFrame (s.withKeep { s.keep with capture := some (newTargetCapture h mask first count s) }) t h.t := by
  obtain ⟨-, hframe, -⟩ := acceptedLong_spec ha
  have hbegun : captureStart h mask first count (acceptedLong s h (cmdOf 0x00A1 0)) = (acceptedLong s h (cmdOf 0x00A1 0)).withKeep
      { s.keep with capture := some (newTargetCapture h mask first count s) } := by
    generalize acceptedLong s h (cmdOf 0x00A1 0) = a at hframe
    unfold longFrame at hframe
    rw [hframe]
    exact captureStart_gathers h hdev hoff hcount hpages hnone
  exact ⟨_, rfl, hostLong_begins (.keepTargetCapture (unstarted h) mask first count) ha hbegun rfl (hframe.withKeep _)⟩

/-- An event of a capture that ends it: beside the final reply, only the state of keeping has changed. -/
theorem withCapture_ends {s : State} {o : OpRef} {x : CaptureOp} {f : CaptureOp → State → State} {k : Keeping} {a : Answer}
    (hlong : runsLong s o 0x00A1 = true) (hx : s.keep.capture = some x) (hring : x.ring = o.ring) (htag : x.tag = o.tag)
    (hf : f x (s.at o.t) = ((s.at o.t).withKeep k).finishLong o.ring o.tag a) :
    endedWith s (withCapture o f s) o 0x00A1 a.status a.result ∧ (withCapture o f s).keep = k
      ∧ longFrame (s.withKeep k) (withCapture o f s) o.t := by
  obtain ⟨hruns, hreach⟩ := longRuns_of_runsLong hlong
  obtain ⟨hreply, hlongs, hfetched⟩ := finishLong_ends (hruns.congr (t := (s.at o.t).withKeep k) rfl rfl) a
  have hbefore : longFrame (s.withKeep k) ((s.at o.t).withKeep k) o.t := rfl
  have hleft := hbefore.finishLong o.ring o.tag a
  have hcapture : (s.at o.t).keep.capture = some x := hx
  have hends : withCapture o f s = ((s.at o.t).withKeep k).finishLong o.ring o.tag a := by
    obtain ⟨l, hl⟩ := withStep_runs hruns _
    rw [withCapture, withOp, hl]
    simp only [hreach, hcapture, hring, htag, and_self, if_true, hf]
    exact settle_nil _ _ hfetched
  rw [hends]
  exact ⟨⟨hreply, hlongs⟩, by rw [hleft]; rfl, hleft⟩

/-- From `s` to `t` only the colour target has changed. -/
def OnlyTarget (s t : State) : Prop := t = s.withKeep { s.keep with target := t.keep.target }

theorem OnlyTarget.trans {s t u : State} (h1 : OnlyTarget s t) (h2 : OnlyTarget t u) : OnlyTarget s u := by
  unfold OnlyTarget at *
  rw [h2, h1]
  rfl

theorem putTarget_onlyTarget (o : Nat) (bs : List Byte) (s : State) : OnlyTarget s (putTarget o bs s) := rfl

theorem storeCapture_onlyTarget (x : CaptureOp) (s : State) : OnlyTarget s (storeCapture x s) := by
  unfold storeCapture
  exact (foldl_keeps OnlyTarget (fun _ => rfl) OnlyTarget.trans _ (fun _ _ => putTarget_onlyTarget _ _ _) _ s).trans
    (putTarget_onlyTarget _ _ _)

theorem keepTargetCaptureDone_ends (s : State) (o : OpRef) (x : CaptureOp) (hlong : runsLong s o 0x00A1 = true)
    (hx : s.keep.capture = some x) (hring : x.ring = o.ring) (htag : x.tag = o.tag) (hpassed : capturePassed (s.at o.t) x = true) :
    ∃ t, exec (.keepTargetCaptureDone o) s = .next t ∧ endedWith s t o 0x00A1 stOk []
      ∧ t.keep.capture = none ∧ t.keep.target = (storeCapture x (s.at o.t)).keep.target ∧ t.keep.bars = s.keep.bars
      ∧ longFrame (s.withKeep t.keep) t o.t := by
  have hstored := storeCapture_onlyTarget x (s.at o.t)
  generalize hu : storeCapture x (s.at o.t) = u at hstored
  have hdropped : dropCapture u = (s.at o.t).withKeep { u.keep with capture := none } := by rw [hstored]; rfl
  have hends : ∃ t, exec (.keepTargetCaptureDone o) s = .next t ∧ endedWith s t o 0x00A1 stOk []
      ∧ t.keep = { u.keep with capture := none } ∧ longFrame (s.withKeep { u.keep with capture := none }) t o.t := by
    refine ⟨_, rfl, withCapture_ends (a := refuse stOk) hlong hx hring htag ?_⟩
    simp only [hpassed, if_true, hu, hdropped]
  obtain ⟨t, hexec, hended, hkeep, hleft⟩ := hends
  refine ⟨t, hexec, hended, ?_⟩
  rw [hkeep]
  exact ⟨rfl, rfl, by rw [hstored]; rfl, hleft⟩

theorem keepTargetCaptureTimeout_ends (s : State) (o : OpRef) (x : CaptureOp) (a : Nat) (hlong : runsLong s o 0x00A1 = true)
    (hx : s.keep.capture = some x) (hring : x.ring = o.ring) (htag : x.tag = o.tag) (hdone : x.lastDone = some a)
    (hover : a + 60 * secT ≤ max s.clk.elapsed o.t) :
    ∃ t, exec (.keepTargetCaptureTimeout o) s = .next t ∧ endedWith s t o 0x00A1 stTimeout []
      ∧ longFrame (s.withKeep { s.keep with capture := none }) t o.t := by
  have hlate : a + 60 * secT ≤ (s.at o.t).clk.elapsed := hover
  have hends : ∃ t, exec (.keepTargetCaptureTimeout o) s = .next t ∧ endedWith s t o 0x00A1 stTimeout []
      ∧ t.keep = { s.keep with capture := none } ∧ longFrame (s.withKeep { s.keep with capture := none }) t o.t := by
    refine ⟨_, rfl, withCapture_ends (a := refuse stTimeout) hlong hx hring htag ?_⟩
    simp only [hdone, hlate, if_true]
    rfl
  obtain ⟨t, hexec, hended, -, hleft⟩ := hends
  exact ⟨t, hexec, hended, hleft⟩

/-! ## KEEP_TARGET LOAD, READ and CLEAR (R271, R272) -/

/-- An accepted command that writes the target and answers OK. -/
theorem hostCmd_writesTarget (i : Instr) {h : Hdr} {c : CmdInfo} {body : State → State × Answer} {s : State} (m : Mem)
    (ha : accepts s h c = true)
    (hbody : body (begun s h c) = ((begun s h c).withKeep { (begun s h c).keep with target := m }, refuse stOk)) :
    repliedWith (hostCmd i h c body s) h.ring h.tag c.opcode stOk [] = true
      ∧ hostOnly (s.withKeep { s.keep with target := m }) (hostCmd i h c body s) h :=
  hostCmd_answers ha hbody rfl rfl

theorem dmaRead_begun (s : State) (h : Hdr) (c : CmdInfo) (a n : Nat) : (begun s h c).dmaRead a n = s.dmaRead a n := rfl

/-- A full target with its magic number and version is stored. -/
theorem targetLoadBody_stores {s : State} {mask addr : Nat} {bs : List Byte} (hoff : keepOn s mask = false)
    (hread : s.dmaBad addr targetSize = none) (hbytes : s.dmaRead addr targetSize = bs) (hmagic : field bs 0 2 = 0x4B54)
    (hversion : field bs 2 2 = 1) :
    targetLoadBody mask addr s = (s.withKeep { s.keep with target := mwrite zeroByte [] 0 bs }, refuse stOk) := by
  simp only [targetLoadBody, hoff, hread, hbytes, hmagic, hversion, ne_eq, not_true_eq_false, Bool.false_eq_true, or_self, if_false]

theorem keepTargetLoad_completes (s : State) (h : Hdr) (mask addr : Nat) (ha : accepts s h (cmdOf 0x00A1 1) = true)
    (hoff : keepOn s mask = false) (hread : s.dmaBad addr targetSize = none)
    (hmagic : field (s.dmaRead addr targetSize) 0 2 = 0x4B54) (hversion : field (s.dmaRead addr targetSize) 2 2 = 1) :
    ∃ t, exec (.keepTargetLoad h mask addr) s = .next t ∧ repliedWith t h.ring h.tag 0x00A1 stOk [] = true
      ∧ hostOnly (s.withKeep { s.keep with target := mwrite zeroByte [] 0 (s.dmaRead addr targetSize) }) t h := by
  have hbody := targetLoadBody_stores (s := begun s h (cmdOf 0x00A1 1)) (mask := mask) hoff hread (dmaRead_begun s h _ addr targetSize)
    hmagic hversion
  exact ⟨_, rfl, hostCmd_writesTarget _ _ ha hbody⟩

theorem keepTargetRead_completes (s : State) (h : Hdr) (addr : Nat) (ha : accepts s h (cmdOf 0x00A1 2) = true)
    (hup : s.host.linkUp = true) :
    ∃ t, exec (.keepTargetRead h addr) s = .next t ∧ repliedWith t h.ring h.tag 0x00A1 stOk [] = true
      ∧ delivered s t h.ring addr (mread zeroByte s.keep.target 0 targetSize) ∧ hostOnly s t h := by
  have hup' : (begun s h (cmdOf 0x00A1 2)).host.linkUp = true := hup
  have hbody : targetReadBody addr (begun s h (cmdOf 0x00A1 2))
      = ((begun s h (cmdOf 0x00A1 2)).dmaWrite addr (mread zeroByte s.keep.target 0 targetSize), refuse stOk) := by
    simp only [targetReadBody, hup', Bool.not_true, Bool.false_eq_true, if_false]
    rfl
  have hbegun : hostOnly s (begun s h (cmdOf 0x00A1 2)) h := rfl
  obtain ⟨hreply, hleft⟩ := hostCmd_answers (i := .keepTargetRead (unstarted h) addr) ha hbody (ring_dmaWrite _ _ _ _)
    (hbegun.trans_reply (dmaWrite_frame _ _ _))
  exact ⟨_, rfl, hreply, hostCmd_delivers ha hup hbody, hleft⟩

theorem setBit_lt {v i n : Nat} (hv : v < 2 ^ n) (hi : i < n) : setBit v i true < 2 ^ n := by
  unfold setBit
  split
  · exact hv
  next hclear =>
    have heven : v / 2 ^ i % 2 = 0 := by
      rw [Nat.testBit_eq_decide_div_mod_eq, decide_eq_true_eq] at hclear
      exact Nat.mod_two_not_eq_one.mp hclear
    have hsplit : 2 ^ n = 2 * 2 ^ (n - i - 1) * 2 ^ i := by
      rw [← Nat.pow_succ', ← Nat.pow_add]
      congr 1
      omega
    rw [if_pos rfl, hsplit, ← Nat.div_lt_iff_lt_mul (Nat.two_pow_pos i), Nat.add_div_right _ (Nat.two_pow_pos i)]
    rw [hsplit, ← Nat.div_lt_iff_lt_mul (Nat.two_pow_pos i)] at hv
    omega

/-- A mask of bit numbers below `n` has `n` bits. -/
theorem maskOf_lt {l : List Nat} {n : Nat} (h : ∀ i ∈ l, i < n) : maskOf l < 2 ^ n :=
  List.foldlRecOn l _ (motive := (· < 2 ^ n)) (Nat.two_pow_pos n) (fun _ hv i hi => setBit_lt hv (h i hi))

theorem target_of_canonOk {s : State} (h : canonOk s = true) : memWf s.keep.target = true := by
  simp only [canonOk, Bool.and_eq_true] at h
  simp only [h]

/-- The valid bars of the target after its byte for them is written (R271). -/
theorem barValid_putTarget {s : State} (hs : memWf s.keep.target = true) {v : Nat} (hv : v < 256) :
    barValid (putTarget 4 (leBytes 1 v) s) = v := by
  have hbyte : mread zeroByte (putTarget 4 (leBytes 1 v) s).keep.target 4 1 = [BitVec.ofNat 8 v] :=
    congrArg (fun x => [x]) ((tget_tput zeroByte s.keep.target 4 (BitVec.ofNat 8 v) 4 0 hs).trans (if_pos rfl))
  rw [barValid, targetNum, hbyte]
  simp only [leNat, BitVec.toNat_ofNat]
  omega

theorem keepTargetClear_completes (s : State) (h : Hdr) (mask : Nat) (ha : accepts s h (cmdOf 0x00A1 3) = true)
    (hoff : keepOn s mask = false) (hs : canonOk s = true) :
    ∃ t, exec (.keepTargetClear h mask) s = .next t ∧ repliedWith t h.ring h.tag 0x00A1 stOk [] = true
      ∧ barValid t = maskOf ((List.range 8).filter (fun b => bit (barValid s) b && !bit mask b))
      ∧ hostOnly (s.withKeep { s.keep with target := t.keep.target }) t h := by
  have hoff' : keepOn (begun s h (cmdOf 0x00A1 3)) mask = false := hoff
  have hlt : maskOf ((List.range 8).filter (fun b => bit (barValid s) b && !bit mask b)) < 2 ^ 8 :=
    maskOf_lt (fun b hb => List.mem_range.mp (List.mem_filter.mp hb).1)
  generalize hleft : maskOf ((List.range 8).filter (fun b => bit (barValid s) b && !bit mask b)) = left at hlt
  have hbody : targetClearBody mask (begun s h (cmdOf 0x00A1 3))
      = (putTarget 4 (leBytes 1 left) (begun s h (cmdOf 0x00A1 3)), refuse stOk) := by
    rw [← hleft]
    simp only [targetClearBody, hoff', Bool.false_eq_true, if_false]
    rfl
  obtain ⟨hreply, hframe⟩ := hostCmd_writesTarget (.keepTargetClear (unstarted h) mask) _ ha hbody
  have hkeep : (hostCmd (.keepTargetClear (unstarted h) mask) h (cmdOf 0x00A1 3) (targetClearBody mask) s).keep
      = (putTarget 4 (leBytes 1 left) s).keep := by rw [hframe]; rfl
  refine ⟨_, rfl, hreply, ?_, ?_⟩
  · rw [← barValid_putTarget (target_of_canonOk hs) hlt, barValid, targetNum, hkeep]
    rfl
  · rw [hkeep]
    exact hframe

/-- Settles O29: each command and each end of a capture by its lemma. -/
theorem keepingCommandsComplete : Obligations.KeepingCommandsComplete := by
  unfold Obligations.KeepingCommandsComplete
  exact ⟨keepConfigEnable_completes, keepConfigDisable_completes, keepTargetCapture_starts, keepTargetCaptureDone_ends,
    keepTargetCaptureTimeout_ends, keepTargetLoad_completes, keepTargetRead_completes, keepTargetClear_completes⟩

end Sys2Proof.Machine
end

section
/-! The dynamic share of DRAM, the patrol scrubber and SCRUB_RANGE (R298, R304, R305, R309 to R312). -/

namespace Sys2Proof.Machine

open Sys2Proof

/-! ## Device addresses (R285 to R287) -/

/-- A row page of the installed DRAM. -/
structure RowPage.Installed (cfg : Nat) (p : RowPage) : Prop where
  bank : p.bank < 4
  bg : p.bg < 8
  row : p.row < rowsPerBank cfg
  rank : p.rank < rankCount cfg
  subch : p.subch < 8

/-- The geometry of a configuration: rows of a bank and ranks. -/
theorem geometry_cases (cfg : Nat) : (rowsPerBank cfg = 65536 ∧ rankCount cfg = 1) ∨ (rowsPerBank cfg = 65536 ∧ rankCount cfg = 2)
    ∨ (rowsPerBank cfg = 131072 ∧ rankCount cfg = 1) := by
  unfold rowsPerBank rowBits rankCount
  split <;> split <;> omega

/-- What the swizzled map makes of a bank or bank group by its row is undone by the same row (R287). -/
theorem natXor_natXor (a b : Nat) : Nat.xor (Nat.xor a b) b = a :=
  calc (a ^^^ b) ^^^ b
    _ = a ^^^ (b ^^^ b) := Nat.xor_assoc a b b
    _ = a := by rw [Nat.xor_self, Nat.xor_zero]

theorem placeOf_installed (cfg map a : Nat) : (placeOf cfg map a).1.Installed cfg ∧ (placeOf cfg map a).2 < 4096 := by
  have hrows : 0 < rowsPerBank cfg := Nat.two_pow_pos _
  have hranks : 0 < rankCount cfg := by rcases geometry_cases cfg with h | h | h <;> omega
  have hbank (x y : Nat) : Nat.xor (x % 4) (y % 4) < 4 := Nat.xor_lt_two_pow (n := 2) (Nat.mod_lt _ (by decide)) (Nat.mod_lt _ (by decide))
  have hbg (x y : Nat) : Nat.xor (x % 8) (y % 8) < 8 := Nat.xor_lt_two_pow (n := 3) (Nat.mod_lt _ (by decide)) (Nat.mod_lt _ (by decide))
  unfold placeOf
  dsimp only
  split
  · exact ⟨⟨Nat.mod_lt _ (by decide), Nat.mod_lt _ (by decide), Nat.mod_lt _ hrows, Nat.mod_lt _ hranks, Nat.mod_lt _ (by decide)⟩,
      Nat.mod_lt _ (by decide)⟩
  · refine ⟨⟨?_, ?_, Nat.mod_lt _ hrows, Nat.mod_lt _ hranks, Nat.mod_lt _ (by decide)⟩, by dsimp only; omega⟩
    · dsimp only
      split
      · exact hbank _ _
      · exact Nat.mod_lt _ (by decide)
    · dsimp only
      split
      · exact hbg _ _
      · exact Nat.mod_lt _ (by decide)

theorem physOf_mod {cfg : Nat} (p : RowPage) {o : Nat} (ho : o < 4096) : physOf cfg p o % 4096 = o := by
  simp only [physOf, Nat.add_mul_mod_self_left, Nat.mod_eq_of_lt ho]

theorem rowPageOf_physOf {cfg : Nat} {p : RowPage} (hp : p.Installed cfg) {o : Nat} (ho : o < 4096) : rowPageOf cfg (physOf cfg p o) = p := by
  obtain ⟨hbank, hbg, hrow, hrank, hsubch⟩ := hp
  obtain ⟨subch, rank, bg, bank, row⟩ := p
  rcases geometry_cases cfg with ⟨hrows, hranks⟩ | ⟨hrows, hranks⟩ | ⟨hrows, hranks⟩ <;>
    simp only [rowPageOf, physOf, hrows, hranks, RowPage.mk.injEq] at * <;> omega

/-- The fields into which the interleaved maps cut a device address make up that address. -/
theorem interleaved_fields {cfg a o : Nat} (ha : a < dramCapacity cfg) (ho : o = a % 64 + 64 * (a / 64 % 4) + 256 * (a / 65536 % 16)) :
    o % 256 + 256 * (a / 256 % 8) + 2048 * (a / 2048 % 4) + 8192 * (a / 8192 % 8) + 65536 * (o / 256)
      + 1048576 * (a / 1048576 % rankCount cfg + rankCount cfg * (a / (1048576 * rankCount cfg) % rowsPerBank cfg)) = a := by
  have hlow : o % 256 = a % 256 := by omega
  have hcolumn : o / 256 = a / 65536 % 16 := by omega
  have hplace : a / 1048576 % rankCount cfg + rankCount cfg * (a / (1048576 * rankCount cfg) % rowsPerBank cfg) = a / 1048576 := by
    rw [← Nat.div_div_eq_div_mul]
    rcases geometry_cases cfg with ⟨hrows, hranks⟩ | ⟨hrows, hranks⟩ | ⟨hrows, hranks⟩ <;>
      simp only [dramCapacity, hrows, hranks] at * <;> omega
  have hbanks : a % 256 + 256 * (a / 256 % 8) + 2048 * (a / 2048 % 4) = a % 8192 := by omega
  have hgroups : a % 8192 + 8192 * (a / 8192 % 8) = a % 65536 := by omega
  rw [hlow, hcolumn, hplace, hbanks, hgroups]
  omega

/-- The device address of the place of a device address is that address (R287). -/
theorem devAddr_physAddr {cfg map a : Nat} (ha : a < dramCapacity cfg) : devAddr cfg map (physAddr cfg map a) = a := by
  obtain ⟨hpage, hbyte⟩ := placeOf_installed cfg map a
  by_cases hlinear : map = 0
  · simp only [devAddr, physAddr, placeOf, physOf, hlinear, if_true]
    rcases geometry_cases cfg with ⟨hrows, hranks⟩ | ⟨hrows, hranks⟩ | ⟨hrows, hranks⟩ <;>
      simp only [dramCapacity, hrows, hranks] at * <;> omega
  · simp only [devAddr, physAddr, hlinear, if_false, rowPageOf_physOf hpage hbyte, physOf_mod _ hbyte]
    by_cases hswizzled : map = 2
    · subst hswizzled
      simp only [placeOf, hlinear, if_true, if_false, natXor_natXor]
      exact interleaved_fields ha rfl
    · simp only [placeOf, hlinear, hswizzled, if_false]
      exact interleaved_fields ha rfl

/-! ## Accesses of the dynamic share (R297, R298) -/

theorem withDebtAt_onlySleep (s : State) (x : Tab Nat) : OnlySleep s (s.withDram { s.dram with debtAt := x }) := rfl

theorem wakeIdle_onlySleep (c : Nat) (s : State) : OnlySleep s (wakeIdle c s) :=
  OnlySleep.trans (t := (payDebt (2 * c) 0 0 s).withChannel c { s.channel c with sr := .awake }) rfl
    (foldl_keeps OnlySleep OnlySleep.refl OnlySleep.trans _ (fun s _ => withDebtAt_onlySleep s _) _ _)

theorem touchChannel_onlySleep (s : State) (c : Nat) : OnlySleep s (touchChannel s c) := by
  have hwoken : OnlySleep s (if (s.channel c).sr = .idleSr then wakeIdle c s else s) := by
    split
    · exact wakeIdle_onlySleep c s
    · exact OnlySleep.refl s
  exact hwoken.trans (withChannel_onlySleep _ _ _)

/-- Accesses of the dynamic share may wake channels, and leave everything else. -/
theorem share_onlySleep (s : State) (subs : List Nat) : OnlySleep s (s.share subs) := by
  unfold State.share
  split
  · exact foldl_keeps OnlySleep OnlySleep.refl OnlySleep.trans _ touchChannel_onlySleep _ s
  · exact OnlySleep.refl s

/-- A request to a channel that is awake changes the channel records alone. -/
theorem touchChannel_awake {s : State} {c : Nat} (h : (s.channel c).sr = .awake) :
    touchChannel s c = s.withDram { s.dram with channels := (touchChannel s c).dram.channels } := by
  have hawake : ¬(s.channel c).sr = .idleSr := by simp [h]
  simp only [touchChannel, hawake, if_false]
  rfl

/-- A request of a class with tokens to an awake channel is served at once (R297, R299). -/
theorem acceptRequest_awake {s : State} {r : HeldReq} (hawake : (s.channel (subchOf s r.addr / 2)).sr = .awake)
    (htokens : tokensHeld s (subchOf s r.addr) r.cls < classTokens r.cls) :
    acceptRequest r s = serveRequest r (touchChannel s (subchOf s r.addr / 2)) := by
  have hopen : ¬(s.channel (subchOf s r.addr / 2)).sr = .windowSr := by simp [hawake]
  simp only [acceptRequest, Nat.not_le.mpr htokens, hopen, if_false]

/-! ## DYNAMIC_SHARE_REQUEST (R298, R304, R305) -/

/-- The request of one burst that a DYNAMIC_SHARE_REQUEST states. -/
def burstRequest (cls a : Nat) (write : Bool) (data : List Byte) (enables : List Bool) (err : ReadErr) : HeldReq :=
  { cls := cls, addr := a / 64 * 64, write := write, data := data, enables := enables, err := err }

/-- A request that may be made is served on an awake channel with a token of its class free. -/
theorem dynamicShareRequest_serves {s : State} {cls a u : Nat} {write : Bool} {data : List Byte} {enables : List Bool} {err : ReadErr}
    (hlive : dramLive s = true) (hcls : cls ≤ 6) (ha : a < dramCapacity s.dram.cfg.config) (hreach : mayReach s cls a write = true)
    (hawake : (s.channel (subchOf s (a / 64 * 64) / 2)).sr = .awake)
    (htokens : tokensHeld s (subchOf s (a / 64 * 64)) cls < classTokens cls) :
    exec (.dynamicShareRequest cls a write data enables err u) s
      = .next (serveRequest (burstRequest cls a write data enables err) (touchChannel (s.at u) (subchOf s (a / 64 * 64) / 2))) := by
  have hserved := acceptRequest_awake (s := s.at u) (r := burstRequest cls a write data enables err) hawake htokens
  have hready : ¬((!dramLive (s.at u)) = true ∨ 6 < cls) := by
    have : dramLive (s.at u) = true := hlive
    simp [this, hcls]
  have hinside : ¬dramCapacity (s.at u).dram.cfg.config ≤ a := Nat.not_le.mpr ha
  have hreach : mayReach (s.at u) cls a write = true := hreach
  show execDynamicShareRequest cls a write data enables err u s = _
  simp only [execDynamicShareRequest, hready, hinside, hreach, Bool.not_true, Bool.false_eq_true, if_false]
  exact congrArg Host.Outcome.next hserved

/-- A write of a whole burst stores its bytes and clears its marker, whatever a read of it would have met (R305). -/
theorem writeBurst_whole {data : List Byte} (hdata : data.length = 64) (a : Nat) (err : ReadErr) (s : State) :
    writeBurst a data (List.replicate 64 true) err s
      = (s.devWrite a data).withPoison (clearBursts s.store.poison [burstOf (physAddr s.dram.cfg.config s.dram.cfg.map a)]) := by
  simp [writeBurst, hdata]

theorem dynamicShareRequest_writes (s : State) (cls a u : Nat) (data : List Byte) (err : ReadErr) (hlive : dramLive s = true) (hcls : cls ≤ 6)
    (ha : a < dramCapacity s.dram.cfg.config) (hhost : cls = 2 → a < reservedBase s.dram.cfg.config)
    (hawake : (s.channel (subchOf s (a / 64 * 64) / 2)).sr = .awake)
    (htokens : tokensHeld s (subchOf s (a / 64 * 64)) cls < classTokens cls) (hdata : data.length = 64) :
    ∃ t, exec (.dynamicShareRequest cls a true data (List.replicate 64 true) err u) s = .next t
      ∧ t.store = ((s.devWrite (a / 64 * 64) data).withPoison (clearBursts s.store.poison
          [burstOf (physAddr s.dram.cfg.config s.dram.cfg.map (a / 64 * 64))])).store
      ∧ t = { s with clk := (s.at u).clk, dram := { s.dram with channels := t.dram.channels }, store := t.store } := by
  have hreach : mayReach s cls a true = true := by
    simp only [mayReach, Bool.and_true, Bool.not_eq_true', decide_eq_false_iff_not]
    rintro ⟨hcls2, habove⟩
    exact absurd (hhost hcls2) (Nat.not_lt.mpr habove)
  refine ⟨_, dynamicShareRequest_serves hlive hcls ha hreach hawake htokens, ?_⟩
  rw [touchChannel_awake (s := s.at u) hawake]
  simp only [serveRequest, burstRequest, if_true, writeBurst_whole hdata]
  exact ⟨rfl, rfl⟩

/-- A read of a burst without a marker that nothing befell changes nothing (R304). -/
theorem readBurst_good {s : State} {phys : Nat} (h : burstOf phys ∉ s.store.poison) : readBurst phys .clean s = (s, true) := by
  have hgood : s.burstPoisoned phys = false := decide_eq_false h
  rw [readBurst, hgood, meetBurst_clean]

/-- A read that meets nothing leaves everything as it is (R304). -/
theorem serveRequest_good {s : State} {r : HeldReq} (hread : r.write = false) (hclean : r.err = .clean)
    (hgood : burstOf (physAddr s.dram.cfg.config s.dram.cfg.map r.addr) ∉ s.store.poison) : serveRequest r s = s := by
  simp only [serveRequest, hread, hclean, readBurst_good hgood, Bool.false_eq_true, if_false, if_true]

theorem dynamicShareRequest_reads (s : State) (cls a u : Nat) (data : List Byte) (enables : List Bool) (hlive : dramLive s = true)
    (hcls : cls ≤ 6) (ha : a < dramCapacity s.dram.cfg.config) (hawake : (s.channel (subchOf s (a / 64 * 64) / 2)).sr = .awake)
    (htokens : tokensHeld s (subchOf s (a / 64 * 64)) cls < classTokens cls)
    (hgood : burstOf (physAddr s.dram.cfg.config s.dram.cfg.map (a / 64 * 64)) ∉ s.store.poison) :
    ∃ t, exec (.dynamicShareRequest cls a false data enables .clean u) s = .next t
      ∧ t = { s with clk := (s.at u).clk, dram := { s.dram with channels := t.dram.channels } } := by
  have hreach : mayReach s cls a false = true := by simp [mayReach]
  refine ⟨_, dynamicShareRequest_serves hlive hcls ha hreach hawake htokens, ?_⟩
  have hserved (x : Tab Channel) : serveRequest (burstRequest cls a false data enables .clean)
      ((s.at u).withDram { (s.at u).dram with channels := x }) = (s.at u).withDram { (s.at u).dram with channels := x } := serveRequest_good rfl rfl hgood
  rw [touchChannel_awake (s := s.at u) hawake, hserved]
  rfl

/-- Outside the DRAM no memory is: the model stops there with a fault of its own (SPEC.md, Stops). -/
theorem dynamicShareRequest_faults (s : State) (cls a u : Nat) (wr : Bool) (data : List Byte) (enables : List Bool) (err : ReadErr)
    (hlive : dramLive s = true) (hcls : cls ≤ 6) (ha : dramCapacity s.dram.cfg.config ≤ a) :
    exec (.dynamicShareRequest cls a wr data enables err u) s = .fault .noSuchAddress := by
  have hready : ¬((!dramLive (s.at u)) = true ∨ 6 < cls) := by
    have : dramLive (s.at u) = true := hlive
    simp [this, hcls]
  have houtside : dramCapacity (s.at u).dram.cfg.config ≤ a := ha
  show execDynamicShareRequest cls a wr data enables err u s = _
  simp only [execDynamicShareRequest, hready, houtside, if_false, if_true]

/-! ## The patrol scrubber (R304, R308 to R310) -/

theorem burstOutcome_congr {s t : State} (hcfg : t.dram.cfg = s.dram.cfg) (hpoison : t.store.poison = s.store.poison) (phys : Nat)
    (marked : Bool) (err : ReadErr) : burstOutcome t phys marked err = burstOutcome s phys marked err := by
  simp only [burstOutcome, State.burstPoisoned, hcfg, hpoison]

/-- The state in which the patrol looks at the word its pass has come to: its channel has been reached through the SCRUB class. -/
def patrolled (s : State) (u : Nat) : State := (s.at u).share [subchOf s s.dram.scrubDram]

theorem patrolled_onlySleep (s : State) (u : Nat) : OnlySleep (s.at u) (patrolled s u) := share_onlySleep _ _

/-- The patrol that may go on scrubs the word its pass has come to, and moves on by one. -/
theorem scrubRead_patrols {s : State} {u : Nat} {err : ReadErr} {sup : Bool} (hthrottle : s.thermal.throttle = false)
    (hrange : rangeOn s 0 = false) (hlive : dramLive s = true) (ha : s.dram.scrubDram < dramCapacity s.dram.cfg.config)
    (hopen : shareOpen s 6 [subchOf s s.dram.scrubDram] = true) :
    ∃ t, t = scrubBurst (physAddr s.dram.cfg.config s.dram.cfg.map s.dram.scrubDram) err sup (patrolled s u)
      ∧ exec (.scrubRead 0 s.dram.scrubDram err sup u) s
        = .next (t.withDram { t.dram with scrubDram := (s.dram.scrubDram + 64) % dramCapacity t.dram.cfg.config }) := by
  have hgoes : ¬((s.at u).thermal.throttle = true ∨ rangeOn (s.at u) 0 = true) := by
    have : rangeOn (s.at u) 0 = false := hrange
    simp [hthrottle, this]
  have hlive : dramLive (s.at u) = true := hlive
  have hinside : ¬dramCapacity (s.at u).dram.cfg.config ≤ s.dram.scrubDram := Nat.not_le.mpr ha
  have hnext : ¬(s.dram.scrubDram ≠ (s.at u).dram.scrubDram
      ∨ (!shareOpen (s.at u) 6 [subchOf (s.at u) s.dram.scrubDram]) = true) := by
    have : shareOpen (s.at u) 6 [subchOf (s.at u) s.dram.scrubDram] = true := hopen
    simp [this]
  refine ⟨_, rfl, ?_⟩
  show execScrubRead 0 s.dram.scrubDram err sup u s = _
  simp only [execScrubRead, hgoes, hlive, hinside, hnext, Bool.not_true, Bool.false_eq_true, if_false, if_true]
  rfl

theorem scrubBurst_good {s : State} {phys : Nat} (h : burstOf phys ∉ s.store.poison) (sup : Bool) : scrubBurst phys .clean sup s = s := by
  have hgood : s.burstPoisoned phys = false := decide_eq_false h
  simp only [scrubBurst, hgood, burstOutcome_clean]

theorem scrubRead_good (s : State) (u : Nat) (sup : Bool) (hthrottle : s.thermal.throttle = false) (hrange : rangeOn s 0 = false)
    (hlive : dramLive s = true) (ha : s.dram.scrubDram < dramCapacity s.dram.cfg.config)
    (hopen : shareOpen s 6 [subchOf s s.dram.scrubDram] = true)
    (hgood : burstOf (physAddr s.dram.cfg.config s.dram.cfg.map s.dram.scrubDram) ∉ s.store.poison) :
    exec (.scrubRead 0 s.dram.scrubDram .clean sup u) s = .next (((s.at u).share [subchOf s s.dram.scrubDram]).withDram
      { ((s.at u).share [subchOf s s.dram.scrubDram]).dram with
        scrubDram := (s.dram.scrubDram + 64) % dramCapacity s.dram.cfg.config }) := by
  obtain ⟨t, ht, hexec⟩ := scrubRead_patrols (u := u) (err := .clean) (sup := sup) hthrottle hrange hlive ha hopen
  have hsleep := patrolled_onlySleep s u
  rw [scrubBurst_good (by rw [hsleep]; exact hgood)] at ht
  have hcfg : t.dram.cfg = s.dram.cfg := by
    rw [ht, hsleep]
    rfl
  rw [hexec, hcfg, ht]
  rfl

/-- From `s` to `t` an uncorrectable error has been met: MEMORY_UE is raised; the store and the configuration of DRAM stand. -/
structure MeetsUe (s t : State) : Prop where
  raised : t.host.evtStatus.getLsbD 9 = true
  store : t.store = s.store
  cfg : t.dram.cfg = s.dram.cfg

theorem MeetsUe.withLog {s t : State} (h : MeetsUe s t) (l : LogUnit) : MeetsUe s (t.withLog l) := ⟨h.raised, h.store, h.cfg⟩

/-- Noting a place in the soft-repair list changes that list alone. -/
theorem addRepair_eq (kind place : Nat) (s : State) :
    addRepair kind place s = s.withDram { s.dram with repairs := (addRepair kind place s).dram.repairs } := by
  unfold addRepair
  dsimp only
  split
  · rfl
  · split
    · rfl
    · rfl

theorem dramUe_meets (phys : Nat) (s : State) : MeetsUe s (dramUe phys s) := by
  unfold dramUe
  rw [addRepair_eq]
  refine ⟨?_, ?_, ?_⟩
  · simp [raise_evtStatus]
  · simp
  · simp

theorem reportScrub_eq (h burst : Nat) (s : State) : reportScrub h burst s = s.withLog (reportScrub h burst s).log := by
  unfold reportScrub
  split <;> rfl

/-- A fresh uncorrectable burst outside the firmware's data is met: it is reported by its frame, or by its sub-channel (R304, R310). -/
theorem scrubbedUe_meets {phys : Nat} {s : State}
    (hdata : devAddr s.dram.cfg.config s.dram.cfg.map phys < reservedBase s.dram.cfg.config + 0x08B10000) : MeetsUe s (scrubbedUe phys s) := by
  have hmet := dramUe_meets phys s
  unfold scrubbedUe
  dsimp only
  split
  · rw [reportScrub_eq]
    exact hmet.withLog _
  · have hreported : MeetsUe s (reportUe phys (dramUe phys s)) := hmet.withLog _
    rw [hreported.cfg, hmet.cfg, if_neg (Nat.not_le.mpr hdata)]
    exact hreported

/-- The marker of a burst changes the store's markers alone, and stands among them (R304). -/
theorem markBurst_spec (phys : Nat) (s : State) :
    burstOf phys ∈ (markBurst phys s).store.poison ∧ (markBurst phys s).store.dram = s.store.dram
      ∧ (markBurst phys s).host = s.host ∧ (markBurst phys s).dram = s.dram := by
  unfold markBurst
  dsimp only
  split
  next hmarked => exact ⟨hmarked, rfl, rfl, rfl⟩
  · exact ⟨List.mem_append_right _ (List.mem_singleton.mpr rfl), rfl, rfl, rfl⟩

theorem scrubBurst_marks {s : State} {phys : Nat} {err : ReadErr} (hfresh : burstOf phys ∉ s.store.poison)
    (hue : burstOutcome s phys false err = .uncorrectable) : scrubBurst phys err false s = markBurst phys (scrubbedUe phys s) := by
  have hgood : s.burstPoisoned phys = false := decide_eq_false hfresh
  simp only [scrubBurst, hgood, hue, Bool.false_eq_true, if_false]

theorem scrubRead_marks (s : State) (u : Nat) (err : ReadErr) (hthrottle : s.thermal.throttle = false) (hrange : rangeOn s 0 = false)
    (hlive : dramLive s = true) (ha : s.dram.scrubDram < dramCapacity s.dram.cfg.config)
    (hdata : s.dram.scrubDram < reservedBase s.dram.cfg.config + 0x08B10000)
    (hopen : shareOpen s 6 [subchOf s s.dram.scrubDram] = true)
    (hfresh : burstOf (physAddr s.dram.cfg.config s.dram.cfg.map s.dram.scrubDram) ∉ s.store.poison)
    (hue : burstOutcome s (physAddr s.dram.cfg.config s.dram.cfg.map s.dram.scrubDram) false err = .uncorrectable) :
    ∃ t, exec (.scrubRead 0 s.dram.scrubDram err false u) s = .next t ∧ t.host.evtStatus.getLsbD 9 = true
      ∧ burstOf (physAddr s.dram.cfg.config s.dram.cfg.map s.dram.scrubDram) ∈ t.store.poison
      ∧ t.store.dram = s.store.dram ∧ t.dram.scrubDram = (s.dram.scrubDram + 64) % dramCapacity s.dram.cfg.config := by
  obtain ⟨t, ht, hexec⟩ := scrubRead_patrols (u := u) (err := err) (sup := false) hthrottle hrange hlive ha hopen
  have hoff : devAddr s.dram.cfg.config s.dram.cfg.map (physAddr s.dram.cfg.config s.dram.cfg.map s.dram.scrubDram)
      < reservedBase s.dram.cfg.config + 0x08B10000 := by rwa [devAddr_physAddr ha]
  generalize physAddr s.dram.cfg.config s.dram.cfg.map s.dram.scrubDram = phys at *
  have hsleep := patrolled_onlySleep s u
  have hcfg : (patrolled s u).dram.cfg = s.dram.cfg := by
    rw [hsleep]
    rfl
  have hstore : (patrolled s u).store = s.store := by
    rw [hsleep]
    rfl
  have hmet := scrubbedUe_meets (s := patrolled s u) (by rw [hcfg]; exact hoff)
  rw [scrubBurst_marks (by rw [hstore]; exact hfresh) (by rw [burstOutcome_congr hcfg (by rw [hstore])]; exact hue)] at ht
  obtain ⟨hmarked, hbytes, hhost, hdram⟩ := markBurst_spec phys (scrubbedUe phys (patrolled s u))
  rw [← ht] at hmarked hbytes hhost hdram
  refine ⟨_, hexec, ?_, hmarked, ?_, ?_⟩
  · exact (congrArg (fun x => x.evtStatus.getLsbD 9) hhost).trans hmet.raised
  · exact hbytes.trans (by rw [hmet.store, hstore])
  · show (s.dram.scrubDram + 64) % dramCapacity t.dram.cfg.config = _
    rw [hdram, hmet.cfg, hcfg]

/-! ## SCRUB_RANGE (R311, R312) -/

theorem longFrame.withDram {s t : State} {u : Time} (h : longFrame s t u) (x : Dram) : longFrame (s.withDram x) (t.withDram x) u := by
  unfold longFrame at *
  rw [h]
  rfl

theorem acceptedLong_dram {s : State} {h : Hdr} {c : CmdInfo} (ha : acceptsLong s h c = true) : (acceptedLong s h c).dram = s.dram := by
  obtain ⟨-, hframe, -⟩ := acceptedLong_spec ha
  rw [hframe]

/-- The operation that a SCRUB_RANGE begins. -/
def newScrub (h : Hdr) (memory start length dest : Nat) : ScrubOp :=
  { ring := h.ring, tag := h.tag, memory := memory, start := start, length := length, dest := dest, checked := 0, corrected := 0, bad := [] }

/-- A range of whole words inside its memory is taken while no other operation scrubs. -/
theorem scrubBegin_takes {s : State} (h : Hdr) {memory start length dest : Nat} (hmemory : memory ≤ 1)
    (hstart : start % scrubUnit memory = 0) (hlength : length % scrubUnit memory = 0) (hsome : length ≠ 0)
    (hinside : start + length ≤ memoryBytes s memory) (hdest : dest % 64 = 0) (hfree : s.dram.scrub = none) :
    scrubBegin h memory start length dest s = s.withDram { s.dram with scrub := some (newScrub h memory start length dest) } := by
  have hlegal : ¬(1 < memory ∨ start % scrubUnit memory ≠ 0 ∨ length % scrubUnit memory ≠ 0 ∨ length = 0
      ∨ memoryBytes s memory < start + length ∨ dest % 64 ≠ 0) := by omega
  simp only [scrubBegin, hlegal, hfree, Option.isSome_none, Bool.false_eq_true, if_false]
  rfl

theorem scrubRange_starts (s : State) (h : Hdr) (memory start length dest : Nat) (ha : acceptsLong s h (cmdOf 0x00B0 0) = true)
    (hmemory : memory ≤ 1) (hstart : start % scrubUnit memory = 0) (hlength : length % scrubUnit memory = 0) (hsome : length ≠ 0)
    (hinside : start + length ≤ memoryBytes s memory) (hdest : dest % 64 = 0) (hfree : s.dram.scrub = none) :
    ∃ t, exec (.scrubRange h memory start length dest) s = .next t ∧ startedLong s t h (cmdOf 0x00B0 0)
      ∧ longFrame (s.withDram { s.dram with
          scrub := some { ring := h.ring, tag := h.tag, memory := memory, start := start, length := length, dest := dest
                          checked := 0, corrected := 0, bad := [] } }) t h.t := by
  obtain ⟨-, hframe, -⟩ := acceptedLong_spec ha
  have hdram := acceptedLong_dram ha
  have hbody := scrubBegin_takes (s := acceptedLong s h (cmdOf 0x00B0 0)) h hmemory hstart hlength hsome
    (by simpa only [memoryBytes, hdram] using hinside) hdest (by rw [hdram]; exact hfree)
  rw [hdram] at hbody
  exact ⟨_, rfl, hostLong_begins _ ha hbody rfl (hframe.withDram _)⟩

/-- Which words of a range need a look is not up to the channels. -/
theorem OnlySleep.wordsToMeet {s t : State} (h : OnlySleep s t) (o : ScrubOp) (found : List (Nat × ReadErr)) (a b : Nat) :
    wordsToMeet t o found a b = wordsToMeet s o found a b := by
  rw [h]
  rfl

/-- The accesses of a SCRUB_RANGE up to word `b`: those of DRAM are of the SCRUB class. -/
def scrubShared (o : ScrubOp) (b : Nat) (s : State) : State :=
  if o.memory = 0 then s.share (spanSubs s (o.start + scrubUnit o.memory * o.checked) (scrubUnit o.memory * (b - o.checked))) else s

theorem scrubShared_onlySleep (o : ScrubOp) (b : Nat) (s : State) : OnlySleep s (scrubShared o b s) := by
  unfold scrubShared
  split
  · exact share_onlySleep _ _
  · exact OnlySleep.refl s

/-- Words none of which needs a look are checked without a finding. -/
theorem scrubUpTo_good {o : ScrubOp} {b : Nat} {found : List (Nat × ReadErr)} {superseded : List Nat} {s : State}
    (h : wordsToMeet s o found o.checked b = []) :
    scrubUpTo o b found superseded s = ((scrubShared o b s).withDram { (scrubShared o b s).dram with scrub := some { o with checked := b } },
      { o with checked := b }) := by
  have hnone := ((scrubShared_onlySleep o b s).wordsToMeet o found o.checked b).trans h
  unfold scrubShared at hnone ⊢
  simp only [scrubUpTo, hnone, List.foldl_nil]

/-- From `s` to `t` a SCRUB_RANGE has ended with an answer: its final reply is written, no operation scrubs, and DRAM's bytes and markers
stand. -/
structure ScrubEnds (ring tag opcode : Nat) (a : Answer) (s t : State) : Prop where
  reply : repliedWith t ring tag opcode a.status a.result = true
  fetched : (t.ring ring).fetched = []
  longs : t.host.longOps.length + 1 = s.host.longOps.length
  dram : t.dram = { s.dram with scrub := none }
  store : t.store = s.store

/-- The answer of a SCRUB_RANGE that ends (R312). -/
def scrubAnswer (o : ScrubOp) (status : Nat) : Answer :=
  answer status (leBytes 8 o.checked ++ leBytes 4 (sat 4 o.corrected) ++ leBytes 4 (sat 4 o.bad.length))

theorem scrubEnd_ends {s : State} {o : ScrubOp} {opcode : Nat} (hruns : LongRuns s o.ring o.tag opcode) (status : Nat) :
    ScrubEnds o.ring o.tag opcode (scrubAnswer o status) s (scrubEnd o status s) := by
  obtain ⟨u, hu⟩ : ∃ u, u = (if o.dest = 0 then s else s.dmaWrite o.dest
      (scrubSummary o.checked o.corrected (o.bad.map (fun i => o.start + scrubUnit o.memory * i)))) := ⟨_, rfl⟩
  have hwork : CodecWork o.ring o.tag s u := hu ▸ .ite (.refl s) (dmaWrite_work _ _ _)
  have hdram : u.dram = s.dram := by
    rw [hu]
    split <;> simp
  have hstore : u.store = s.store := by
    rw [hu]
    split <;> simp
  obtain ⟨hreply, hlongs, hfetched⟩ := finishLong_ends
    ((hwork.runs opcode hruns).congr (t := u.withDram { u.dram with scrub := none }) rfl rfl) (scrubAnswer o status)
  have hend : scrubEnd o status s = (u.withDram { u.dram with scrub := none }).finishLong o.ring o.tag (scrubAnswer o status) := by
    rw [hu]
    rfl
  rw [hend]
  refine ⟨hreply, hfetched, hlongs.trans hwork.longs, ?_, ?_⟩
  · rw [finishLong_dram, ← hdram]
    rfl
  · rw [finishLong_store, ← hstore]
    rfl

/-- A range whose last words need no look ends with what was found before (R312). -/
theorem scrubRange_ends {s : State} {x : ScrubOp} {opcode b : Nat} (hruns : LongRuns s x.ring x.tag opcode)
    (hgood : wordsToMeet s x [] x.checked b = []) (p : Nat) :
    ∃ u, OnlySleep s u ∧ (x.memory ≠ 0 → u = s)
      ∧ ScrubEnds x.ring x.tag opcode (scrubAnswer { x with checked := b } stOk) u
          (scrubEnd (scrubUpTo x b [] [] s).2 stOk ((scrubUpTo x b [] [] s).1.progressTo x.ring x.tag p)) := by
  have hsleep := scrubShared_onlySleep x b s
  refine ⟨scrubShared x b s, hsleep, fun h => if_neg h, ?_⟩
  rw [scrubUpTo_good hgood]
  obtain ⟨u, hu⟩ : ∃ u, u = (scrubShared x b s).withDram { (scrubShared x b s).dram with scrub := some { x with checked := b } } := ⟨_, rfl⟩
  rw [← hu]
  have hshared : LongRuns u x.ring x.tag opcode := by
    rw [hu, hsleep]
    exact hruns.congr rfl rfl
  have hwork : CodecWork x.ring x.tag u (u.progressTo x.ring x.tag p) := progressTo_work p u
  have hends := scrubEnd_ends (o := { x with checked := b }) (hwork.runs opcode hshared) stOk
  refine ⟨hends.reply, hends.fetched, ?_, ?_, ?_⟩
  · rw [hends.longs, hwork.longs, hu]
    rfl
  · rw [hends.dram, progressTo_dram, hu]
    rfl
  · rw [hends.store, progressTo_store, hu]
    rfl

theorem scrubRangeDone_ends (s : State) (o : OpRef) (x : ScrubOp) (hlong : runsLong s o 0x00B0 = true) (hx : s.dram.scrub = some x)
    (hring : x.ring = o.ring) (htag : x.tag = o.tag) (hthrottle : s.thermal.throttle = false)
    (hgood : wordsToMeet s x [] x.checked (x.length / scrubUnit x.memory) = [])
    (hopen : x.memory = 0 → shareOpen s 6 (spanSubs s (x.start + 64 * x.checked) (64 * (x.length / 64 - x.checked))) = true) :
    ∃ t, exec (.scrubRangeDone o [] []) s = .next t
      ∧ endedWith s t o 0x00B0 stOk (leBytes 8 (x.length / scrubUnit x.memory) ++ leBytes 4 (sat 4 x.corrected)
          ++ leBytes 4 (sat 4 x.bad.length))
      ∧ t.dram = { s.dram with scrub := none, channels := t.dram.channels, debt := t.dram.debt, debtAt := t.dram.debtAt }
      ∧ (x.memory = 1 → t.dram = { s.dram with scrub := none }) ∧ t.store = s.store := by
  obtain ⟨hruns, hreach⟩ := longRuns_of_runsLong hlong
  have hgoes : ¬(x.ring ≠ o.ring ∨ x.tag ≠ o.tag ∨ (s.at o.t).thermal.throttle = true
      ∨ (x.memory = 0 ∧ (!shareOpen (s.at o.t) 6 (spanSubs (s.at o.t) (x.start + scrubUnit x.memory * x.checked)
          (scrubUnit x.memory * (x.length / scrubUnit x.memory - x.checked)))) = true)) := by
    rintro (h | h | h | ⟨hmemory, h⟩)
    · exact h hring
    · exact h htag
    · rw [at_thermal, hthrottle] at h
      cases h
    · have hdram : shareOpen (s.at o.t) 6 (spanSubs (s.at o.t) (x.start + scrubUnit x.memory * x.checked)
          (scrubUnit x.memory * (x.length / scrubUnit x.memory - x.checked))) = true := by
        rw [hmemory]
        exact hopen hmemory
      rw [hdram] at h
      cases h
  obtain ⟨u, hsleep, hsame, hends⟩ := scrubRange_ends (s := s.at o.t) (x := x) (opcode := 0x00B0)
    (by rw [hring, htag]; exact hruns.congr rfl rfl) hgood
    (scrubUnit x.memory * min (x.length / scrubUnit x.memory) (x.length / scrubUnit x.memory - 1) / 2097152)
  rw [hring, htag] at hends
  obtain ⟨l, hl⟩ := withStep_runs hruns _
  refine ⟨_, congrArg Host.Outcome.next (hl.trans ?_), ⟨hends.reply, ?_⟩, ?_, ?_, ?_⟩
  · have hx' : (s.at o.t).dram.scrub = some x := hx
    simp only [hx', hreach, hgoes, if_false, if_true]
    exact settle_nil _ _ hends.fetched
  · rw [hends.longs, hsleep]
    rfl
  · rw [hends.dram, hsleep]
    rfl
  · intro hmemory
    rw [hends.dram, hsame (by omega)]
    rfl
  · rw [hends.store, hsleep]
    rfl

/-! ## SCRUB_RANGE PATROL (R311) -/

theorem scrubRangePatrol_sets (s : State) (h : Hdr) (period : Nat) (ha : accepts s h (cmdOf 0x00B0 1) = true) (hmin : 1 ≤ period)
    (hmax : period ≤ 168) :
    ∃ t, exec (.scrubRangePatrol h period) s = .next t ∧ repliedWith t h.ring h.tag 0x00B0 stOk [] = true
      ∧ hostOnly (s.withDram { s.dram with passHours := period }) t h := by
  have hlegal : ¬(period = 0 ∨ 168 < period) := by omega
  have hbody : patrolBody period (begun s h (cmdOf 0x00B0 1))
      = ((begun s h (cmdOf 0x00B0 1)).withDram { (begun s h (cmdOf 0x00B0 1)).dram with passHours := period }, refuse stOk) := if_neg hlegal
  exact ⟨_, rfl, hostCmd_answers ha hbody rfl rfl⟩

/-- Settles O34: each clause by its lemma; the fault outside the DRAM is the model's own stop (SPEC.md, Stops), which none of the rules
cited gives. -/
theorem dramShareAndScrubComplete : Obligations.DramShareAndScrubComplete := by
  unfold Obligations.DramShareAndScrubComplete
  exact ⟨dynamicShareRequest_writes, dynamicShareRequest_reads, dynamicShareRequest_faults, scrubRead_good, scrubRead_marks,
    scrubRange_starts, scrubRangeDone_ends, scrubRangePatrol_sets⟩

end Sys2Proof.Machine
end

section
/-! What no operation of a unit touches: the queue of waiting commands and the press description. One lemma for each operation of the model, in
the model's order; PRESS_CONFIG and the resets, which alone put a description in force or take it away, have their lemmas at the end. -/

namespace Sys2Proof.Machine

open Sys2Proof

/-! ## Queue and press description -/

def State.fixed (s : State) : List Instr × Option Press := (s.pending, s.press)

@[simp] theorem fixed_ite (c : Prop) [Decidable c] (s t : State) : (if c then s else t).fixed = if c then s.fixed else t.fixed :=
  apply_ite State.fixed c s t

@[simp] theorem fst_ite {α β : Type} (c : Prop) [Decidable c] (x y : α × β) : (if c then x else y).1 = if c then x.1 else y.1 :=
  apply_ite Prod.fst c x y

@[simp] theorem snd_ite {α β : Type} (c : Prop) [Decidable c] (x y : α × β) : (if c then x else y).2 = if c then x.2 else y.2 :=
  apply_ite Prod.snd c x y

@[simp] theorem foldl_fixed {β : Type} (f : State → β → State) (h : ∀ s x, (f s x).fixed = s.fixed) (l : List β) (s : State) :
    (l.foldl f s).fixed = s.fixed := by
  induction l generalizing s with
  | nil => rfl
  | cons x l ih => rw [List.foldl_cons, ih, h]

@[simp] theorem foldl_fst_fixed {α β : Type} (f : State × α → β → State × α) (h : ∀ r x, (f r x).1.fixed = r.1.fixed) (l : List β)
    (r : State × α) : (l.foldl f r).1.fixed = r.1.fixed := by
  induction l generalizing r with
  | nil => rfl
  | cons x l ih => rw [List.foldl_cons, ih, h]

/-- A meaning that answers a next state leaves queue and description. -/
def Fixes (s : State) (r : Result) : Prop := ∀ t, r = .next t → t.fixed = s.fixed

@[simp] theorem fixes_next (s t : State) : Fixes s (.next t) ↔ t.fixed = s.fixed := by simp [Fixes]

@[simp] theorem fixes_fault (s : State) (f : Fault) : Fixes s (.fault f) := by simp [Fixes]

@[simp] theorem fixes_ite (c : Prop) [Decidable c] (s : State) (a b : Result) :
    Fixes s (if c then a else b) ↔ if c then Fixes s a else Fixes s b := by
  split <;> rfl

/-! ## Fields, elapsed time, free values and host memory -/

@[simp] theorem withDev_fixed (s : State) (x) : (s.withDev x).fixed = s.fixed := by simp [State.fixed]
@[simp] theorem withFault_fixed (s : State) (x) : (s.withFault x).fixed = s.fixed := by simp [State.fixed]
@[simp] theorem withClk_fixed (s : State) (x) : (s.withClk x).fixed = s.fixed := by simp [State.fixed]
@[simp] theorem withHost_fixed (s : State) (x) : (s.withHost x).fixed = s.fixed := by simp [State.fixed]
@[simp] theorem withRegs_fixed (s : State) (x) : (s.withRegs x).fixed = s.fixed := by simp [State.fixed]
@[simp] theorem withCounters_fixed (s : State) (x) : (s.withCounters x).fixed = s.fixed := by simp [State.fixed]
@[simp] theorem withLog_fixed (s : State) (x) : (s.withLog x).fixed = s.fixed := by simp [State.fixed]
@[simp] theorem withTrace_fixed (s : State) (x) : (s.withTrace x).fixed = s.fixed := by simp [State.fixed]
@[simp] theorem withRun_fixed (s : State) (x) : (s.withRun x).fixed = s.fixed := by simp [State.fixed]
@[simp] theorem withWeb_fixed (s : State) (x) : (s.withWeb x).fixed = s.fixed := by simp [State.fixed]
@[simp] theorem withTables_fixed (s : State) (x) : (s.withTables x).fixed = s.fixed := by simp [State.fixed]
@[simp] theorem withStore_fixed (s : State) (x) : (s.withStore x).fixed = s.fixed := by simp [State.fixed]
@[simp] theorem withPath_fixed (s : State) (x) : (s.withPath x).fixed = s.fixed := by simp [State.fixed]
@[simp] theorem withLink_fixed (s : State) (x) : (s.withLink x).fixed = s.fixed := by simp [State.fixed]
@[simp] theorem withCams_fixed (s : State) (x) : (s.withCams x).fixed = s.fixed := by simp [State.fixed]
@[simp] theorem withKeep_fixed (s : State) (x) : (s.withKeep x).fixed = s.fixed := by simp [State.fixed]
@[simp] theorem withDram_fixed (s : State) (x) : (s.withDram x).fixed = s.fixed := by simp [State.fixed]
@[simp] theorem withBoot_fixed (s : State) (x) : (s.withBoot x).fixed = s.fixed := by simp [State.fixed]
@[simp] theorem withNet_fixed (s : State) (x) : (s.withNet x).fixed = s.fixed := by simp [State.fixed]
@[simp] theorem withThermal_fixed (s : State) (x) : (s.withThermal x).fixed = s.fixed := by simp [State.fixed]
@[simp] theorem withDraws_fixed (s : State) (x) : (s.withDraws x).fixed = s.fixed := by simp [State.fixed]
@[simp] theorem at_fixed (s : State) (t) : (s.at t).fixed = s.fixed := by simp [State.at]
@[simp] theorem draw_fixed (s : State) (n) : (s.draw n).2.fixed = s.fixed := by simp [State.draw]
@[simp] theorem withMem_fixed (s : State) (m) : (s.withMem m).fixed = s.fixed := by simp [State.withMem]
@[simp] theorem dmaWrite_fixed (s : State) (a bs) : (s.dmaWrite a bs).fixed = s.fixed := by simp [State.dmaWrite]

/-! ## Counters, messages, events, records, reports and the log -/

@[simp] theorem countN_fixed (s : State) (i n) : (s.countN i n).fixed = s.fixed := by simp [State.countN]
@[simp] theorem count_fixed (s : State) (i) : (s.count i).fixed = s.fixed := by simp [State.count]
@[simp] theorem signal_fixed (s : State) (v) : (s.signal v).fixed = s.fixed := by simp [State.signal]
@[simp] theorem traceWrite_fixed (s : State) (rec) : (s.traceWrite rec).fixed = s.fixed := by simp [State.traceWrite]
@[simp] theorem traceRec_fixed (s : State) (source unit data) : (s.traceRec source unit data).fixed = s.fixed := by simp [State.traceRec]
@[simp] theorem raise_fixed (s : State) (i) : (s.raise i).fixed = s.fixed := by simp [State.raise]
@[simp] theorem plumeWrite_fixed (s : State) (kind seq body) : (s.plumeWrite kind seq body).fixed = s.fixed := by simp [State.plumeWrite]
@[simp] theorem plumeEmit_fixed (s : State) (kind body) : (s.plumeEmit kind body).fixed = s.fixed := by simp [State.plumeEmit]
@[simp] theorem report_fixed (s : State) (code key value fields) : (s.report code key value fields).fixed = s.fixed := by
  simp [State.report]
@[simp] theorem reportFollow_fixed (s : State) (code key value fields) : (s.reportFollow code key value fields).fixed = s.fixed := by
  simp [State.reportFollow]
@[simp] theorem traceTest_fixed (s : State) (code) : (s.traceTest code).fixed = s.fixed := by simp [State.traceTest]
@[simp] theorem noteBroken_fixed (s : State) (sensor seq) : (s.noteBroken sensor seq).fixed = s.fixed := by simp [State.noteBroken]
@[simp] theorem record_fixed (s : State) (r) : (s.record r).fixed = s.fixed := by
  unfold State.record
  split <;> simp
@[simp] theorem recordHead_fixed (s : State) : s.recordHead.fixed = s.fixed := by
  unfold State.recordHead
  (repeat' split) <;> simp

/-! ## Host commands: their start, replies and long operations -/

@[simp] theorem withRing_fixed (s : State) (r x) : (s.withRing r x).fixed = s.fixed := by simp [State.withRing]
@[simp] theorem putReply_fixed (s : State) (r) : (s.putReply r).fixed = s.fixed := by simp [State.putReply]
@[simp] theorem oweLess_fixed (s : State) (ring n) : (s.oweLess ring n).fixed = s.fixed := by simp [State.oweLess]
@[simp] theorem finalShort_fixed (s : State) (orphan ring tag opcode a) : (s.finalShort orphan ring tag opcode a).fixed = s.fixed := by
  simp [State.finalShort]
@[simp] theorem updLong_fixed (s : State) (ring tag f) : (s.updLong ring tag f).fixed = s.fixed := by simp [State.updLong]
@[simp] theorem finishOp_fixed (s : State) (o a) : (s.finishOp o a).fixed = s.fixed := by simp [State.finishOp]
@[simp] theorem finishLong_fixed (s : State) (ring tag a) : (s.finishLong ring tag a).fixed = s.fixed := by
  unfold State.finishLong
  split <;> simp
@[simp] theorem progressTo_fixed (s : State) (ring tag p) : (s.progressTo ring tag p).fixed = s.fixed := by
  unfold State.progressTo
  split <;> simp

@[simp] theorem startLong_fixed (s : State) (orphan : Bool) (h : Hdr) (c : CmdInfo) {body : State → State}
    (hbody : ∀ s, (body s).fixed = s.fixed) : (s.startLong orphan h c body).fixed = s.fixed := by
  unfold State.startLong
  split
  · split <;> simp
  · split <;> simp [hbody]

@[simp] theorem addWait_fixed (s : State) (orphan h c k) : (s.addWait orphan h c k).fixed = s.fixed := by simp [State.addWait]
@[simp] theorem endWait_fixed (s : State) (w a) : (s.endWait w a).fixed = s.fixed := by simp [State.endWait]
@[simp] theorem rejectPacket_fixed (s : State) (orphan h c status) : (s.rejectPacket orphan h c status).fixed = s.fixed := by
  simp [State.rejectPacket]

@[simp] theorem settleFetched_fixed (n : Nat) (s : State) (ring : Nat) : (settleFetched n s ring).fixed = s.fixed := by
  induction n generalizing s with
  | zero => rfl
  | succ n ih =>
    simp only [settleFetched]
    (repeat' split) <;> simp [ih]

@[simp] theorem settle_fixed (s : State) (ring) : (s.settle ring).fixed = s.fixed := by simp [State.settle]
@[simp] theorem intake_fixed (i h c s) : (intake i h c s).1.fixed = s.fixed := by simp [intake]

/-- A relation that holds where queue and description stay, and that chains. -/
structure Chains (R : State → State → Prop) : Prop where
  of_fixed {s t : State} : t.fixed = s.fixed → R s t
  trans {s t u : State} : R s t → R t u → R s u

theorem Chains.fixed : Chains (fun s t => t.fixed = s.fixed) := ⟨id, fun h h' => h'.trans h⟩

/-- What a command's own rules do to a state, its checks and its answer do not undo. -/
theorem Chains.shortBody {R : State → State → Prop} (hR : Chains R) (h : Hdr) (c : CmdInfo) {body : Bool → State → State × Option Answer}
    (hbody : ∀ o s, R s (body o s).1) (s : State) (orphan : Bool) : R s (shortBody h c body s orphan) := by
  have hrun : ∀ r, body orphan s = r → R s r.1 := by
    rintro _ rfl
    exact hbody orphan s
  unfold Machine.shortBody
  split
  · exact hR.of_fixed (by simp)
  · split
    · exact hR.of_fixed (by simp)
    · split
      next heq => exact hR.trans (hrun _ heq) (hR.of_fixed (by simp))
      next heq => exact hrun _ heq

theorem Chains.hostWait {R : State → State → Prop} (hR : Chains R) (i : Instr) (h : Hdr) (c : CmdInfo)
    {body : Bool → State → State × Option Answer} (hbody : ∀ o s, R s (body o s).1) (s : State) : R s (hostWait i h c body s) := by
  have hin : ∀ r, intake i h c (s.at h.t) = r → R s r.1 := by
    rintro _ rfl
    exact hR.of_fixed (by simp)
  unfold Machine.hostWait
  split
  next heq => exact hin _ heq
  next heq => exact hR.trans (hin _ heq) (hR.trans (hR.shortBody h c hbody _ _) (hR.of_fixed (settle_fixed _ _)))

@[simp] theorem hostWait_fixed (i : Instr) (h : Hdr) (c : CmdInfo) {body : Bool → State → State × Option Answer}
    (hbody : ∀ o s, (body o s).1.fixed = s.fixed) (s : State) : (hostWait i h c body s).fixed = s.fixed :=
  Chains.fixed.hostWait i h c hbody s

@[simp] theorem hostCmd_fixed (i : Instr) (h : Hdr) (c : CmdInfo) {body : State → State × Answer}
    (hbody : ∀ s, (body s).1.fixed = s.fixed) (s : State) : (hostCmd i h c body s).fixed = s.fixed :=
  hostWait_fixed i h c (fun _ => hbody) s

@[simp] theorem hostLong_fixed (i : Instr) (h : Hdr) (c : CmdInfo) {body : State → State} (hbody : ∀ s, (body s).fixed = s.fixed)
    (s : State) : (hostLong i h c body s).fixed = s.fixed := by
  have hin : ∀ r, intake i h c (s.at h.t) = r → r.1.fixed = s.fixed := by
    rintro _ rfl
    simp
  unfold hostLong
  split
  next heq => simp [← hin _ heq]
  next heq => split <;> simp [hbody, ← hin _ heq]

@[simp] theorem withStep_fixed (o : OpRef) (opcode : Nat) {f : LongOp → State → State} (hf : ∀ l s, (f l s).fixed = s.fixed) (s : State) :
    (withStep o opcode f s).fixed = s.fixed := by
  simp only [withStep]
  (repeat' split) <;> simp [hf]

@[simp] theorem withOp_fixed (o : OpRef) (opcode : Nat) {f : State → State} (hf : ∀ s, (f s).fixed = s.fixed) (s : State) :
    (withOp o opcode f s).fixed = s.fixed := by
  refine withStep_fixed o opcode (fun l s => ?_) s
  split <;> simp [hf]

/-! ## Geometry of the press -/

@[simp] theorem withSlot_fixed (s : State) (b sl x) : (s.withSlot b sl x).fixed = s.fixed := by simp [State.withSlot]
@[simp] theorem withGroup_fixed (s : State) (g x) : (s.withGroup g x).fixed = s.fixed := by simp [State.withGroup]
@[simp] theorem withBar_fixed (s : State) (b x) : (s.withBar b x).fixed = s.fixed := by simp [State.withBar]
@[simp] theorem withTable_fixed (s : State) (cls bar x) : (s.withTable cls bar x).fixed = s.fixed := by simp [State.withTable]
@[simp] theorem meetSpans_fixed (s : State) (cls bar start spans) : (s.meetSpans cls bar start spans).fixed = s.fixed := by
  simp [State.meetSpans]
@[simp] theorem meetWords_fixed (s : State) (cls bar start offs) : (s.meetWords cls bar start offs).fixed = s.fixed := by
  simp [State.meetWords]
@[simp] theorem withLatch_fixed (s : State) (cls bar x) : (s.withLatch cls bar x).fixed = s.fixed := by simp [State.withLatch]
@[simp] theorem loadLatch_fixed (s : State) (cls bar start) : (s.loadLatch cls bar start).fixed = s.fixed := by simp [State.loadLatch]
@[simp] theorem withBank_fixed (s : State) (i x) : (s.withBank i x).fixed = s.fixed := by simp [State.withBank]

/-! ## The host interface -/

@[simp] theorem execNop_fixes (h s) : Fixes s (execNop h s) := by simp [execNop]
@[simp] theorem execIdentify_fixes (h s) : Fixes s (execIdentify h s) := by simp [execIdentify]
@[simp] theorem execGetStatus_fixes (h s) : Fixes s (execGetStatus h s) := by simp [execGetStatus]
@[simp] theorem progressBody_fixed (ring tag s) : (progressBody ring tag s).1.fixed = s.fixed := by
  unfold progressBody
  split <;> simp
@[simp] theorem execGetProgress_fixes (h ring tag s) : Fixes s (execGetProgress h ring tag s) := by simp [execGetProgress]
@[simp] theorem ringEnableBody_fixed (ring log2 vector coalN coalUs cmdBase replyBase s) :
    (ringEnableBody ring log2 vector coalN coalUs cmdBase replyBase s).1.fixed = s.fixed := by simp [ringEnableBody]
@[simp] theorem execRingConfigEnable_fixes (h ring log2 vector coalN coalUs cmdBase replyBase s) :
    Fixes s (execRingConfigEnable h ring log2 vector coalN coalUs cmdBase replyBase s) := by simp [execRingConfigEnable]
@[simp] theorem ringDisableBody_fixed (ring s) : (ringDisableBody ring s).1.fixed = s.fixed := by simp [ringDisableBody]
@[simp] theorem execRingConfigDisable_fixes (h ring s) : Fixes s (execRingConfigDisable h ring s) := by simp [execRingConfigDisable]
@[simp] theorem plumeEnableBody_fixed (log2 vector coalN coalUs base interval s) :
    (plumeEnableBody log2 vector coalN coalUs base interval s).1.fixed = s.fixed := by simp [plumeEnableBody]
@[simp] theorem execPlumeEnable_fixes (h log2 vector coalN coalUs base interval s) :
    Fixes s (execPlumeEnable h log2 vector coalN coalUs base interval s) := by simp [execPlumeEnable]
@[simp] theorem plumeOff_fixed (s) : (plumeOff s).fixed = s.fixed := by simp [plumeOff]
@[simp] theorem execPlumeDisable_fixes (h s) : Fixes s (execPlumeDisable h s) := by simp [execPlumeDisable]
@[simp] theorem eventEnableBody_fixed (mask s) : (eventEnableBody mask s).1.fixed = s.fixed := by simp [eventEnableBody]
@[simp] theorem execEventConfigEnable_fixes (h mask s) : Fixes s (execEventConfigEnable h mask s) := by simp [execEventConfigEnable]
@[simp] theorem withComparator_fixed (s : State) (k c) : (s.withComparator k c).fixed = s.fixed := by simp [State.withComparator]
@[simp] theorem comparatorBody_fixed (index mode w period s) : (comparatorBody index mode w period s).1.fixed = s.fixed := by
  simp [comparatorBody]
@[simp] theorem execEventConfigComparator_fixes (h index mode w period s) :
    Fixes s (execEventConfigComparator h index mode w period s) := by
  simp [execEventConfigComparator]
@[simp] theorem badDoorbell_fixed (ring value s) : (badDoorbell ring value s).fixed = s.fixed := by simp [badDoorbell]
@[simp] theorem writeCmdTail_fixed (ring value s) : (writeCmdTail ring value s).fixed = s.fixed := by simp [writeCmdTail]
@[simp] theorem execCmdTailWrite_fixes (ring value s) : Fixes s (execCmdTailWrite ring value s) := by simp [execCmdTailWrite]
@[simp] theorem writeReplyHead_fixed (ring value s) : (writeReplyHead ring value s).fixed = s.fixed := by simp [writeReplyHead]
@[simp] theorem execReplyHeadWrite_fixes (ring value s) : Fixes s (execReplyHeadWrite ring value s) := by simp [execReplyHeadWrite]
@[simp] theorem writePlumeHead_fixed (value s) : (writePlumeHead value s).fixed = s.fixed := by simp [writePlumeHead]
@[simp] theorem execPlumeHeadWrite_fixes (value s) : Fixes s (execPlumeHeadWrite value s) := by simp [execPlumeHeadWrite]
@[simp] theorem writeRing0Control_fixed (value s) : (writeRing0Control value s).fixed = s.fixed := by simp [writeRing0Control]
@[simp] theorem execRing0EnableWrite_fixes (value s) : Fixes s (execRing0EnableWrite value s) := by simp [execRing0EnableWrite]
@[simp] theorem writeEvtStatus_fixed (value s) : (writeEvtStatus value s).fixed = s.fixed := by simp [writeEvtStatus]
@[simp] theorem execEvtStatusClear_fixes (value s) : Fixes s (execEvtStatusClear value s) := by simp [execEvtStatusClear]
@[simp] theorem writeMatchStatus_fixed (value s) : (writeMatchStatus value s).fixed = s.fixed := by simp [writeMatchStatus]
@[simp] theorem execMatchStatusClear_fixes (value s) : Fixes s (execMatchStatusClear value s) := by simp [execMatchStatusClear]
@[simp] theorem writeMsix_fixed (vector e s) : (writeMsix vector e s).fixed = s.fixed := by simp [writeMsix]
@[simp] theorem execMsixVectorUnmask_fixes (vector addr data s) : Fixes s (execMsixVectorUnmask vector addr data s) := by
  simp [execMsixVectorUnmask]
@[simp] theorem coalesceRing_fixed (ring s) : (coalesceRing ring s).fixed = s.fixed := by simp [coalesceRing]
@[simp] theorem coalescePlume_fixed (s) : (coalescePlume s).fixed = s.fixed := by simp [coalescePlume]
@[simp] theorem execReplyCoalesceTimeout_fixes (ring t s) : Fixes s (execReplyCoalesceTimeout ring t s) := by
  simp [execReplyCoalesceTimeout]

/-! ## Plans of the timing contract -/

@[simp] theorem updPage_fixed (s : State) (start f) : (s.updPage start f).fixed = s.fixed := by simp [State.updPage]

/-! ## Gating and FIRE_EN -/

@[simp] theorem latchBar_fixed (s b) : (latchBar s b).fixed = s.fixed := by simp [latchBar]
@[simp] theorem driveFire_fixed (s b) : (driveFire s b).fixed = s.fixed := by simp [driveFire]
@[simp] theorem settleGates_fixed (s : State) : s.settleGates.fixed = s.fixed := by simp [State.settleGates]
@[simp] theorem enter_fixed (s : State) (d) : (s.enter d).fixed = s.fixed := by simp [State.enter]
@[simp] theorem enterFault_fixed (s : State) (c) : (s.enterFault c).fixed = s.fixed := by simp [State.enterFault]
@[simp] theorem faultOnPoison_fixed (s : State) : s.faultOnPoison.fixed = s.fixed := by simp [State.faultOnPoison]
@[simp] theorem releaseBar_fixed (boundary s b) : (releaseBar boundary s b).fixed = s.fixed := by simp [releaseBar]
@[simp] theorem releaseBars_fixed (boundary mask s) : (releaseBars boundary mask s).fixed = s.fixed := by simp [releaseBars]
@[simp] theorem execGatingInputEdge_fixes (input level held t s) : Fixes s (execGatingInputEdge input level held t s) := by
  simp [execGatingInputEdge]

/-! ## Nozzle repair plans -/

@[simp] theorem markWord_fixed (word s) : (markWord word s).fixed = s.fixed := by
  unfold markWord
  split <;> simp
@[simp] theorem addRepair_fixed (kind place s) : (addRepair kind place s).fixed = s.fixed := by simp [addRepair]
@[simp] theorem noteCorrection_fixed (memory word b s) : (noteCorrection memory word b s).fixed = s.fixed := by simp [noteCorrection]
@[simp] theorem sramCorrected_fixed (word err s) : (sramCorrected word err s).fixed = s.fixed := by simp [sramCorrected]
@[simp] theorem reportWord_fixed (word s) : (reportWord word s).fixed = s.fixed := by
  unfold reportWord
  split <;> simp
@[simp] theorem sramUe_fixed (word s) : (sramUe word s).fixed = s.fixed := by simp [sramUe]
@[simp] theorem meetWord_fixed (word err s) : (meetWord word err s).fixed = s.fixed := by
  unfold meetWord
  split <;> simp
@[simp] theorem meetErrors_fixed (errs s) : (meetErrors errs s).fixed = s.fixed := by simp [meetErrors]

/-! ## The DRAM and its poison -/

@[simp] theorem withDramMem_fixed (s : State) (m) : (s.withDramMem m).fixed = s.fixed := by simp [State.withDramMem]
@[simp] theorem devWrite_fixed (s : State) (a bs) : (s.devWrite a bs).fixed = s.fixed := by simp [State.devWrite]
@[simp] theorem withPoison_fixed (s : State) (l) : (s.withPoison l).fixed = s.fixed := by simp [State.withPoison]
@[simp] theorem markBurst_fixed (phys s) : (markBurst phys s).fixed = s.fixed := by simp [markBurst]
@[simp] theorem dramCorrected_fixed (phys s) : (dramCorrected phys s).fixed = s.fixed := by simp [dramCorrected]
@[simp] theorem dramUe_fixed (phys s) : (dramUe phys s).fixed = s.fixed := by simp [dramUe]
@[simp] theorem reportUe_fixed (phys s) : (reportUe phys s).fixed = s.fixed := by simp [reportUe]
@[simp] theorem meetBurst_fixed (phys marked err s) : (meetBurst phys marked err s).1.fixed = s.fixed := by
  unfold meetBurst
  split <;> simp
@[simp] theorem readBurst_fixed (phys err s) : (readBurst phys err s).1.fixed = s.fixed := by simp [readBurst]
@[simp] theorem meetBursts_fixed (errs s) : (meetBursts errs s).fixed = s.fixed := by simp [meetBursts]
@[simp] theorem withChannel_fixed (s : State) (c x) : (s.withChannel c x).fixed = s.fixed := by simp [State.withChannel]
@[simp] theorem noDebt_fixed (s : State) : s.noDebt.fixed = s.fixed := by simp [State.noDebt]
@[simp] theorem payDebt_fixed (h rank n s) : (payDebt h rank n s).fixed = s.fixed := by simp [payDebt]
@[simp] theorem wakeIdle_fixed (c s) : (wakeIdle c s).fixed = s.fixed := by simp [wakeIdle]
@[simp] theorem touchChannel_fixed (s c) : (touchChannel s c).fixed = s.fixed := by simp [touchChannel]
@[simp] theorem share_fixed (s : State) (subs) : (s.share subs).fixed = s.fixed := by simp [State.share]
@[simp] theorem freshDram_fixed (s : State) : s.freshDram.fixed = s.fixed := by simp [State.freshDram]

/-! ## Table banks and commits -/

@[simp] theorem logReject_fixed (cls b off s) : (logReject cls b off s).fixed = s.fixed := by simp [logReject]

/-- What a failed check of COMMIT does to the state. -/
theorem contentCheck_fixed {s : State} {pairs : List (Nat × Nat)} {boundary : Option Nat} {f : State → State}
    (h : contentCheck s pairs boundary = some f) (u : State) : (f u).fixed = u.fixed := by
  unfold contentCheck at h
  repeat' split at h
  all_goals first | (cases h; simp) | (cases h)

@[simp] theorem mirrorTable_fixed (cls b s) : (mirrorTable cls b s).fixed = s.fixed := by simp [mirrorTable]

@[simp] theorem dropRestored_fixed (b : Nat) (s : State) : (dropRestored b s).fixed = s.fixed := by
  refine foldl_fixed _ (fun s sl => ?_) _ s
  split <;> simp

@[simp] theorem commitNow_fixed (p s) : (commitNow p s).fixed = s.fixed := by simp [commitNow]
@[simp] theorem commitAll_fixed (pairs s) : (commitAll pairs s).fixed = s.fixed := by simp [commitAll]

@[simp] theorem endRestored_fixed (boundary b : Nat) (s : State) : (endRestored boundary b s).fixed = s.fixed := by
  refine foldl_fixed _ (fun s sl => ?_) _ s
  split <;> simp

@[simp] theorem noteZoneCommit_fixed (boundary b s) : (noteZoneCommit boundary b s).fixed = s.fixed := by simp [noteZoneCommit]
@[simp] theorem closeTable_fixed (boundary p s) : (closeTable boundary p s).fixed = s.fixed := by simp [closeTable]
@[simp] theorem execCommitWindowClose_fixes (boundary s) : Fixes s (execCommitWindowClose boundary s) := by simp [execCommitWindowClose]
@[simp] theorem copyTable_fixed (p s) : (copyTable p s).fixed = s.fixed := by simp [copyTable]
@[simp] theorem loseTotal_fixed (s i) : (loseTotal s i).fixed = s.fixed := by simp [loseTotal]
@[simp] theorem loseBurst_fixed (s a) : (loseBurst s a).fixed = s.fixed := by simp [loseBurst]
@[simp] theorem meetTotals_fixed (a n s) : (meetTotals a n s).fixed = s.fixed := by simp [meetTotals]
@[simp] theorem mergeBurst_fixed (errs s x) : (mergeBurst errs s x).fixed = s.fixed := by simp [mergeBurst]
@[simp] theorem writeWear_fixed (a n errs s) : (writeWear a n errs s).fixed = s.fixed := by simp [writeWear]
@[simp] theorem mergeWord_fixed (cls b errs s x) : (mergeWord cls b errs s x).fixed = s.fixed := by
  simp only [mergeWord]
  (repeat' split) <;> simp
@[simp] theorem withHealth_fixed (s : State) (serial t) : (s.withHealth serial t).fixed = s.fixed := by simp [State.withHealth]
@[simp] theorem setHealth_fixed (b sl row j hp s) : (setHealth b sl row j hp s).fixed = s.fixed := by
  unfold setHealth
  split <;> simp
@[simp] theorem notePlan_fixed (b sl row j s) : (notePlan b sl row j s).fixed = s.fixed := by simp [notePlan]
@[simp] theorem hostWord_fixed (old b s i) : (hostWord old b s i).fixed = s.fixed := by simp [hostWord]
@[simp] theorem placeTable_fixed (cls b off bs errs s) : (placeTable cls b off bs errs s).fixed = s.fixed := by simp [placeTable]
@[simp] theorem dmaFault_fixed (s : State) (addr) : (s.dmaFault addr).fixed = s.fixed := by simp [State.dmaFault]
@[simp] theorem tableWriteBody_fixed (cls bar bank off len host errs s) :
    (tableWriteBody cls bar bank off len host errs s).1.fixed = s.fixed := by
  unfold tableWriteBody
  (repeat' split) <;> simp
@[simp] theorem execTableWrite_fixes (h cls bar bank offset length host errs s) :
    Fixes s (execTableWrite h cls bar bank offset length host errs s) := by simp [execTableWrite]
@[simp] theorem tableReadBody_fixed (cls bar bank off len host errs s) :
    (tableReadBody cls bar bank off len host errs s).1.fixed = s.fixed := by simp [tableReadBody]
@[simp] theorem execTableRead_fixes (h cls bar bank offset length host errs s) :
    Fixes s (execTableRead h cls bar bank offset length host errs s) := by simp [execTableRead]

/-! ## Energy records -/

@[simp] theorem onLanes_fixed (after : Time) (l : List (Option Nat × List (LinkTime × Blk))) (s : State) :
    (onLanes after l s).2.fixed = s.fixed := by
  induction l generalizing s with
  | nil => rfl
  | cons x l ih => simp [onLanes, ih]

@[simp] theorem traceSent_fixed (g s b) : (traceSent g s b).fixed = s.fixed := by simp [traceSent]
@[simp] theorem sendBlocks_fixed (s : State) (g bs) : (s.sendBlocks g bs).fixed = s.fixed := by simp [State.sendBlocks]
@[simp] theorem sendFrame_fixed (s : State) (g copy rows) : (s.sendFrame g copy rows).fixed = s.fixed := by simp [State.sendFrame]
@[simp] theorem sendOccupancy_fixed (s : State) (g start bs) : (s.sendOccupancy g start bs).fixed = s.fixed := by simp [State.sendOccupancy]
@[simp] theorem countClamps_fixed (b n s) : (countClamps b n s).fixed = s.fixed := by simp [countClamps]
@[simp] theorem logVsup_fixed (b sl vsup s) : (logVsup b sl vsup s).fixed = s.fixed := by simp [logVsup]
@[simp] theorem loadRecord_fixed (num b sl s) : (loadRecord num b sl s).1.fixed = s.fixed := by
  unfold loadRecord
  split <;> simp
@[simp] theorem frameRecord_fixed (s b sl start) : (frameRecord s b sl start).1.fixed = s.fixed := by
  simp only [frameRecord]
  (repeat' split) <;> simp
@[simp] theorem sendLoad_fixed (b sl kind bank s) : (sendLoad b sl kind bank s).fixed = s.fixed := by simp [sendLoad]
@[simp] theorem armRecord_fixed (b sl s) : (armRecord b sl s).fixed = s.fixed := by simp [armRecord]
@[simp] theorem fillCredit_fixed (b sl s) : (fillCredit b sl s).fixed = s.fixed := by
  unfold fillCredit
  split <;> simp

/-! ## Head links -/

@[simp] theorem wakeDown_fixed (g s) : (wakeDown g s).fixed = s.fixed := by simp [wakeDown]
@[simp] theorem sleepDown_fixed (g s) : (sleepDown g s).fixed = s.fixed := by simp [sleepDown]
@[simp] theorem idleGroup_fixed (g s) : (idleGroup g s).fixed = s.fixed := by simp [idleGroup]
@[simp] theorem offGroup_fixed (g s) : (offGroup g s).fixed = s.fixed := by simp [offGroup]
@[simp] theorem sleepGroups_fixed (gs s) : (sleepGroups gs s).fixed = s.fixed := by simp [sleepGroups]
@[simp] theorem lockHeader_fixed (g valid s) : (lockHeader g valid s).fixed = s.fixed := by simp [lockHeader]
@[simp] theorem takePayload_fixed (g bs s) : (takePayload g bs s).fixed = s.fixed := by simp [takePayload]
@[simp] theorem checkBits_fixed (g bs s) : (checkBits g bs s).fixed = s.fixed := by simp [checkBits]
@[simp] theorem takeWord_fixed (g s w) : (takeWord g s w).fixed = s.fixed := by simp [takeWord]
@[simp] theorem execUpstreamBlockLock_fixes (group words t s) : Fixes s (execUpstreamBlockLock group words t s) := by
  simp [execUpstreamBlockLock]
@[simp] theorem traceUp_fixed (s : State) (u type body) : (s.traceUp u type body).fixed = s.fixed := by simp [State.traceUp]
@[simp] theorem addCredit_fixed (b sl n s) : (addCredit b sl n s).fixed = s.fixed := by simp [addCredit]
@[simp] theorem execCredit_fixes (u count due s) : Fixes s (execCredit u count due s) := by simp [execCredit]
@[simp] theorem auditSlot_fixed (b s sl) : (auditSlot b s sl).fixed = s.fixed := by simp [auditSlot]
@[simp] theorem execCreditAudit_fixes (t s) : Fixes s (execCreditAudit t s) := by
  simp only [execCreditAudit]
  (repeat' split) <;> simp
@[simp] theorem announceFor_fixed (g lane toDs tick s) : (announceFor g lane toDs tick s).fixed = s.fixed := by simp [announceFor]
@[simp] theorem announceSwitch_fixed (g lane toDs s) : (announceSwitch g lane toDs s).fixed = s.fixed := by simp [announceSwitch]
@[simp] theorem loseLane_fixed (g lane s) : (loseLane g lane s).fixed = s.fixed := by
  simp only [loseLane]
  (repeat' split) <;> simp
@[simp] theorem scanBegin_fixed (h mask dest s) : (scanBegin h mask dest s).fixed = s.fixed := by simp [scanBegin]
@[simp] theorem execHeadScan_fixes (h barMask dest s) : Fixes s (execHeadScan h barMask dest s) := by simp [execHeadScan]
@[simp] theorem scanProgress_fixed (s) : (scanProgress s).fixed = s.fixed := by
  unfold scanProgress
  split <;> simp
@[simp] theorem enumAck_fixed (g value s) : (enumAck g value s).fixed = s.fixed := by
  unfold enumAck
  split <;> simp
@[simp] theorem hmemAck_fixed (g q s) : (hmemAck g q s).fixed = s.fixed := by
  unfold hmemAck
  split <;> simp
@[simp] theorem execHmem_fixes (u word data s) : Fixes s (execHmem u word data s) := by
  simp only [execHmem]
  (repeat' split) <;> simp
@[simp] theorem putWord_fixed (b bank off w s) : (putWord b bank off w s).fixed = s.fixed := by simp [putWord]
@[simp] theorem restoreStates_fixed (b sl m s) : (restoreStates b sl m s).fixed = s.fixed := by simp [restoreStates]
@[simp] theorem takeHead_fixed (o b s sl) : (takeHead o b s sl).fixed = s.fixed := by
  simp only [takeHead]
  (repeat' split) <;> simp
@[simp] theorem scanFinish_fixed (o s) : (scanFinish o s).fixed = s.fixed := by simp [scanFinish]
@[simp] theorem execHeadScanDone_fixes (o s) : Fixes s (execHeadScanDone o s) := by
  refine (fixes_next _ _).mpr (withOp_fixed _ _ (fun s => ?_) _)
  (repeat' split) <;> simp

/-! ## Nozzle surveys and states -/

@[simp] theorem setWord_fixed (b sl row j w s) : (setWord b sl row j w s).fixed = s.fixed := by simp [setWord]
@[simp] theorem setNozzle_fixed (b sl row j state cap source s) : (setNozzle b sl row j state cap source s).fixed = s.fixed := by
  simp [setNozzle]
@[simp] theorem planCol_fixed (b sl row x f s) : (planCol b sl row x f s).fixed = s.fixed := by
  unfold planCol
  split <;> simp
@[simp] theorem planNeighbour_fixed (b sl row x s) : (planNeighbour b sl row x s).fixed = s.fixed := by simp [planNeighbour]
@[simp] theorem planAround_fixed (b sl row x s) : (planAround b sl row x s).fixed = s.fixed := by simp [planAround]
@[simp] theorem logUncovered_fixed (b s p) : (logUncovered b s p).fixed = s.fixed := by
  simp only [logUncovered]
  (repeat' split) <;> simp
@[simp] theorem planAll_fixed (b places s) : (planAll b places s).fixed = s.fixed := by simp [planAll]
@[simp] theorem firmwareCommit_fixed (cls b s) : (firmwareCommit cls b s).fixed = s.fixed := by
  unfold firmwareCommit
  (repeat' split) <;> simp
@[simp] theorem applyShift_fixed (b dA s) : (applyShift b dA s).fixed = s.fixed := by simp [applyShift]
@[simp] theorem takeShift_fixed (s x) : (takeShift s x).fixed = s.fixed := by simp [takeShift]
@[simp] theorem settleShifts_fixed (s) : (settleShifts s).fixed = s.fixed := by simp [settleShifts]
@[simp] theorem syncWord_fixed (b s p) : (syncWord b s p).fixed = s.fixed := by
  unfold syncWord
  split <;> simp
@[simp] theorem execNozzlePlan_fixes (bar t s) : Fixes s (execNozzlePlan bar t s) := by simp [execNozzlePlan]
@[simp] theorem takeFinding_fixed (b sl row j hp s) : (takeFinding b sl row j hp s).fixed = s.fixed := by simp [takeFinding]
@[simp] theorem maskBody_fixed (bar slot row op first count cap s) : (maskBody bar slot row op first count cap s).1.fixed = s.fixed := by
  simp [maskBody]
@[simp] theorem execNozzleMask_fixes (h bar slot row op first count cap s) :
    Fixes s (execNozzleMask h bar slot row op first count cap s) := by simp [execNozzleMask]
@[simp] theorem markRestore_fixed (b sl s) : (markRestore b sl s).fixed = s.fixed := by
  unfold markRestore
  split <;> simp
@[simp] theorem restoreStart_fixed (h bar slot orphan s) : (restoreStart h bar slot orphan s).1.fixed = s.fixed := by simp [restoreStart]
@[simp] theorem execRestoreSlot_fixes (h bar slot s) : Fixes s (execRestoreSlot h bar slot s) := by simp [execRestoreSlot]
@[simp] theorem restoreTelem_fixed (b sl hot s) : (restoreTelem b sl hot s).fixed = s.fixed := by
  unfold restoreTelem
  split <;> simp
@[simp] theorem tabsAck_fixed (b sl status s) : (tabsAck b sl status s).fixed = s.fixed := by
  simp only [tabsAck]
  (repeat' split) <;> simp
@[simp] theorem execTelemNowTimeout_fixes (bar slot t s) : Fixes s (execTelemNowTimeout bar slot t s) := by
  simp only [execTelemNowTimeout]
  (repeat' split) <;> simp
@[simp] theorem decideSlot_fixed (b s sl) : (decideSlot b s sl).fixed = s.fixed := by
  unfold decideSlot
  split <;> simp
@[simp] theorem decideWithdrawals_fixed (s) : (decideWithdrawals s).fixed = s.fixed := by simp [decideWithdrawals]
@[simp] theorem withSurvey_fixed (s : State) (o) : (s.withSurvey o).fixed = s.fixed := by simp [State.withSurvey]
@[simp] theorem surveyBegin_fixed (h mask rows slotMask tmax s) : (surveyBegin h mask rows slotMask tmax s).fixed = s.fixed := by
  simp [surveyBegin]
@[simp] theorem execNozzleSurvey_fixes (h barMask rows slotMask tmax s) : Fixes s (execNozzleSurvey h barMask rows slotMask tmax s) := by
  simp [execNozzleSurvey]
@[simp] theorem surveyClose_fixed (o a s) : (surveyClose o a s).fixed = s.fixed := by simp [surveyClose]
@[simp] theorem surveyTelem_fixed (b sl temp s) : (surveyTelem b sl temp s).fixed = s.fixed := by
  unfold surveyTelem
  split <;> simp
@[simp] theorem surveyDiscard_fixed (b sl s) : (surveyDiscard b sl s).fixed = s.fixed := by
  unfold surveyDiscard
  split <;> simp
@[simp] theorem execSurveySlotTimeout_fixes (bar slot t s) : Fixes s (execSurveySlotTimeout bar slot t s) := by
  simp only [execSurveySlotTimeout]
  (repeat' split) <;> simp
@[simp] theorem execSurvey_fixes (u nozzle row res s) : Fixes s (execSurvey u nozzle row res s) := by
  simp only [execSurvey]
  (repeat' split) <;> simp
@[simp] theorem surveyAck_fixed (b sl status s) : (surveyAck b sl status s).fixed = s.fixed := by
  unfold surveyAck
  split <;> simp
@[simp] theorem storeResult_fixed (b sl m s r) : (storeResult b sl m s r).fixed = s.fixed := by
  simp only [storeResult]
  (repeat' split) <;> simp
@[simp] theorem surveyStore_fixed (o s) : (surveyStore o s).1.fixed = s.fixed := by simp [surveyStore]
@[simp] theorem execNozzleSurveyDone_fixes (o s) : Fixes s (execNozzleSurveyDone o s) := by
  refine (fixes_next _ _).mpr (withOp_fixed _ _ (fun s => ?_) _)
  (repeat' split) <;> simp

@[simp] theorem surveyAbort_fixed (v s) : (surveyAbort v s).fixed = s.fixed := by
  simp only [surveyAbort, surveyClose_fixed, surveyStore_fixed]
  refine foldl_fixed _ (fun s k => ?_) _ s
  (repeat' split) <;> simp

@[simp] theorem balanceZone_fixed (b s sl) : (balanceZone b s sl).fixed = s.fixed := by simp [balanceZone]
@[simp] theorem balanceNozzle_fixed (b s p) : (balanceNozzle b s p).fixed = s.fixed := by simp [balanceNozzle]
@[simp] theorem balanceBar_fixed (s b) : (balanceBar s b).fixed = s.fixed := by simp [balanceBar]
@[simp] theorem execWearHarvest_fixes (t s) : Fixes s (execWearHarvest t s) := by simp [execWearHarvest]

/-! ## Calibration -/

@[simp] theorem withTarget_fixed (s : State) (c x) : (s.withTarget c x).fixed = s.fixed := by simp [State.withTarget]
@[simp] theorem withLoop_fixed (s : State) (g x) : (s.withLoop g x).fixed = s.fixed := by simp [State.withLoop]
@[simp] theorem withSensor_fixed (s : State) (i x) : (s.withSensor i x).fixed = s.fixed := by simp [State.withSensor]
@[simp] theorem failTriggered_fixed (c x s) : (failTriggered c x s).fixed = s.fixed := by simp [failTriggered]

@[simp] theorem endTarget_fixed (c out m2 s) : (endTarget c out m2 s).fixed = s.fixed := by
  unfold endTarget
  extract_lets _ _ _ _ _ _ _ ended traced told
  have hended : ended.fixed = s.fixed := by simp [ended]
  have htold : told.fixed = s.fixed := by simp [told, traced, hended]
  clear_value told
  split
  · split <;> simp [htold]
  · exact htold

@[simp] theorem startGen_fixed (g lane pattern s) : (startGen g lane pattern s).fixed = s.fixed := by simp [startGen]
@[simp] theorem stopGen_fixed (g lane s) : (stopGen g lane s).fixed = s.fixed := by simp [stopGen]
@[simp] theorem sendEnter_fixed (g x s) : (sendEnter g x s).fixed = s.fixed := by simp [sendEnter]
@[simp] theorem sendExit_fixed (g x s) : (sendExit g x s).fixed = s.fixed := by simp [sendExit]
@[simp] theorem abortLoop_fixed (g s) : (abortLoop g s).fixed = s.fixed := by
  simp only [abortLoop]
  (repeat' split) <;> simp
@[simp] theorem confirmLoop_fixed (g x s) : (confirmLoop g x s).fixed = s.fixed := by
  unfold confirmLoop
  split <;> simp
@[simp] theorem returnLane_fixed (g x s) : (returnLane g x s).fixed = s.fixed := by simp [returnLane]
@[simp] theorem beginTarget_fixed (c s) : (beginTarget c s).fixed = s.fixed := by
  unfold beginTarget
  (repeat' split) <;> simp
@[simp] theorem beginWanted_fixed (s) : (beginWanted s).fixed = s.fixed := by simp [beginWanted]
@[simp] theorem measured_fixed (c m span none_ s) : (measured c m span none_ s).fixed = s.fixed := by
  simp only [measured]
  (repeat' split) <;> simp
@[simp] theorem measureStep_fixed (c value stateOk s) : (measureStep c value stateOk s).fixed = s.fixed := by
  simp only [measureStep]
  (repeat' split) <;> simp

/-! ## RUN_ARM, COMMIT and loads -/

@[simp] theorem sendSlotLoad_fixed (classes s p) : (sendSlotLoad classes s p).fixed = s.fixed := by simp [sendSlotLoad]
@[simp] theorem beginLoads_fixed (ring tag opcode classes loads woken s) :
    (beginLoads ring tag opcode classes loads woken s).fixed = s.fixed := by simp [beginLoads]
@[simp] theorem endLoads_fixed (s : State) : s.endLoads.fixed = s.fixed := by simp [State.endLoads]
@[simp] theorem leaveL0_fixed (g s) : (leaveL0 g s).fixed = s.fixed := by
  simp only [leaveL0]
  (repeat' split) <;> simp
@[simp] theorem restGroups_fixed (s) : (restGroups s).fixed = s.fixed := by simp [restGroups]

@[simp] theorem commitIdle_fixed (h c classes mask orphan s) : (commitIdle h c classes mask orphan s).1.fixed = s.fixed := by
  simp only [commitIdle]
  split
  next heq => exact contentCheck_fixed heq s
  next => (repeat' split) <;> simp

@[simp] theorem commitRun_fixed (classes mask boundary s) : (commitRun classes mask boundary s).1.fixed = s.fixed := by
  simp only [commitRun]
  split
  · simp
  · split
    · simp
    · split
      next heq => exact contentCheck_fixed heq s
      next => simp

@[simp] theorem commitBody_fixed (h c classes mask boundary orphan s) :
    (commitBody h c classes mask boundary orphan s).1.fixed = s.fixed := by simp [commitBody]
@[simp] theorem releaseBody_fixed (mask boundary s) : (releaseBody mask boundary s).1.fixed = s.fixed := by
  unfold releaseBody
  (repeat' split) <;> simp
@[simp] theorem execCommit_fixes (h classes barMask boundary s) : Fixes s (execCommit h classes barMask boundary s) := by simp [execCommit]
@[simp] theorem execGateRelease_fixes (h barMask boundary s) : Fixes s (execGateRelease h barMask boundary s) := by simp [execGateRelease]
@[simp] theorem commitLoaded_fixed (s) : (commitLoaded s).fixed = s.fixed := by
  unfold commitLoaded
  (repeat' split) <;> simp
@[simp] theorem commitTimeout_fixed (o b sl s) : (commitTimeout o b sl s).fixed = s.fixed := by
  unfold commitTimeout
  (repeat' split) <;> simp
@[simp] theorem clearCuts_fixed (b s sl) : (clearCuts b s sl).fixed = s.fixed := by simp [clearCuts]
@[simp] theorem clearOther_fixed (s b) : (clearOther s b).fixed = s.fixed := by simp [clearOther]
@[simp] theorem armLoads_fixed (ring tag opcode s) : (armLoads ring tag opcode s).fixed = s.fixed := by simp [armLoads]
@[simp] theorem resumeLoads_fixed (s) : (resumeLoads s).fixed = s.fixed := by
  unfold resumeLoads
  split <;> simp
@[simp] theorem armBegin_fixed (h job seq policy first lead s) : (armBegin h job seq policy first lead s).fixed = s.fixed := by
  unfold armBegin
  split <;> simp
@[simp] theorem execRunArm_fixes (h jobId seqEntry policy firstPage fenceLead s) :
    Fixes s (execRunArm h jobId seqEntry policy firstPage fenceLead s) := by simp [execRunArm]
@[simp] theorem armWithdrawal_fixed (b s sl) : (armWithdrawal b s sl).fixed = s.fixed := by
  simp only [armWithdrawal]
  (repeat' split) <;> simp
@[simp] theorem armBar_fixed (s b) : (armBar s b).fixed = s.fixed := by simp [armBar]
@[simp] theorem armAny_fixed (s b) : (armAny s b).fixed = s.fixed := by simp [armAny]
@[simp] theorem finishCopies_fixed (s) : (finishCopies s).fixed = s.fixed := by simp [finishCopies]
@[simp] theorem writePolicy_fixed (policy lead s) : (writePolicy policy lead s).fixed = s.fixed := by simp [writePolicy]
@[simp] theorem armEnter_fixed (s) : (armEnter s).fixed = s.fixed := by simp [armEnter]
@[simp] theorem execRunArmDone_fixes (o s) : Fixes s (execRunArmDone o s) := by
  refine (fixes_next _ _).mpr (withOp_fixed _ _ (fun s => ?_) _)
  (repeat' split) <;> simp
@[simp] theorem endRejoin_fixed (a s) : (endRejoin a s).fixed = s.fixed := by
  unfold endRejoin
  split <;> simp
@[simp] theorem armAbandon_fixed (l s) : (armAbandon l s).fixed = s.fixed := by simp [armAbandon]

/-! ## Schedule commands -/

@[simp] theorem withSchedOp_fixed (s : State) (o) : (s.withSchedOp o).fixed = s.fixed := by simp [State.withSchedOp]
@[simp] theorem loadBegin_fixed (h addr length s) : (loadBegin h addr length s).fixed = s.fixed := by simp [loadBegin]
@[simp] theorem execSchedLoad_fixes (h addr length s) : Fixes s (execSchedLoad h addr length s) := by simp [execSchedLoad]
@[simp] theorem loadFinish_fixed (o s) : (loadFinish o s).fixed = s.fixed := by
  simp only [loadFinish]
  (repeat' split) <;> simp
@[simp] theorem execSchedLoadDone_fixes (o s) : Fixes s (execSchedLoadDone o s) := by
  refine (fixes_next _ _).mpr (withOp_fixed _ _ (fun s => ?_) _)
  (repeat' split) <;> simp
@[simp] theorem checkBegin_fixed (h flags s) : (checkBegin h flags s).fixed = s.fixed := by
  unfold checkBegin
  (repeat' split) <;> simp
@[simp] theorem execSchedCheck_fixes (h flags s) : Fixes s (execSchedCheck h flags s) := by simp [execSchedCheck]
@[simp] theorem checkFinish_fixed (o s) : (checkFinish o s).fixed = s.fixed := by
  simp only [checkFinish]
  (repeat' split) <;> simp
@[simp] theorem execSchedCheckDone_fixes (o s) : Fixes s (execSchedCheckDone o s) := by
  refine (fixes_next _ _).mpr (withOp_fixed _ _ (fun s => ?_) _)
  (repeat' split) <;> simp
@[simp] theorem sendActivateLoad_fixed (s p) : (sendActivateLoad s p).fixed = s.fixed := by simp [sendActivateLoad]
@[simp] theorem swapBanks_fixed (s : State) : s.swapBanks.fixed = s.fixed := by simp [State.swapBanks]
@[simp] theorem activateNow_fixed (job first boundary s) : (activateNow job first boundary s).1.fixed = s.fixed := by
  unfold activateNow
  (repeat' split) <;> simp
@[simp] theorem activateStart_fixed (h job first boundary orphan s) : (activateStart h job first boundary orphan s).1.fixed = s.fixed := by
  unfold activateStart
  (repeat' split) <;> simp
@[simp] theorem execSchedActivate_fixes (h jobId first boundary s) : Fixes s (execSchedActivate h jobId first boundary s) := by
  simp [execSchedActivate]
@[simp] theorem prepareBar_fixed (s b) : (prepareBar s b).fixed = s.fixed := by simp [prepareBar]
@[simp] theorem activateLoaded_fixed (s) : (activateLoaded s).fixed = s.fixed := by
  unfold activateLoaded
  (repeat' split) <;> simp
@[simp] theorem activateTimeout_fixed (o b sl s) : (activateTimeout o b sl s).fixed = s.fixed := by
  unfold activateTimeout
  split <;> simp

/-! ## Motion and registration marks -/

@[simp] theorem reframe_fixed (s : State) : s.reframe.fixed = s.fixed := by simp [State.reframe]
@[simp] theorem setPeriod_fixed (p s) : (setPeriod p s).fixed = s.fixed := by simp [setPeriod]
@[simp] theorem withTout_fixed (s : State) (k x) : (s.withTout k x).fixed = s.fixed := by simp [State.withTout]
@[simp] theorem boundPulse_fixed (j pos s k) : (boundPulse j pos s k).fixed = s.fixed := by simp [boundPulse]
@[simp] theorem produce_fixed (kind comparator w s) : (produce kind comparator w s).fixed = s.fixed := by simp [produce]
@[simp] theorem discardPulses_fixed (s) : (discardPulses s).fixed = s.fixed := by simp [discardPulses]
@[simp] theorem installTout_fixed (k p s) : (installTout k p s).fixed = s.fixed := by simp [installTout]
@[simp] theorem toutBody_fixed (output mode flags source width startSec startNs period s) :
    (toutBody output mode flags source width startSec startNs period s).1.fixed = s.fixed := by simp [toutBody]
@[simp] theorem execToutProgram_fixes (h output mode flags source width startSec startNs period s) :
    Fixes s (execToutProgram h output mode flags source width startSec startNs period s) := by simp [execToutProgram]
@[simp] theorem pulse_fixed (k x s) : (pulse k x s).fixed = s.fixed := by simp [pulse]
@[simp] theorem execToutPulse_fixes (output t s) : Fixes s (execToutPulse output t s) := by
  simp only [execToutPulse]
  (repeat' split) <;> simp
@[simp] theorem execToutPulseEnd_fixes (output t s) : Fixes s (execToutPulseEnd output t s) := by
  simp only [execToutPulseEnd]
  (repeat' split) <;> simp
@[simp] theorem execLineMatch_fixes (comparator s) : Fixes s (execLineMatch comparator s) := by simp [execLineMatch]
@[simp] theorem withEncoder_fixed (s : State) (e x) : (s.withEncoder e x).fixed = s.fixed := by simp [State.withEncoder]
@[simp] theorem encoderLevels_fixed (enc a b stamp s) : (encoderLevels enc a b stamp s).fixed = s.fixed := by simp [encoderLevels]
@[simp] theorem execEncoderIndex_fixes (enc held t s) : Fixes s (execEncoderIndex enc held t s) := by simp [execEncoderIndex]
@[simp] theorem windowSpeed_fixed (s) : (windowSpeed s).1.fixed = s.fixed := by
  simp only [windowSpeed]
  (repeat' split) <;> simp
@[simp] theorem issueUpdate_fixed (p s) : (issueUpdate p s).fixed = s.fixed := by simp [issueUpdate]
@[simp] theorem endWindow_fixed (s) : (endWindow s).fixed = s.fixed := by
  simp only [endWindow]
  (repeat' split) <;> simp

@[simp] theorem endWindows_fixed (t n : Nat) (s : State) : (endWindows t n s).fixed = s.fixed := by
  induction n generalizing s with
  | zero => rfl
  | succ n ih =>
    rw [endWindows]
    split <;> simp [ih]

@[simp] theorem execSpeedWindowEnd_fixes (t s) : Fixes s (execSpeedWindowEnd t s) := by simp [execSpeedWindowEnd]
@[simp] theorem execEncoderCount_fixes (enc a b held t s) : Fixes s (execEncoderCount enc a b held t s) := by simp [execEncoderCount]
@[simp] theorem applyUpdates_fixed (s) : (applyUpdates s).fixed = s.fixed := by
  unfold applyUpdates
  split <;> simp
@[simp] theorem execPeriodUpdateEffective_fixes (s) : Fixes s (execPeriodUpdateEffective s) := by simp [execPeriodUpdateEffective]
@[simp] theorem markDefect_fixed (start s) : (markDefect start s).fixed = s.fixed := by simp [markDefect]
@[simp] theorem noteMarked_fixed (s : State) (start) : (s.noteMarked start).fixed = s.fixed := by simp [State.noteMarked]
@[simp] theorem registerEdge_fixed (wm s) : (registerEdge wm s).fixed = s.fixed := by
  unfold registerEdge
  split <;> simp
@[simp] theorem startAtMark_fixed (input tm s) : (startAtMark input tm s).fixed = s.fixed := by simp [startAtMark]
@[simp] theorem takeMark_fixed (input level wm s) : (takeMark input level wm s).fixed = s.fixed := by simp [takeMark]
@[simp] theorem execMarkEdge_fixes (input level held t s) : Fixes s (execMarkEdge input level held t s) := by
  simp only [execMarkEdge]
  (repeat' split) <;> simp
@[simp] theorem execMarkMissing_fixes (start s) : Fixes s (execMarkMissing start s) := by
  unfold execMarkMissing
  split <;> simp

/-! ## Snapshots -/

@[simp] theorem takeSnapshot_fixed (first count dest atTick s) : (takeSnapshot first count dest atTick s).1.fixed = s.fixed := by
  simp [takeSnapshot]
@[simp] theorem snapshotBody_fixed (h c first count mode dest orphan s) :
    (snapshotBody h c first count mode dest orphan s).1.fixed = s.fixed := by simp [snapshotBody]
@[simp] theorem execCounterSnapshot_fixes (h first count mode dest s) : Fixes s (execCounterSnapshot h first count mode dest s) := by
  simp [execCounterSnapshot]
@[simp] theorem endSnapshot_fixed (atTick s w) : (endSnapshot atTick s w).fixed = s.fixed := by
  unfold endSnapshot
  split <;> simp
@[simp] theorem endSnapshots_fixed (atTick s) : (endSnapshots atTick s).fixed = s.fixed := by simp [endSnapshots]

/-! ## RUN_STOP, drain and fault -/

@[simp] theorem truncatePages_fixed (s) : (truncatePages s).fixed = s.fixed := by simp [truncatePages]
@[simp] theorem settleCommit_fixed (s c) : (settleCommit s c).fixed = s.fixed := by simp [settleCommit]
@[simp] theorem settleTables_fixed (s) : (settleTables s).fixed = s.fixed := by simp [settleTables]
@[simp] theorem stopClock_fixed (s) : (stopClock s).fixed = s.fixed := by simp [stopClock]
@[simp] theorem restKeep_fixed (s) : (restKeep s).fixed = s.fixed := by simp [restKeep]
@[simp] theorem enterIdle_fixed (s) : (enterIdle s).fixed = s.fixed := by simp [enterIdle]
@[simp] theorem endDrain_fixed (s) : (endDrain s).fixed = s.fixed := by simp [endDrain]
@[simp] theorem drainCheck_fixed (s) : (drainCheck s).fixed = s.fixed := by simp [drainCheck]
@[simp] theorem unplace_fixed (b s) : (unplace b s).fixed = s.fixed := by
  unfold unplace
  split <;> simp
@[simp] theorem stopAtBoundary_fixed (b s) : (stopAtBoundary b s).fixed = s.fixed := by
  simp only [stopAtBoundary]
  (repeat' split) <;> simp
@[simp] theorem stopNow_fixed (s) : (stopNow s).fixed = s.fixed := by
  simp only [stopNow]
  (repeat' split) <;> simp
@[simp] theorem stopBody_fixed (mode boundary s) : (stopBody mode boundary s).1.fixed = s.fixed := by simp [stopBody]
@[simp] theorem execRunStop_fixes (h mode boundary s) : Fixes s (execRunStop h mode boundary s) := by simp [execRunStop]
@[simp] theorem execLineClockStopNow_fixes (s) : Fixes s (execLineClockStopNow s) := by
  unfold execLineClockStopNow
  split <;> simp
@[simp] theorem blankBars_fixed (s) : (blankBars s).fixed = s.fixed := by simp [blankBars]
@[simp] theorem stopRequest_fixed (s) : (stopRequest s).fixed = s.fixed := by simp [stopRequest]

/-! ## The image store -/

@[simp] theorem mirrorMaps_fixed (s) : (mirrorMaps s).fixed = s.fixed := by simp [mirrorMaps]
@[simp] theorem allocFrames_fixed (bank bar layer context count dest s) :
    (allocFrames bank bar layer context count dest s).1.fixed = s.fixed := by
  unfold allocFrames
  (repeat' split) <;> simp

@[simp] theorem allocArea_fixed (count s) : (allocArea count s).1.fixed = s.fixed := by
  fun_cases allocArea count s
  · rfl
  · rfl
  · exact mirrorMaps_fixed _

@[simp] theorem allocBody_fixed (kind bank bar layer context count dest s) :
    (allocBody kind bank bar layer context count dest s).1.fixed = s.fixed := by simp [allocBody]
@[simp] theorem execStoreAlloc_fixes (h kind bank bar layer context count dest s) :
    Fixes s (execStoreAlloc h kind bank bar layer context count dest s) := by simp [execStoreAlloc]
@[simp] theorem frameWrite_fixed (h o bs s) : (frameWrite h o bs s).fixed = s.fixed := by simp [frameWrite]
@[simp] theorem placeTile_fixed (h layer bytes s) : (placeTile h layer bytes s).fixed = s.fixed := by simp [placeTile]
@[simp] theorem writeBody_fixed (target flags handle source length offset s) :
    (writeBody target flags handle source length offset s).1.fixed = s.fixed := by
  simp only [writeBody]
  (repeat' split) <;> simp
@[simp] theorem execStoreWrite_fixes (h target flags handle source length offset s) :
    Fixes s (execStoreWrite h target flags handle source length offset s) := by simp [execStoreWrite]
@[simp] theorem freeBody_fixed (kind handle s) : (freeBody kind handle s).1.fixed = s.fixed := by
  unfold freeBody
  (repeat' split) <;> simp
@[simp] theorem execStoreFree_fixes (h kind handle s) : Fixes s (execStoreFree h kind handle s) := by simp [execStoreFree]
@[simp] theorem mirrorReady_fixed (s) : (mirrorReady s).fixed = s.fixed := by simp [mirrorReady]
@[simp] theorem readyBody_fixed (job first count descriptor s) : (readyBody job first count descriptor s).1.fixed = s.fixed := by
  simp only [readyBody]
  (repeat' split) <;> simp
@[simp] theorem execPageReady_fixes (h jobId first count descriptor s) : Fixes s (execPageReady h jobId first count descriptor s) := by
  simp [execPageReady]
@[simp] theorem pruneReady_fixed (s) : (pruneReady s).fixed = s.fixed := by simp [pruneReady]

/-! ## The feed of colour keeping -/

@[simp] theorem updOpen_fixed (page block f s) : (updOpen page block f s).fixed = s.fixed := by simp [updOpen]
@[simp] theorem feedUnit_fixed (b page line unit sum ramp s) : (feedUnit b page line unit sum ramp s).fixed = s.fixed := by simp [feedUnit]
@[simp] theorem disturbBlock_fixed (b page block zones s) : (disturbBlock b page block zones s).fixed = s.fixed := by
  unfold disturbBlock
  split <;> simp
@[simp] theorem disturbLine_fixed (b sl page line s) : (disturbLine b sl page line s).fixed = s.fixed := by simp [disturbLine]
@[simp] theorem disturbTicks_fixed (b sl lo hi s) : (disturbTicks b sl lo hi s).fixed = s.fixed := by simp [disturbTicks]
@[simp] theorem writeSlotBytes_fixed (slot bs s) : (writeSlotBytes slot bs s).fixed = s.fixed := by simp [writeSlotBytes]
@[simp] theorem writeFeed_fixed (p o s) : (writeFeed p o s).fixed = s.fixed := by simp [writeFeed]
@[simp] theorem feedLineDone_fixed (b page line s) : (feedLineDone b page line s).fixed = s.fixed := by
  simp only [feedLineDone]
  (repeat' split) <;> simp
@[simp] theorem clearFeed_fixed (s) : (clearFeed s).fixed = s.fixed := by simp [clearFeed]

/-! ## Runs and their ticks -/

@[simp] theorem pEncField_fixed (s) : (pEncField s).2.fixed = s.fixed := by
  unfold pEncField
  split <;> simp
@[simp] theorem saveRecord_fixed (p tick period s) : (saveRecord p tick period s).fixed = s.fixed := by simp [saveRecord]
@[simp] theorem sendProg_fixed (w s g) : (sendProg w s g).fixed = s.fixed := by simp [sendProg]
@[simp] theorem sendMark_fixed (s g) : (sendMark s g).fixed = s.fixed := by
  simp only [sendMark]
  (repeat' split) <;> simp
@[simp] theorem sendMarks_fixed (s) : (sendMarks s).fixed = s.fixed := by simp [sendMarks]
@[simp] theorem sendFirstProgs_fixed (s) : (sendFirstProgs s).fixed = s.fixed := by simp [sendFirstProgs]
@[simp] theorem startBody_fixed (mode mark leadIn sec ns period s) : (startBody mode mark leadIn sec ns period s).1.fixed = s.fixed := by
  simp [startBody]
@[simp] theorem execRunStart_fixes (h mode mark leadIn sec ns period s) : Fixes s (execRunStart h mode mark leadIn sec ns period s) := by
  simp [execRunStart]
@[simp] theorem atBase_fixed (s : State) (t) : (s.atBase t).fixed = s.fixed := by simp [State.atBase]
@[simp] theorem restSlots_fixed (s) : (restSlots s).fixed = s.fixed := by simp [restSlots]
@[simp] theorem startIntervals_fixed (s) : (startIntervals s).fixed = s.fixed := by simp [startIntervals]
@[simp] theorem beginRun_fixed (n s) : (beginRun n s).fixed = s.fixed := by simp [beginRun]
@[simp] theorem execTRunTick_fixes (s) : Fixes s (execTRunTick s) := by simp [execTRunTick]
@[simp] theorem grow_fixed (x s) : (grow x s).fixed = s.fixed := by simp [grow]
@[simp] theorem addLength_fixed (s p) : (addLength s p).fixed = s.fixed := by simp [addLength]
@[simp] theorem applySpeedPolicy_fixed (s) : (applySpeedPolicy s).fixed = s.fixed := by
  simp only [applySpeedPolicy]
  (repeat' split) <;> simp
@[simp] theorem checkSpeed_fixed (s) : (checkSpeed s).fixed = s.fixed := by simp [checkSpeed]
@[simp] theorem framePeriod_fixed (s) : (framePeriod s).fixed = s.fixed := by
  simp only [framePeriod]
  (repeat' split) <;> simp
@[simp] theorem noteGated_fixed (p b sl t s) : (noteGated p b sl t s).fixed = s.fixed := by simp [noteGated]

@[simp] theorem gatePage_fixed (s p) : (gatePage s p).fixed = s.fixed := by
  unfold gatePage
  split
  · rfl
  · exact foldl_fixed _ (fun s b => foldl_fixed _ (fun s sl => foldl_fixed _ (fun s t => by simp) _ s) _ s) _ s

@[simp] theorem cleanPath_fixed (s) : (cleanPath s).fixed = s.fixed := by simp [cleanPath]
@[simp] theorem noteFrame_fixed (s) : (noteFrame s).fixed = s.fixed := by simp [noteFrame]
@[simp] theorem advance_fixed (s) : (advance s).fixed = s.fixed := by simp [advance]
@[simp] theorem execLineClockTick_fixes (pipe s) : Fixes s (execLineClockTick pipe s) := by simp [execLineClockTick]
@[simp] theorem fixPage_fixed (p s) : (fixPage p s).fixed = s.fixed := by simp [fixPage]
@[simp] theorem requestStop_fixed (b s) : (requestStop b s).fixed = s.fixed := by simp [requestStop]
@[simp] theorem runEnds_fixed (s) : (runEnds s).fixed = s.fixed := by
  simp only [runEnds]
  (repeat' split) <;> simp
@[simp] theorem missFence_fixed (p s) : (missFence p s).fixed = s.fixed := by
  simp only [missFence]
  (repeat' split) <;> simp
@[simp] theorem resolveFence_fixed (p errs s) : (resolveFence p errs s).fixed = s.fixed := by
  unfold resolveFence
  (repeat' split) <;> simp
@[simp] theorem execFence_fixes (start errs s) : Fixes s (execFence start errs s) := by
  unfold execFence
  split <;> simp
@[simp] theorem takeCommits_fixed (b s) : (takeCommits b s).fixed = s.fixed := by simp [takeCommits]
@[simp] theorem deferActivation_fixed (a b s) : (deferActivation a b s).fixed = s.fixed := by simp [deferActivation]
@[simp] theorem applyActivation_fixed (a b s) : (applyActivation a b s).fixed = s.fixed := by simp [applyActivation]
@[simp] theorem takeActivation_fixed (b s) : (takeActivation b s).fixed = s.fixed := by
  unfold takeActivation
  split <;> simp
@[simp] theorem pushRamp_fixed (start s b) : (pushRamp start s b).fixed = s.fixed := by simp [pushRamp]
@[simp] theorem holdRamp_fixed (boundary p s) : (holdRamp boundary p s).fixed = s.fixed := by simp [holdRamp]
@[simp] theorem execTableCopyDone_fixes (t s) : Fixes s (execTableCopyDone t s) := by
  simp only [execTableCopyDone]
  (repeat' split) <;> simp
@[simp] theorem placePage_fixed (p s) : (placePage p s).fixed = s.fixed := by simp [placePage]
@[simp] theorem withKeepBar_fixed (s : State) (b x) : (s.withKeepBar b x).fixed = s.fixed := by simp [State.withKeepBar]
@[simp] theorem keepStepBar_fixed (b s bar) : (keepStepBar b s bar).fixed = s.fixed := by simp [keepStepBar]
@[simp] theorem keepSteps_fixed (b s) : (keepSteps b s).fixed = s.fixed := by simp [keepSteps]
@[simp] theorem checkPlacement_fixed (p s) : (checkPlacement p s).fixed = s.fixed := by
  unfold checkPlacement
  split <;> simp
@[simp] theorem startShown_fixed (s) : (startShown s).fixed = s.fixed := by simp [startShown]
@[simp] theorem beginPage_fixed (s) : (beginPage s).fixed = s.fixed := by
  simp only [beginPage]
  (repeat' split) <;> simp
@[simp] theorem crossBoundary_fixed (s) : (crossBoundary s).fixed = s.fixed := by simp [crossBoundary]
@[simp] theorem execPageBoundary_fixes (s) : Fixes s (execPageBoundary s) := by simp [execPageBoundary]
@[simp] theorem execGapStart_fixes (start s) : Fixes s (execGapStart start s) := by
  unfold execGapStart
  split <;> simp
@[simp] theorem dropWithdrawn_fixed (s) : (dropWithdrawn s).fixed = s.fixed := by simp [dropWithdrawn]
@[simp] theorem afterDone_fixed (p s) : (afterDone p s).fixed = s.fixed := by simp [afterDone]
@[simp] theorem keepPageDone_fixed (p s) : (keepPageDone p s).fixed = s.fixed := by
  simp only [keepPageDone]
  (repeat' split) <;> simp
@[simp] theorem finishPage_fixed (p s) : (finishPage p s).fixed = s.fixed := by simp [finishPage]
@[simp] theorem execPageDone_fixes (start s) : Fixes s (execPageDone start s) := by
  unfold execPageDone
  split <;> simp

/-! ## Upstream blocks -/

@[simp] theorem countFlags_fixed (b sl tick flags s) : (countFlags b sl tick flags s).fixed = s.fixed := by simp [countFlags]
@[simp] theorem headWarn_fixed (b sl temp s) : (headWarn b sl temp s).fixed = s.fixed := by
  simp only [headWarn]
  (repeat' split) <;> simp
@[simp] theorem storeTelem_fixed (b sl t s) : (storeTelem b sl t s).fixed = s.fixed := by simp [storeTelem]
@[simp] theorem telemDisturb_fixed (b sl t s) : (telemDisturb b sl t s).fixed = s.fixed := by simp [telemDisturb]
@[simp] theorem takeTelem_fixed (b sl temp vsup flags seq s) : (takeTelem b sl temp vsup flags seq s).fixed = s.fixed := by simp [takeTelem]
@[simp] theorem execTelem_fixes (u temp vsup flags seq s) : Fixes s (execTelem u temp vsup flags seq s) := by simp [execTelem]
@[simp] theorem takeCut_fixed (b sl due isPartial s) : (takeCut b sl due isPartial s).fixed = s.fixed := by simp [takeCut]
@[simp] theorem execAlertTAbs_fixes (u due isPartial s) : Fixes s (execAlertTAbs u due isPartial s) := by simp [execAlertTAbs]
@[simp] theorem snapOn_fixed (s : State) (i) : (s.snapOn i).fixed = s.fixed := by simp [State.snapOn]
@[simp] theorem clearGather_fixed (b s sl) : (clearGather b s sl).fixed = s.fixed := by simp [clearGather]
@[simp] theorem emitBar_fixed (s b) : (emitBar s b).fixed = s.fixed := by simp [emitBar]
@[simp] theorem emitDevice_fixed (s) : (emitDevice s).fixed = s.fixed := by simp [emitDevice]
@[simp] theorem execPlumeSummary_fixes (s) : Fixes s (execPlumeSummary s) := by simp [execPlumeSummary]
@[simp] theorem execIdleDeviceSummary_fixes (t s) : Fixes s (execIdleDeviceSummary t s) := by simp [execIdleDeviceSummary]

/-! ## RUN_REJOIN -/

@[simp] theorem rejoinFail_fixed (a s) : (rejoinFail a s).fixed = s.fixed := by simp [rejoinFail]
@[simp] theorem restoreTable_fixed (m p s) : (restoreTable m p s).fixed = s.fixed := by simp [restoreTable]
@[simp] theorem restoreMirror_fixed (s p) : (restoreMirror s p).fixed = s.fixed := by
  unfold restoreMirror
  split <;> simp
@[simp] theorem restoreGains_fixed (s b) : (restoreGains s b).fixed = s.fixed := by simp [restoreGains]
@[simp] theorem rejoinLoad_fixed (o rec_ s) : (rejoinLoad o rec_ s).fixed = s.fixed := by
  unfold rejoinLoad
  split <;> simp
@[simp] theorem rejoinScanned_fixed (o rec_ x s) : (rejoinScanned o rec_ x s).fixed = s.fixed := by
  simp only [rejoinScanned]
  (repeat' split) <;> simp
@[simp] theorem rejoinAdvance_fixed (s) : (rejoinAdvance s).fixed = s.fixed := by
  unfold rejoinAdvance
  (repeat' split) <;> simp
@[simp] theorem rejoinScan_fixed (o s) : (rejoinScan o s).fixed = s.fixed := by simp [rejoinScan]
@[simp] theorem rejoinRecord_fixed (o r s) : (rejoinRecord o r s).fixed = s.fixed := by simp [rejoinRecord]
@[simp] theorem rejoinBegin_fixed (h source minPages record s) : (rejoinBegin h source minPages record s).fixed = s.fixed := by
  simp only [rejoinBegin]
  (repeat' split) <;> simp
@[simp] theorem execRunRejoin_fixes (h source minPages record s) : Fixes s (execRunRejoin h source minPages record s) := by
  simp [execRunRejoin]
@[simp] theorem execRejoinRecordTimeout_fixes (o s) : Fixes s (execRejoinRecordTimeout o s) := by
  refine (fixes_next _ _).mpr (withOp_fixed _ _ (fun s => ?_) _)
  (repeat' split) <;> simp

@[simp] theorem rejoinArm_fixed (o r p skipped at_ s) : (rejoinArm o r p skipped at_ s).fixed = s.fixed := by
  unfold rejoinArm
  extract_lets entered cleared _ running _ noted told
  have hcleared : cleared.fixed = s.fixed := (foldl_fixed _ (fun s b => by simp) _ entered).trans (by simp [entered])
  have htold : told.fixed = s.fixed := by rw [← hcleared]; simp [told, noted, running]
  split
  · exact htold
  · exact (report_fixed ..).trans htold

@[simp] theorem execRunRejoinArmed_fixes (o s) : Fixes s (execRunRejoinArmed o s) := by
  refine (fixes_next _ _).mpr (withOp_fixed _ _ (fun s => ?_) _)
  (repeat' split) <;> simp
@[simp] theorem resumeTrim_fixed (r s) : (resumeTrim r s).fixed = s.fixed := by simp [resumeTrim]
@[simp] theorem rejoinRun_fixed (o r b at_ s) : (rejoinRun o r b at_ s).fixed = s.fixed := by
  simp only [rejoinRun]
  (repeat' split) <;> simp
@[simp] theorem execRejoinBoundary_fixes (s) : Fixes s (execRejoinBoundary s) := by
  unfold execRejoinBoundary
  (repeat' split) <;> simp

/-! ## Fatal causes -/

@[simp] theorem fatal_fixed (s : State) (c) : (s.fatal c).fixed = s.fixed := by simp [State.fatal]

/-! ## The DRAM controller -/

@[simp] theorem traceWindow_fixed (kind mask first s) : (traceWindow kind mask first s).fixed = s.fixed := by simp [traceWindow]
@[simp] theorem serveWindow_fixed (record s) : (serveWindow record s).fixed = s.fixed := by simp [serveWindow]
@[simp] theorem refreshWindow_fixed (w s) : (refreshWindow w s).fixed = s.fixed := by simp [refreshWindow]
@[simp] theorem execGeyserWindow_fixes (record s) : Fixes s (execGeyserWindow record s) := by
  unfold execGeyserWindow
  split <;> simp
@[simp] theorem execIdleRefresh_fixes (subch rank t s) : Fixes s (execIdleRefresh subch rank t s) := by simp [execIdleRefresh]
@[simp] theorem readMr4_fixed (mr4 s x) : (readMr4 mr4 s x).fixed = s.fixed := by simp [readMr4]
@[simp] theorem moveTap_fixed (s x) : (moveTap s x).fixed = s.fixed := by simp [moveTap]
@[simp] theorem retrain_fixed (mr4 c s) : (retrain mr4 c s).fixed = s.fixed := by simp [retrain]
@[simp] theorem execRetrainWindow_fixes (record mr4 s) : Fixes s (execRetrainWindow record mr4 s) := by
  unfold execRetrainWindow
  split <;> simp
@[simp] theorem execIdleRetrain_fixes (channel mr4 t s) : Fixes s (execIdleRetrain channel mr4 t s) := by simp [execIdleRetrain]
@[simp] theorem writeBurst_fixed (addr data enables err s) : (writeBurst addr data enables err s).fixed = s.fixed := by simp [writeBurst]
@[simp] theorem withCam_fixed (s : State) (p x) : (s.withCam p x).fixed = s.fixed := by simp [State.withCam]
@[simp] theorem withFrame_fixed (port seq f s) : (withFrame port seq f s).fixed = s.fixed := by simp [withFrame]
@[simp] theorem frameFlag_fixed (port seq i s) : (frameFlag port seq i s).fixed = s.fixed := by simp [frameFlag]
@[simp] theorem dropLine_fixed (port s) : (dropLine port s).fixed = s.fixed := by
  simp only [dropLine]
  (repeat' split) <;> simp
@[simp] theorem loseFirmware_fixed (addr s) : (loseFirmware addr s).fixed = s.fixed := by
  unfold loseFirmware
  split <;> simp
@[simp] theorem unusable_fixed (cls addr s) : (unusable cls addr s).fixed = s.fixed := by
  unfold unusable
  split <;> simp
@[simp] theorem serveRequest_fixed (r s) : (serveRequest r s).fixed = s.fixed := by simp [serveRequest]
@[simp] theorem acceptRequest_fixed (r s) : (acceptRequest r s).fixed = s.fixed := by simp [acceptRequest]
@[simp] theorem execDynamicShareRequest_fixes (cls addr write data enables err t s) :
    Fixes s (execDynamicShareRequest cls addr write data enables err t s) := by simp [execDynamicShareRequest]
@[simp] theorem sleepChannel_fixed (sr c s) : (sleepChannel sr c s).fixed = s.fixed := by simp [sleepChannel]
@[simp] theorem execSrWindowEntry_fixes (gapStart index s) : Fixes s (execSrWindowEntry gapStart index s) := by
  unfold execSrWindowEntry
  split <;> simp
@[simp] theorem wakeChannel_fixed (c s) : (wakeChannel c s).fixed = s.fixed := by simp [wakeChannel]
@[simp] theorem execSrWindowExit_fixes (gapStart index s) : Fixes s (execSrWindowExit gapStart index s) := by
  unfold execSrWindowExit
  (repeat' split) <;> simp
@[simp] theorem execSrIdleEntry_fixes (channel t s) : Fixes s (execSrIdleEntry channel t s) := by simp [execSrIdleEntry]
@[simp] theorem reportScrub_fixed (h burst s) : (reportScrub h burst s).fixed = s.fixed := by
  unfold reportScrub
  split <;> simp
@[simp] theorem scrubbedUe_fixed (phys s) : (scrubbedUe phys s).fixed = s.fixed := by
  simp only [scrubbedUe]
  (repeat' split) <;> simp
@[simp] theorem scrubBurst_fixed (phys err superseded s) : (scrubBurst phys err superseded s).fixed = s.fixed := by
  unfold scrubBurst
  split <;> simp
@[simp] theorem fatalWord_fixed (word s) : (fatalWord word s).fixed = s.fixed := by simp [fatalWord]
@[simp] theorem scrubWord_fixed (word err superseded s) : (scrubWord word err superseded s).fixed = s.fixed := by
  unfold scrubWord
  split <;> simp
@[simp] theorem execScrubRead_fixes (memory addr err superseded t s) : Fixes s (execScrubRead memory addr err superseded t s) := by
  simp only [execScrubRead]
  (repeat' split) <;> simp
@[simp] theorem scrubBegin_fixed (h memory start length dest s) : (scrubBegin h memory start length dest s).fixed = s.fixed := by
  simp [scrubBegin]
@[simp] theorem execScrubRange_fixes (h memory start length dest s) : Fixes s (execScrubRange h memory start length dest s) := by
  simp [execScrubRange]

@[simp] theorem scrubAt_fixed (found superseded x i) : (scrubAt found superseded x i).1.fixed = x.1.fixed := by
  simp only [scrubAt]
  split <;> simp

@[simp] theorem scrubUpTo_fixed (o b found superseded s) : (scrubUpTo o b found superseded s).1.fixed = s.fixed := by
  simp only [scrubUpTo]
  rw [withDram_fixed, foldl_fst_fixed _ (fun x i => by simp)]
  split <;> simp

@[simp] theorem scrubEnd_fixed (o status s) : (scrubEnd o status s).fixed = s.fixed := by simp [scrubEnd]

@[simp] theorem execScrubRangeDone_fixes (o found superseded s) : Fixes s (execScrubRangeDone o found superseded s) := by
  refine (fixes_next _ _).mpr (withStep_fixed _ _ (fun x s => ?_) _)
  split
  · rfl
  · simp only [fixed_ite, scrubEnd_fixed, progressTo_fixed, scrubUpTo_fixed, ite_self]

@[simp] theorem scrubAbort_fixed (o s) : (scrubAbort o s).fixed = s.fixed := by simp [scrubAbort]
@[simp] theorem patrolBody_fixed (period s) : (patrolBody period s).1.fixed = s.fixed := by simp [patrolBody]
@[simp] theorem execScrubRangePatrol_fixes (h period s) : Fixes s (execScrubRangePatrol h period s) := by simp [execScrubRangePatrol]

/-! ## Boot and updates -/

@[simp] theorem execFatalError_fixes (cause t s) : Fixes s (execFatalError cause t s) := by simp [execFatalError]
@[simp] theorem resetBody_fixed (kind s) : (resetBody kind s).1.fixed = s.fixed := by simp [resetBody]
@[simp] theorem pcieDown_fixed (s) : (pcieDown s).fixed = s.fixed := by simp [pcieDown]
@[simp] theorem execClockLoss_fixes (pll t s) : Fixes s (execClockLoss pll t s) := by simp [execClockLoss]
@[simp] theorem execPerstN_fixes (t s) : Fixes s (execPerstN t s) := by simp [execPerstN]
@[simp] theorem execPcieHotReset_fixes (t s) : Fixes s (execPcieHotReset t s) := by simp [execPcieHotReset]
@[simp] theorem execPcieLinkUp_fixes (t s) : Fixes s (execPcieLinkUp t s) := by simp [execPcieLinkUp]
@[simp] theorem endDomainWait_fixed (s w) : (endDomainWait s w).fixed = s.fixed := by
  unfold endDomainWait
  split <;> simp
@[simp] theorem execPowerDomainReady_fixes (domain t s) : Fixes s (execPowerDomainReady domain t s) := by
  simp only [execPowerDomainReady]
  (repeat' split) <;> simp
@[simp] theorem flashWrite_fixed (a bs s) : (flashWrite a bs s).fixed = s.fixed := by simp [flashWrite]
@[simp] theorem enterMaint_fixed (reason status fw uc s) : (enterMaint reason status fw uc s).fixed = s.fixed := by simp [enterMaint]
@[simp] theorem reportExhausted_fixed (dram s) : (reportExhausted dram s).fixed = s.fixed := by simp [reportExhausted]
@[simp] theorem bootState_fixed (s) : (bootState s).fixed = s.fixed := by simp [bootState]
@[simp] theorem trainRead_fixed (s x) : (trainRead s x).fixed = s.fixed := by simp [trainRead]
@[simp] theorem trainDram_fixed (s) : (trainDram s).fixed = s.fixed := by simp [trainDram]
@[simp] theorem coldDram_fixed (cfg s) : (coldDram cfg s).fixed = s.fixed := by simp [coldDram]
@[simp] theorem checkFrame_fixed (errs s x) : (checkFrame errs s x).fixed = s.fixed := by
  simp only [checkFrame]
  (repeat' split) <;> simp
@[simp] theorem meetDescs_fixed (errs s) : (meetDescs errs s).fixed = s.fixed := by simp [meetDescs]
@[simp] theorem validateStore_fixed (errs s) : (validateStore errs s).fixed = s.fixed := by simp [validateStore]
@[simp] theorem warmDram_fixed (cfg errs s) : (warmDram cfg errs s).fixed = s.fixed := by simp [warmDram]
@[simp] theorem coldTarget_fixed (s c) : (coldTarget s c).fixed = s.fixed := by
  unfold coldTarget
  split <;> simp
@[simp] theorem bootLogs_fixed (s) : (bootLogs s).fixed = s.fixed := by
  simp only [bootLogs]
  (repeat' split) <;> simp
@[simp] theorem startUnits_fixed (p s) : (startUnits p s).fixed = s.fixed := by simp [startUnits]
@[simp] theorem bootFrom_fixed (r srEntered timing errs s) : (bootFrom r srEntered timing errs s).fixed = s.fixed := by
  simp only [bootFrom]
  (repeat' split) <;> simp
@[simp] theorem execBoot_fixes (t srEntered timing straps errs s) : Fixes s (execBoot t srEntered timing straps errs s) := by
  simp only [execBoot]
  (repeat' split) <;> simp
@[simp] theorem beginBody_fixed (target length s) : (beginBody target length s).1.fixed = s.fixed := by simp [beginBody]
@[simp] theorem execImageUpdateBegin_fixes (h target length s) : Fixes s (execImageUpdateBegin h target length s) := by
  simp [execImageUpdateBegin]
@[simp] theorem dataBegin_fixed (h offset length source s) : (dataBegin h offset length source s).fixed = s.fixed := by
  unfold dataBegin
  split <;> simp
@[simp] theorem execImageUpdateData_fixes (h offset length source s) : Fixes s (execImageUpdateData h offset length source s) := by
  simp [execImageUpdateData]
@[simp] theorem programData_fixed (u offset n source s) : (programData u offset n source s).fixed = s.fixed := by simp [programData]

@[simp] theorem execImageUpdateDataDone_fixes (o s) : Fixes s (execImageUpdateDataDone o s) := by
  refine (fixes_next _ _).mpr (withStep_fixed _ _ (fun x s => ?_) _)
  dsimp only
  split
  · split
    · rfl
    · split
      · simp
      · split <;> simp
  · rfl

@[simp] theorem dataAbort_fixed (s) : (dataAbort s).fixed = s.fixed := by
  simp only [dataAbort]
  (repeat' split) <;> simp
@[simp] theorem activateBegin_fixed (h s) : (activateBegin h s).fixed = s.fixed := by simp [activateBegin]
@[simp] theorem execImageUpdateCommitActivate_fixes (h s) : Fixes s (execImageUpdateCommitActivate h s) := by
  simp [execImageUpdateCommitActivate]
@[simp] theorem writeRecord_fixed (r s) : (writeRecord r s).fixed = s.fixed := by
  unfold writeRecord
  split <;> simp
@[simp] theorem activate_fixed (u s) : (activate u s).1.fixed = s.fixed := by simp [activate]

@[simp] theorem execImageUpdateCommitDone_fixes (o s) : Fixes s (execImageUpdateCommitDone o s) := by
  refine (fixes_next _ _).mpr (withOp_fixed _ _ (fun s => ?_) _)
  split
  · split <;> simp
  · rfl

@[simp] theorem execImageUpdateCommitConfirm_fixes (h s) : Fixes s (execImageUpdateCommitConfirm h s) := by
  simp [execImageUpdateCommitConfirm]
@[simp] theorem rollbackBody_fixed (h s) : (rollbackBody h s).fixed = s.fixed := by
  unfold rollbackBody
  split <;> simp
@[simp] theorem execImageUpdateCommitRollback_fixes (h s) : Fixes s (execImageUpdateCommitRollback h s) := by
  simp [execImageUpdateCommitRollback]

/-! ## The thermal unit -/

@[simp] theorem takeReading_fixed (i reading s) : (takeReading i reading s).fixed = s.fixed := by
  unfold takeReading
  split <;> simp
@[simp] theorem coolDown_fixed (s) : (coolDown s).fixed = s.fixed := by simp [coolDown]
@[simp] theorem execSensorEpisodeEnd_fixes (sensor t s) : Fixes s (execSensorEpisodeEnd sensor t s) := by
  simp only [execSensorEpisodeEnd]
  (repeat' split) <;> simp
@[simp] theorem execRemoteSensorConversion_fixes (input raw t s) : Fixes s (execRemoteSensorConversion input raw t s) := by
  simp [execRemoteSensorConversion]
@[simp] theorem warnLevel_fixed (s) : (warnLevel s).fixed = s.fixed := by simp [warnLevel]
@[simp] theorem throttleLevel_fixed (s) : (throttleLevel s).fixed = s.fixed := by simp [throttleLevel]
@[simp] theorem execTJEvaluation_fixes (t s) : Fixes s (execTJEvaluation t s) := by simp [execTJEvaluation]
@[simp] theorem calStatusBody_fixed (h addr s) : (calStatusBody h addr s).fixed = s.fixed := by simp [calStatusBody]
@[simp] theorem execCalRunStatus_fixes (h addr s) : Fixes s (execCalRunStatus h addr s) := by simp [execCalRunStatus]
@[simp] theorem excludeBody_fixed (input ackSeq s) : (excludeBody input ackSeq s).1.fixed = s.fixed := by simp [excludeBody]
@[simp] theorem execSensorExclude_fixes (h input ackSeq s) : Fixes s (execSensorExclude h input ackSeq s) := by simp [execSensorExclude]
@[simp] theorem includeBody_fixed (input s) : (includeBody input s).1.fixed = s.fixed := by simp [includeBody]
@[simp] theorem execSensorInclude_fixes (h input s) : Fixes s (execSensorInclude h input s) := by simp [execSensorInclude]

/-! ## Observation commands -/

@[simp] theorem execLogRecord_fixes (t s) : Fixes s (execLogRecord t s) := by simp [execLogRecord]
@[simp] theorem endFollowUp_fixed (r fields s) : (endFollowUp r fields s).fixed = s.fixed := by simp [endFollowUp]
@[simp] theorem execFollowUpEnd_fixes (t s) : Fixes s (execFollowUpEnd t s) := by
  simp only [execFollowUpEnd]
  (repeat' split) <;> simp
@[simp] theorem execFollowUpTimeout_fixes (t s) : Fixes s (execFollowUpTimeout t s) := by
  simp only [execFollowUpTimeout]
  (repeat' split) <;> simp
@[simp] theorem readBody_fixed (first count dest s) : (readBody first count dest s).1.fixed = s.fixed := by simp [readBody]
@[simp] theorem execLogReadRead_fixes (h first count dest s) : Fixes s (execLogReadRead h first count dest s) := by simp [execLogReadRead]
@[simp] theorem ackBody_fixed (first s) : (ackBody first s).1.fixed = s.fixed := by simp [ackBody]
@[simp] theorem execLogReadAck_fixes (h first s) : Fixes s (execLogReadAck h first s) := by simp [execLogReadAck]
@[simp] theorem execLogReadStatus_fixes (h s) : Fixes s (execLogReadStatus h s) := by simp [execLogReadStatus]
@[simp] theorem readFatalBody_fixed (first count dest s) : (readFatalBody first count dest s).1.fixed = s.fixed := by simp [readFatalBody]
@[simp] theorem execLogReadFatal_fixes (h first count dest s) : Fixes s (execLogReadFatal h first count dest s) := by
  simp [execLogReadFatal]
@[simp] theorem clearFirstBody_fixed (s) : (clearFirstBody s).1.fixed = s.fixed := by simp [clearFirstBody]
@[simp] theorem execClearFirst_fixes (h s) : Fixes s (execClearFirst h s) := by simp [execClearFirst]
@[simp] theorem traceStartBody_fixed (mode output barMask sources code post startPos s) :
    (traceStartBody mode output barMask sources code post startPos s).1.fixed = s.fixed := by simp [traceStartBody]
@[simp] theorem execTraceFilterStart_fixes (h mode output barMask sources triggerCode post startPos s) :
    Fixes s (execTraceFilterStart h mode output barMask sources triggerCode post startPos s) := by simp [execTraceFilterStart]
@[simp] theorem traceStop_fixed (s) : (traceStop s).fixed = s.fixed := by simp [traceStop]
@[simp] theorem execTraceFilterStop_fixes (h s) : Fixes s (execTraceFilterStop h s) := by simp [execTraceFilterStop]
@[simp] theorem execTraceStartPosition_fixes (s) : Fixes s (execTraceStartPosition s) := by simp [execTraceStartPosition]
@[simp] theorem execTraceTriggerStop_fixes (s) : Fixes s (execTraceTriggerStop s) := by simp [execTraceTriggerStop]

/-! ## Fetching and decoding cues -/

@[simp] theorem noteCue_fixed (bar page word s) : (noteCue bar page word s).fixed = s.fixed := by simp [noteCue]

@[simp] theorem playCue_fixed (kind bar page : Nat) (cue : Word64) (errs : List (Nat × ReadErr)) {act : PagePos → Cue → Nat → State → State}
    (hact : ∀ p c n s, (act p c n s).fixed = s.fixed) (s : State) : (playCue kind bar page cue errs act s).fixed = s.fixed := by
  simp only [playCue]
  (repeat' split) <;> simp [hact]

@[simp] theorem execEndCue_fixes (bar page s) : Fixes s (execEndCue bar page s) := by
  unfold execEndCue
  split <;> simp
@[simp] theorem withContext_fixed (s : State) (bar layer c x) : (s.withContext bar layer c x).fixed = s.fixed := by simp [State.withContext]
@[simp] theorem fetchBurst_fixed (p bar row g h q burst s) : (fetchBurst p bar row g h q burst s).fixed = s.fixed := by simp [fetchBurst]
@[simp] theorem runRun_fixed (bar p q line s) : (runRun bar p q line s).fixed = s.fixed := by
  simp only [runRun]
  (repeat' split) <;> simp
@[simp] theorem execRunCue_fixes (bar page cue errs s) : Fixes s (execRunCue bar page cue errs s) := by simp [execRunCue]
@[simp] theorem execReadDataReturn_fixes (bar layer context err s) : Fixes s (execReadDataReturn bar layer context err s) := by
  unfold execReadDataReturn
  split <;> simp
@[simp] theorem concealRow_fixed (p bar layer c row lead cause fresh s) :
    (concealRow p bar layer c row lead cause fresh s).fixed = s.fixed := by simp [concealRow]
@[simp] theorem crcFailed_fixed (p bar layer c row s) : (crcFailed p bar layer c row s).fixed = s.fixed := by simp [crcFailed]
@[simp] theorem decodeRow_fixed (bar layer p row lead s c) : (decodeRow bar layer p row lead s c).fixed = s.fixed := by
  simp only [decodeRow]
  (repeat' split) <;> simp
@[simp] theorem execDecodeCue_fixes (bar page cue errs s) : Fixes s (execDecodeCue bar page cue errs s) := by simp [execDecodeCue]

/-! ## TONE and SCREEN cues -/

@[simp] theorem withVals_fixed (s : State) (v) : (s.withVals v).fixed = s.fixed := by
  unfold State.withVals
  split <;> simp
@[simp] theorem toneUnit_fixed (bar p line above s unit) : (toneUnit bar p line above s unit).fixed = s.fixed := by simp [toneUnit]
@[simp] theorem runTone_fixed (bar p q line s) : (runTone bar p q line s).fixed = s.fixed := by simp [runTone]
@[simp] theorem execToneCue_fixes (bar page cue errs s) : Fixes s (execToneCue bar page cue errs s) := by simp [execToneCue]
@[simp] theorem runScreen_fixed (bar p q line s) : (runScreen bar p q line s).fixed = s.fixed := by simp [runScreen]
@[simp] theorem execScreenCue_fixes (bar page cue errs s) : Fixes s (execScreenCue bar page cue errs s) := by simp [execScreenCue]

/-! ## MAP cues -/

@[simp] theorem addWear_fixed (b sl row s x) : (addWear b sl row s x).fixed = s.fixed := by
  simp only [addWear]
  (repeat' split) <;> simp
@[simp] theorem wearLine_fixed (b sl start t byNozzle s) : (wearLine b sl start t byNozzle s).fixed = s.fixed := by simp [wearLine]
@[simp] theorem runMap_fixed (bar p q line s) : (runMap bar p q line s).fixed = s.fixed := by simp [runMap]
@[simp] theorem execMapCue_fixes (bar page cue errs s) : Fixes s (execMapCue bar page cue errs s) := by simp [execMapCue]

/-! ## SEND cues -/

@[simp] theorem beginLine_fixed (l s) : (beginLine l s).1.fixed = s.fixed := by simp [beginLine]
@[simp] theorem endLine_fixed (before l s) : (endLine before l s).fixed = s.fixed := by simp [endLine]
@[simp] theorem runSend_fixed (bar p q line s) : (runSend bar p q line s).fixed = s.fixed := by
  unfold runSend
  split <;> simp
@[simp] theorem execSendCue_fixes (bar page cue errs s) : Fixes s (execSendCue bar page cue errs s) := by simp [execSendCue]
@[simp] theorem runEnergy_fixed (bar p q line s) : (runEnergy bar p q line s).fixed = s.fixed := by simp [runEnergy]
@[simp] theorem execEnergyCue_fixes (bar page cue errs s) : Fixes s (execEnergyCue bar page cue errs s) := by simp [execEnergyCue]

/-! ## The codec -/

@[simp] theorem noteTile_fixed (port r s) : (noteTile port r s).fixed = s.fixed := by
  unfold noteTile
  split <;> simp
@[simp] theorem closeBuffer_fixed (p state s) : (closeBuffer p state s).fixed = s.fixed := by simp [closeBuffer]

@[simp] theorem chainPut_fixed {told : State → State} (htold : ∀ s, (told s).fixed = s.fixed) (n : Nat) (p : ChainPos) (bs : List Byte)
    (s : State) : (chainPut told n p bs s).1.fixed = s.fixed := by
  induction n generalizing p bs s with
  | zero => rfl
  | succ n ih =>
    simp only [chainPut]
    (repeat' split) <;> simp [ih, htold]

@[simp] theorem notifyLong_fixed (ring tag s) : (notifyLong ring tag s).fixed = s.fixed := by
  unfold notifyLong
  split <;> simp
@[simp] theorem noteTiles_fixed (o tiles s) : (noteTiles o tiles s).fixed = s.fixed := by simp [noteTiles]
@[simp] theorem compressTile_fixed (o r s) : (compressTile o r s).1.fixed = s.fixed := by
  simp only [compressTile]
  (repeat' split) <;> simp

@[simp] theorem compressTiles_fixed (o : CodecOp) (n : Nat) (r : CodeRun) (s : State) : (compressTiles o n r s).1.fixed = s.fixed := by
  induction n generalizing r s with
  | zero => rfl
  | succ n ih =>
    simp only [compressTiles]
    split <;> simp [ih]

@[simp] theorem giveEngines_fixed (n : Nat) (s : State) : (giveEngines n s).fixed = s.fixed := by
  induction n generalizing s with
  | zero => rfl
  | succ n ih =>
    rw [giveEngines]
    split <;> simp [ih]

@[simp] theorem dropCodec_fixed (o s) : (dropCodec o s).fixed = s.fixed := by simp [dropCodec]
@[simp] theorem closeFinal_fixed (o p s) : (closeFinal o p s).fixed = s.fixed := by simp [closeFinal]
@[simp] theorem compressEnd_fixed (o status s) : (compressEnd o status s).fixed = s.fixed := by simp [compressEnd]
@[simp] theorem compressSome_fixed (o n s) : (compressSome o n s).fixed = s.fixed := by simp [compressSome]
@[simp] theorem codecBegin_fixed (o s) : (codecBegin o s).fixed = s.fixed := by simp [codecBegin]
@[simp] theorem compressBegin_fixed (o s) : (compressBegin o s).fixed = s.fixed := by simp [compressBegin]
@[simp] theorem execCompress_fixes (h source stride tileCols tileRows format planes options coverCh firstTile chain s) :
    Fixes s (execCompress h source stride tileCols tileRows format planes options coverCh firstTile chain s) := by simp [execCompress]
@[simp] theorem execCompressDone_fixes (o s) : Fixes s (execCompressDone o s) := by
  refine (fixes_next _ _).mpr (withStep_fixed _ _ (fun l s => ?_) _)
  (repeat' split) <;> simp
@[simp] theorem codecAbort_fixed (o s) : (codecAbort o s).fixed = s.fixed := by simp [codecAbort]
@[simp] theorem testBegin_fixed (o s) : (testBegin o s).fixed = s.fixed := by simp [testBegin]
@[simp] theorem execDecompressTest_fixes (h kind layer source dest s) : Fixes s (execDecompressTest h kind layer source dest s) := by
  simp [execDecompressTest]
@[simp] theorem testEnd_fixed (o s) : (testEnd o s).fixed = s.fixed := by
  simp only [testEnd]
  (repeat' split) <;> simp
@[simp] theorem execDecompressTestDone_fixes (o s) : Fixes s (execDecompressTestDone o s) := by
  refine (fixes_next _ _).mpr (withOp_fixed _ _ (fun s => ?_) _)
  (repeat' split) <;> simp

/-! ## Cameras -/

@[simp] theorem cameraPower_fixed (s) : (cameraPower s).fixed = s.fixed := by simp [cameraPower]
@[simp] theorem camEnableBody_fixed (h port record orphan s) : (camEnableBody h port record orphan s).1.fixed = s.fixed := by
  simp only [camEnableBody]
  (repeat' split) <;> simp
@[simp] theorem execCamConfigEnable_fixes (h port record s) : Fixes s (execCamConfigEnable h port record s) := by simp [execCamConfigEnable]
@[simp] theorem camDisableBody_fixed (port s) : (camDisableBody port s).1.fixed = s.fixed := by simp [camDisableBody]
@[simp] theorem execCamConfigDisable_fixes (h port s) : Fixes s (execCamConfigDisable h port s) := by simp [execCamConfigDisable]
@[simp] theorem putRecord_fixed (port seq s r) : (putRecord port seq s r).fixed = s.fixed := by simp [putRecord]
@[simp] theorem putRow_fixed (port seq s r) : (putRow port seq s r).fixed = s.fixed := by simp [putRow]
@[simp] theorem visionLine_fixed (port c l px s) : (visionLine port c l px s).fixed = s.fixed := by
  unfold visionLine
  split <;> simp

@[simp] theorem endChain_fixed (n : Nat) (p : ChainPos) (s : State) : (endChain n p s).fixed = s.fixed := by
  induction n generalizing p s with
  | zero => exact closeBuffer_fixed ..
  | succ n ih =>
    rw [endChain]
    split <;> simp [ih]

@[simp] theorem codeTile_fixed (port chain s t) : (codeTile port chain s t).fixed = s.fixed := by
  simp only [codeTile]
  (repeat' split) <;> simp
@[simp] theorem codeFrame_fixed (port s j) : (codeFrame port s j).fixed = s.fixed := by
  refine foldl_fixed _ (fun s x => ?_) _ s
  simp
@[simp] theorem drainCode_fixed (port s) : (drainCode port s).fixed = s.fixed := by simp [drainCode]
@[simp] theorem shareStaging_fixed (port s) : (shareStaging port s).fixed = s.fixed := by simp [shareStaging]
@[simp] theorem execThrottleOff_fixes (t s) : Fixes s (execThrottleOff t s) := by
  simp only [execThrottleOff]
  (repeat' split) <;> simp
@[simp] theorem updCaptures_fixed (port f s) : (updCaptures port f s).fixed = s.fixed := by simp [updCaptures]
@[simp] theorem takeCapture_fixed (port c l px full s x) : (takeCapture port c l px full s x).fixed = s.fixed := by simp [takeCapture]
@[simp] theorem processLine_fixed (port c l s) : (processLine port c l s).fixed = s.fixed := by simp [processLine]
@[simp] theorem writeSlot_fixed (port c f s) : (writeSlot port c f s).fixed = s.fixed := by simp [writeSlot]
@[simp] theorem dropPart_fixed (port s) : (dropPart port s).fixed = s.fixed := by
  simp only [dropPart]
  (repeat' split) <;> simp
@[simp] theorem finishFrame_fixed (port f s) : (finishFrame port f s).fixed = s.fixed := by simp [finishFrame]

@[simp] theorem finishFrames_fixed (port n : Nat) (s : State) : (finishFrames port n s).fixed = s.fixed := by
  induction n generalizing s with
  | zero => rfl
  | succ n ih =>
    rw [finishFrames]
    (repeat' split) <;> simp [ih]

@[simp] theorem settleFrames_fixed (port s) : (settleFrames port s).fixed = s.fixed := by simp [settleFrames]
@[simp] theorem takeLine_fixed (port s) : (takeLine port s).fixed = s.fixed := by
  simp only [takeLine]
  (repeat' split) <;> simp
@[simp] theorem execCamLinePipeline_fixes (t s) : Fixes s (execCamLinePipeline t s) := by simp [execCamLinePipeline]
@[simp] theorem closeFrame_fixed (port why s) : (closeFrame port why s).fixed = s.fixed := by
  simp only [closeFrame]
  (repeat' split) <;> simp
@[simp] theorem readRows_fixed (port s) : (readRows port s).fixed = s.fixed := by simp [readRows]
@[simp] theorem openFrame_fixed (port number c s) : (openFrame port number c s).fixed = s.fixed := by simp [openFrame]
@[simp] theorem installContext_fixed (port s) : (installContext port s).fixed = s.fixed := by
  simp only [installContext]
  (repeat' split) <;> simp
@[simp] theorem frameStart_fixed (port vc number s) : (frameStart port vc number s).fixed = s.fixed := by
  simp only [frameStart]
  (repeat' split) <;> simp
@[simp] theorem execCsi2FrameStart_fixes (port vc number t s) : Fixes s (execCsi2FrameStart port vc number t s) := by
  simp [execCsi2FrameStart]
@[simp] theorem execCsi2FrameEnd_fixes (port vc t s) : Fixes s (execCsi2FrameEnd port vc t s) := by
  simp only [execCsi2FrameEnd]
  (repeat' split) <;> simp
@[simp] theorem execCamFrameTimeout_fixes (port t s) : Fixes s (execCamFrameTimeout port t s) := by
  simp only [execCamFrameTimeout]
  (repeat' split) <;> simp
@[simp] theorem execCsi2ShortPacket_fixes (port _vc dataType headerOk t s) :
    Fixes s (execCsi2ShortPacket port _vc dataType headerOk t s) := by simp [execCsi2ShortPacket]
@[simp] theorem completeLine_fixed (port c s) : (completeLine port c s).fixed = s.fixed := by
  simp only [completeLine]
  (repeat' split) <;> simp
@[simp] theorem takeExposure_fixed (port c k wordCount pixels crcOk s) :
    (takeExposure port c k wordCount pixels crcOk s).fixed = s.fixed := by
  simp only [takeExposure]
  (repeat' split) <;> simp
@[simp] theorem execCsi2LongPacket_fixes (port vc dataType wordCount pixels crcOk headerOk t s) :
    Fixes s (execCsi2LongPacket port vc dataType wordCount pixels crcOk headerOk t s) := by
  simp only [execCsi2LongPacket]
  (repeat' split) <;> simp
@[simp] theorem captureBegin_fixed (h port stage dest size s) : (captureBegin h port stage dest size s).fixed = s.fixed := by
  unfold captureBegin
  (repeat' split) <;> simp
@[simp] theorem execCamCapture_fixes (h port stage dest size s) : Fixes s (execCamCapture h port stage dest size s) := by
  simp [execCamCapture]
@[simp] theorem endCapture_fixed (port x status s) : (endCapture port x status s).fixed = s.fixed := by simp [endCapture]
@[simp] theorem execCamCaptureDone_fixes (o s) : Fixes s (execCamCaptureDone o s) := by
  refine (fixes_next _ _).mpr (withOp_fixed _ _ (fun s => ?_) _)
  (repeat' split) <;> simp

/-! ## Colour keeping -/

@[simp] theorem captureSample_fixed (f key r e s) : (captureSample f key r e s).fixed = s.fixed := by
  unfold captureSample
  split <;> simp
@[simp] theorem thinTarget_fixed (b z s) : (thinTarget b z s).fixed = s.fixed := by simp [thinTarget]
@[simp] theorem rhoOf_fixed (points sm e s) : (rhoOf points sm e s).2.fixed = s.fixed := by simp [rhoOf]
@[simp] theorem keepSample_fixed (b r e s) : (keepSample b r e s).fixed = s.fixed := by
  unfold keepSample
  split <;> simp
@[simp] theorem matchRecord_fixed (c r s) : (matchRecord c r s).fixed = s.fixed := by
  simp only [matchRecord]
  (repeat' split) <;> simp
@[simp] theorem execZoneRecordSample_fixes (port t s) : Fixes s (execZoneRecordSample port t s) := by
  simp only [execZoneRecordSample]
  (repeat' split) <;> simp
@[simp] theorem logRange_fixed (b s z) : (logRange b s z).fixed = s.fixed := by simp [logRange]
@[simp] theorem writeGains_fixed (b gains s) : (writeGains b gains s).fixed = s.fixed := by simp [writeGains]
@[simp] theorem commitStep_fixed (b gains s) : (commitStep b gains s).fixed = s.fixed := by
  simp only [commitStep]
  (repeat' split) <;> simp
@[simp] theorem endInterval_fixed (b stop s) : (endInterval b stop s).fixed = s.fixed := by simp [endInterval]
@[simp] theorem execKeepIntervalEnd_fixes (bar t s) : Fixes s (execKeepIntervalEnd bar t s) := by
  simp only [execKeepIntervalEnd]
  (repeat' split) <;> simp
@[simp] theorem keepEnableBody_fixed (mask record s) : (keepEnableBody mask record s).1.fixed = s.fixed := by
  unfold keepEnableBody
  split <;> simp
@[simp] theorem execKeepConfigEnable_fixes (h barMask record s) : Fixes s (execKeepConfigEnable h barMask record s) := by
  simp [execKeepConfigEnable]
@[simp] theorem keepDisableBody_fixed (mask s) : (keepDisableBody mask s).1.fixed = s.fixed := by simp [keepDisableBody]
@[simp] theorem execKeepConfigDisable_fixes (h barMask s) : Fixes s (execKeepConfigDisable h barMask s) := by simp [execKeepConfigDisable]
@[simp] theorem captureStart_fixed (h mask first count s) : (captureStart h mask first count s).fixed = s.fixed := by simp [captureStart]
@[simp] theorem execKeepTargetCapture_fixes (h barMask first count s) : Fixes s (execKeepTargetCapture h barMask first count s) := by
  simp [execKeepTargetCapture]
@[simp] theorem putTarget_fixed (o bs s) : (putTarget o bs s).fixed = s.fixed := by simp [putTarget]
@[simp] theorem storeCapture_fixed (o s) : (storeCapture o s).fixed = s.fixed := by simp [storeCapture]

@[simp] theorem withCapture_fixed (o : OpRef) {f : CaptureOp → State → State} (hf : ∀ c s, (f c s).fixed = s.fixed) (s : State) :
    (withCapture o f s).fixed = s.fixed := by
  refine withOp_fixed _ _ (fun s => ?_) s
  (repeat' split) <;> simp [hf]

@[simp] theorem dropCapture_fixed (s) : (dropCapture s).fixed = s.fixed := by simp [dropCapture]
@[simp] theorem execKeepTargetCaptureDone_fixes (o s) : Fixes s (execKeepTargetCaptureDone o s) := by simp [execKeepTargetCaptureDone]

@[simp] theorem execKeepTargetCaptureTimeout_fixes (o s) : Fixes s (execKeepTargetCaptureTimeout o s) := by
  refine (fixes_next _ _).mpr (withCapture_fixed _ (fun x s => ?_) _)
  (repeat' split) <;> simp

@[simp] theorem targetLoadBody_fixed (mask addr s) : (targetLoadBody mask addr s).1.fixed = s.fixed := by
  unfold targetLoadBody
  (repeat' split) <;> simp
@[simp] theorem execKeepTargetLoad_fixes (h barMask addr s) : Fixes s (execKeepTargetLoad h barMask addr s) := by simp [execKeepTargetLoad]
@[simp] theorem targetReadBody_fixed (addr s) : (targetReadBody addr s).1.fixed = s.fixed := by simp [targetReadBody]
@[simp] theorem execKeepTargetRead_fixes (h addr s) : Fixes s (execKeepTargetRead h addr s) := by simp [execKeepTargetRead]
@[simp] theorem targetClearBody_fixed (mask s) : (targetClearBody mask s).1.fixed = s.fixed := by simp [targetClearBody]
@[simp] theorem execKeepTargetClear_fixes (h barMask s) : Fixes s (execKeepTargetClear h barMask s) := by simp [execKeepTargetClear]

/-! ## Ladders and registration measurement -/

@[simp] theorem ladderBody_fixed (record s) : (ladderBody record s).1.fixed = s.fixed := by
  unfold ladderBody
  split <;> simp
@[simp] theorem execKeepConfigLadder_fixes (h record s) : Fixes s (execKeepConfigLadder h record s) := by simp [execKeepConfigLadder]
@[simp] theorem resetLadder_fixed (slot s b) : (resetLadder slot s b).fixed = s.fixed := by simp [resetLadder]
@[simp] theorem ladderResetBody_fixed (mask slot s) : (ladderResetBody mask slot s).1.fixed = s.fixed := by simp [ladderResetBody]
@[simp] theorem execLadderReset_fixes (h barMask slot s) : Fixes s (execLadderReset h barMask slot s) := by simp [execLadderReset]
@[simp] theorem dashDeviates_fixed (d a m s) : (dashDeviates d a m s).2.fixed = s.fixed := by simp [dashDeviates]
@[simp] theorem applyFinding_fixed (x cls s) : (applyFinding x cls s).fixed = s.fixed := by simp [applyFinding]
@[simp] theorem takeClass_fixed (x d cls s) : (takeClass x d cls s).fixed = s.fixed := by simp [takeClass]
@[simp] theorem attributeClass_fixed (x d cls s) : (attributeClass x d cls s).fixed = s.fixed := by
  unfold attributeClass
  split <;> simp
@[simp] theorem execLadderDash_fixes (declaration bar slot row nozzle page s) :
    Fixes s (execLadderDash declaration bar slot row nozzle page s) := by
  simp only [execLadderDash]
  (repeat' split) <;> simp
@[simp] theorem regBegin_fixed (h flags rep record s) : (regBegin h flags rep record s).fixed = s.fixed := by simp [regBegin]
@[simp] theorem execRegMeasure_fixes (h flags rep record s) : Fixes s (execRegMeasure h flags rep record s) := by simp [execRegMeasure]

@[simp] theorem regResult_fixed (apply refBar m r b) : (regResult apply refBar m r b).1.fixed = r.1.fixed := by
  simp only [regResult]
  split <;> simp

@[simp] theorem regEnd_fixed (o s) : (regEnd o s).fixed = s.fixed := by
  have hfold := fun m (s : State) => foldl_fst_fixed (regResult (bit o.flags 0) ((o.seen.head?.map (fun r => r.decl.refBar)).getD 0) m)
    (fun r b => regResult_fixed _ _ m r b) (List.range 8) (s, [])
  simp only [regEnd]
  split <;> simp [hfold]

@[simp] theorem execRegMeasureDone_fixes (o s) : Fixes s (execRegMeasureDone o s) := by
  refine (fixes_next _ _).mpr (withOp_fixed _ _ (fun s => ?_) _)
  (repeat' split) <;> simp

/-! ## The network -/

@[simp] theorem withPort_fixed (s : State) (p x) : (s.withPort p x).fixed = s.fixed := by simp [State.withPort]
@[simp] theorem countPort_fixed (p i s) : (countPort p i s).fixed = s.fixed := by simp [countPort]
@[simp] theorem sendOn_fixed (p f s) : (sendOn p f s).fixed = s.fixed := by simp [sendOn]
@[simp] theorem sendBoth_fixed (k s) : (sendBoth k s).fixed = s.fixed := by simp [sendBoth]
@[simp] theorem execNetworkPortLink_fixes (path up t s) : Fixes s (execNetworkPortLink path up t s) := by simp [execNetworkPortLink]
@[simp] theorem execArpRequest_fixes (path targetIp t s) : Fixes s (execArpRequest path targetIp t s) := by
  simp only [execArpRequest]
  (repeat' split) <;> simp
@[simp] theorem execIcmpEchoRequest_fixes (path targetIp t s) : Fixes s (execIcmpEchoRequest path targetIp t s) := by
  simp only [execIcmpEchoRequest]
  (repeat' split) <;> simp
@[simp] theorem execPrpSupervision_fixes (t s) : Fixes s (execPrpSupervision t s) := by simp [execPrpSupervision]
@[simp] theorem acceptFrame_fixed (path source seq lan trailer length content s) :
    (acceptFrame path source seq lan trailer length content s).fixed = s.fixed := by simp [acceptFrame]
@[simp] theorem execPrpFrameReceive_fixes (path source seq lan trailer length content t s) :
    Fixes s (execPrpFrameReceive path source seq lan trailer length content t s) := by
  unfold execPrpFrameReceive
  split <;> simp
@[simp] theorem withDomain_fixed (s : State) (d x) : (s.withDomain d x).fixed = s.fixed := by simp [State.withDomain]
@[simp] theorem stepTout_fixed (before s k) : (stepTout before s k).fixed = s.fixed := by simp [stepTout]
@[simp] theorem stepBase_fixed (d s) : (stepBase d s).fixed = s.fixed := by simp [stepBase]
@[simp] theorem removeDifference_fixed (d s) : (removeDifference d s).fixed = s.fixed := by simp [removeDifference]
@[simp] theorem switchSource_fixed (new d s) : (switchSource new d s).fixed = s.fixed := by simp [switchSource]
@[simp] theorem selectSource_fixed (s) : (selectSource s).fixed = s.fixed := by simp [selectSource]
@[simp] theorem execPreferredDomainReturn_fixes (t s) : Fixes s (execPreferredDomainReturn t s) := by simp [execPreferredDomainReturn]
@[simp] theorem execTimeSlewEnd_fixes (t s) : Fixes s (execTimeSlewEnd t s) := by
  simp only [execTimeSlewEnd]
  (repeat' split) <;> simp
@[simp] theorem setMode_fixed (p mode s) : (setMode p mode s).fixed = s.fixed := by simp [setMode]
@[simp] theorem netBody_fixed (modeA modeB vlan ipv4 netmask s) : (netBody modeA modeB vlan ipv4 netmask s).1.fixed = s.fixed := by
  simp [netBody]
@[simp] theorem execTimeConfigNet_fixes (h modeA modeB vlan ipv4 netmask s) :
    Fixes s (execTimeConfigNet h modeA modeB vlan ipv4 netmask s) := by simp [execTimeConfigNet]
@[simp] theorem domainBody_fixed (index number transport delay bandwidth asymA asymB s) :
    (domainBody index number transport delay bandwidth asymA asymB s).1.fixed = s.fixed := by simp [domainBody]
@[simp] theorem execTimeConfigDomain_fixes (h index number transport delay bandwidth asymA asymB s) :
    Fixes s (execTimeConfigDomain h index number transport delay bandwidth asymA asymB s) := by simp [execTimeConfigDomain]
@[simp] theorem preferBody_fixed (index s) : (preferBody index s).1.fixed = s.fixed := by simp [preferBody]
@[simp] theorem execTimeConfigPrefer_fixes (h index s) : Fixes s (execTimeConfigPrefer h index s) := by simp [execTimeConfigPrefer]
@[simp] theorem setTimeBody_fixed (sec ns s) : (setTimeBody sec ns s).1.fixed = s.fixed := by simp [setTimeBody]
@[simp] theorem execSetTime_fixes (h sec ns s) : Fixes s (execSetTime h sec ns s) := by simp [execSetTime]
@[simp] theorem netStatusBody_fixed (dest s) : (netStatusBody dest s).1.fixed = s.fixed := by simp [netStatusBody]
@[simp] theorem execTimeConfigStatus_fixes (h dest s) : Fixes s (execTimeConfigStatus h dest s) := by simp [execTimeConfigStatus]

/-! ## PTP -/

@[simp] theorem ptpReceive_fixes (domain path t : Nat) {f : PtpDomain → State → State} (hf : ∀ d s, (f d s).fixed = s.fixed) (s : State) :
    Fixes s (ptpReceive domain path t f s) := by
  simp only [ptpReceive]
  split
  · simp
  · split <;> simp [hf]

@[simp] theorem loseEstimate_fixed (d s) : (loseEstimate d s).fixed = s.fixed := by simp [loseEstimate]
@[simp] theorem takeOffset_fixed (d off s) : (takeOffset d off s).fixed = s.fixed := by simp [takeOffset]
@[simp] theorem syncComplete_fixed (d path origin arrival s) : (syncComplete d path origin arrival s).fixed = s.fixed := by
  simp only [syncComplete]
  (repeat' split) <;> simp
@[simp] theorem selectMaster_fixed (d s) : (selectMaster d s).fixed = s.fixed := by simp [selectMaster]
@[simp] theorem execPtpAnnounce_fixes (a t s) : Fixes s (execPtpAnnounce a t s) := by simp [execPtpAnnounce]
@[simp] theorem execPtpSync_fixes (domain path sender seq origin arrival logInterval twoStep t s) :
    Fixes s (execPtpSync domain path sender seq origin arrival logInterval twoStep t s) := by simp [execPtpSync]

@[simp] theorem execPtpFollowUp_fixes (domain path sender seq origin t s) :
    Fixes s (execPtpFollowUp domain path sender seq origin t s) := by
  refine ptpReceive_fixes _ _ _ (fun x s => ?_) s
  (repeat' split) <;> simp

@[simp] theorem setDelay_fixed (d path delay s) : (setDelay d path delay s).fixed = s.fixed := by simp [setDelay]
@[simp] theorem execDelayReqSend_fixes (domain path t s) : Fixes s (execDelayReqSend domain path t s) := by simp [execDelayReqSend]

@[simp] theorem execPtpDelayResp_fixes (domain path sender seq received t s) :
    Fixes s (execPtpDelayResp domain path sender seq received t s) := by
  refine ptpReceive_fixes _ _ _ (fun x s => ?_) s
  (repeat' split) <;> simp

@[simp] theorem execPdelayReqSend_fixes (domain path t s) : Fixes s (execPdelayReqSend domain path t s) := by simp [execPdelayReqSend]
@[simp] theorem execPtpPdelayReq_fixes (domain path _sender seq t s) : Fixes s (execPtpPdelayReq domain path _sender seq t s) := by
  simp [execPtpPdelayReq]

@[simp] theorem execPtpPdelayResp_fixes (domain path sender seq followUp stamp t s) :
    Fixes s (execPtpPdelayResp domain path sender seq followUp stamp t s) := by
  refine ptpReceive_fixes _ _ _ (fun x s => ?_) s
  (repeat' split) <;> simp

@[simp] theorem execPtpEstimateLoss_fixes (domain t s) : Fixes s (execPtpEstimateLoss domain t s) := by simp [execPtpEstimateLoss]

/-! ## The lead role -/

@[simp] theorem withLead_fixed (s : State) (x) : (s.withLead x).fixed = s.fixed := by simp [State.withLead]
@[simp] theorem noteHealth_fixed (s) : (noteHealth s).fixed = s.fixed := by simp [noteHealth]
@[simp] theorem pEncOut_fixed (s x1) : (pEncOut s x1).2.fixed = s.fixed := by
  unfold pEncOut
  split <;> simp
@[simp] theorem updateBytes_fixed (s) : (updateBytes s).2.fixed = s.fixed := by
  unfold updateBytes
  split <;> simp

@[simp] theorem leadBytes_fixed (s) : (leadBytes s).2.fixed = s.fixed := by
  unfold leadBytes
  split
  · exact updateBytes_fixed s
  · rfl

@[simp] theorem heartbeatPayload_fixed (s c) : (heartbeatPayload s c).2.fixed = s.fixed := by simp [heartbeatPayload]
@[simp] theorem leadChange_fixed (i epoch s) : (leadChange i epoch s).fixed = s.fixed := by simp [leadChange]
@[simp] theorem adoptStop_fixed (b s) : (adoptStop b s).fixed = s.fixed := by simp [adoptStop]
@[simp] theorem becomeLead_fixed (epoch s) : (becomeLead epoch s).fixed = s.fixed := by
  simp only [becomeLead]
  (repeat' split) <;> simp
@[simp] theorem followLead_fixed (i epoch leaseEnd s) : (followLead i epoch leaseEnd s).fixed = s.fixed := by simp [followLead]
@[simp] theorem applyHandoff_fixed (dst s) : (applyHandoff dst s).fixed = s.fixed := by simp [applyHandoff]
@[simp] theorem startHandoff_fixed (dst s) : (startHandoff dst s).fixed = s.fixed := by simp [startHandoff]
@[simp] theorem leadConfigBody_fixed (home switchBack eligible pressId groupMac s) :
    (leadConfigBody home switchBack eligible pressId groupMac s).1.fixed = s.fixed := by simp [leadConfigBody]
@[simp] theorem execLeadConfig_fixes (h home switchBack eligible pressId groupMac s) :
    Fixes s (execLeadConfig h home switchBack eligible pressId groupMac s) := by simp [execLeadConfig]
@[simp] theorem leadTransferBody_fixed (h toIndex orphan s) : (leadTransferBody h toIndex orphan s).1.fixed = s.fixed := by
  simp [leadTransferBody]
@[simp] theorem execLeadTransfer_fixes (h toIndex s) : Fixes s (execLeadTransfer h toIndex s) := by simp [execLeadTransfer]
@[simp] theorem execLeadTransferTimeout_fixes (t s) : Fixes s (execLeadTransferTimeout t s) := by
  simp only [execLeadTransferTimeout]
  (repeat' split) <;> simp
@[simp] theorem releaseLead_fixed (s) : (releaseLead s).fixed = s.fixed := by simp [releaseLead]
@[simp] theorem verdictBody_fixed (leadIndex epoch s) : (verdictBody leadIndex epoch s).1.fixed = s.fixed := by simp [verdictBody]
@[simp] theorem execArbiterVerdict_fixes (h leadIndex epoch s) : Fixes s (execArbiterVerdict h leadIndex epoch s) := by
  simp [execArbiterVerdict]
@[simp] theorem sendHeartbeat_fixed (c s) : (sendHeartbeat c s).fixed = s.fixed := by
  simp only [sendHeartbeat]
  (repeat' split) <;> simp
@[simp] theorem execHeartbeatSend_fixes (t s) : Fixes s (execHeartbeatSend t s) := by
  simp only [execHeartbeatSend]
  (repeat' split) <;> simp
@[simp] theorem lateUpdate_fixed (u s) : (lateUpdate u s).fixed = s.fixed := by simp [lateUpdate]
@[simp] theorem takeUpdate_fixed (hb s) : (takeUpdate hb s).fixed = s.fixed := by
  simp only [takeUpdate]
  (repeat' split) <;> simp
@[simp] theorem takeStart_fixed (hb s) : (takeStart hb s).fixed = s.fixed := by simp [takeStart]
@[simp] theorem takeStop_fixed (hb s) : (takeStop hb s).fixed = s.fixed := by simp [takeStop]
@[simp] theorem takeHandoff_fixed (hb s) : (takeHandoff hb s).fixed = s.fixed := by simp [takeHandoff]
@[simp] theorem takeRejoin_fixed (hb s) : (takeRejoin hb s).fixed = s.fixed := by
  unfold takeRejoin
  split <;> simp
@[simp] theorem takeLead_fixed (hb s) : (takeLead hb s).fixed = s.fixed := by simp [takeLead]
@[simp] theorem transferDone_fixed (hb s) : (transferDone hb s).fixed = s.fixed := by
  unfold transferDone
  split <;> simp
@[simp] theorem takeClaim_fixed (hb s) : (takeClaim hb s).fixed = s.fixed := by simp [takeClaim]
@[simp] theorem takeFollower_fixed (c hb s) : (takeFollower c hb s).fixed = s.fixed := by simp [takeFollower]
@[simp] theorem takeRelease_fixed (hb s) : (takeRelease hb s).fixed = s.fixed := by
  simp only [takeRelease]
  (repeat' split) <;> simp
@[simp] theorem takeHeartbeat_fixed (c old hb s) : (takeHeartbeat c old hb s).fixed = s.fixed := by simp [takeHeartbeat]
@[simp] theorem hearHeartbeat_fixed (c path hb s) : (hearHeartbeat c path hb s).fixed = s.fixed := by simp [hearHeartbeat]
@[simp] theorem execHeartbeatReceive_fixes (path hb sameMac t s) : Fixes s (execHeartbeatReceive path hb sameMac t s) := by
  simp only [execHeartbeatReceive]
  (repeat' split) <;> simp
@[simp] theorem execLeaseRenew_fixes (t s) : Fixes s (execLeaseRenew t s) := by simp [execLeaseRenew]
@[simp] theorem execLeaseLost_fixes (t s) : Fixes s (execLeaseLost t s) := by
  simp only [execLeaseLost]
  (repeat' split) <;> simp
@[simp] theorem execTakeover_fixes (t s) : Fixes s (execTakeover t s) := by
  simp only [execTakeover]
  (repeat' split) <;> simp
@[simp] theorem execHandoff_fixes (t s) : Fixes s (execHandoff t s) := by
  simp only [execHandoff]
  (repeat' split) <;> simp
@[simp] theorem execVerdictLeaseEnd_fixes (t s) : Fixes s (execVerdictLeaseEnd t s) := by
  simp only [execVerdictLeaseEnd]
  (repeat' split) <;> simp

/-! ## Parts of PRESS_CONFIG -/

@[simp] theorem switchDomain_fixed (on s d) : (switchDomain on s d).fixed = s.fixed := by simp [switchDomain]
@[simp] theorem pressGroup_fixed (mask s g) : (pressGroup mask s g).fixed = s.fixed := by simp [pressGroup]
@[simp] theorem clearHeads_fixed (s) : (clearHeads s).fixed = s.fixed := by simp [clearHeads]

/-! ## The register window -/

@[simp] theorem returnRead_fixed (o s) : (returnRead o s).fixed = s.fixed := by simp [returnRead]
@[simp] theorem readTrace_fixed (o err s) : (readTrace o err s).fixed = s.fixed := by simp [readTrace]
@[simp] theorem readTraceWindow_fixed (o err s) : (readTraceWindow o err s).fixed = s.fixed := by simp [readTraceWindow]
@[simp] theorem readTimeGroup_fixed (s) : (readTimeGroup s).fixed = s.fixed := by simp [readTimeGroup]
@[simp] theorem execTimeSecLoRead_fixes (t s) : Fixes s (execTimeSecLoRead t s) := by simp [execTimeSecLoRead]
@[simp] theorem readRunGroup_fixed (s) : (readRunGroup s).fixed = s.fixed := by simp [readRunGroup]
@[simp] theorem execWebPosLoRead_fixes (t s) : Fixes s (execWebPosLoRead t s) := by simp [execWebPosLoRead]
@[simp] theorem readWindow_fixed (offset s) : (readWindow offset s).fixed = s.fixed := by
  unfold readWindow
  (repeat' split) <;> simp
@[simp] theorem execLowWordRead_fixes (offset err s) : Fixes s (execLowWordRead offset err s) := by simp [execLowWordRead]
@[simp] theorem writeRing0_fixed (o v s) : (writeRing0 o v s).fixed = s.fixed := by
  unfold writeRing0
  split <;> simp
@[simp] theorem writeMsixWord_fixed (vector o v s) : (writeMsixWord vector o v s).fixed = s.fixed := by
  unfold writeMsixWord
  split <;> simp
@[simp] theorem writeRegister_fixed (o v s) : (writeRegister o v s).fixed = s.fixed := by simp [writeRegister]
@[simp] theorem execRegisterWrite_fixes (offset bytes value s) : Fixes s (execRegisterWrite offset bytes value s) := by
  simp [execRegisterWrite]

/-! ## Packets in host memory -/

@[simp] theorem fetchEntries_fixed (ring n : Nat) (s : State) : (fetchEntries ring n s).fixed = s.fixed := by
  induction n generalizing s with
  | zero => rfl
  | succ n ih =>
    simp only [fetchEntries]
    (repeat' split) <;> simp [ih]

@[simp] theorem execCommandFetch_fixes (ring t s) : Fixes s (execCommandFetch ring t s) := by simp [execCommandFetch]

/-! ## ABORT -/

@[simp] theorem abortScan_fixed (o s) : (abortScan o s).fixed = s.fixed := by
  unfold abortScan
  split <;> simp
@[simp] theorem abortSched_fixed (o s) : (abortSched o s).fixed = s.fixed := by
  unfold abortSched
  split <;> simp
@[simp] theorem abortArm_fixed (o s) : (abortArm o s).fixed = s.fixed := by
  unfold abortArm
  split <;> simp
@[simp] theorem abortRejoin_fixed (s) : (abortRejoin s).fixed = s.fixed := by simp [abortRejoin]
@[simp] theorem abortCal_fixed (o s) : (abortCal o s).fixed = s.fixed := by
  unfold abortCal
  split <;> simp
@[simp] theorem abortSurvey_fixed (s) : (abortSurvey s).fixed = s.fixed := by
  unfold abortSurvey
  split <;> simp
@[simp] theorem abortScrub_fixed (s) : (abortScrub s).fixed = s.fixed := by
  unfold abortScrub
  split <;> simp
@[simp] theorem abortCapture_fixed (o s) : (abortCapture o s).fixed = s.fixed := by
  unfold abortCapture
  split <;> simp
@[simp] theorem abortCodec_fixed (o s) : (abortCodec o s).fixed = s.fixed := by
  unfold abortCodec
  split <;> simp
@[simp] theorem abortRunning_fixed (o s) : (abortRunning o s).fixed = s.fixed := by
  unfold abortRunning
  split <;> simp
@[simp] theorem abortWaiting_fixed (ring tag x opcode s) : (abortWaiting ring tag x opcode s).fixed = s.fixed := by simp [abortWaiting]
@[simp] theorem abortBody_fixed (own ring tag s) : (abortBody own ring tag s).1.fixed = s.fixed := by
  unfold abortBody
  (repeat' split) <;> simp
@[simp] theorem execAbort_fixes (h ring tag s) : Fixes s (execAbort h ring tag s) := by simp [execAbort]

/-! ## Answers of heads and hosts -/

@[simp] theorem laneBack_fixed (g s) : (laneBack g s).fixed = s.fixed := by
  unfold laneBack
  (repeat' split) <;> simp
@[simp] theorem takeSwitch_fixed (g w s) : (takeSwitch g w s).fixed = s.fixed := by
  simp only [takeSwitch]
  (repeat' split) <;> simp
@[simp] theorem execLaneSwitch_fixes (group t s) : Fixes s (execLaneSwitch group t s) := by
  simp only [execLaneSwitch]
  (repeat' split) <;> simp
@[simp] theorem loseInLoop_fixed (g lane x s) : (loseInLoop g lane x s).fixed = s.fixed := by
  simp only [loseInLoop]
  (repeat' split) <;> simp
@[simp] theorem takeLaneLost_fixed (g lane s) : (takeLaneLost g lane s).fixed = s.fixed := by
  unfold takeLaneLost
  split <;> simp
@[simp] theorem execAlertLaneLost_fixes (u lane s) : Fixes s (execAlertLaneLost u lane s) := by simp [execAlertLaneLost]
@[simp] theorem execAlert_fixes (u cause lane due s) : Fixes s (execAlert u cause lane due s) := by simp [execAlert]
@[simp] theorem tableAck_fixed (b sl status value s) : (tableAck b sl status value s).fixed = s.fixed := by
  unfold tableAck
  (repeat' split) <;> simp
@[simp] theorem calAck_fixed (g status s) : (calAck g status s).fixed = s.fixed := by
  unfold calAck
  (repeat' split) <;> simp
@[simp] theorem takeAck_fixed (b sl a s) : (takeAck b sl a s).fixed = s.fixed := by
  unfold takeAck
  split <;> simp
@[simp] theorem execAck_fixes (u body s) : Fixes s (execAck u body s) := by simp [execAck]
@[simp] theorem execEnumTimeout_fixes (group t s) : Fixes s (execEnumTimeout group t s) := by
  simp only [execEnumTimeout]
  (repeat' split) <;> simp
@[simp] theorem loadTimedOut_fixed (o b sl s) : (loadTimedOut o b sl s).fixed = s.fixed := by simp [loadTimedOut]
@[simp] theorem execTableLoadTimeout_fixes (bar slot t s) : Fixes s (execTableLoadTimeout bar slot t s) := by
  simp only [execTableLoadTimeout]
  (repeat' split) <;> simp
@[simp] theorem execCalAnswerTimeout_fixes (group t s) : Fixes s (execCalAnswerTimeout group t s) := by
  simp only [execCalAnswerTimeout]
  (repeat' split) <;> simp
@[simp] theorem calBegin_fixed (ring tag todo groups s) : (calBegin ring tag todo groups s).fixed = s.fixed := by simp [calBegin]
@[simp] theorem calibrateBegin_fixed (h target groupMask laneMask sensorMask s) :
    (calibrateBegin h target groupMask laneMask sensorMask s).fixed = s.fixed := by simp [calibrateBegin]
@[simp] theorem execCalRunCalibrate_fixes (h target groupMask laneMask sensorMask s) :
    Fixes s (execCalRunCalibrate h target groupMask laneMask sensorMask s) := by simp [execCalRunCalibrate]
@[simp] theorem calFinish_fixed (o s) : (calFinish o s).fixed = s.fixed := by simp [calFinish]
@[simp] theorem execCalRunCalibrateDone_fixes (o s) : Fixes s (execCalRunCalibrateDone o s) := by
  refine (fixes_next _ _).mpr (withOp_fixed _ _ (fun s => ?_) _)
  (repeat' split) <;> simp
@[simp] theorem setupBegin_fixed (h addr s) : (setupBegin h addr s).fixed = s.fixed := by
  unfold setupBegin
  (repeat' split) <;> simp
@[simp] theorem execCalRunSetup_fixes (h addr s) : Fixes s (execCalRunSetup h addr s) := by simp [execCalRunSetup]
@[simp] theorem prbsStartBody_fixed (h groupMask laneMask pattern addr s) :
    (prbsStartBody h groupMask laneMask pattern addr s).fixed = s.fixed := by simp [prbsStartBody]
@[simp] theorem execPrbsStart_fixes (h groupMask laneMask pattern addr s) :
    Fixes s (execPrbsStart h groupMask laneMask pattern addr s) := by
  simp [execPrbsStart]
@[simp] theorem prbsReadBody_fixed (h groupMask laneMask addr counts s) :
    (prbsReadBody h groupMask laneMask addr counts s).fixed = s.fixed := by simp [prbsReadBody]
@[simp] theorem execPrbsRead_fixes (h groupMask laneMask addr counts s) : Fixes s (execPrbsRead h groupMask laneMask addr counts s) := by
  simp [execPrbsRead]
@[simp] theorem prbsStopGroup_fixed (laneMask s g) : (prbsStopGroup laneMask s g).fixed = s.fixed := by simp [prbsStopGroup]
@[simp] theorem prbsStopBody_fixed (h groupMask laneMask s) : (prbsStopBody h groupMask laneMask s).fixed = s.fixed := by
  simp [prbsStopBody]
@[simp] theorem execPrbsStop_fixes (h groupMask laneMask s) : Fixes s (execPrbsStop h groupMask laneMask s) := by simp [execPrbsStop]
@[simp] theorem evaluateTarget_fixed (s c) : (evaluateTarget s c).fixed = s.fixed := by simp [evaluateTarget]
@[simp] theorem execCalEvaluation_fixes (t s) : Fixes s (execCalEvaluation t s) := by simp [execCalEvaluation]
@[simp] theorem execCalRetry_fixes (target t s) : Fixes s (execCalRetry target t s) := by
  simp only [execCalRetry]
  (repeat' split) <;> simp
@[simp] theorem execCalMeasurementDone_fixes (target value stateOk t s) : Fixes s (execCalMeasurementDone target value stateOk t s) := by
  simp [execCalMeasurementDone]

/-! ## Resets and PRESS_CONFIG -/

/-- From `s` to `t` the queue is the same, and a legal press description stays one (R338). -/
def Tame (s t : State) : Prop := t.pending = s.pending ∧ (pressOk s = true → pressOk t = true)

theorem Tame.of_fixed {s t : State} (h : t.fixed = s.fixed) : Tame s t := by
  obtain ⟨hpending, hpress⟩ := Prod.mk.inj h
  exact ⟨hpending, fun hs => by unfold pressOk; rw [hpress]; exact hs⟩

theorem Tame.trans {s t u : State} (h : Tame s t) (h' : Tame t u) : Tame s u := ⟨h'.1.trans h.1, fun hs => h'.2 (h.2 hs)⟩

theorem Chains.tame : Chains Tame := ⟨Tame.of_fixed, Tame.trans⟩

/-- A reset keeps the queue and leaves no description (R364, R365). -/
theorem doReset_tame (s : State) (source : ResetSource) (warm : Bool) (path : PowerPath) : Tame s (s.doReset source warm path) := by
  have hsettled : Tame s (if source = .porN then s else (s.withDev .boot).settleGates) := Tame.of_fixed (by split <;> simp)
  exact ⟨hsettled.1, fun _ => rfl⟩

/-- A command that answers a next state leads there tamely. -/
def Tames (s : State) (r : Result) : Prop := ∀ t, r = .next t → Tame s t

theorem Tames.next {s t : State} (h : Tame s t) : Tames s (.next t) := by
  rintro _ ⟨⟩
  exact h

theorem Tames.of_fixes {s : State} {r : Result} (h : Fixes s r) : Tames s r := fun t ht => Tame.of_fixed (h t ht)

/-- A reset, and what follows of it without touching the description. -/
theorem tames_reset {s r t : State} {source : ResetSource} {warm : Bool} {path : PowerPath} (hr : r.fixed = s.fixed)
    (ht : t.fixed = (r.doReset source warm path).fixed) : Tames s (.next t) :=
  .next (((Tame.of_fixed hr).trans (doReset_tame r source warm path)).trans (.of_fixed ht))

theorem tames_fixed {s t : State} (h : t.fixed = s.fixed) : Tames s (.next t) := .next (.of_fixed h)

theorem shutDown_tame (k : Nat) (s : State) : Tame s (shutDown k s) := by
  have hdark : ((s.withLink { s.link with inputs := { s.link.inputs with thermalOk := false } }).settleGates).fixed = s.fixed := by simp
  exact ((Tame.of_fixed hdark).trans (doReset_tame _ _ _ _)).trans (.of_fixed (withBoot_fixed _ _))

theorem execPorN_tames (held t : Nat) (s : State) : Tames s (execPorN held t s) := by
  simp only [execPorN]
  split
  · exact tames_fixed (by simp)
  · exact tames_reset (at_fixed s t) (withBoot_fixed _ _)

theorem execResetN_tames (held t : Nat) (s : State) : Tames s (execResetN held t s) := by
  simp only [execResetN]
  split
  · exact tames_fixed (by simp)
  · split
    · exact tames_fixed (by simp)
    · exact tames_reset (at_fixed s t) (withBoot_fixed _ _)

theorem execSupplyDrop_tames (rail millivolts held t : Nat) (s : State) : Tames s (execSupplyDrop rail millivolts held t s) := by
  simp only [execSupplyDrop]
  split
  · exact tames_fixed (by simp)
  · exact tames_reset (at_fixed s t) (withBoot_fixed _ _)

theorem execJtagInstructionLoad_tames (instruction t : Nat) (s : State) : Tames s (execJtagInstructionLoad instruction t s) := by
  simp only [execJtagInstructionLoad]
  split
  · exact tames_reset (at_fixed s t) (withBoot_fixed _ _)
  · exact tames_fixed (by simp)

theorem execThermalRestart_tames (t : Nat) (s : State) : Tames s (execThermalRestart t s) := by
  simp only [execThermalRestart]
  split
  · exact tames_fixed (by simp)
  · split
    · exact tames_reset (at_fixed s t) rfl
    · exact tames_fixed (by simp)

theorem execWatchdogExpiry_tames (core fed t : Nat) (s : State) : Tames s (execWatchdogExpiry core fed t s) := by
  simp only [execWatchdogExpiry]
  split
  · exact tames_fixed (by simp)
  · split
    · exact tames_reset (by simp) rfl
    · exact tames_fixed (by simp)

theorem execFatalRecordWritten_tames (complete : Bool) (t : Nat) (s : State) : Tames s (execFatalRecordWritten complete t s) := by
  simp only [execFatalRecordWritten]
  split
  · exact tames_fixed (by simp)
  · split
    · exact tames_fixed (by simp)
    · exact tames_reset (by split <;> simp) rfl

theorem execDeviceReset_tames (h : Hdr) (kind : Nat) (s : State) : Tames s (execDeviceReset h kind s) := by
  simp only [execDeviceReset]
  split
  · exact tames_fixed (by simp)
  · exact tames_reset (by simp) rfl

theorem execOnDieSensorConversion_tames (readings : List (Option Int)) (t : Nat) (s : State) :
    Tames s (execOnDieSensorConversion readings t s) := by
  have hread : ∀ u : State, u.fixed = s.fixed →
      ((List.range 24).foldl (fun s i => takeReading i (inRange (nth none readings i)) s) u).fixed = s.fixed :=
    fun u hu => (foldl_fixed _ (fun s i => by simp) _ u).trans hu
  simp only [execOnDieSensorConversion]
  split
  · exact tames_fixed (by simp)
  · split
    · exact .next ((Tame.of_fixed (hread _ (by simp))).trans (shutDown_tame _ _))
    · exact tames_fixed (by rw [coolDown_fixed]; exact hread _ (by simp))

/-! ## The checks of a press description (R338) -/

/-- Every value of a table that a write has changed is the one written or was there. -/
theorem mem_tput {α : Type} [DecidableEq α] {d : Nat → α} {t : Tab α} {k : Nat} {v : α} {e : Nat × α} (h : e ∈ tput d t k v) :
    e ∈ t ∨ e = (k, v) := by
  induction t with
  | nil =>
    unfold tput at h
    split at h <;> simp_all
  | cons x t ih =>
    obtain ⟨k', v'⟩ := x
    unfold tput at h
    repeat' split at h
    all_goals grind

/-- What holds of every value that a fold writes holds of every value of the table it leaves. -/
theorem forall_mem_foldl {α β : Type} {p : α → Prop} {f : List α → β → List α} {l : List β}
    (hf : ∀ t, ∀ x ∈ l, (∀ e ∈ t, p e) → ∀ e ∈ f t x, p e) {t : List α} (ht : ∀ e ∈ t, p e) : ∀ e ∈ l.foldl f t, p e := by
  induction l generalizing t with
  | nil => exact ht
  | cons x l ih =>
    exact ih (fun t y hy => hf t y (List.mem_cons_of_mem _ hy)) (hf t x List.mem_cons_self ht)

/-- The lowest offset over a list of checks, as `pressFail` keeps it. -/
def lowestFail (m : Option Nat) (x : Nat × Bool) : Option Nat :=
  if x.2 then (match m with
    | none => some x.1
    | some o => some (min o x.1)) else m

theorem foldl_lowestFail_none {l : List (Nat × Bool)} {m : Option Nat} :
    l.foldl lowestFail m = none ↔ m = none ∧ ∀ x ∈ l, x.2 = false := by
  induction l generalizing m with
  | nil => simp
  | cons x l ih =>
    rw [List.foldl_cons, ih]
    cases hx : x.2 <;> cases m <;> simp [lowestFail, hx]

/-- A description that fails no check fails none of the header, the motion record and the bars of its mask. -/
theorem pressFail_none {bs : List Byte} (h : pressFail bs = none) :
    (∀ x ∈ headerFails bs, x.2 = false) ∧ (∀ x ∈ motionFails bs, x.2 = false)
      ∧ ∀ b ∈ maskList (field bs 14 1) 8, ∀ x ∈ barFails bs b, x.2 = false := by
  have hall := (foldl_lowestFail_none.mp (show List.foldl lowestFail none _ = none from h)).2
  refine ⟨fun x hx => hall x (by simp [hx]), fun x hx => hall x (by simp [hx]), fun b hb x hx => hall x ?_⟩
  obtain ⟨hlt, hbit⟩ := mem_maskList.mp hb
  refine List.mem_append_right _ (List.mem_flatMap.mpr ⟨b, List.mem_range.mpr hlt, List.mem_append_right _ ?_⟩)
  rw [if_pos hbit]
  exact hx

/-- Every slot that a description without failing fields lists is unfitted or has an A of 0 or more (R155). -/
theorem pressOf_slots {bs : List Byte} (h : pressFail bs = none) :
    ∀ e ∈ (pressOf bs).slots, e.2.q = 0xFF ∨ 0 ≤ e.2.a := by
  obtain ⟨-, -, hbars⟩ := pressFail_none h
  have hslot : ∀ b ∈ maskList (field bs 14 1) 8, ∀ sl ∈ List.range 24, (slotDescOf bs b sl).q = 0xFF ∨ 0 ≤ (slotDescOf bs b sl).a := by
    intro b hb sl hsl
    by_cases hq : (slotDescOf bs b sl).q = 0xFF
    · exact .inl hq
    · have := hbars b hb (slotRecBase b sl + 12, decide ((slotDescOf bs b sl).a < 0))
        (List.mem_append_right _ (List.mem_flatMap.mpr ⟨sl, by simp [List.mem_range.mp hsl, hq], by simp⟩))
      exact .inr (Int.not_lt.mp (of_decide_eq_false this))
  refine forall_mem_foldl (fun t b hb ht => forall_mem_foldl (fun t sl hsl ht e he => ?_) ht) (by simp)
  rcases mem_tput he with he | rfl
  · exact ht e he
  · exact hslot b hb sl hsl

/-- Bytes that fail no check describe a legal press (R232, R338, R339). -/
theorem pressOf_legal {bs : List Byte} (h : pressFail bs = none) {s : State} (hs : s.press = some (pressOf bs)) : pressOk s = true := by
  obtain ⟨hheader, hmotion, -⟩ := pressFail_none h
  have hindex : ¬(3 < field bs 12 1 ∨ field bs 13 1 ≤ field bs 12 1) :=
    of_decide_eq_false (hheader (12, decide (3 < field bs 12 1 ∨ field bs 13 1 ≤ field bs 12 1)) (by simp [headerFails]))
  have hcount : ¬(field bs 13 1 = 0 ∨ 4 < field bs 13 1) :=
    of_decide_eq_false (hheader (13, decide (field bs 13 1 = 0 ∨ 4 < field bs 13 1)) (by simp [headerFails]))
  have hpitch : (motionOf bs).linePitch ≠ 0 :=
    of_decide_eq_false (hmotion (48, decide ((motionOf bs).linePitch = 0)) (by simp [motionFails]))
  have hdevices : 1 ≤ (pressOf bs).devices ∧ (pressOf bs).devices ≤ 4 ∧ (pressOf bs).index < (pressOf bs).devices := by
    change 1 ≤ field bs 13 1 ∧ field bs 13 1 ≤ 4 ∧ field bs 12 1 < field bs 13 1
    omega
  unfold pressOk
  rw [hs]
  exact Bool.and_eq_true_iff.mpr ⟨decide_eq_true ⟨hdevices.1, hdevices.2.1, hdevices.2.2, hpitch⟩,
    List.all_eq_true.mpr fun e he => decide_eq_true (pressOf_slots h e he)⟩

/-! ## PRESS_CONFIG -/

theorem installPress_fixed (p : Press) (s : State) : (installPress p s).fixed = (s.pending, some p) := by
  have hgroups : ∀ s : State, ((List.range 8).foldl (pressGroup p.barMask) s).fixed = s.fixed := foldl_fixed _ (by simp) _
  have hdomains : ∀ s : State, ([6, 7, 8, 9].foldl (switchDomain (pressDomains p.barMask)) s).fixed = s.fixed := foldl_fixed _ (by simp) _
  unfold installPress
  rw [hgroups, hdomains, withLead_fixed, clearHeads_fixed]
  rfl

theorem installPress_tame {bs : List Byte} (h : pressFail bs = none) (s : State) : Tame s (installPress (pressOf bs) s) := by
  obtain ⟨hpending, hpress⟩ := Prod.mk.inj (installPress_fixed (pressOf bs) s)
  exact ⟨hpending, fun _ => pressOf_legal h hpress⟩

theorem pressBody_tame (h : Hdr) (source length : Nat) (orphan : Bool) (s : State) : Tame s (pressBody h source length orphan s).1 := by
  unfold pressBody
  split
  · exact .of_fixed rfl
  · split
    · exact .of_fixed rfl
    · split
      · exact .of_fixed (dmaFault_fixed _ _)
      · extract_lets bs p installed
        split
        · exact .of_fixed rfl
        next hfail =>
          have htame : Tame s installed := installPress_tame hfail s
          split
          · exact htame
          · exact htame.trans (.of_fixed (addWait_fixed _ _ _ _ _))

theorem execPressConfig_tames (h : Hdr) (source length : Nat) (s : State) : Tames s (execPressConfig h source length s) :=
  .next (Chains.tame.hostWait _ _ _ (pressBody_tame h source length) s)

/-! ## Every command -/

/-- Every command leaves the queue alone and a legal press legal. -/
theorem exec_tames (c : Instr) (s : State) : Tames s (exec c s) := by
  cases c
  case pressConfig h source length => exact execPressConfig_tames h source length s
  case deviceReset h kind => exact execDeviceReset_tames h kind s
  case fatalRecordWritten complete t => exact execFatalRecordWritten_tames complete t s
  case jtagInstructionLoad instruction t => exact execJtagInstructionLoad_tames instruction t s
  case onDieSensorConversion readings t => exact execOnDieSensorConversion_tames readings t s
  case porN held t => exact execPorN_tames held t s
  case resetN held t => exact execResetN_tames held t s
  case supplyDrop rail millivolts held t => exact execSupplyDrop_tames rail millivolts held t s
  case thermalRestart t => exact execThermalRestart_tames t s
  case watchdogExpiry core fed t => exact execWatchdogExpiry_tames core fed t s
  all_goals exact .of_fixes (by simp only [exec]; simp)

/-- Settles O57: each command is tame, and a step runs the front of the queue on the rest. -/
theorem commandsKeepQueue : Obligations.CommandsKeepQueue := by
  unfold Obligations.CommandsKeepQueue
  refine ⟨fun s t c h => (exec_tames c s t h).1, fun s t c q hq h => ?_⟩
  rw [step, hq] at h
  exact (exec_tames c _ t h).1

/-- Settles O59: each command is tame, and the queue plays no part in the press description. -/
theorem pressStaysLegal : Obligations.PressStaysLegal := by
  unfold Obligations.PressStaysLegal
  intro s t hs h
  unfold step at h
  split at h
  · cases h
    exact hs
  · exact (exec_tames _ _ t h).2 hs

/-- Settles O56: `step` looks at the queue alone. -/
theorem stepRunsFrontCommand : Obligations.StepRunsFrontCommand := by
  unfold Obligations.StepRunsFrontCommand
  refine ⟨fun s c q => rfl, fun s hs => ?_⟩
  rw [step, hs]
end Sys2Proof.Machine
end

section
/-! The host interface's own commands: NOP, IDENTIFY, GET_STATUS, GET_PROGRESS, RING_CONFIG and EVENT_CONFIG, and where their replies go (R318 to
R337, R343). -/

namespace Sys2Proof.Machine

open Sys2Proof

/-! ## NOP, IDENTIFY and GET_STATUS (R334, R335) -/

/-- Settles O1: each of the three answers on the accepted state, which has the fields of the state before. -/
theorem identityCommandsComplete : Obligations.IdentityCommandsComplete := by
  unfold Obligations.IdentityCommandsComplete
  refine ⟨fun s h ha => ⟨_, rfl, hostCmd_refuses ha rfl⟩, fun s h ha => ⟨_, rfl, hostCmd_answers (s' := s) (a := answer stOk (identifyResult s)) ha rfl rfl rfl⟩,
    fun s h ha => ⟨_, rfl, hostCmd_answers (s' := s) (a := answer stOk (statusResult s)) ha rfl rfl rfl⟩⟩

/-! ## GET_PROGRESS (R331) -/

theorem spell_getProgress (h : Hdr) (p : List Byte) : spell h 0x0004 (field p 0 1) p
    = some (.getProgress { h with paramRsv := decide (field p 1 1 ≠ 0) } (field p 0 1) (field p 2 2)) := by
  simp [spell, spellBase, reserved]

/-- The latest reply of an accepted command's ring carries the answer's PROGRESS and POS (R326). -/
theorem finalShort_progress {s : State} {ring : Nat} (tag opcode : Nat) (a : Answer) (henabled : (s.ring ring).enabled = true) :
    ((s.finalShort false ring tag opcode a).ring ring).last.map (fun r => (r.progress, r.pos))
      = some (a.progress.getD (if a.status = stOk then 10000 else 0, false)) := by
  simp only [State.finalShort, Bool.false_eq_true, if_false]
  rw [(ring_oweLess_putReply (r := { ring := ring, tag := tag, status := a.status, phase := false, final := true, skipped := false
                                     progress := (a.progress.getD (if a.status = stOk then 10000 else 0, false)).1
                                     pos := (a.progress.getD (if a.status = stOk then 10000 else 0, false)).2
                                     opcode := opcode, timestamp := 0, result := a.result }) henabled 1).1]
  rfl

/-- Settles O2: the operation found in the state before is the one found in the accepted state. -/
theorem getProgressAnswers : Obligations.GetProgressAnswers := by
  unfold Obligations.GetProgressAnswers
  refine ⟨spell_getProgress, fun s h ring tag o ha ho => ?_, fun s h ring tag ha ho => ?_⟩
  · have hlive : (begun s h (cmdOf 0x0004 0)).liveOp ring tag = some o := ho
    have hbody : progressBody ring tag (begun s h (cmdOf 0x0004 0)) = (begun s h (cmdOf 0x0004 0),
        { status := stOk, progress := some (o.progress, o.pos)
          result := leBytes 2 o.opcode ++ [0, 0] ++ leBytes 4 ((max s.clk.elapsed h.t - o.acceptedAt) / msT) }) := by
      simp only [progressBody, hlive]
      rfl
    obtain ⟨hreply, honly⟩ := hostCmd_answers (i := .getProgress (unstarted h) ring tag) (s' := s) ha hbody rfl rfl
    refine ⟨_, rfl, hreply, ?_, honly⟩
    rw [(hostCmd_replies _ h _ _ s ha (by rw [hbody])).1, hbody]
    exact finalShort_progress _ _ _ (begun_enabled s h _ ha)
  · have hlive : (begun s h (cmdOf 0x0004 0)).liveOp ring tag = none := ho
    exact ⟨_, rfl, hostCmd_refuses ha (by simp only [progressBody, hlive])⟩

/-! ## Rings beside the command's own -/

/-- Only ring 0 takes an admin command (R325). -/
theorem ring_of_admin {s : State} {h : Hdr} {c : CmdInfo} (ha : accepts s h c = true) (hadmin : c.admin = true) : h.ring = 0 := by
  have hcheck := packetCheck_accepts h c s ha
  by_contra hring
  simp [packetCheck, hadmin, hring] at hcheck

/-- A write of a ring that differs from the reset ring leaves every other ring, whatever the table of rings. -/
theorem ring_withRing_other {s : State} {r k : Nat} {x : Ring} (hx : x ≠ Ring.reset) (hk : k ≠ r) : (s.withRing r x).ring k = s.ring k :=
  tget_tput_of_ne _ _ hx hk

theorem ne_reset_of_enabled {x : Ring} (h : x.enabled = true) : x ≠ Ring.reset := by
  rintro rfl
  cases h

theorem rings_of_canonOk {s : State} (h : canonOk s = true) : twf (fun _ => Ring.reset) s.host.rings = true := by
  simp only [canonOk, Bool.and_eq_true] at h
  tauto

theorem hostMem_of_canonOk {s : State} (h : canonOk s = true) : memWf s.host.mem = true := by
  simp only [canonOk, memoryOk, Bool.and_eq_true] at h
  tauto

theorem ring_withRing {s : State} (hs : twf (fun _ => Ring.reset) s.host.rings = true) (r : Nat) (x : Ring) (k : Nat) :
    (s.withRing r x).ring k = if k = r then x else s.ring k := tget_tput _ _ r x k 0 hs

theorem begun_ring_other {s : State} {h : Hdr} {c : CmdInfo} (ha : accepts s h c = true) {k : Nat} (hk : k ≠ h.ring) :
    (begun s h c).ring k = s.ring k := by
  have henabled : (s.ring h.ring).enabled = true := by
    have := begun_enabled s h c ha
    rwa [begun_ring s h c ha] at this
  exact ring_withRing_other (s := s.at h.t) (ne_reset_of_enabled henabled) hk

theorem ring_putReply_other {s : State} {r : Reply} {k : Nat} (hk : k ≠ r.ring) : (s.putReply r).ring k = s.ring k := by
  have hwrite : ∀ (u : State) (x : Ring), x.enabled = true → (u.withRing r.ring x).ring k = u.ring k :=
    fun u x hx => ring_withRing_other (ne_reset_of_enabled hx) hk
  unfold State.putReply
  extract_lets g r' sent tail n due stored traced
  split
  · rfl
  next henabled =>
    have htraced : traced.ring k = s.ring k :=
      (ring_traceRec _ _ _ _ _).trans ((hwrite _ _ (by simpa using henabled)).trans (ring_dmaWrite _ _ _ _))
    split
    · exact (ring_signal _ _ _).trans htraced
    · exact htraced

/-- The final reply of a command leaves every other ring. -/
theorem finalShort_ring_other {s : State} {ring k : Nat} (tag opcode : Nat) (a : Answer) (henabled : (s.ring ring).enabled = true)
    (hk : k ≠ ring) : (s.finalShort false ring tag opcode a).ring k = s.ring k := by
  simp only [State.finalShort, Bool.false_eq_true, if_false]
  rw [ring_putReply_other hk]
  exact ring_withRing_other (ne_reset_of_enabled henabled) hk

/-- An accepted command leaves every other ring as its rules do. -/
theorem hostCmd_ring_other {i : Instr} {h : Hdr} {c : CmdInfo} {body : State → State × Answer} {s u : State} {a : Answer}
    (ha : accepts s h c = true) (hbody : body (begun s h c) = (u, a)) (hring : u.ring h.ring = (begun s h c).ring h.ring) {k : Nat}
    (hk : k ≠ h.ring) : (hostCmd i h c body s).ring k = u.ring k := by
  rw [(hostCmd_replies i h c body s ha (by rw [hbody]; exact hring)).1, hbody]
  exact finalShort_ring_other _ _ _ (by rw [hring]; exact begun_enabled s h c ha) hk

/-! ## A reply stores its entry alone (R321, R326) -/

/-- An accepted command whose rules leave host memory and its own ring writes the 32 bytes of its reply, and nothing else. -/
theorem hostCmd_storesEntry {i : Instr} {h : Hdr} {c : CmdInfo} {body : State → State × Answer} {s : State} (hs : memWf s.host.mem = true)
    (hup : s.host.linkUp = true) (ha : accepts s h c = true)
    (hmem : (body (begun s h c)).1.host.mem = s.host.mem) (hlink : (body (begun s h c)).1.host.linkUp = s.host.linkUp)
    (hring : (body (begun s h c)).1.ring h.ring = (begun s h c).ring h.ring) {a : Nat}
    (hout : a < (s.ring h.ring).replyBase + 32 * (s.ring h.ring).replyTail
      ∨ (s.ring h.ring).replyBase + 32 * (s.ring h.ring).replyTail + 32 ≤ a) :
    tget zeroByte (hostCmd i h c body s).host.mem a = tget zeroByte s.host.mem a := by
  have henabled : ((body (begun s h c)).1.ring h.ring).enabled = true := by
    rw [hring]
    exact begun_enabled s h c ha
  obtain ⟨rep, hlength, hrep⟩ := finalShort_mem h.tag c.opcode (body (begun s h c)).2 henabled (hlink.trans hup)
  have hplace : ((body (begun s h c)).1.ring h.ring).replyBase + 32 * ((body (begun s h c)).1.ring h.ring).replyTail
      = (s.ring h.ring).replyBase + 32 * (s.ring h.ring).replyTail := by rw [hring, begun_ring s h c ha]
  rw [(hostCmd_replies i h c body s ha hring).1, hrep, hmem, hplace]
  exact tget_mwrite_frame _ _ _ _ hs (by rwa [hlength])

/-- A command of those named leaves host memory, the link and its own ring to its reply. -/
def repliesAlone (i : Instr) (h : Hdr) (c : CmdInfo) : Prop :=
  ∃ i' body, (∀ s, exec i s = .next (hostCmd i' h c body s))
    ∧ ∀ s, accepts s h c = true → twf (fun _ => Ring.reset) s.host.rings = true →
      (body (begun s h c)).1.host.mem = s.host.mem ∧ (body (begun s h c)).1.host.linkUp = s.host.linkUp
        ∧ (body (begun s h c)).1.ring h.ring = (begun s h c).ring h.ring

theorem progressBody_state (ring tag : Nat) (s : State) : (progressBody ring tag s).1 = s := by
  unfold progressBody
  split <;> rfl

theorem repliesAlone_getProgress (h : Hdr) (ring tag : Nat) : repliesAlone (.getProgress h ring tag) h (cmdOf 0x0004 0) := by
  refine ⟨_, _, fun s => rfl, fun s ha hs => ?_⟩
  rw [progressBody_state]
  exact ⟨rfl, rfl, rfl⟩

/-- RING_CONFIG DISABLE comes by ring 0, which it refuses to disable. -/
theorem repliesAlone_ringConfigDisable (h : Hdr) (ring : Nat) : repliesAlone (.ringConfigDisable h ring) h (cmdOf 0x0010 0) := by
  refine ⟨_, _, fun s => rfl, fun s ha hs => ?_⟩
  have hown : h.ring = 0 := ring_of_admin ha rfl
  unfold ringDisableBody
  split
  · exact ⟨rfl, rfl, rfl⟩
  next hrange =>
    split
    · exact ⟨rfl, rfl, rfl⟩
    · refine ⟨rfl, rfl, (ring_withRing (twf_tput _ _ _ _ hs) _ _ _).trans (if_neg ?_)⟩
      omega

theorem foldl_replyFrame {β : Type} {f : State → β → State} (hf : ∀ s x, replyFrame s (f s x)) (l : List β) (s : State) :
    replyFrame s (l.foldl f s) := foldl_keeps replyFrame replyFrame.refl replyFrame.trans f hf l s

theorem foldl_signal_same (f : Nat → Nat) (l : List Nat) (s : State) :
    (l.foldl (fun s i => s.signal (f i)) s).host.mem = s.host.mem
      ∧ ∀ r, (l.foldl (fun s i => s.signal (f i)) s).ring r = s.ring r := by
  induction l generalizing s with
  | nil => exact ⟨rfl, fun _ => rfl⟩
  | cons i l ih =>
    obtain ⟨hmem, hring⟩ := ih (s.signal (f i))
    exact ⟨hmem.trans (signal_mem s _), fun r => (hring r).trans (ring_signal s _ r)⟩

theorem repliesAlone_eventConfigEnable (h : Hdr) (mask : Nat) : repliesAlone (.eventConfigEnable h mask) h (cmdOf 0x0011 0) := by
  refine ⟨_, _, fun s => rfl, fun s ha hs => ?_⟩
  unfold eventEnableBody
  split
  · exact ⟨rfl, rfl, rfl⟩
  · extract_lets was _ enabled newly
    obtain ⟨hmem, hring⟩ := foldl_signal_same (64 + ·) newly enabled
    have hlink : (newly.foldl (fun s i => s.signal (64 + i)) enabled).host.linkUp = enabled.host.linkUp := by
      rw [foldl_replyFrame (fun s i => signal_frame s _) newly enabled]
    exact ⟨hmem, hlink, hring _⟩

theorem repliesAlone_logReadAck (h : Hdr) (first : Nat) : repliesAlone (.logReadAck h first) h (cmdOf 0x00F0 1) := by
  refine ⟨_, _, fun s => rfl, fun s ha hs => ?_⟩
  unfold ackBody
  split <;> exact ⟨rfl, rfl, rfl⟩

/-- The other commands named answer at once, at most after a change outside the host interface. -/
theorem repliesAlone_of_host {i i' : Instr} {h : Hdr} {c : CmdInfo} {body : State → State × Answer}
    (hexec : ∀ s, exec i s = .next (hostCmd i' h c body s)) (hbody : ∀ s, (body s).1.host = s.host) : repliesAlone i h c :=
  ⟨i', body, hexec, fun s _ _ => by
    rw [State.ring, State.ring, hbody]
    exact ⟨rfl, rfl, rfl⟩⟩

/-- Settles O5: of the commands named each leaves host memory and its ring to its reply. -/
theorem replyStoresOnlyItsEntry : Obligations.ReplyStoresOnlyItsEntry := by
  unfold Obligations.ReplyStoresOnlyItsEntry
  intro s t h i c ring tag mask first hcanon hup hi ha ht a hout
  have halone : repliesAlone i h c := by
    simp only [List.mem_cons, Prod.mk.injEq, List.not_mem_nil, or_false] at hi
    rcases hi with ⟨rfl, rfl⟩ | ⟨rfl, rfl⟩ | ⟨rfl, rfl⟩ | ⟨rfl, rfl⟩ | ⟨rfl, rfl⟩ | ⟨rfl, rfl⟩ | ⟨rfl, rfl⟩ | ⟨rfl, rfl⟩ | ⟨rfl, rfl⟩
      | ⟨rfl, rfl⟩
    · exact repliesAlone_of_host (fun s => rfl) (fun s => rfl)
    · exact repliesAlone_of_host (fun s => rfl) (fun s => rfl)
    · exact repliesAlone_of_host (fun s => rfl) (fun s => rfl)
    · exact repliesAlone_getProgress h ring tag
    · exact repliesAlone_ringConfigDisable h ring
    · exact repliesAlone_eventConfigEnable h mask
    · exact repliesAlone_logReadAck h first
    · exact repliesAlone_of_host (fun s => rfl) (fun s => rfl)
    · exact repliesAlone_of_host (fun s => rfl) (fun s => rfl)
    · exact repliesAlone_of_host (fun s => rfl) (fun s => rfl)
  obtain ⟨i', body, hexec, hbody⟩ := halone
  obtain ⟨hmem, hlink, hring⟩ := hbody s ha (rings_of_canonOk hcanon)
  rw [hexec] at ht
  cases ht
  exact hostCmd_storesEntry (hostMem_of_canonOk hcanon) hup ha hmem hlink hring hout

end Sys2Proof.Machine
end

section
/-! What the host sets up: RING_CONFIG and EVENT_CONFIG (R244, R323, R336, R343), and the registers that it writes (R319, R322, R353 to R357). -/

namespace Sys2Proof.Machine

open Sys2Proof

/-! ## RING_CONFIG (R323, R343) -/

theorem ringConfigEnable_sets (s : State) (h : Hdr) (ring log2 vector n us cb rb : Nat) (ha : accepts s h (cmdOf 0x0010 1) = true)
    (hlow : 1 ≤ ring) (hhigh : ring ≤ 63) (hsmall : 4 ≤ log2) (hlarge : log2 ≤ 12) (hvector : vector ≤ 63) (hn : n ≤ 64) (hus : us ≤ 1000)
    (hcb : cb % 4096 = 0) (hrb : rb % 4096 = 0) (hoff : (s.ring ring).enabled = false) :
    ∃ t, exec (.ringConfigEnable h ring log2 vector n us cb rb) s = .next t ∧ repliedWith t h.ring h.tag 0x0010 stOk [] = true
      ∧ t.ring ring = { Ring.reset with enabled := true, cmdBase := cb, replyBase := rb, log2 := log2, vector := vector, coalN := n
                                        coalUs := us, phase := true, orphans := (s.ring ring).orphans }
      ∧ hostOnly s t h := by
  have hother : ring ≠ h.ring := by
    have := ring_of_admin ha rfl
    omega
  have hkept := begun_ring_other ha hother
  have hranges : ¬(ring < 1 ∨ 63 < ring ∨ log2 < 4 ∨ 12 < log2 ∨ 63 < vector ∨ 64 < n ∨ 1000 < us ∨ cb % 4096 ≠ 0 ∨ rb % 4096 ≠ 0) := by
    omega
  have hbody : ringEnableBody ring log2 vector n us cb rb (begun s h (cmdOf 0x0010 1))
      = ((begun s h (cmdOf 0x0010 1)).withRing ring
          { enabledRing log2 vector n us cb rb with orphans := ((begun s h (cmdOf 0x0010 1)).ring ring).orphans }, refuse stOk) := by
    simp only [ringEnableBody, hranges, if_false, hkept, hoff, Bool.false_eq_true]
  have hring := ring_withRing_other (s := begun s h (cmdOf 0x0010 1))
    (ne_reset_of_enabled (x := { enabledRing log2 vector n us cb rb with orphans := ((begun s h (cmdOf 0x0010 1)).ring ring).orphans }) rfl)
    hother.symm
  obtain ⟨hreply, honly⟩ := hostCmd_answers (s' := s) (i := .ringConfigEnable (unstarted h) ring log2 vector n us cb rb) ha hbody hring rfl
  refine ⟨_, rfl, hreply, ?_, honly⟩
  rw [hostCmd_ring_other ha hbody hring hother, ring_withRing_enabled _ _ _ rfl, hkept]
  rfl

theorem ringConfigDisable_stops (s : State) (h : Hdr) (ring : Nat) (ha : accepts s h (cmdOf 0x0010 0) = true) (hlow : 1 ≤ ring)
    (hhigh : ring ≤ 63) (howed : (s.ring ring).owed = 0) (hs : canonOk s = true) :
    ∃ t, exec (.ringConfigDisable h ring) s = .next t ∧ repliedWith t h.ring h.tag 0x0010 stOk [] = true
      ∧ (t.ring ring).enabled = false ∧ hostOnly s t h := by
  have hother : ring ≠ h.ring := by
    have := ring_of_admin ha rfl
    omega
  have hrange : ¬(ring < 1 ∨ 63 < ring) := by omega
  have hfree : ¬0 < ((begun s h (cmdOf 0x0010 0)).ring ring).owed := by
    rw [begun_ring_other ha hother]
    omega
  have hbody : ringDisableBody ring (begun s h (cmdOf 0x0010 0)) = ((begun s h (cmdOf 0x0010 0)).withRing ring
      { (begun s h (cmdOf 0x0010 0)).ring ring with enabled := false }, refuse stOk) := by
    simp only [ringDisableBody, hrange, hfree, if_false]
  have hrings := ring_withRing (s := begun s h (cmdOf 0x0010 0)) (twf_tput _ _ _ _ (rings_of_canonOk hs)) ring
    { (begun s h (cmdOf 0x0010 0)).ring ring with enabled := false }
  have hring := (hrings h.ring).trans (if_neg hother.symm)
  obtain ⟨hreply, honly⟩ := hostCmd_answers (s' := s) (i := .ringConfigDisable (unstarted h) ring) ha hbody hring rfl
  refine ⟨_, rfl, hreply, ?_, honly⟩
  rw [hostCmd_ring_other ha hbody hring hother, hrings, if_pos rfl]

theorem plumeEnable_starts (s : State) (h : Hdr) (log2 vector n us base every : Nat) (ha : accepts s h (cmdOf 0x0010 2) = true)
    (hsmall : 6 ≤ log2) (hlarge : log2 ≤ 16) (hvector : vector ≤ 63) (hn : n ≤ 64) (hus : us ≤ 1000) (hbase : base % 4096 = 0)
    (hevery : every = 0 ∨ (every % 64 = 0 ∧ 64 ≤ every ∧ every ≤ 1048576)) (hoff : s.host.plume.enabled = false) :
    ∃ t, exec (.plumeEnable h log2 vector n us base every) s = .next t ∧ repliedWith t h.ring h.tag 0x0010 stOk [] = true
      ∧ t.host.plume = { Plume.reset with enabled := true, base := base, log2 := log2, vector := vector, coalN := n, coalUs := us
                                          interval := if every = 0 then 4096 else every, phase := true, seq := s.host.plume.seq
                                          snap := s.host.plume.snap, summaryAt := max s.clk.elapsed h.t }
      ∧ hostOnly (s.withHost { s.host with plume := t.host.plume }) t h := by
  have hranges : ¬(log2 < 6 ∨ 16 < log2 ∨ 63 < vector ∨ 64 < n ∨ 1000 < us ∨ base % 4096 ≠ 0
      ∨ (if every = 0 then 4096 else every) % 64 ≠ 0 ∨ (if every = 0 then 4096 else every) < 64
      ∨ 1048576 < (if every = 0 then 4096 else every)) := by
    split <;> omega
  have hstopped : ¬(begun s h (cmdOf 0x0010 2)).host.plume.enabled = true := by
    rw [show (begun s h (cmdOf 0x0010 2)).host.plume.enabled = false from hoff]
    decide
  have hbody : plumeEnableBody log2 vector n us base every (begun s h (cmdOf 0x0010 2)) = _ := (if_neg hranges).trans (if_neg hstopped)
  obtain ⟨hreply, honly⟩ := hostCmd_answers (i := .plumeEnable (unstarted h) log2 vector n us base every) (s' := s.withHost { s.host with
    plume := { Plume.reset with enabled := true, base := base, log2 := log2, vector := vector, coalN := n, coalUs := us
                                interval := if every = 0 then 4096 else every, phase := true, seq := s.host.plume.seq
                                snap := s.host.plume.snap, summaryAt := max s.clk.elapsed h.t } }) ha hbody rfl rfl
  have hplume := congrArg (fun t : State => t.host.plume) honly
  refine ⟨_, rfl, hreply, hplume, ?_⟩
  rw [hplume]
  exact honly

theorem plumeDisable_stops (s : State) (h : Hdr) (ha : accepts s h (cmdOf 0x0010 3) = true) :
    ∃ t, exec (.plumeDisable h) s = .next t ∧ repliedWith t h.ring h.tag 0x0010 stOk [] = true
      ∧ hostOnly (s.withHost { s.host with plume := { s.host.plume with enabled := false } }) t h :=
  ⟨_, rfl, hostCmd_answers (u := plumeOff (begun s h (cmdOf 0x0010 3))) (a := refuse stOk) (s' := plumeOff s) ha rfl rfl rfl⟩

/-! ## EVENT_CONFIG (R244, R336) -/

theorem eventConfigEnable_sets (s : State) (h : Hdr) (mask : Nat) (ha : accepts s h (cmdOf 0x0011 0) = true) (hmask : mask < 65536) :
    ∃ t, exec (.eventConfigEnable h mask) s = .next t ∧ repliedWith t h.ring h.tag 0x0011 stOk [] = true
      ∧ hostOnly (s.withHost { s.host with evtEnable := BitVec.ofNat 16 mask }) t h := by
  have hbody : eventEnableBody mask (begun s h (cmdOf 0x0011 0)) = _ := if_neg (Nat.not_le.mpr hmask)
  refine ⟨_, rfl, hostCmd_answers ha hbody ((foldl_signal_same (64 + ·) _ _).2 _) ?_⟩
  exact hostOnly.trans_reply (t := (begun s h (cmdOf 0x0011 0)).withHost { (begun s h (cmdOf 0x0011 0)).host with
    evtEnable := BitVec.ofNat 16 mask }) rfl (foldl_replyFrame (fun s i => signal_frame s _) _ _)

theorem comparator_off (s : State) (h : Hdr) (k w period : Nat) (ha : accepts s h (cmdOf 0x0011 1) = true) (hk : k ≤ 7) :
    ∃ t, exec (.eventConfigComparator h k 0 w period) s = .next t ∧ repliedWith t h.ring h.tag 0x0011 stOk [] = true
      ∧ hostOnly (s.withComparator k Comparator.reset) t h := by
  have hlegal : ¬(7 < k ∨ 2 < 0 ∨ (0 = 2 ∧ (period = 0 ∨ 2 ^ 32 ≤ period)) ∨ (0 = 1 ∧ w ≤ nextTick (begun s h (cmdOf 0x0011 1)))) := by omega
  have hbody : comparatorBody k 0 w period (begun s h (cmdOf 0x0011 1))
      = ((begun s h (cmdOf 0x0011 1)).withComparator k Comparator.reset, refuse stOk) := if_neg hlegal
  exact ⟨_, rfl, hostCmd_answers ha hbody rfl rfl⟩

theorem comparator_once (s : State) (h : Hdr) (k w period : Nat) (ha : accepts s h (cmdOf 0x0011 1) = true) (hk : k ≤ 7)
    (hw : s.web.webPos + 1 < w) :
    ∃ t, exec (.eventConfigComparator h k 1 w period) s = .next t ∧ repliedWith t h.ring h.tag 0x0011 stOk [] = true
      ∧ hostOnly (s.withComparator k { mode := 1, period := period, w := w }) t h := by
  have hnext : nextTick (begun s h (cmdOf 0x0011 1)) = s.web.webPos + 1 := rfl
  have hlegal : ¬(7 < k ∨ 2 < 1 ∨ (1 = 2 ∧ (period = 0 ∨ 2 ^ 32 ≤ period)) ∨ (1 = 1 ∧ w ≤ nextTick (begun s h (cmdOf 0x0011 1)))) := by omega
  have hbody : comparatorBody k 1 w period (begun s h (cmdOf 0x0011 1))
      = ((begun s h (cmdOf 0x0011 1)).withComparator k { mode := 1, period := period, w := w }, refuse stOk) := if_neg hlegal
  exact ⟨_, rfl, hostCmd_answers ha hbody rfl rfl⟩

/-- The position at which a PERIODIC comparator is held: the first of its positions beyond `p` (R244). -/
theorem firstBeyond_first {w period p : Nat} (hperiod : 1 ≤ period) :
    p < firstBeyond w period p ∧ (∃ j, firstBeyond w period p = w + j * period)
      ∧ (firstBeyond w period p = w ∨ firstBeyond w period p ≤ p + period) := by
  unfold firstBeyond
  split
  next hlt => exact ⟨hlt, ⟨0, by simp⟩, .inl rfl⟩
  next hle =>
    have hdiv := Nat.div_add_mod (p - w) period
    have hmod := Nat.mod_lt (p - w) hperiod
    have hmul : ((p - w) / period + 1) * period = period * ((p - w) / period) + period := by ring
    exact ⟨by omega, ⟨_, rfl⟩, .inr (by omega)⟩

theorem comparator_periodic (s : State) (h : Hdr) (k w period : Nat) (ha : accepts s h (cmdOf 0x0011 1) = true) (hk : k ≤ 7)
    (hperiod : 1 ≤ period) (hwidth : period < 2 ^ 32) :
    ∃ t c, exec (.eventConfigComparator h k 2 w period) s = .next t ∧ repliedWith t h.ring h.tag 0x0011 stOk [] = true
      ∧ c.mode = 2 ∧ c.period = period ∧ s.web.webPos + 1 < c.w ∧ (∃ j, c.w = w + j * period)
      ∧ (c.w = w ∨ c.w ≤ s.web.webPos + 1 + period)
      ∧ hostOnly (s.withComparator k c) t h := by
  have hlegal : ¬(7 < k ∨ 2 < 2 ∨ (2 = 2 ∧ (period = 0 ∨ 2 ^ 32 ≤ period)) ∨ (2 = 1 ∧ w ≤ nextTick (begun s h (cmdOf 0x0011 1)))) := by omega
  have hbody : comparatorBody k 2 w period (begun s h (cmdOf 0x0011 1)) = ((begun s h (cmdOf 0x0011 1)).withComparator k
      { mode := 2, period := period, w := firstBeyond w period (s.web.webPos + 1) }, refuse stOk) := if_neg hlegal
  obtain ⟨hbeyond, hmultiple, hfirst⟩ := firstBeyond_first (w := w) (p := s.web.webPos + 1) hperiod
  obtain ⟨hreply, honly⟩ := hostCmd_answers (i := .eventConfigComparator (unstarted h) k 2 w period)
    (s' := s.withComparator k { mode := 2, period := period, w := firstBeyond w period (s.web.webPos + 1) }) ha hbody rfl rfl
  exact ⟨_, _, rfl, hreply, rfl, rfl, hbeyond, hmultiple, hfirst, honly⟩

/-- Settles O3: each clause by its lemma. PLUME_ENABLE keeps SEQ and counts the summaries of IDLE from itself by the model's choice (log 40,
log 94). -/
theorem hostConfigCompletes : Obligations.HostConfigCompletes := by
  unfold Obligations.HostConfigCompletes
  exact ⟨ringConfigEnable_sets, ringConfigDisable_stops, plumeEnable_starts, plumeDisable_stops, eventConfigEnable_sets, comparator_off,
    comparator_once, comparator_periodic⟩

/-! ## Doorbells (R319, R353, R356) -/

theorem exec_cmdTailWrite {s : State} {r v : Nat} (hup : s.host.linkUp = true) (hr : r ≤ 63) :
    exec (.cmdTailWrite r v) s = .next (writeCmdTail r (v % 65536) s) := by
  have hserved : ¬((!s.host.linkUp) = true ∨ 63 < r) := by simp [hup, hr]
  exact congrArg Host.Outcome.next (if_neg hserved)

theorem exec_replyHeadWrite {s : State} {r v : Nat} (hup : s.host.linkUp = true) (hr : r ≤ 63) :
    exec (.replyHeadWrite r v) s = .next (writeReplyHead r (v % 65536) s) := by
  have hserved : ¬((!s.host.linkUp) = true ∨ 63 < r) := by simp [hup, hr]
  exact congrArg Host.Outcome.next (if_neg hserved)

/-- A register that is written while the link is up. -/
theorem next_of_linkUp {s t : State} (hup : s.host.linkUp = true) : (Host.Outcome.next (if (!s.host.linkUp) = true then s else t) : Result) = .next t := by
  rw [hup]
  rfl

section
variable {s : State} {r v : Nat}

theorem writeCmdTail_stores (hon : (s.ring r).enabled = true) (hv : v < (s.ring r).entries) :
    writeCmdTail r v s = s.withRing r { s.ring r with cmdTail := v } := by
  simp [writeCmdTail, hon, Nat.not_le.mpr hv]

theorem writeCmdTail_bad (hon : (s.ring r).enabled = true) (hv : (s.ring r).entries ≤ v) : writeCmdTail r v s = badDoorbell r v s := by
  simp [writeCmdTail, hon, hv]

theorem writeReplyHead_stores (hon : (s.ring r).enabled = true) (hv : v < (s.ring r).entries)
    (hspan : (v + (s.ring r).entries - (s.ring r).replyHead) % (s.ring r).entries ≤ (s.ring r).unread) :
    writeReplyHead r v s = s.withRing r { s.ring r with replyHead := v } := by
  simp [writeReplyHead, hon, Nat.not_le.mpr hv, Nat.not_lt.mpr hspan]

theorem writeReplyHead_bad (hon : (s.ring r).enabled = true)
    (hspan : (s.ring r).unread < (v + (s.ring r).entries - (s.ring r).replyHead) % (s.ring r).entries) :
    writeReplyHead r v s = badDoorbell r v s := by
  simp [writeReplyHead, hon, hspan]

end

theorem doorbells_off (s : State) (r v : Nat) (hup : s.host.linkUp = true) (hr : r ≤ 63) (hoff : (s.ring r).enabled = false) :
    exec (.cmdTailWrite r v) s = .next (s.count 30) ∧ exec (.replyHeadWrite r v) s = .next (s.count 30) := by
  rw [exec_cmdTailWrite hup hr, exec_replyHeadWrite hup hr]
  simp [writeCmdTail, writeReplyHead, hoff]

theorem plumeHeadWrite_stores (s : State) (v : Word32) (hup : s.host.linkUp = true) (hon : s.host.plume.enabled = true)
    (hv : v.toNat < 65536) (hsize : v.toNat < 2 ^ s.host.plume.log2)
    (hspan : (v.toNat + 2 ^ s.host.plume.log2 - s.host.plume.head) % 2 ^ s.host.plume.log2 ≤ s.host.plume.used) :
    exec (.plumeHeadWrite v) s = .next (s.withHost { s.host with plume := { s.host.plume with head := v.toNat } }) := by
  refine (next_of_linkUp hup).trans ?_
  simp only [writePlumeHead, Nat.mod_eq_of_lt hv, hon, Nat.not_le.mpr hsize, Nat.not_lt.mpr hspan, Bool.not_true, Bool.false_eq_true, or_self,
    if_false]

theorem plumeHeadWrite_bad (s : State) (v : Word32) (hup : s.host.linkUp = true) (_ : s.host.plume.enabled = true)
    (hv : v.toNat < 65536)
    (hspan : s.host.plume.used < (v.toNat + 2 ^ s.host.plume.log2 - s.host.plume.head) % 2 ^ s.host.plume.log2) :
    exec (.plumeHeadWrite v) s = .next (s.count 30) := by
  refine (next_of_linkUp hup).trans ?_
  simp only [writePlumeHead, Nat.mod_eq_of_lt hv, hspan, or_true, if_true]

/-! ## Ring 0 (R322, R355) -/

theorem ring0EnableWrite_serves (s : State) (v : Word32) (hup : s.host.linkUp = true) (hoff : (s.ring 0).enabled = false)
    (hset : v.toNat.testBit 0 = true) (hsmall : 4 ≤ v.toNat / 256 % 16) (hlarge : v.toNat / 256 % 16 ≤ 12) :
    exec (.ring0EnableWrite v) s = .next (s.withRing 0 { Ring.reset with
      enabled := true, cmdBase := (s.ring 0).cmdBase, replyBase := (s.ring 0).replyBase, log2 := v.toNat / 256 % 16
      vector := v.toNat / 65536 % 64, coalN := (s.ring 0).coalN, coalUs := (s.ring 0).coalUs, phase := true
      orphans := (s.ring 0).orphans }) := by
  have hsize : ¬(bits v.toNat 8 4 < 4 ∨ 12 < bits v.toNat 8 4) := by
    change ¬(v.toNat / 2 ^ 8 % 2 ^ 4 < 4 ∨ 12 < v.toNat / 2 ^ 8 % 2 ^ 4)
    omega
  refine (next_of_linkUp hup).trans ?_
  simp only [writeRing0Control, hoff, bit, hset, hsize, Bool.not_true, Bool.false_eq_true, if_false]
  rfl

theorem ring0EnableWrite_ignored (s : State) (v : Word32) (hup : s.host.linkUp = true) (hon : (s.ring 0).enabled = true) :
    exec (.ring0EnableWrite v) s = .next s := by
  refine (next_of_linkUp hup).trans ?_
  simp only [writeRing0Control, hon, if_true]

theorem ring0EnableWrite_refuses (s : State) (v : Word32) (hup : s.host.linkUp = true) (hoff : (s.ring 0).enabled = false)
    (hset : v.toNat.testBit 0 = true) (hsize : v.toNat / 256 % 16 < 4 ∨ 12 < v.toNat / 256 % 16) :
    exec (.ring0EnableWrite v) s = .next ((s.withRing 0 { s.ring 0 with
      log2 := v.toNat / 256 % 16, vector := v.toNat / 65536 % 64 }).report 0x6002 (logKey none none none none) 0 []) := by
  have hsize : bits v.toNat 8 4 < 4 ∨ 12 < bits v.toNat 8 4 := hsize
  refine (next_of_linkUp hup).trans ?_
  simp only [writeRing0Control, hoff, bit, hset, hsize, Bool.not_true, Bool.false_eq_true, if_false, if_true]
  rfl

/-! ## Event and match status (R336, R356) -/

theorem evtStatusClear_clears (s : State) (v : Word32) (hup : s.host.linkUp = true) : ∃ t, exec (.evtStatusClear v) s = .next t
    ∧ t = s.withHost { s.host with evtStatus := t.host.evtStatus }
    ∧ ∀ i, i < 16 → t.host.evtStatus.getLsbD i = (s.host.evtStatus.getLsbD i && !v.getLsbD i) := by
  refine ⟨_, next_of_linkUp hup, rfl, fun i hi => ?_⟩
  simp [writeEvtStatus, hi]

theorem matchStatusClear_clears (s : State) (v : Word32) (hup : s.host.linkUp = true) : ∃ t, exec (.matchStatusClear v) s = .next t
    ∧ t = s.withHost { s.host with matchStatus := t.host.matchStatus }
    ∧ ∀ i, i < 8 → t.host.matchStatus.getLsbD i = (s.host.matchStatus.getLsbD i && !v.getLsbD i) := by
  refine ⟨_, next_of_linkUp hup, rfl, fun i hi => ?_⟩
  simp [writeMatchStatus, hi]

/-! ## MSI-X (R357) -/

theorem exec_msixVectorUnmask {s : State} {k a d : Nat} (hup : s.host.linkUp = true) (hk : k ≤ 79) (ha : a < 2 ^ 64) (hd : d < 2 ^ 32) :
    exec (.msixVectorUnmask k a d) s = .next (writeMsix k { addr := a, data := d, masked := false } s) := by
  have hserved : ¬((!s.host.linkUp) = true ∨ 79 < k) := by simp [hup, hk]
  refine congrArg Host.Outcome.next ((if_neg hserved).trans ?_)
  rw [Nat.mod_eq_of_lt ha, Nat.mod_eq_of_lt hd]

/-- The MSI-X table with an entry that is not masked. -/
theorem msixEntry_put {s : State} (m : HostIf) {k : Nat} {e : Msix} (he : e.masked = false)
    (hm : m.msix = tput (fun _ => Msix.reset) s.host.msix k e) : (s.withHost m).msixEntry k = e := by
  have hne : e ≠ Msix.reset := by
    rintro rfl
    cases he
  change tget _ m.msix k = e
  rw [hm]
  exact tget_tput_same _ _ _ _ hne

theorem signal_sends {s : State} {v : Nat} (h : (s.msixEntry v).masked = false) :
    s.signal v = s.withHost { s.host with messages := nput s.host.messages v (nget s.host.messages v + 1) } :=
  if_neg (by simp [h])

theorem pba_cleared (p : BitVec 80) (k j : Nat) :
    (p &&& ~~~(BitVec.ofNat 80 (2 ^ k))).getLsbD j = (p.getLsbD j && decide (j ≠ k)) := by
  by_cases hj : j < 80
  · rw [BitVec.getLsbD_and, BitVec.getLsbD_not, BitVec.getLsbD_ofNat, Nat.testBit_two_pow]
    simp [hj, eq_comm]
  · simp [BitVec.getLsbD_of_ge _ _ (Nat.le_of_not_lt hj)]

theorem msixVectorUnmask_sends (s : State) (k a d : Nat) (hup : s.host.linkUp = true) (hk : k ≤ 79) (ha : a < 2 ^ 64) (hd : d < 2 ^ 32)
    (hpending : s.host.pba.getLsbD k = true) :
    ∃ t, exec (.msixVectorUnmask k a d) s = .next t
      ∧ t.msixEntry k = { addr := a, data := d, masked := false }
      ∧ t.host.pba.getLsbD k = false ∧ (∀ j, j ≠ k → t.host.pba.getLsbD j = s.host.pba.getLsbD j)
      ∧ t.host.messages = nput s.host.messages k (nget s.host.messages k + 1)
      ∧ t = s.withHost { s.host with msix := t.host.msix, pba := t.host.pba, messages := t.host.messages } := by
  have hentry := fun m hm => msixEntry_put (s := s) m (k := k) (e := { addr := a, data := d, masked := false }) rfl hm
  have hwrite : writeMsix k { addr := a, data := d, masked := false } s = s.withHost { s.host with
      msix := tput (fun _ => Msix.reset) s.host.msix k { addr := a, data := d, masked := false }
      pba := s.host.pba &&& ~~~(BitVec.ofNat 80 (2 ^ k)), messages := nput s.host.messages k (nget s.host.messages k + 1) } := by
    have hunmasked : ((s.withHost { s.host with
        msix := tput (fun _ => Msix.reset) s.host.msix k { addr := a, data := d, masked := false }
        pba := s.host.pba &&& ~~~(BitVec.ofNat 80 (2 ^ k)) }).msixEntry k).masked = false := by rw [hentry _ rfl]
    simp only [writeMsix, hpending, withHost_host, Bool.not_false, Bool.and_self, if_true]
    exact signal_sends hunmasked
  refine ⟨_, (exec_msixVectorUnmask hup hk ha hd).trans (congrArg _ hwrite), hentry _ rfl, ?_, fun j hj => ?_, rfl, rfl⟩
  · exact (pba_cleared _ _ _).trans (by simp)
  · exact (pba_cleared _ _ _).trans (by simp [hj])

theorem msixVectorUnmask_quiet (s : State) (k a d : Nat) (hup : s.host.linkUp = true) (hk : k ≤ 79) (ha : a < 2 ^ 64) (hd : d < 2 ^ 32)
    (hidle : s.host.pba.getLsbD k = false) :
    ∃ t, exec (.msixVectorUnmask k a d) s = .next t ∧ t.msixEntry k = { addr := a, data := d, masked := false }
      ∧ t = s.withHost { s.host with msix := t.host.msix } := by
  have hwrite : writeMsix k { addr := a, data := d, masked := false } s = s.withHost { s.host with
      msix := tput (fun _ => Msix.reset) s.host.msix k { addr := a, data := d, masked := false } } := by
    simp only [writeMsix, withHost_host, hidle, Bool.and_false, Bool.false_eq_true, if_false]
  exact ⟨_, (exec_msixVectorUnmask hup hk ha hd).trans (congrArg _ hwrite), msixEntry_put _ rfl rfl, rfl⟩

/-! ## Coalescing (R323) -/

theorem replyCoalesceTimeout_ring (s : State) (r u : Nat) (hr : r ≤ 63) (hon : (s.ring r).enabled = true) (hwaits : 0 < (s.ring r).unsignalled)
    (hus : (s.ring r).coalUs ≠ 0) (hdue : (s.ring r).oldest + (s.ring r).coalUs * usT ≤ max s.clk.elapsed u)
    (hunmasked : (s.msixEntry (s.ring r).vector).masked = false) :
    ∃ t, exec (.replyCoalesceTimeout r u) s = .next t ∧ (t.ring r).unsignalled = 0
      ∧ nget t.host.messages (s.ring r).vector = nget s.host.messages (s.ring r).vector + 1
      ∧ t = (s.at u).withHost { s.host with rings := t.host.rings, messages := t.host.messages } := by
  have hcond : ((s.at u).ring r).enabled = true ∧ 0 < ((s.at u).ring r).unsignalled ∧ ((s.at u).ring r).coalUs ≠ 0
      ∧ ((s.at u).ring r).oldest + ((s.at u).ring r).coalUs * usT ≤ (s.at u).clk.elapsed := ⟨hon, hwaits, hus, hdue⟩
  have hexec : exec (.replyCoalesceTimeout r u) s = .next (coalesceRing r (s.at u)) := by
    refine congrArg Host.Outcome.next ((if_neg ?_).trans (if_pos ?_)) <;> omega
  have hsent : coalesceRing r (s.at u) = ((s.at u).withRing r { s.ring r with unsignalled := 0 }).withHost _ :=
    (if_pos hcond).trans (signal_sends hunmasked)
  refine ⟨_, hexec.trans (congrArg _ hsent), ?_, ?_, rfl⟩
  · exact congrArg Ring.unsignalled (ring_withRing_enabled (s.at u) r { s.ring r with unsignalled := 0 } hon)
  · exact tget_tput_same _ _ _ _ (Nat.succ_ne_zero _)

theorem replyCoalesceTimeout_plume (s : State) (u : Nat) (hon : s.host.plume.enabled = true) (hwaits : 0 < s.host.plume.unsignalled)
    (hus : s.host.plume.coalUs ≠ 0) (hdue : s.host.plume.oldest + s.host.plume.coalUs * usT ≤ max s.clk.elapsed u)
    (hunmasked : (s.msixEntry s.host.plume.vector).masked = false) :
    exec (.replyCoalesceTimeout 64 u) s = .next ((s.at u).withHost { s.host with
      plume := { s.host.plume with unsignalled := 0 }
      messages := nput s.host.messages s.host.plume.vector (nget s.host.messages s.host.plume.vector + 1) }) := by
  have hcond : (s.at u).host.plume.enabled = true ∧ 0 < (s.at u).host.plume.unsignalled ∧ (s.at u).host.plume.coalUs ≠ 0
      ∧ (s.at u).host.plume.oldest + (s.at u).host.plume.coalUs * usT ≤ (s.at u).clk.elapsed := ⟨hon, hwaits, hus, hdue⟩
  exact congrArg Host.Outcome.next ((if_pos rfl).trans ((if_pos hcond).trans (signal_sends hunmasked)))

/-- Settles O4: each register by its lemmas. The entry RING_DOORBELL_BAD has the ring number as its VALUE by the model's choice (log 40). -/
theorem hostRegisterWritesComplete : Obligations.HostRegisterWritesComplete := by
  unfold Obligations.HostRegisterWritesComplete
  refine ⟨fun s r v hup hr hv hon hlt => ?_, fun s r v hup hr hv hon hle => ?_, doorbells_off, fun s r v hup hr hv hon hlt hspan => ?_,
    fun s r v hup hr hv hon hlt hspan => ?_, plumeHeadWrite_stores, plumeHeadWrite_bad, ring0EnableWrite_serves, ring0EnableWrite_ignored,
    ring0EnableWrite_refuses, evtStatusClear_clears, matchStatusClear_clears, msixVectorUnmask_sends, msixVectorUnmask_quiet,
    replyCoalesceTimeout_ring, replyCoalesceTimeout_plume⟩
  · rw [exec_cmdTailWrite hup hr, Nat.mod_eq_of_lt hv, writeCmdTail_stores hon hlt]
  · rw [exec_cmdTailWrite hup hr, Nat.mod_eq_of_lt hv, writeCmdTail_bad hon hle]
    rfl
  · rw [exec_replyHeadWrite hup hr, Nat.mod_eq_of_lt hv, writeReplyHead_stores hon hlt hspan]
  · rw [exec_replyHeadWrite hup hr, Nat.mod_eq_of_lt hv, writeReplyHead_bad hon hspan]
    rfl

end Sys2Proof.Machine
end

section
/-! Facts that the commands on the head links share: single bits of a mask, and the groups that blocks, power states and enumerations change. -/

namespace Sys2Proof.Machine

open Sys2Proof

/-! ## A bit of a mask -/

/-- Adding a power of two whose bit is clear sets that bit alone. -/
theorem testBit_add_two_pow {v i : Nat} (hclear : v.testBit i = false) (j : Nat) :
    (v + 2 ^ i).testBit j = (v.testBit j || decide (j = i)) := by
  induction i generalizing v j with
  | zero =>
    have heven : v % 2 = 0 := by simpa using hclear
    cases j with
    | zero => simp; omega
    | succ j =>
      have hhalf : (v + 1) / 2 = v / 2 := by omega
      simp [Nat.testBit_add_one, hhalf]
  | succ i ih =>
    rw [Nat.testBit_add_one] at hclear
    cases j with
    | zero => simp [Nat.pow_succ, Nat.add_mul_mod_self_right]
    | succ j =>
      have hhalf : (v + 2 ^ (i + 1)) / 2 = v / 2 + 2 ^ i := by omega
      simp [Nat.testBit_add_one, hhalf, ih hclear]

theorem bit_setBit (v i : Nat) (b : Bool) (j : Nat) : bit (setBit v i b) j = if j = i then b else bit v j := by
  unfold bit setBit
  split
  next hsame => split <;> simp_all
  next hdiffers =>
    cases b with
    | true =>
      rw [if_pos rfl, testBit_add_two_pow (by simpa using hdiffers)]
      by_cases hj : j = i <;> simp [hj]
    | false =>
      have hset : v.testBit i = true := by simpa using hdiffers
      have hsplit : v - 2 ^ i + 2 ^ i = v := Nat.sub_add_cancel (Nat.ge_two_pow_of_testBit hset)
      have hclear : (v - 2 ^ i).testBit i = false := by
        have := Nat.testBit_two_pow_add_eq (v - 2 ^ i) i
        rw [Nat.add_comm, hsplit, hset] at this
        simpa using this.symm
      have hbit := testBit_add_two_pow hclear j
      rw [hsplit] at hbit
      by_cases hj : j = i
      · simp [hj, hclear]
      · simp [hj, hbit]

/-! ## A table whose every entry is put anew -/

section
variable {α : Type} {d : Nat → α}

theorem tget_default_or_listed (d : Nat → α) (t : Tab α) (k : Nat) : tget d t k = d k ∨ ∃ e ∈ t, e.1 = k := by
  induction t with
  | nil => exact .inl rfl
  | cons e t ih =>
    obtain ⟨j, v⟩ := e
    by_cases hk : k = j
    · exact .inr ⟨(j, v), List.mem_cons_self, hk.symm⟩
    · rw [tget, if_neg hk]
      exact ih.imp_right fun ⟨e, he, hkey⟩ => ⟨e, List.mem_cons_of_mem _ he, hkey⟩

variable [DecidableEq α] {f : Nat × α → α} (P : α → Prop)

/-- An entry has what every new entry has when it is put anew, or had it before. -/
theorem tget_foldl_tput (hf : ∀ e, P (f e)) {t : Tab α} (ht : twf d t = true) (l : Tab α) {k : Nat}
    (hk : P (tget d t k) ∨ ∃ e ∈ l, e.1 = k) : P (tget d (l.foldl (fun t e => tput d t e.1 (f e)) t) k) := by
  induction l generalizing t with
  | nil => simpa using hk
  | cons e l ih =>
    have hput := fun j => tget_tput d t e.1 (f e) j 0 ht
    refine ih (twf_tput _ _ _ _ ht) ?_
    rw [hput]
    by_cases hj : k = e.1
    · simp [hj, hf e]
    · simpa [hj, eq_comm] using hk

theorem tget_rebuilt (hd : ∀ k, P (d k)) (hf : ∀ e, P (f e)) {t : Tab α} (ht : twf d t = true) (k : Nat) :
    P (tget d (t.foldl (fun t e => tput d t e.1 (f e)) t) k) := by
  refine tget_foldl_tput P hf ht t ((tget_default_or_listed d t k).imp_left fun hdefault => ?_)
  rw [hdefault]
  exact hd k

end

/-! ## The groups (R154, R198, R203) -/

/-- The groups' table is in canonical form. -/
def GroupsCanon (s : State) : Prop := twf (fun _ => Group.reset) s.link.groups = true

theorem groupsCanon_of_canonOk {s : State} (h : canonOk s = true) : GroupsCanon s := by
  simp only [canonOk, Bool.and_eq_true] at h
  simp only [GroupsCanon, h]

theorem group_withGroup {s : State} (hs : GroupsCanon s) (g : Nat) (x : Group) (j : Nat) :
    (s.withGroup g x).group j = if j = g then x else s.group j := tget_tput _ _ _ _ _ 0 hs

/-- A step for group `g`: the table stays in canonical form and of the groups only `g` changes. -/
structure GroupStep (s t : State) (g : Nat) : Prop where
  canon : GroupsCanon t
  other : ∀ d, d ≠ g → t.group d = s.group d

section
variable {s : State} {g : Nat}

theorem GroupStep.refl (hs : GroupsCanon s) : GroupStep s s g := ⟨hs, fun _ _ => rfl⟩

theorem GroupStep.trans {t u : State} (h1 : GroupStep s t g) (h2 : GroupStep t u g) : GroupStep s u g :=
  ⟨h2.canon, fun d hd => (h2.other d hd).trans (h1.other d hd)⟩

theorem withGroup_step (hs : GroupsCanon s) (x : Group) : GroupStep s (s.withGroup g x) g :=
  ⟨twf_tput _ _ _ _ hs, fun d hd => (group_withGroup hs g x d).trans (if_neg hd)⟩

theorem group_withGroup_same (hs : GroupsCanon s) (x : Group) : (s.withGroup g x).group g = x :=
  (group_withGroup hs g x g).trans (if_pos rfl)

theorem GroupStep.withGroup {t : State} (h : GroupStep s t g) (x : Group) : GroupStep s (t.withGroup g x) g :=
  h.trans (withGroup_step h.canon x)

theorem traceSent_link (g : Nat) (s : State) (b : Blk) : (traceSent g s b).link = s.link := by
  unfold traceSent
  split
  · rw [traceRec_withTrace]
    rfl
  · rfl

/-- Of the head links, blocks that leave change the record of the sent ones alone. -/
theorem sendBlocks_link (s : State) (g : Nat) (bs : List Blk) :
    ∃ sent, (s.sendBlocks g bs).link = (s.withGroup g { s.group g with sent := sent }).link :=
  ⟨_, List.foldlRecOn bs (traceSent g) (motive := fun t => t.link = (s.withGroup g { s.group g with sent := _ }).link) rfl
    (fun t ht b _ => (traceSent_link g t b).trans ht)⟩

theorem sendBlocks_step (hs : GroupsCanon s) (bs : List Blk) : GroupStep s (s.sendBlocks g bs) g := by
  obtain ⟨sent, hlink⟩ := sendBlocks_link s g bs
  obtain ⟨hcanon, hother⟩ := withGroup_step (g := g) hs { s.group g with sent := sent }
  refine ⟨?_, fun d hd => ?_⟩
  · rw [GroupsCanon, hlink]
    exact hcanon
  · rw [State.group, hlink]
    exact hother d hd

theorem sendBlocks_group (hs : GroupsCanon s) (bs : List Blk) :
    ∃ sent, (s.sendBlocks g bs).group g = { s.group g with sent := sent } := by
  obtain ⟨sent, hlink⟩ := sendBlocks_link s g bs
  refine ⟨sent, ?_⟩
  rw [State.group, hlink]
  exact group_withGroup_same hs _

theorem wakeDown_step (hs : GroupsCanon s) : GroupStep s (wakeDown g s) g := by
  unfold wakeDown
  simp only []
  split
  · exact .refl hs
  · exact withGroup_step hs _

end

end Sys2Proof.Machine
end

section
/-! PRESS_CONFIG from its packet to its answer (R203, R232, R338, R339, R400, R435, R436). -/

namespace Sys2Proof.Machine

open Sys2Proof

/-! ## The groups of a press (R203) -/

/-- A group of a bar named wakes as in IDLE; another one is off. -/
def GroupOfMask (mask g : Nat) (x : Group) : Prop :=
  (bit mask g = true → x.down = .ls ∧ x.up = .l0)
  ∧ (bit mask g = false → x.down = .loff ∧ x.up = .loff ∧ x.locked = false)

theorem idleGroup_wakes {s : State} (hs : GroupsCanon s) (g : Nat) :
    GroupStep s (idleGroup g s) g ∧ ((idleGroup g s).group g).down = .ls ∧ ((idleGroup g s).group g).up = .l0 := by
  unfold idleGroup sleepDown
  split
  next hup =>
    obtain ⟨hup, hdown⟩ := hup
    split
    next =>
      have hsent := sendBlocks_step (g := g) hs [powerBlk 0 1]
      obtain ⟨sent, hgroup⟩ := sendBlocks_group (g := g) hs [powerBlk 0 1]
      refine ⟨hsent.withGroup _, ?_⟩
      rw [group_withGroup_same hsent.canon, hgroup]
      exact ⟨rfl, hup⟩
    next hsleeps =>
      refine ⟨.refl hs, ?_, hup⟩
      cases hpower : (s.group g).down with
      | ls => rfl
      | l0 => exact absurd hpower hsleeps
      | loff => exact absurd hpower hdown
  next =>
    have hsent := (wakeDown_step (g := g) hs).trans (sendBlocks_step (wakeDown_step hs).canon [powerBlk 1 0, powerBlk 0 1])
    refine ⟨hsent.withGroup _, ?_⟩
    rw [group_withGroup_same hsent.canon]
    exact ⟨rfl, rfl⟩

theorem offGroup_off {s : State} (hs : GroupsCanon s) (g : Nat) :
    GroupStep s (offGroup g s) g ∧ ((offGroup g s).group g).down = .loff ∧ ((offGroup g s).group g).up = .loff
      ∧ ((offGroup g s).group g).locked = false := by
  unfold offGroup
  split
  next hoff => exact ⟨.refl hs, hoff⟩
  next =>
    have hsent := (wakeDown_step (g := g) hs).trans (sendBlocks_step (wakeDown_step hs).canon [powerBlk 1 2, powerBlk 0 2])
    refine ⟨hsent.withGroup _, ?_⟩
    rw [group_withGroup_same hsent.canon]
    exact ⟨rfl, rfl, rfl⟩

theorem pressGroup_sets {s : State} (hs : GroupsCanon s) (mask g : Nat) :
    GroupStep s (pressGroup mask s g) g ∧ GroupOfMask mask g ((pressGroup mask s g).group g) := by
  unfold pressGroup
  split
  next hnamed =>
    obtain ⟨hstep, hwakes⟩ := idleGroup_wakes hs g
    exact ⟨hstep, fun _ => hwakes, fun hother => absurd (hother.symm.trans hnamed) (by decide)⟩
  next hother =>
    obtain ⟨hstep, hoff⟩ := offGroup_off hs g
    exact ⟨hstep, fun hnamed => absurd hnamed hother, fun _ => hoff⟩

theorem pressGroups_set {s : State} (hs : GroupsCanon s) (mask : Nat) :
    ∀ g, g < 8 → GroupOfMask mask g (((List.range 8).foldl (pressGroup mask) s).group g) := by
  have hfold := (foldl_pointwise State.group GroupsCanon (fun g _ x => GroupOfMask mask g x) id (pressGroup mask) (List.range 8)
    (fun t g _ ht => by
      obtain ⟨hstep, hset⟩ := pressGroup_sets ht mask g
      exact ⟨hstep.canon, hset, hstep.other⟩) (by decide) s hs).2.1
  exact fun g hg => hfold g (List.mem_range.mpr hg)

theorem idleGroup_sent (g : Nat) (s : State) : Sent s (idleGroup g s) := by
  unfold idleGroup
  split
  · exact sleepDown_sent g s
  · exact ((wakeDown_sent g s).trans (sendBlocks_sent _ g _)).trans (withGroup_sent _ g _)

theorem offGroup_sent (g : Nat) (s : State) : Sent s (offGroup g s) := by
  unfold offGroup
  split
  · exact .refl s
  · exact ((wakeDown_sent g s).trans (sendBlocks_sent _ g _)).trans (withGroup_sent _ g _)

theorem pressGroup_sent (mask : Nat) (s : State) (g : Nat) : Sent s (pressGroup mask s g) := by
  unfold pressGroup
  split
  · exact idleGroup_sent g s
  · exact offGroup_sent g s

/-! ## The heads (R232) -/

theorem clearHeads_head {s : State} (hs : twf (fun _ => Slot.reset) s.link.slots = true) (b sl : Nat) : ((clearHeads s).slot b sl).head = none :=
  tget_rebuilt (fun x : Slot => x.head = none) (fun _ => rfl) (fun _ => rfl) hs (slotIx b sl)

/-! ## The domains (R435, R436) -/

/-- A press switches the domains 6 to 9 alone. -/
theorem pressDomains_bit {mask d : Nat} (hd : bit (pressDomains mask) d = true) : 6 ≤ d ∧ d ≤ 9 := by
  have hlt : pressDomains mask < 2 ^ 10 := by
    unfold pressDomains
    split <;> split <;> decide
  have hhigh : d < 10 := by
    by_contra hge
    have hclear := Nat.testBit_lt_two_pow (Nat.lt_of_lt_of_le hlt (Nat.pow_le_pow_right Nat.two_pos (Nat.le_of_not_lt hge)))
    exact absurd (hd.symm.trans hclear) (by decide)
  have hlow : ∀ d, d < 6 → bit (pressDomains mask) d = false := by
    unfold pressDomains
    split <;> split <;> decide
  refine ⟨?_, by omega⟩
  by_contra hlt
  exact absurd (hd.symm.trans (hlow d (by omega))) (by decide)

/-- The domains of the bars, as PRESS_CONFIG switches them. -/
def switchDomains (on : Nat) (s : State) : State := [6, 7, 8, 9].foldl (switchDomain on) s

/-- A domain, on and ready. -/
def domainBits (s : State) (d : Nat) : Bool × Bool := (bit s.boot.domains d, bit s.boot.domainsReady d)

theorem switchDomain_bits (on : Nat) (s : State) (d j : Nat) :
    domainBits (switchDomain on s d) j = if j = d then (bit on d, bit on d && (domainBits s d).2) else domainBits s j := by
  simp only [domainBits, switchDomain, State.withBoot, bit_setBit]
  split <;> rfl

/-- What switching the domains leaves: those of the bars are on as named and ready where they were, the others are as before. -/
theorem switchDomains_bits (on : Nat) (s : State) (d : Nat) : domainBits (switchDomains on s) d
    = if 6 ≤ d ∧ d ≤ 9 then (bit on d, bit on d && (domainBits s d).2) else domainBits s d := by
  obtain ⟨-, hnamed, hother⟩ := foldl_pointwise domainBits (fun _ => True) (fun d x y => y = (bit on d, bit on d && x.2)) id
    (switchDomain on) [6, 7, 8, 9] (fun t d _ _ =>
      ⟨trivial, (switchDomain_bits on t d d).trans (if_pos rfl), fun j hj => (switchDomain_bits on t d j).trans (if_neg hj)⟩)
    (by decide) s trivial
  split
  next hbar => exact hnamed d (by simp; omega)
  next hrest => exact hother d (by simp; omega)

/-! ## The description is put in force -/

theorem slots_of_canonOk {s : State} (h : canonOk s = true) : twf (fun _ => Slot.reset) s.link.slots = true := by
  simp only [canonOk, Bool.and_eq_true] at h
  simp only [h]

/-- The lead election's record of a device whose press description is new (R400). -/
def leadOfPress (p : Press) (l : LeadUnit) : LeadUnit :=
  { l with
    role := if p.devices = 1 then .solo else .none, leadIndex := none, handoff := none, verdictEpoch := none, release := false }

/-- From `s` to `t` only the domains have been switched. -/
def DomainsSwitched (s t : State) : Prop :=
  t = s.withBoot { s.boot with domains := t.boot.domains, domainsReady := t.boot.domainsReady }

theorem DomainsSwitched.trans {s t u : State} (h1 : DomainsSwitched s t) (h2 : DomainsSwitched t u) : DomainsSwitched s u := by
  unfold DomainsSwitched State.withBoot at *
  rw [h2, h1]

theorem switchDomains_switched (on : Nat) (s : State) : DomainsSwitched s (switchDomains on s) :=
  foldl_keeps DomainsSwitched (fun _ => rfl) DomainsSwitched.trans (switchDomain on) (fun _ _ => rfl) _ s

/-- A press in force before its groups are set. -/
def pressSwitched (p : Press) (s : State) : State :=
  switchDomains (pressDomains p.barMask) ((clearHeads { s with press := some p }).withLead (leadOfPress p s.net.lead))

theorem installPress_eq (p : Press) (s : State) :
    installPress p s = (List.range 8).foldl (pressGroup p.barMask) (pressSwitched p s) := rfl

theorem installPress_sent (p : Press) (s : State) : Sent (pressSwitched p s) (installPress p s) := by
  rw [installPress_eq]
  exact foldl_keeps Sent Sent.refl Sent.trans _ (pressGroup_sent p.barMask) _ _

/-- What `t` has of a press that was put in force in `s`, whatever the time and the host have done since. -/
structure PressInForce (p : Press) (s t : State) : Prop where
  press : t.press = some p
  role : t.net.lead.role = (if p.devices = 1 then .solo else .none)
  heads : ∀ b sl, (t.slot b sl).head = none
  groups : ∀ g, g < 8 → GroupOfMask p.barMask g (t.group g)
  domains : ∀ d, domainBits t d = if 6 ≤ d ∧ d ≤ 9 then (bit (pressDomains p.barMask) d, bit (pressDomains p.barMask) d && (domainBits s d).2)
    else domainBits s d
  frame : t = { s with
    clk := t.clk, press := t.press, link := t.link, net := { s.net with lead := t.net.lead }, host := t.host, trace := t.trace
    draws := t.draws
    boot := { s.boot with domains := t.boot.domains, domainsReady := t.boot.domainsReady } }

theorem installPress_inForce {s : State} (hgroups : GroupsCanon s) (hslots : twf (fun _ => Slot.reset) s.link.slots = true) (p : Press) :
    PressInForce p s (installPress p s) ∧ (installPress p s).host = s.host ∧ (installPress p s).clk = s.clk := by
  have hsent := installPress_sent p s
  have hset := fun hcanon => pressGroups_set (s := pressSwitched p s) hcanon p.barMask
  rw [← installPress_eq] at hset
  have hheads := clearHeads_head (s := { s with press := some p }) hslots
  have hdomains := switchDomains_bits (pressDomains p.barMask) ((clearHeads { s with press := some p }).withLead (leadOfPress p s.net.lead))
  have hswitched := switchDomains_switched (pressDomains p.barMask)
    ((clearHeads { s with press := some p }).withLead (leadOfPress p s.net.lead))
  generalize installPress p s = t at hsent hset
  unfold pressSwitched at hsent hset
  generalize switchDomains (pressDomains p.barMask) ((clearHeads { s with press := some p }).withLead (leadOfPress p s.net.lead)) = u at *
  have hlink : t.link.slots = (clearHeads { s with press := some p }).link.slots := by rw [hsent, hswitched]; rfl
  have hboot : t.boot = u.boot := by rw [hsent]
  refine ⟨⟨by rw [hsent, hswitched]; rfl, by rw [hsent, hswitched]; rfl, fun b sl => ?_, hset (by rw [hswitched]; exact hgroups),
    fun d => ?_, by rw [hsent, hswitched]; rfl⟩, by rw [hsent, hswitched]; rfl, by rw [hsent, hswitched]; rfl⟩
  · rw [State.slot, hlink]
    exact hheads b sl
  · rw [domainBits, hboot]
    exact hdomains d

/-- The domains that a press asks for are ready after it is put in force where they were before. -/
theorem PressInForce.ready {p : Press} {s t : State} (h : PressInForce p s t) :
    (maskList (pressDomains p.barMask) 12).all (bit t.boot.domainsReady)
      = (maskList (pressDomains p.barMask) 12).all (bit s.boot.domainsReady) := by
  rw [Bool.eq_iff_iff, List.all_eq_true, List.all_eq_true]
  refine forall₂_congr fun d hd => Eq.congr_left ?_
  obtain ⟨-, hneed⟩ := mem_maskList.mp hd
  have hready := congrArg Prod.snd (h.domains d)
  rw [if_pos (pressDomains_bit hneed), hneed] at hready
  exact hready

/-- PRESS_CONFIG of bytes that fail no check, when nothing uses the groups, in its three parts: the press in force, and the answer or the
wait for its domains. -/
theorem pressBody_installs {s : State} (h : Hdr) {source : Nat} {p : Press} (hfree : groupsInUse s = false)
    (hread : s.dmaBad source 4928 = none) (hlegal : pressFail (s.dmaRead source 4928) = none) (hp : pressOf (s.dmaRead source 4928) = p)
    (hgroups : GroupsCanon s) (hslots : twf (fun _ => Slot.reset) s.link.slots = true) :
    ∃ u, PressInForce p s u ∧ u.host = s.host ∧ u.clk = s.clk ∧ pressBody h source 4928 false s =
      if (maskList (pressDomains p.barMask) 12).all (bit s.boot.domainsReady) then (u, some (answer stOk (leBytes 8 p.digest)))
      else (u.addWait false h (cmdOf 0x0030 0) (.domain (pressDomains p.barMask) (leBytes 8 p.digest)), none) := by
  obtain ⟨hinforce, hhost, hclk⟩ := installPress_inForce hgroups hslots p
  refine ⟨_, hinforce, hhost, hclk, ?_⟩
  rw [← hinforce.ready]
  simp only [pressBody, hfree, hread, hlegal, hp, ne_eq, not_true_eq_false, Bool.false_eq_true, if_false]

theorem PressInForce.of_begun {p : Press} {s t : State} {h : Hdr} {c : CmdInfo} (ht : PressInForce p (begun s h c) t) : PressInForce p s t := by
  obtain ⟨hpress, hrole, hheads, hgroups, hdomains, hframe⟩ := ht
  refine ⟨hpress, hrole, hheads, hgroups, hdomains, ?_⟩
  rw [hframe]
  rfl

/-- A press stays in force when the host is answered. -/
theorem PressInForce.answered {p : Press} {s u t : State} {h : Hdr} {c : Clk} (hu : PressInForce p s u)
    (ht : hostOnly { u with clk := c } t h) :
    PressInForce p s t := by
  obtain ⟨hpress, hrole, hheads, hgroups, hdomains, hframe⟩ := hu
  rw [ht]
  refine ⟨hpress, hrole, hheads, hgroups, hdomains, ?_⟩
  rw [hframe]

/-- The fields that a press in force leaves, as the statement of O54 has them. -/
theorem PressInForce.only {p : Press} {s t : State} {h : Hdr} (ht : PressInForce p s t) (hclk : t.clk = (s.at h.t).clk) : t = { s with
    clk := (s.at h.t).clk, press := t.press, link := t.link, net := { s.net with lead := t.net.lead }, host := t.host, trace := t.trace
    draws := t.draws, boot := { s.boot with domains := t.boot.domains, domainsReady := t.boot.domainsReady } } := by
  rw [← hclk]
  exact ht.frame

/-! ## The answers -/

section
variable {s : State} {h : Hdr} {source : Nat} {p : Press} (ha : accepts s h (cmdOf 0x0030 0) = true)
  (hfree : groupsInUse s = false) (hread : s.dmaBad source 4928 = none) (hs : canonOk s = true)
  (hlegal : pressFail (s.dmaRead source 4928) = none) (hp : pressOf (s.dmaRead source 4928) = p)
include ha hfree hread hs hlegal hp

theorem pressConfig_answers (hready : (maskList (pressDomains p.barMask) 12).all (bit s.boot.domainsReady) = true) :
    ∃ t, exec (.pressConfig h source 4928) s = .next t ∧ PressInForce p s t ∧ t.clk = (s.at h.t).clk
      ∧ repliedWith t h.ring h.tag 0x0030 stOk (leBytes 8 p.digest) = true ∧ t.host.waits = s.host.waits := by
  obtain ⟨u, hinforce, hhost, hclk, hbody⟩ := pressBody_installs (s := begun s h (cmdOf 0x0030 0)) h hfree hread hlegal hp
    (groupsCanon_of_canonOk (s := s) hs) (slots_of_canonOk (s := s) hs)
  have hbody : pressBody h source 4928 false (begun s h (cmdOf 0x0030 0)) = _ := hbody.trans (if_pos hready)
  have hring : u.ring h.ring = (begun s h (cmdOf 0x0030 0)).ring h.ring := by rw [State.ring, hhost]; rfl
  have htime : hostOnly { u with clk := s.clk } u h := by
    unfold hostOnly
    rw [show (State.at { u with clk := s.clk } h.t).clk = u.clk from hclk.symm]
  obtain ⟨hreply, hleft⟩ := hostWait_answers (i := .pressConfig (unstarted h) source 4928) ha hbody hring htime
  have hwaits : u.host.waits = s.host.waits := by rw [hhost]; rfl
  refine ⟨_, rfl, hinforce.of_begun.answered hleft, ?_, hreply, ?_⟩
  · rw [hleft]
    rfl
  · rw [hleft]
    exact hwaits

theorem pressConfig_waits (hready : (maskList (pressDomains p.barMask) 12).all (bit s.boot.domainsReady) = false) :
    ∃ t, exec (.pressConfig h source 4928) s = .next t ∧ PressInForce p s t ∧ t.clk = (s.at h.t).clk
      ∧ t.host.waits = s.host.waits ++ [{ ring := h.ring, tag := h.tag, opcode := 0x0030, orphan := false, since := max s.clk.elapsed h.t
                                          kind := .domain (pressDomains p.barMask) (leBytes 8 p.digest) }] := by
  obtain ⟨u, hinforce, hhost, hclk, hbody⟩ := pressBody_installs (s := begun s h (cmdOf 0x0030 0)) h hfree hread hlegal hp
    (groupsCanon_of_canonOk (s := s) hs) (slots_of_canonOk (s := s) hs)
  have hbody : pressBody h source 4928 false (begun s h (cmdOf 0x0030 0)) = _ := hbody.trans (if_neg (ne_true_of_eq_false hready))
  have hring : u.ring h.ring = (begun s h (cmdOf 0x0030 0)).ring h.ring := by rw [State.ring, hhost]; rfl
  refine ⟨_, congrArg Host.Outcome.next (hostWait_waiting ha hbody hring), ?_, hclk, ?_⟩
  · obtain ⟨hpress, hrole, hheads, hgroups, hdomains, hframe⟩ := hinforce.of_begun
    refine ⟨hpress, hrole, hheads, hgroups, hdomains, ?_⟩
    rw [hframe]
    rfl
  · unfold State.addWait
    rw [hhost, hclk]
    rfl

end

/-! ## The refusals -/

theorem pressConfig_badParam (s : State) (h : Hdr) (source o : Nat) (ha : accepts s h (cmdOf 0x0030 0) = true)
    (hfree : groupsInUse s = false) (hread : s.dmaBad source 4928 = none) (hfail : pressFail (s.dmaRead source 4928) = some o) :
    ∃ t, exec (.pressConfig h source 4928) s = .next t
      ∧ repliedWith t h.ring h.tag 0x0030 stBadParam (leBytes 8 0 ++ leBytes 4 o) = true ∧ hostOnly s t h := by
  have hbody : pressBody h source 4928 false (begun s h (cmdOf 0x0030 0))
      = (begun s h (cmdOf 0x0030 0), some (answer stBadParam (leBytes 8 0 ++ leBytes 4 o))) := by
    have hfree' : groupsInUse (begun s h (cmdOf 0x0030 0)) = false := hfree
    have hread' : (begun s h (cmdOf 0x0030 0)).dmaBad source 4928 = none := hread
    have hfail' : pressFail ((begun s h (cmdOf 0x0030 0)).dmaRead source 4928) = some o := hfail
    simp only [pressBody, hfree', hread', hfail', ne_eq, not_true_eq_false, Bool.false_eq_true, if_false]
  exact ⟨_, rfl, hostWait_answers (s' := s) ha hbody rfl rfl⟩

theorem pressConfig_badLength (s : State) (h : Hdr) (source length : Nat) (ha : accepts s h (cmdOf 0x0030 0) = true) (hlength : length ≠ 4928) :
    ∃ t, exec (.pressConfig h source length) s = .next t ∧ repliedWith t h.ring h.tag 0x0030 stBadLength [] = true ∧ hostOnly s t h := by
  have hbody : pressBody h source length false (begun s h (cmdOf 0x0030 0)) = (begun s h (cmdOf 0x0030 0), some (refuse stBadLength)) :=
    if_pos hlength
  exact ⟨_, rfl, hostWait_answers (s' := s) ha hbody rfl rfl⟩

/-- Settles O54: the press in force by `PressInForce`, with its answer or its wait, and the refusals. That groups outside BAR_MASK are off,
the roles and the waits for the domains are the model's (log 70, log 74). -/
theorem pressConfigCompletes : Obligations.PressConfigCompletes := by
  unfold Obligations.PressConfigCompletes
  refine ⟨fun s h source ha hfree hread hs hlegal => ?_, pressConfig_badParam, pressConfig_badLength⟩
  intro p
  have hends : ∃ t, exec (.pressConfig h source 4928) s = .next t ∧ PressInForce p s t ∧ t.clk = (s.at h.t).clk
      ∧ ((maskList (pressDomains p.barMask) 12).all (bit s.boot.domainsReady) = true →
        repliedWith t h.ring h.tag 0x0030 stOk (leBytes 8 p.digest) = true ∧ t.host.waits = s.host.waits)
      ∧ ((maskList (pressDomains p.barMask) 12).all (bit s.boot.domainsReady) = false →
        t.host.waits = s.host.waits ++ [{ ring := h.ring, tag := h.tag, opcode := 0x0030, orphan := false, since := max s.clk.elapsed h.t
                                          kind := .domain (pressDomains p.barMask) (leBytes 8 p.digest) }]) := by
    cases hready : (maskList (pressDomains p.barMask) 12).all (bit s.boot.domainsReady) with
    | true =>
      obtain ⟨t, hstep, hinforce, hclk, hreply, hwaits⟩ := pressConfig_answers ha hfree hread hs hlegal rfl hready
      exact ⟨t, hstep, hinforce, hclk, fun _ => ⟨hreply, hwaits⟩, nofun⟩
    | false =>
      obtain ⟨t, hstep, hinforce, hclk, hwaits⟩ := pressConfig_waits ha hfree hread hs hlegal rfl hready
      exact ⟨t, hstep, hinforce, hclk, nofun, fun _ => hwaits⟩
  obtain ⟨t, hstep, hinforce, hclk, hready, hwaits⟩ := hends
  refine ⟨t, hstep, hinforce.press, hinforce.role, hinforce.heads, fun g hg hnamed => (hinforce.groups g hg).1 hnamed,
    fun g hg hother => (hinforce.groups g hg).2 hother, fun d hlow hhigh => ?_, fun d hd => ?_, hready, hwaits, hinforce.only hclk⟩
  · exact congrArg Prod.fst ((hinforce.domains d).trans (if_pos ⟨hlow, hhigh⟩))
  · exact congrArg Prod.fst ((hinforce.domains d).trans (if_neg (by omega)))

end Sys2Proof.Machine
end

section
/-! What befalls the link and the power: link-down and training, fatal causes, and domains that are ready (R317, R350, R367, R384, R435, R436,
R447, R448, R472, R475). -/

namespace Sys2Proof.Machine

open Sys2Proof

/-! ## Link-down (R317, R350, R384) -/

/-- What an event at `u` that takes the link down leaves of `s`: the host interface alone is changed, and SCRATCH, the count of hot resets
and the clocks noted as lost. -/
structure LinkTakenDown (s : State) (u : Time) (t : State) : Prop where
  linkUp : t.host.linkUp = false
  rings : ∀ r, (t.ring r).enabled = false ∧ (t.ring r).fetched = [] ∧ (t.ring r).owed = 0
  longOps : t.host.longOps = s.host.longOps.map (fun l => { l with orphan := true })
  waits : t.host.waits = s.host.waits.map (fun w => { w with orphan := true })
  msix : t.host.msix = []
  pba : t.host.pba = 0
  plume : t.host.plume.enabled = false
  mem : t.host.mem = s.host.mem
  events : t.host.evtStatus = s.host.evtStatus
  only : t = { s with clk := (s.at u).clk, host := t.host, boot := { s.boot with pllLost := t.boot.pllLost }
                      regs := { s.regs with scratch := 0, hotResets := min 65535 (s.regs.hotResets + 1) } }

theorem pcieDown_takes {s v : State} {u : Time} {lost : List Pll} (hv : v = (s.at u).withBoot { s.boot with pllLost := lost })
    (hup : s.host.linkUp = true) (hs : canonOk s = true) : LinkTakenDown s u (pcieDown v) := by
  subst hv
  unfold pcieDown
  have hup : (!((s.at u).withBoot { s.boot with pllLost := lost }).host.linkUp) = false := congrArg Bool.not hup
  rw [hup, if_neg (by decide)]
  refine ⟨rfl, fun r => ?_, rfl, rfl, rfl, rfl, rfl, rfl, rfl, ?_⟩
  · refine tget_rebuilt (fun x : Ring => x.enabled = false ∧ x.fetched = [] ∧ x.owed = 0) (fun _ => ⟨rfl, rfl, rfl⟩) (fun e => ?_)
      (rings_of_canonOk hs) r
    split <;> exact ⟨rfl, rfl, rfl⟩
  · simp [State.withRegs, State.withHost, State.withBoot, State.at, sat, Nat.min_comm]

/-- PERST_N low is noted beside. -/
theorem LinkTakenDown.perstLow {s t : State} {u : Time} (h : LinkTakenDown s u t) :
    LinkTakenDown s u (t.withHost { t.host with perstLow := true }) := by
  obtain ⟨hlink, hrings, hlongs, hwaits, hmsix, hpba, hplume, hmem, hevents, honly⟩ := h
  refine ⟨hlink, hrings, hlongs, hwaits, hmsix, hpba, hplume, hmem, hevents, ?_⟩
  conv_lhs => rw [honly]
  rfl

theorem pcieDown_boot (s : State) : (pcieDown s).boot = s.boot := by
  unfold pcieDown
  split <;> rfl

theorem pcieDown_perstLow (s : State) : (pcieDown s).host.perstLow = s.host.perstLow := by
  unfold pcieDown
  split <;> rfl

theorem mem_distinct {α : Type} [DecidableEq α] {a : α} {l : List α} : a ∈ distinct l ↔ a ∈ l := by
  induction l with
  | nil => rfl
  | cons b l ih =>
    change a ∈ (if b ∈ distinct l then distinct l else b :: distinct l) ↔ _
    split
    next hb => simp only [ih, List.mem_cons]; exact ⟨.inr, fun h => h.elim (fun e => e ▸ ih.mp (e ▸ hb)) id⟩
    next => simp only [List.mem_cons, ih]

/-! ## A fatal cause (R367, R447, R448) -/

/-- From `s` to `t` the log alone has changed, and what an entry of it sets: events, traces and the sensor it names. -/
def Logged (s t : State) : Prop := t = { s with host := t.host, log := t.log, trace := t.trace, thermal := t.thermal }

theorem Logged.trans {s t u : State} (h1 : Logged s t) (h2 : Logged t u) : Logged s u := by
  unfold Logged at *
  rw [h2, h1]

theorem Announced.logged {s t : State} (h : Announced s t) : Logged s t := by
  unfold Announced at h
  unfold Logged
  rw [h]

theorem traceTest_logged (s : State) (code : Nat) : Logged s (s.traceTest code) := by
  unfold State.traceTest
  simp only []
  split <;> rfl

theorem record_logged (s : State) (r : Report) : Logged s (s.record r) := by
  unfold State.record
  split
  · rfl
  · extract_lets l e lost l' written noted tested traced
    have hnoted : Logged s noted := by
      change Logged s (if _ then _ else _)
      split <;> rfl
    have htraced : Logged s traced := (hnoted.trans (traceTest_logged noted r.code)).trans (traceRec_announced _ _ _ _).logged
    split
    · exact htraced.trans (raise_announced _ _).logged
    · exact htraced

theorem recordHead_logged (s : State) : Logged s s.recordHead := by
  unfold State.recordHead
  split
  · rfl
  · extract_lets queue taken
    split
    · rfl
    · exact Logged.trans (t := taken) rfl (record_logged taken _)

theorem latchBar_onlyBars (s : State) (b : Nat) : OnlyBars s (latchBar s b) := by
  unfold latchBar
  split
  · exact withBar_onlyBars s b _
  · exact .refl s

theorem driveFire_onlyBars (s : State) (b : Nat) : OnlyBars s (driveFire s b) := by
  unfold driveFire
  simp only []
  split
  · exact .refl s
  · split <;> exact withBar_onlyBars s b _

/-- The gates settle alike where the table of bars is in no canonical form. -/
theorem settleGates_leaves (s : State) : GatesSettled s s.settleGates :=
  ((foldl_keeps OnlyBars OnlyBars.refl OnlyBars.trans latchBar latchBar_onlyBars (List.range 8) s).trans
    (foldl_keeps OnlyBars OnlyBars.refl OnlyBars.trans driveFire driveFire_onlyBars (List.range 8) _)).announced (settleGates_announces s)

theorem padTo_length (n : Nat) (l : List Byte) : (padTo n l).length = n := by simp [padTo]

theorem entryBytes_length (e : Option LogEntry) : (entryBytes e).length = 64 := by
  cases e with
  | none => rfl
  | some e => exact padTo_length 64 _

theorem fatalRecord_length (s t : State) : (fatalRecord s t).length = 512 := by
  simp [fatalRecord, entryBytes_length, padTo_length, leBytes_length, List.length_flatMap]

/-- A fatal cause met on a device that is up or boots. -/
structure FatalMet (s t : State) (c : FatalCause) : Prop where
  path : t.boot.path = .record
  cause : t.boot.fatal = some c
  time : t.boot.fatalAt = s.clk.elapsed
  record : t.boot.fatalRec.length = 512
  enters : s.dev ∈ [DevState.armed, .run, .drain] → t.dev = .fault ∧ t.fault = .fatal
  stays : s.dev ∉ [DevState.armed, .run, .drain] → t.dev = s.dev ∧ t.fault = s.fault
  store : t.store = s.store
  tables : t.tables = s.tables
  press : t.press = s.press
  flash : t.boot.flash = s.boot.flash

/-- The state that a fatal cause leaves before its record is kept: logged, and in FAULT where it was met while printing. -/
def faulted (s : State) (c : FatalCause) : State :=
  let t := (s.report (FatalCause.code c) (logKey none none none none) 0 []).recordHead
  if s.dev ∈ [.armed, .run, .drain] then t.enterFault .fatal else t

theorem fatal_eq {s : State} (hpath : s.boot.path = .up ∨ s.boot.path = .booting) (c : FatalCause) :
    s.fatal c = (faulted s c).withBoot { (faulted s c).boot with
      path := .record, fatal := some c, fatalRec := fatalRecord s (faulted s c), fatalAt := s.clk.elapsed } := if_neg (by tauto)

/-- What a fatal cause leaves beside the log, the device's state and its own record. -/
theorem faulted_leaves (s : State) (c : FatalCause) :
    ((faulted s c).store = s.store ∧ (faulted s c).tables = s.tables ∧ (faulted s c).press = s.press ∧ (faulted s c).boot = s.boot)
      ∧ (faulted s c).dev = (if s.dev ∈ [DevState.armed, .run, .drain] then .fault else s.dev)
      ∧ (faulted s c).fault = (if s.dev ∈ [DevState.armed, .run, .drain] then .fatal else s.fault) := by
  have hlogged : Logged s (s.report (FatalCause.code c) (logKey none none none none) 0 []).recordHead :=
    (report_announced s _ _ _ _).logged.trans (recordHead_logged _)
  unfold faulted
  generalize (s.report (FatalCause.code c) (logKey none none none none) 0 []).recordHead = logged at hlogged
  split
  · have hsettled := settleGates_leaves ((logged.withFault .fatal).withDev .fault)
    unfold State.enterFault
    rw [hsettled, hlogged]
    exact ⟨⟨rfl, rfl, rfl, rfl⟩, rfl, rfl⟩
  · rw [hlogged]
    exact ⟨⟨rfl, rfl, rfl, rfl⟩, rfl, rfl⟩

theorem fatal_met {s : State} (hpath : s.boot.path = .up ∨ s.boot.path = .booting) (c : FatalCause) : FatalMet s (s.fatal c) c := by
  obtain ⟨⟨hstore, htables, hpress, hboot⟩, hdev, hfault⟩ := faulted_leaves s c
  have hflash : (faulted s c).boot.flash = s.boot.flash := congrArg BootUnit.flash hboot
  rw [fatal_eq hpath c]
  exact ⟨rfl, rfl, rfl, fatalRecord_length s _, fun h => ⟨hdev.trans (if_pos h), hfault.trans (if_pos h)⟩,
    fun h => ⟨hdev.trans (if_neg h), hfault.trans (if_neg h)⟩, hstore, htables, hpress, hflash⟩

/-! ## A domain that is ready (R435, R436) -/

theorem powerDomainReady_notes (s : State) (domain u : Nat) (hdomain : domain < 12) (hon : bit s.boot.domains domain = true)
    (hwaits : s.host.waits = []) :
    exec (.powerDomainReady domain u) s = .next { s with
      clk := (s.at u).clk, boot := { s.boot with domainsReady := setBit s.boot.domainsReady domain true } } := by
  have hexec : exec (.powerDomainReady domain u) s = .next (s.host.waits.foldl endDomainWait
      ((s.at u).withBoot { s.boot with domainsReady := setBit s.boot.domainsReady domain true })) :=
    congrArg Host.Outcome.next (if_pos ⟨hdomain, hon⟩)
  rw [hexec, hwaits]
  rfl

/-- The command that waited for the domains answers. -/
theorem endDomainWait_answers {s : State} {w : Wait} {mask : Nat} {result : List Byte} (hwaits : s.host.waits = [w])
    (hkind : w.kind = .domain mask result) (horphan : w.orphan = false) (henabled : (s.ring w.ring).enabled = true)
    (hfetched : (s.ring w.ring).fetched = []) (hready : (maskList mask 12).all (bit s.boot.domainsReady) = true) :
    (endDomainWait s w).host.waits = [] ∧ repliedWith (endDomainWait s w) w.ring w.tag w.opcode stOk result = true
      ∧ (endDomainWait s w).boot = s.boot := by
  have hreplied := finalShort_ring (s.withHost { s.host with waits := s.host.waits.erase w }) w.ring w.tag w.opcode (answer stOk result) henabled
  obtain ⟨-, hreply, hstill, -⟩ := hreplied
  have hframe := finalShort_frame (s.withHost { s.host with waits := s.host.waits.erase w }) false w.ring w.tag w.opcode (answer stOk result)
  have hend : endDomainWait s w = (s.withHost { s.host with waits := s.host.waits.erase w }).finalShort false w.ring w.tag w.opcode
      (answer stOk result) := by
    simp only [endDomainWait, hkind, hready, if_true, State.endWait, horphan]
    exact settle_nil _ _ (hstill.trans hfetched)
  rw [hend]
  refine ⟨?_, hreply, finalShort_boot _ _ _ _ _ _⟩
  rw [hframe]
  change s.host.waits.erase w = []
  rw [hwaits, List.erase_cons_head]

theorem powerDomainReady_answers (s : State) (domain u mask : Nat) (w : Wait) (result : List Byte) (hdomain : domain < 12)
    (hon : bit s.boot.domains domain = true) (hwaits : s.host.waits = [w]) (hkind : w.kind = .domain mask result) (horphan : w.orphan = false)
    (henabled : (s.ring w.ring).enabled = true) (hfetched : (s.ring w.ring).fetched = [])
    (hready : ∀ d ∈ maskList mask 12, d = domain ∨ bit s.boot.domainsReady d = true) :
    ∃ t, exec (.powerDomainReady domain u) s = .next t ∧ t.host.waits = [] ∧ repliedWith t w.ring w.tag w.opcode stOk result = true
      ∧ t.boot = { s.boot with domainsReady := setBit s.boot.domainsReady domain true } := by
  generalize hnoted : (s.at u).withBoot { s.boot with domainsReady := setBit s.boot.domainsReady domain true } = v
  have hexec : exec (.powerDomainReady domain u) s = .next ([w].foldl endDomainWait v) := by
    subst hnoted
    rw [← hwaits]
    exact congrArg Host.Outcome.next (if_pos ⟨hdomain, hon⟩)
  subst hnoted
  refine ⟨_, hexec, endDomainWait_answers hwaits hkind horphan henabled hfetched (List.all_eq_true.mpr fun d hd => ?_)⟩
  change bit (setBit s.boot.domainsReady domain true) d = true
  rw [bit_setBit]
  split
  · rfl
  next hother => exact (hready d hd).resolve_left hother

/-! ## The events -/

theorem linkDown_takes (s : State) (u : Nat) (c : Instr) (hc : c = .perstN u ∨ c = .pcieHotReset u ∨ c = .clockLoss .pcie u)
    (hup : s.host.linkUp = true) (hs : canonOk s = true) : ∃ t, exec c s = .next t ∧ LinkTakenDown s u t := by
  obtain rfl | rfl | rfl := hc
  · exact ⟨_, rfl, (pcieDown_takes (lost := s.boot.pllLost) rfl hup hs).perstLow⟩
  · exact ⟨_, rfl, pcieDown_takes (lost := s.boot.pllLost) rfl hup hs⟩
  · exact ⟨_, rfl, pcieDown_takes (lost := distinct (.pcie :: s.boot.pllLost)) rfl hup hs⟩

theorem pcieClockLoss_noted (s : State) (u : Nat) : ∃ t, exec (.clockLoss .pcie u) s = .next t ∧ Pll.pcie ∈ t.boot.pllLost := by
  refine ⟨_, rfl, ?_⟩
  rw [if_pos rfl, pcieDown_boot]
  exact mem_distinct.mpr List.mem_cons_self

theorem pcieLinkUp_trains (s : State) (u : Nat) (hpath : s.boot.path = .up ∨ s.boot.path = .booting) :
    exec (.pcieLinkUp u) s = .next { s with
      clk := (s.at u).clk, host := { s.host with linkUp := true, perstLow := false }
      boot := { s.boot with pllLost := s.boot.pllLost.filter (fun p => p ≠ .pcie) } } := by
  have hserved : ¬((s.at u).boot.path ≠ .up ∧ (s.at u).boot.path ≠ .booting) := fun h => hpath.elim h.1 h.2
  exact if_neg hserved

/-- A fatal cause is met by its own event, or by the loss of a clock other than that of PCI Express. -/
theorem fatalEvent_met {s : State} {u : Nat} {c : Instr} {x : FatalCause}
    (hc : (c = .fatalError x u ∧ (x = .refreshOverrun → anyOverrun (s.at u) = true)) ∨
      (∃ p : Pll, p ≠ .pcie ∧ c = .clockLoss p u ∧ x = .clockLoss)) (hpath : s.boot.path = .up ∨ s.boot.path = .booting) :
    ∃ v t, exec c s = .next t ∧ FatalMet v t x ∧ v.clk = (s.at u).clk ∧ v.dev = s.dev ∧ v.fault = s.fault ∧ v.store = s.store
      ∧ v.tables = s.tables ∧ v.press = s.press ∧ v.boot.flash = s.boot.flash := by
  obtain ⟨rfl, hoverrun⟩ | ⟨p, hp, rfl, rfl⟩ := hc
  · have hmet : ¬(x = .refreshOverrun ∧ (!anyOverrun (s.at u)) = true) := fun ⟨hx, hnot⟩ => by simp [hoverrun hx] at hnot
    exact ⟨s.at u, _, congrArg Host.Outcome.next (if_neg hmet), fatal_met (s := s.at u) hpath x, rfl, rfl, rfl, rfl, rfl, rfl, rfl⟩
  · exact ⟨(s.at u).withBoot { s.boot with pllLost := distinct (p :: s.boot.pllLost) }, _, congrArg Host.Outcome.next (if_neg hp),
      fatal_met (s := (s.at u).withBoot { s.boot with pllLost := distinct (p :: s.boot.pllLost) }) hpath .clockLoss, rfl, rfl, rfl, rfl, rfl, rfl, rfl⟩

/-- Settles O46: link-down by `LinkTakenDown`, a fatal cause by `FatalMet`, and the domains by the commands that wait for them. That
POWER_DOMAIN_READY ends a command's wait is log 70. -/
theorem linkAndPowerEventsComplete : Obligations.LinkAndPowerEventsComplete := by
  unfold Obligations.LinkAndPowerEventsComplete
  refine ⟨fun s u c hc hup hs => ?_, fun s u => ⟨_, rfl, rfl⟩, fun s u => ⟨_, rfl, pcieDown_perstLow _, pcieDown_boot _⟩, pcieClockLoss_noted,
    pcieLinkUp_trains, fun s u c x hc hpath => ?_, powerDomainReady_notes, powerDomainReady_answers⟩
  · obtain ⟨t, hstep, hlink, hrings, hlongs, hwaits, hmsix, hpba, hplume, hmem, hevents, honly⟩ := linkDown_takes s u c hc hup hs
    exact ⟨t, hstep, hlink, hrings, hlongs, hwaits, hmsix, hpba, hplume, hmem, hevents, honly⟩
  · obtain ⟨v, t, hstep, ⟨hrecord, hcause, htime, hlength, henters, hstays, hstore, htables, hpress, hflash⟩, hclk, hdev, hfault, hstore', htables',
      hpress', hflash'⟩ := fatalEvent_met hc hpath
    rw [hdev] at henters hstays
    rw [hfault] at hstays
    exact ⟨t, hstep, hrecord, hcause, by rw [htime, hclk]; rfl, hlength, henters, hstays, hstore.trans hstore', htables.trans htables',
      hpress.trans hpress', hflash.trans hflash'⟩

end Sys2Proof.Machine
end

section
/-! HEAD_SCAN from the enumeration of its groups to the heads it found (R155, R165, R197, R340). -/

namespace Sys2Proof.Machine

open Sys2Proof

/-! ## The start (R197, R340) -/

/-- A group wakes and its enumeration begins. -/
def enumStart (s : State) (g : Nat) : State :=
  let s := (wakeDown g s).sendBlocks g [cmdBlk 0x01 0 0]
  s.withGroup g { s.group g with enumAt := some s.clk.elapsed }

theorem enumStart_sent (s : State) (g : Nat) : Sent s (enumStart s g) :=
  ((wakeDown_sent g s).trans (sendBlocks_sent _ g _)).trans (withGroup_sent _ g _)

theorem Sent.clk {s t : State} (h : Sent s t) : t.clk = s.clk := by rw [h]

theorem enumStart_starts {s : State} (hs : GroupsCanon s) (g : Nat) :
    GroupStep s (enumStart s g) g ∧ ((enumStart s g).group g).enumAt = some s.clk.elapsed := by
  have hsent := (wakeDown_step (g := g) hs).trans (sendBlocks_step (wakeDown_step hs).canon [cmdBlk 0x01 0 0])
  refine ⟨hsent.withGroup _, ?_⟩
  unfold enumStart
  rw [group_withGroup_same hsent.canon, ((wakeDown_sent g s).trans (sendBlocks_sent _ g _)).clk]

theorem scanBars_nodup (s : State) (mask : Nat) : (scanBars s mask).Nodup := by
  unfold scanBars
  split
  · exact List.nodup_nil
  · exact (maskList_nodup _ _).filter _

/-- Every group of a scan has begun its enumeration. -/
theorem enumStarts_start {s : State} (hs : GroupsCanon s) (mask : Nat) :
    ∀ g ∈ scanBars s mask, (((scanBars s mask).foldl enumStart s).group g).enumAt = some s.clk.elapsed :=
  (foldl_pointwise State.group (fun t => GroupsCanon t ∧ Sent s t) (fun _ _ x => x.enumAt = some s.clk.elapsed) id enumStart (scanBars s mask)
    (fun t g _ ⟨hcanon, hsent⟩ => by
      obtain ⟨hstep, hstarted⟩ := enumStart_starts hcanon g
      rw [hsent.clk] at hstarted
      exact ⟨⟨hstep.canon, hsent.trans (enumStart_sent t g)⟩, hstarted, hstep.other⟩)
    (by rw [List.map_id]; exact scanBars_nodup s mask) s ⟨hs, .refl s⟩).2.1

/-- The record of a scan that begins. -/
def newScan (h : Hdr) (mask dest : Nat) : ScanOp :=
  { ring := h.ring, tag := h.tag, barMask := mask, dest := dest, chain := [], words := [], done := [], silent := [] }

theorem scanBegin_begins {s : State} {mask : Nat} (h : Hdr) (dest : Nat) (hpress : s.press.isSome = true) (hprbs : prbsActive s mask = false)
    (hscan : s.link.scan = none) (hsurvey : s.link.survey = none) (hcal : s.thermal.op = none) :
    scanBegin h mask dest s = ((scanBars s mask).foldl enumStart s).withLink
      { ((scanBars s mask).foldl enumStart s).link with scan := some (newScan h mask dest) } := by
  have hstate : ¬s.press.isNone = true := by simp [Option.isSome_iff_ne_none.mp hpress]
  have hfree : ¬(prbsActive s mask = true ∨ s.link.scan.isSome = true ∨ s.link.survey.isSome = true ∨ s.thermal.op.isSome = true) := by
    simp [hprbs, hsurvey, hscan, hcal]
  rw [scanBegin, if_neg hstate, if_neg hfree]
  rfl

theorem headScan_starts (s : State) (h : Hdr) (mask dest : Nat) (ha : acceptsLong s h (cmdOf 0x0031 0) = true) (hs : canonOk s = true)
    (hpress : s.press.isSome = true) (hprbs : prbsActive s mask = false) (hscan : s.link.scan = none) (hsurvey : s.link.survey = none)
    (hcal : s.thermal.op = none) :
    ∃ t, exec (.headScan h mask dest) s = .next t ∧ startedLong s t h (cmdOf 0x0031 0) ∧ t.link.scan = some (newScan h mask dest)
      ∧ (∀ g ∈ scanBars s mask, (t.group g).enumAt = some (max s.clk.elapsed h.t))
      ∧ longFrame { s with link := t.link, draws := t.draws } t h.t := by
  obtain ⟨-, hframe, -⟩ := acceptedLong_spec ha
  have hcanon := groupsCanon_of_canonOk hs
  generalize hacc : acceptedLong s h (cmdOf 0x0031 0) = a at hframe
  have hbegun : scanBegin h mask dest a = _ := scanBegin_begins h dest (by rw [hframe]; exact hpress) (by rw [hframe]; exact hprbs)
    (by rw [hframe]; exact hscan) (by rw [hframe]; exact hsurvey) (by rw [hframe]; exact hcal)
  have hsent : Sent a ((scanBars a mask).foldl enumStart a) := foldl_keeps Sent Sent.refl Sent.trans enumStart enumStart_sent _ a
  have henum := enumStarts_start (s := a) (by rw [hframe]; exact hcanon) mask
  have htime : a.clk.elapsed = max s.clk.elapsed h.t := by rw [hframe]; rfl
  have hbars : scanBars a mask = scanBars s mask := by rw [hframe]; rfl
  rw [htime, hbars] at henum
  rw [hbars] at hsent hbegun
  generalize (scanBars s mask).foldl enumStart a = v at hbegun hsent henum
  have hlinks : v.withLink { v.link with scan := some (newScan h mask dest) } = { a with
      link := { v.link with scan := some (newScan h mask dest) }, trace := v.trace, draws := v.draws } := by
    rw [hsent]
    rfl
  obtain ⟨hstarted, hlong⟩ := hostLong_begins (body := scanBegin h mask dest) (.headScan (unstarted h) mask dest) ha
    (by rw [hacc]; exact hbegun) (by rw [hacc, hlinks]) (hframe.begun_links hlinks)
  obtain ⟨hlink, hdraws⟩ := longFrame_link_draws hlong
  refine ⟨_, rfl, hstarted, congrArg Link.scan hlink, fun g hg => ?_, ?_⟩
  · rw [State.group, hlink]
    exact henum g hg
  · rw [hlink, hdraws]
    exact hlong

/-! ## Head memories and silent groups (R197, R340) -/

theorem hmem_gathers (s : State) (u : Up) (word : Nat) (data : Word32) (o : ScanOp) (hscan : s.link.scan = some o)
    (hfound : (o.found u.group u.slot).isSome = true) :
    ∃ t, exec (.hmem u word data) s = .next t
      ∧ t.link = { s.link with scan := some { o with
          words := tput (fun _ => []) o.words (24 * u.group + u.slot)
            (tput (fun _ => 0) (tget (fun _ => []) o.words (24 * u.group + u.slot)) word data) } }
      ∧ t = { s with clk := (s.at u.t).clk, trace := t.trace, link := t.link } := by
  have htraced : (s.at u.t).traceUp u 0xD2 (word % 65536 + 65536 * data.toNat) = _ := traceRec_withTrace _ _ _ _
  have hknown : ¬(o.found u.group u.slot).isNone = true := by simpa [Option.isSome_iff_ne_none] using hfound
  simp only [exec, execHmem]
  rw [htraced]
  simp only [withTrace_link, at_link, hscan, hknown]
  exact ⟨_, rfl, rfl, rfl⟩

/-- PROGRESS changes the host interface and the trace alone. -/
theorem progressTo_frame (s : State) (ring tag p : Nat) :
    s.progressTo ring tag p = { s with host := (s.progressTo ring tag p).host, trace := (s.progressTo ring tag p).trace } := by
  unfold State.progressTo
  split
  · rfl
  · extract_lets o' g due
    split
    · rfl
    · split
      · rfl
      · have hframe := putReply_frame (s.updLong ring tag (fun _ => { o' with lastProgress := p, lastAt := s.clk.elapsed, skipped := false }))
          { ring := ring, tag := tag, status := stInProgress, progress := p, phase := false, final := false, pos := o'.pos
            skipped := o'.skipped, opcode := o'.opcode, timestamp := 0, result := [] }
        unfold replyFrame at hframe
        rw [hframe]
        rfl

theorem scanProgress_frame (s : State) :
    scanProgress s = { s with host := (scanProgress s).host, trace := (scanProgress s).trace } := by
  unfold scanProgress
  split
  · rfl
  · exact progressTo_frame s _ _ _

theorem enumTimeout_silences (s : State) (g u a : Nat) (o : ScanOp) (hscan : s.link.scan = some o) (henum : (s.group g).enumAt = some a)
    (hdue : a + 100 * msT ≤ max s.clk.elapsed u) (hrejoin : s.boot.rejoin = none) :
    ∃ t, exec (.enumTimeout g u) s = .next t
      ∧ t.link = { (s.withGroup g { s.group g with enumAt := none }).link with
        scan := some { o with silent := tput (fun _ => false) o.silent g true } }
      ∧ t = { s with clk := (s.at u).clk, link := t.link, host := t.host, trace := t.trace } := by
  have hscan' : (s.at u).link.scan = some o := hscan
  have henum' : ((s.at u).group g).enumAt = some a := henum
  have hdue' : ¬(s.at u).clk.elapsed < a + 100 * msT := Nat.not_lt.mpr hdue
  generalize hv : ((s.at u).withGroup g { s.group g with enumAt := none }).withLink
    { ((s.at u).withGroup g { s.group g with enumAt := none }).link with
      scan := some { o with silent := tput (fun _ => false) o.silent g true } } = v
  have hframe := scanProgress_frame v
  have hquiet : rejoinAdvance (scanProgress v) = scanProgress v := by
    have hnone : (scanProgress v).boot.rejoin = none := by rw [hframe, ← hv]; exact hrejoin
    simp only [rejoinAdvance, hnone]
  have hexec : exec (.enumTimeout g u) s = .next (scanProgress v) := by
    rw [← hquiet, ← hv]
    simp only [exec, execEnumTimeout, hscan', henum', hdue', if_false]
    rfl
  refine ⟨_, hexec, ?_, ?_⟩
  · rw [hframe, ← hv]
    rfl
  · rw [hframe, ← hv]
    rfl

/-! ## What the scan found is taken in (R155, R165, R340) -/

/-- From `s` to `t` heads have been taken in: slots, the history of nozzles and the tables alone have changed. -/
def HeadsTaken (s t : State) : Prop :=
  t = { s with link := { s.link with slots := t.link.slots, health := t.link.health, toPlan := t.link.toPlan }, tables := t.tables }

theorem HeadsTaken.refl (s : State) : HeadsTaken s s := rfl

theorem HeadsTaken.trans {s t u : State} (h1 : HeadsTaken s t) (h2 : HeadsTaken t u) : HeadsTaken s u := by
  unfold HeadsTaken at *
  rw [h2, h1]

/-- From `s` to `t` nozzle states have been restored: heads are taken in and the slots' records stand. -/
structure StatesRestored (s t : State) : Prop where
  taken : HeadsTaken s t
  slots : t.link.slots = s.link.slots

theorem StatesRestored.refl (s : State) : StatesRestored s s := ⟨.refl s, rfl⟩

theorem StatesRestored.trans {s t u : State} (h1 : StatesRestored s t) (h2 : StatesRestored t u) : StatesRestored s u :=
  ⟨h1.taken.trans h2.taken, h2.slots.trans h1.slots⟩

theorem notePlan_restored (b sl row j : Nat) (s : State) : StatesRestored s (notePlan b sl row j s) := by
  unfold notePlan
  simp only []
  split
  · exact .refl s
  · exact ⟨rfl, rfl⟩

theorem putWord_restored (b bank off w : Nat) (s : State) : StatesRestored s (putWord b bank off w s) := ⟨rfl, rfl⟩

theorem restoreStates_restored (b sl : Nat) (m : HeadMem) (s : State) : StatesRestored s (restoreStates b sl m s) := by
  unfold restoreStates
  extract_lets t s' places
  refine StatesRestored.trans (t := s') ⟨rfl, rfl⟩ ?_
  refine foldl_keeps StatesRestored .refl .trans _ (fun s x => ?_) places s'
  extract_lets off word hp changed written
  have hwritten : StatesRestored s written := (putWord_restored b 0 off _ s).trans (putWord_restored b 1 off _ _)
  split
  · exact hwritten.trans (notePlan_restored b sl _ _ written)
  · exact hwritten

/-- The slots' table is in canonical form. -/
def SlotsCanon (s : State) : Prop := twf (fun _ => Slot.reset) s.link.slots = true

/-- A slot by its index. -/
def slotAt (s : State) (k : Nat) : Slot := tget (fun _ => Slot.reset) s.link.slots k

theorem takeHead_takes {s : State} (hs : SlotsCanon s) (o : ScanOp) (b sl : Nat) :
    HeadsTaken s (takeHead o b s sl) ∧ SlotsCanon (takeHead o b s sl)
      ∧ (slotAt (takeHead o b s sl) (slotIx b sl)).head = scannedHead s o b sl
      ∧ ∀ k, k ≠ slotIx b sl → slotAt (takeHead o b s sl) k = slotAt s k := by
  have hput : ∀ k, slotAt (s.withSlot b sl { s.slot b sl with head := scannedHead s o b sl }) k
      = if k = slotIx b sl then { s.slot b sl with head := scannedHead s o b sl } else slotAt s k := fun k => tget_tput _ _ _ _ k 0 hs
  have hrestored : StatesRestored (s.withSlot b sl { s.slot b sl with head := scannedHead s o b sl }) (takeHead o b s sl) := by
    unfold takeHead
    simp only []
    split
    · exact .refl _
    · exact restoreStates_restored b sl _ _
  obtain ⟨htaken, hslots⟩ := hrestored
  refine ⟨HeadsTaken.trans (t := s.withSlot b sl { s.slot b sl with head := scannedHead s o b sl }) rfl htaken, ?_, ?_, fun k hk => ?_⟩
  · rw [SlotsCanon, hslots]
    exact twf_tput _ _ _ _ hs
  · rw [slotAt, hslots]
    exact congrArg Slot.head ((hput _).trans (if_pos rfl))
  · rw [slotAt, hslots]
    exact (hput k).trans (if_neg hk)

theorem HeadsTaken.fittedSlots {s t : State} (h : HeadsTaken s t) (b : Nat) : t.fittedSlots b = s.fittedSlots b := by
  rw [h]
  rfl

theorem HeadsTaken.scannedHead {s t : State} (h : HeadsTaken s t) (o : ScanOp) (b sl : Nat) :
    scannedHead t o b sl = Machine.scannedHead s o b sl := by
  rw [h]
  rfl

/-- The heads of one bar are taken in. -/
def takeBar (o : ScanOp) (s : State) (b : Nat) : State := (s.fittedSlots b).foldl (takeHead o b) s

theorem mem_fittedSlots {s : State} {b sl : Nat} (h : sl ∈ s.fittedSlots b) : sl < 24 := List.mem_range.mp (List.mem_filter.mp h).1

theorem takeBar_takes {s : State} (hs : SlotsCanon s) (o : ScanOp) (b : Nat) :
    HeadsTaken s (takeBar o s b) ∧ SlotsCanon (takeBar o s b)
      ∧ (∀ sl ∈ s.fittedSlots b, ((takeBar o s b).slot b sl).head = scannedHead s o b sl)
      ∧ ∀ d, d ≠ b → ∀ sl, sl < 24 → (takeBar o s b).slot d sl = s.slot d sl := by
  obtain ⟨⟨htaken, hcanon⟩, hheads, hother⟩ := foldl_pointwise slotAt (fun t => HeadsTaken s t ∧ SlotsCanon t)
    (fun sl _ x => x.head = scannedHead s o b sl) (slotIx b) (takeHead o b) (s.fittedSlots b)
    (fun t sl _ ⟨htaken, hcanon⟩ => by
      obtain ⟨hstep, hcanon', hhead, hother⟩ := takeHead_takes hcanon o b sl
      rw [htaken.scannedHead] at hhead
      exact ⟨⟨htaken.trans hstep, hcanon'⟩, hhead, hother⟩)
    ((List.nodup_range.filter _).map fun i j hij => Nat.add_left_cancel hij) s ⟨.refl s, hs⟩
  refine ⟨htaken, hcanon, hheads, fun d hd sl hsl => hother (slotIx d sl) fun j hj => ?_⟩
  have := mem_fittedSlots hj
  unfold slotIx
  omega

/-- Every fitted slot of the bars has the head that the scan found for it. -/
theorem takeBars_take {s : State} (hs : SlotsCanon s) (o : ScanOp) {bars : List Nat} (hbars : bars.Nodup) :
    HeadsTaken s (bars.foldl (takeBar o) s)
      ∧ ∀ b ∈ bars, ∀ sl ∈ s.fittedSlots b, ((bars.foldl (takeBar o) s).slot b sl).head = scannedHead s o b sl := by
  obtain ⟨⟨htaken, -⟩, hheads, -⟩ := foldl_pointwise (fun t b (sl : Fin 24) => t.slot b sl) (fun t => HeadsTaken s t ∧ SlotsCanon t)
    (fun b _ x => ∀ sl : Fin 24, sl.val ∈ s.fittedSlots b → (x sl).head = scannedHead s o b sl) id (takeBar o) bars
    (fun t b _ ⟨htaken, hcanon⟩ => by
      obtain ⟨hstep, hcanon', hheads, hother⟩ := takeBar_takes hcanon o b
      refine ⟨⟨htaken.trans hstep, hcanon'⟩, fun sl hsl => ?_, fun d hd => funext fun sl => hother d hd sl sl.isLt⟩
      rw [← htaken.fittedSlots] at hsl
      exact (hheads sl hsl).trans (htaken.scannedHead o b sl))
    (by rw [List.map_id]; exact hbars) s ⟨.refl s, hs⟩
  exact ⟨htaken, fun b hb sl hsl => hheads b hb ⟨sl, mem_fittedSlots hsl⟩ hsl⟩

/-! ## The end (R340) -/

/-- The report of a scan, as the taken heads have it. -/
def scanReport (bars : List Nat) (s : State) : List Byte :=
  (List.range 192).flatMap (fun k =>
    scanRecord (k % 24) (if k / 24 ∈ bars ∧ s.fitted (k / 24) (k % 24) then s.head (k / 24) (k % 24) else none))

/-- The heads are reported where the command asked for it. -/
def reportHeads (o : ScanOp) (bars : List Nat) (s : State) : State := if o.dest = 0 then s else s.dmaWrite o.dest (scanReport bars s)

/-- No scan runs, and its groups sleep. -/
def endScan (bars : List Nat) (s : State) : State := sleepGroups bars (s.withLink { s.link with scan := none })

/-- The state in which a scan's operation ends. -/
def scanClosed (o : ScanOp) (s : State) : State :=
  endScan (scanBars s o.barMask) (reportHeads o (scanBars s o.barMask) ((scanBars s o.barMask).foldl (takeBar o) s))

theorem scanFinish_eq (o : ScanOp) (s : State) :
    scanFinish o s = (scanClosed o s).finishLong o.ring o.tag (answer stOk (scanCounts s o)) := rfl

/-- A write to host memory changes its bytes alone. -/
theorem dmaWrite_withMem (s : State) (a : Nat) (l : List Byte) : ∃ m, s.dmaWrite a l = s.withMem m := by
  unfold State.dmaWrite
  split
  · exact ⟨_, rfl⟩
  · exact ⟨s.host.mem, rfl⟩

theorem reportHeads_withMem (o : ScanOp) (bars : List Nat) (s : State) : ∃ m, reportHeads o bars s = s.withMem m := by
  unfold reportHeads
  split
  · exact ⟨s.host.mem, rfl⟩
  · exact dmaWrite_withMem s _ _

/-- What closing a scan leaves. -/
structure ScanClosed (o : ScanOp) (s t : State) : Prop where
  heads : ∀ b ∈ scanBars s o.barMask, ∀ sl ∈ s.fittedSlots b, (t.slot b sl).head = scannedHead s o b sl
  scan : t.link.scan = none
  rings : t.host.rings = s.host.rings
  longs : t.host.longOps = s.host.longOps
  rest : t.press = s.press ∧ t.dev = s.dev ∧ t.run = s.run ∧ t.store = s.store ∧ t.path = s.path

theorem scanClosed_closes {s : State} (hs : SlotsCanon s) (o : ScanOp) : ScanClosed o s (scanClosed o s) := by
  obtain ⟨htaken, hheads⟩ := takeBars_take hs o (scanBars_nodup s o.barMask)
  unfold scanClosed
  generalize hbars : scanBars s o.barMask = bars at htaken hheads ⊢
  generalize bars.foldl (takeBar o) s = t at htaken hheads ⊢
  obtain ⟨m, hmem⟩ := reportHeads_withMem o bars t
  have hsent : Sent ((t.withMem m).withLink { t.link with scan := none }) (endScan bars (t.withMem m)) := sleepGroups_sent bars _
  rw [hmem]
  generalize endScan bars (t.withMem m) = v at hsent ⊢
  have hslots : v.link.slots = t.link.slots := by rw [hsent]; rfl
  refine ⟨fun b hb sl hsl => ?_, by rw [hsent]; rfl, by rw [hsent, htaken]; rfl, by rw [hsent, htaken]; rfl, ?_⟩
  · rw [State.slot, hslots]
    exact hheads b (hbars ▸ hb) sl hsl
  · rw [hsent, htaken]
    exact ⟨rfl, rfl, rfl, rfl, rfl⟩

theorem headScanDone_ends (s : State) (o : OpRef) (x : ScanOp) (hs : canonOk s = true) (hlong : runsLong s o 0x0031 = true)
    (hscan : s.link.scan = some x) (hring : x.ring = o.ring) (htag : x.tag = o.tag)
    (hall : (scanBars s x.barMask).all (groupScanned s x) = true) :
    ∃ t, exec (.headScanDone o) s = .next t ∧ endedWith s t o 0x0031 stOk (scanCounts s x) ∧ t.link.scan = none
      ∧ (∀ b ∈ scanBars s x.barMask, ∀ sl ∈ s.fittedSlots b, (t.slot b sl).head = scannedHead s x b sl)
      ∧ t.press = s.press ∧ t.dev = s.dev ∧ t.run = s.run ∧ t.store = s.store ∧ t.path = s.path := by
  obtain ⟨hruns, hreach⟩ := longRuns_of_runsLong hlong
  obtain ⟨hheads, hnone, hrings, hlongs, hpress, hdev, hrun, hstore, hpath⟩ :=
    scanClosed_closes (s := s.at o.t) (slots_of_canonOk (s := s) hs) x
  obtain ⟨hreply, hgone, hfetched⟩ :=
    finishLong_ends (hruns.congr (t := scanClosed x (s.at o.t)) hrings hlongs) (answer stOk (scanCounts s x))
  have hexec : exec (.headScanDone o) s
      = .next ((scanClosed x (s.at o.t)).finishLong o.ring o.tag (answer stOk (scanCounts s x))) := by
    refine congrArg Host.Outcome.next ?_
    obtain ⟨l, hl⟩ := withStep_runs hruns _
    have hscan' : (s.at o.t).link.scan = some x := hscan
    have hall' : (scanBars (s.at o.t) x.barMask).all (groupScanned (s.at o.t) x) = true := hall
    rw [withOp, hl]
    simp only [hreach, hscan']
    rw [if_pos hall', scanFinish_eq, hring, htag]
    exact settle_nil _ _ hfetched
  refine ⟨_, hexec, ⟨hreply, hgone.trans (congrArg List.length hlongs)⟩, ?_, fun b hb sl hsl => ?_, ?_⟩
  · rw [finishLong_link]
    exact hnone
  · rw [State.slot, finishLong_link]
    exact hheads b hb sl hsl
  · rw [finishLong_press, finishLong_dev, finishLong_run, finishLong_store, finishLong_path]
    exact ⟨hpress, hdev, hrun, hstore, hpath⟩

/-- Settles O24: the enumeration of every group, the words gathered, a silent group, and the heads that the scan found. The SLOT of an HMEM
is a chain position by the model's choice (log 35), and whether a head is misplaced is a free value (log 36). -/
theorem headScanCompletes : Obligations.HeadScanCompletes := by
  unfold Obligations.HeadScanCompletes
  exact ⟨headScan_starts, hmem_gathers, enumTimeout_silences, headScanDone_ends⟩

end Sys2Proof.Machine
end

section
/-! Where the banks of tables lie in SRAM, what a write of bytes leaves, and what a read of a table's word does beside its reader (R300,
R304, R305). -/

namespace Sys2Proof.Machine

open Sys2Proof

/-! ## Bytes that are written -/

theorem tget_mwrite {d : Nat → Byte} {m : Mem} (hm : twf d m = true) (a : Nat) (bs : List Byte) (j : Nat) :
    tget d (mwrite d m a bs) j = if a ≤ j ∧ j < a + bs.length then nth 0 bs (j - a) else tget d m j := by
  induction bs generalizing m a with
  | nil =>
    rw [if_neg (by simp)]
    rfl
  | cons b bs ih =>
    rw [mwrite, ih (twf_tput _ _ _ _ hm), tget_tput d m a b j 0 hm, List.length_cons]
    by_cases hj : j = a
    · subst hj
      rw [if_neg (by omega), if_pos rfl, if_pos (by omega), Nat.sub_self, nth]
    · by_cases hin : a + 1 ≤ j ∧ j < a + 1 + bs.length
      · have hnext : j - a = j - (a + 1) + 1 := by omega
        rw [if_pos hin, if_pos (by omega), hnext, nth]
      · rw [if_neg hin, if_neg hj, if_neg (by omega)]

/-- A write of one entry of a table leaves the others, whatever the table's form. -/
theorem tget_tput_other {α : Type} [DecidableEq α] (d : Nat → α) (t : Tab α) {k : Nat} {v : α} {j : Nat} (hj : j ≠ k) :
    tget d (tput d t k v) j = tget d t j := by
  induction t with
  | nil =>
    unfold tput
    split <;> simp [tget, hj]
  | cons e t ih =>
    obtain ⟨k', v'⟩ := e
    unfold tput
    split
    · split <;> simp [tget, hj]
    · split
      next heq => subst heq; split <;> simp [tget, hj]
      next => simp only [tget, ih]

theorem mread_length (d : Nat → Byte) (m : Mem) (a n : Nat) : (mread d m a n).length = n := by
  induction n generalizing a with
  | zero => rfl
  | succ n ih => simp [mread, ih]

/-! ## The layout of the tables (R300) -/

/-- Bytes of a run of banks. -/
def runBytes (run : List (Nat × Nat × Nat)) : Nat := (run.map (fun e => 2 * e.2.2 * tableWords e.2.1)).sum

/-- The bar, the bank and the offset of a byte among the copies of a class, of `k` bytes each. -/
theorem copy_of_place {k bars bar bank off : Nat} (hbar : bar < bars) (hbank : bank ≤ 1) (hoff : off < k) :
    k * (2 * bar + bank) + off < 2 * bars * k ∧ (k * (2 * bar + bank) + off) / (2 * k) = bar
      ∧ (k * (2 * bar + bank) + off) / k % 2 = bank ∧ (k * (2 * bar + bank) + off) % k = off := by
  have hcopy : bank * k + off < 2 * k := by nlinarith
  have hsplit : k * (2 * bar + bank) + off = bank * k + off + bar * (2 * k) := by ring
  refine ⟨by nlinarith, ?_, ?_, by rw [Nat.mul_add_mod, Nat.mod_eq_of_lt hoff]⟩
  · rw [hsplit, Nat.add_mul_div_right _ _ (by omega), Nat.div_eq_of_lt hcopy, Nat.zero_add]
  · rw [Nat.mul_add_div (by omega), Nat.div_eq_of_lt hoff]
    omega

/-- The place of a byte of a bank of a table holds that byte, inside its run. -/
theorem tableUse_tablePlace {run : List (Nat × Nat × Nat)} {cls size bars bar bank off : Nat}
    (hrun : run.find? (fun e => decide (e.1 = cls)) = some (cls, size, bars)) (hbar : bar < bars) (hbank : bank ≤ 1)
    (hoff : off < tableWords size) :
    tableUse run (tablePlace run cls bar bank + off) = .table cls bar bank off
      ∧ tablePlace run cls bar bank + off < runBytes run := by
  induction run with
  | nil => simp at hrun
  | cons e l ih =>
    obtain ⟨c, w, n⟩ := e
    have hbytes : runBytes ((c, w, n) :: l) = 2 * n * tableWords w + runBytes l := List.sum_cons
    by_cases hc : c = cls
    · rw [List.find?_cons_of_pos (by simpa using hc)] at hrun
      cases hrun
      obtain ⟨hin, hbarOf, hbankOf, hoffOf⟩ := copy_of_place hbar hbank hoff
      simp only [tablePlace, tableUse, if_true, if_pos hin, hbarOf, hbankOf, hoffOf, true_and]
      omega
    · rw [List.find?_cons_of_neg (by simpa using hc)] at hrun
      obtain ⟨huse, hlt⟩ := ih hrun
      have hbeyond : ¬2 * n * tableWords w + tablePlace l cls bar bank + off < 2 * n * tableWords w := by omega
      have hrest : 2 * n * tableWords w + tablePlace l cls bar bank + off - 2 * n * tableWords w = tablePlace l cls bar bank + off := by omega
      simp only [tablePlace, tableUse, if_neg hc, if_neg hbeyond, hrest, huse, true_and]
      omega

/-- How many copies of a class there are. -/
def tableCopies (cls : Nat) : Nat := if deviceWide cls then 1 else 8

/-- The run of banks that holds a class. -/
def runOf (cls : Nat) : List (Nat × Nat × Nat) := if cls < 5 then toneRun else if cls = 5 then nozzleRun else otherRun

theorem find_runOf {cls : Nat} (hcls : cls ≤ 9) :
    (runOf cls).find? (fun e => decide (e.1 = cls)) = some (cls, tableSize cls, tableCopies cls) := by
  interval_cases cls <;> rfl

section
variable {p : Nat}

theorem sramUse_tone (hp : p < 6 * bankBytes) : sramUse (2 * bankBytes + p) = tableUse toneRun p := by
  have hbank : 2 ≤ (2 * bankBytes + p) / bankBytes ∧ (2 * bankBytes + p) / bankBytes < 8 := by
    unfold bankBytes at *
    omega
  rw [sramUse, if_neg (by omega), if_pos hbank.2, Nat.add_sub_cancel_left]

theorem sramUse_nozzle (hp : p < 5 * bankBytes) : sramUse (8 * bankBytes + p) = tableUse nozzleRun p := by
  have hbank : 8 ≤ (8 * bankBytes + p) / bankBytes ∧ (8 * bankBytes + p) / bankBytes < 13 := by
    unfold bankBytes at *
    omega
  rw [sramUse, if_neg (by omega), if_neg (by omega), if_pos hbank.2, Nat.add_sub_cancel_left]

theorem sramUse_other {cls bar bank off : Nat} (hp : p < bankBytes) (huse : tableUse otherRun p = .table cls bar bank off) :
    sramUse (38 * bankBytes + p) = .table cls bar bank off := by
  have hbank : (38 * bankBytes + p) / bankBytes = 38 := by
    unfold bankBytes at *
    omega
  simp only [sramUse, hbank, Nat.add_sub_cancel_left, huse]
  rfl

end

/-- The address of a byte of a table is used by that byte. -/
theorem sramUse_tableAddress {cls bar bank off : Nat} (hcls : cls ≤ 9) (hbar : bar < tableCopies cls) (hbank : bank ≤ 1)
    (hoff : off < tableSize cls) : sramUse (tableAddress cls bar bank off) = .table cls bar bank off := by
  have hwords : off < tableWords (tableSize cls) := by
    unfold tableWords ceilDiv
    omega
  obtain ⟨huse, hlt⟩ := tableUse_tablePlace (find_runOf hcls) hbar hbank hwords
  have htone : runBytes toneRun < 6 * bankBytes := by decide
  have hnozzle : runBytes nozzleRun < 5 * bankBytes := by decide
  have hother : runBytes otherRun < bankBytes := by decide
  unfold tableAddress
  unfold runOf at huse hlt
  by_cases hlow : cls < 5
  · simp only [if_pos hlow, Nat.add_assoc] at huse hlt ⊢
    rw [sramUse_tone (hlt.trans htone), huse]
  · by_cases hfive : cls = 5
    · simp only [if_neg hlow, if_pos hfive, Nat.add_assoc] at huse hlt ⊢
      rw [sramUse_nozzle (hlt.trans hnozzle), huse]
    · simp only [if_neg hlow, if_neg hfive, Nat.add_assoc] at huse hlt ⊢
      exact sramUse_other (hlt.trans hother) huse

/-! ## A command's replies aside -/

/-- Two states that differ in what replies write alone. -/
theorem replyFrame.symm {s t : State} (h : replyFrame s t) : replyFrame t s := by
  unfold replyFrame at *
  rw [h]

section
variable {s t : State} (h : replyFrame s t)
include h

theorem replyFrame.countN (i n : Nat) : replyFrame (s.countN i n) (t.countN i n) := by
  unfold replyFrame at *
  rw [h]
  rfl

theorem replyFrame.report (code value : Nat) (key fields : List Byte) : replyFrame (s.report code key value fields) (t.report code key value fields) := by
  unfold replyFrame at *
  rw [h]
  rfl

theorem replyFrame.withDram (d : Dram) : replyFrame (s.withDram d) (t.withDram d) := by
  unfold replyFrame at *
  rw [h]
  rfl

theorem replyFrame.withLink (l : Link) : replyFrame (s.withLink l) (t.withLink l) := by
  unfold replyFrame at *
  rw [h]
  rfl

theorem replyFrame.withTables (x : Tables) : replyFrame (s.withTables x) (t.withTables x) := by
  unfold replyFrame at *
  rw [h]
  rfl

theorem replyFrame.raise (i : Nat) : replyFrame (s.raise i) (t.raise i) := by
  have hset : replyFrame (s.withHost { s.host with evtStatus := s.host.evtStatus ||| BitVec.ofNat 16 (2 ^ i) })
      (t.withHost { t.host with evtStatus := t.host.evtStatus ||| BitVec.ofNat 16 (2 ^ i) }) := by
    unfold replyFrame at *
    rw [h]
    rfl
  have hraised (s : State) : replyFrame (s.withHost { s.host with evtStatus := s.host.evtStatus ||| BitVec.ofNat 16 (2 ^ i) }) (s.raise i) := by
    unfold replyFrame
    rw [raise_frame]
    rfl
  exact ((hraised s).symm.trans hset).trans (hraised t)

theorem replyFrame.same : t.dram = s.dram ∧ t.tables = s.tables ∧ t.link = s.link ∧ t.clk = s.clk ∧ t.run = s.run := by
  unfold replyFrame at h
  rw [h]
  exact ⟨rfl, rfl, rfl, rfl, rfl⟩

theorem replyFrame.sramOutcome (word : Nat) (err : ReadErr) : sramOutcome t word err = Machine.sramOutcome s word err := by
  unfold replyFrame at h
  rw [h]
  rfl

theorem replyFrame.addRepair (kind place : Nat) : replyFrame (addRepair kind place s) (Machine.addRepair kind place t) := by
  obtain ⟨hdram, -, -, hclk, -⟩ := h.same
  have hbase : t.base = s.base := by simp only [State.base, hclk]
  unfold Machine.addRepair
  simp only [hdram, hbase]
  split
  · exact h.withDram _
  · split
    · exact h
    · exact h.withDram _

theorem replyFrame.noteCorrection (memory word b : Nat) :
    replyFrame (noteCorrection memory word b s) (Machine.noteCorrection memory word b t) := by
  obtain ⟨hdram, -, -, hclk, -⟩ := h.same
  unfold Machine.noteCorrection
  simp only [hdram, hclk]
  exact h.withDram _

theorem replyFrame.sramCorrected (word : Nat) (err : ReadErr) : replyFrame (sramCorrected word err s) (Machine.sramCorrected word err t) := by
  have hnoted := (h.countN 20 1).noteCorrection 1 word (correctedBit err)
  have hdram := hnoted.same.1
  unfold Machine.sramCorrected State.count
  simp only [hdram]
  have hrow : ∀ c : Prop, ∀ _ : Decidable c, replyFrame
      (if c then Machine.addRepair kindSramRow (sramRowPlace word) (Machine.noteCorrection 1 word (correctedBit err) (s.countN 20 1))
        else Machine.noteCorrection 1 word (correctedBit err) (s.countN 20 1))
      (if c then Machine.addRepair kindSramRow (sramRowPlace word) (Machine.noteCorrection 1 word (correctedBit err) (t.countN 20 1))
        else Machine.noteCorrection 1 word (correctedBit err) (t.countN 20 1)) := by
    intro c _
    split
    · exact hnoted.addRepair _ _
    · exact hnoted
  split
  · exact (hrow _ _).addRepair _ _
  · exact hrow _ _

end

/-! ## A read of a word of a table (R304, R305) -/

/-- The table of tables' banks is in canonical form. -/
def TablesCanon (s : State) : Prop := twf (fun _ => TableSt.reset) s.tables.classes = true

theorem tablesCanon_of_canonOk {s : State} (h : canonOk s = true) : TablesCanon s := by
  simp only [canonOk, Bool.and_eq_true] at h
  simp only [TablesCanon, h]

theorem table_withTable {s : State} (hs : TablesCanon s) (cls bar : Nat) (x : TableSt) (c b : Nat) :
    (s.withTable cls bar x).table c b = if tableKey c b = tableKey cls bar then x else s.table c b := tget_tput _ _ _ _ _ 0 hs

/-- Two records of a table with the same banks, of which the same one is live. -/
def SameBanks (x y : TableSt) : Prop := y.bank0 = x.bank0 ∧ y.bank1 = x.bank1 ∧ y.live = x.live

theorem SameBanks.shadow {x y : TableSt} (h : SameBanks x y) : y.shadow = x.shadow := by
  obtain ⟨-, -, hlive⟩ := h
  rw [TableSt.shadow, hlive, TableSt.shadow]

theorem SameBanks.bank {x y : TableSt} (h : SameBanks x y) (k : Nat) : y.bank k = x.bank k := by
  obtain ⟨h0, h1, -⟩ := h
  rw [TableSt.bank, h0, h1, TableSt.bank]

/-- From `s` to `t` words of tables have been read: the rings, the time and the bytes of every bank stand. -/
structure WordsRead (s t : State) : Prop where
  rings : t.host.rings = s.host.rings
  clk : t.clk = s.clk
  canon : TablesCanon t
  banks : ∀ cls bar, SameBanks (s.table cls bar) (t.table cls bar)

section
variable {s t u : State}

theorem WordsRead.of_tables (hs : TablesCanon s) (hrings : t.host.rings = s.host.rings) (hclk : t.clk = s.clk) (htables : t.tables = s.tables) :
    WordsRead s t := by
  refine ⟨hrings, hclk, ?_, fun cls bar => ?_⟩
  · rw [TablesCanon, htables]
    exact hs
  · rw [State.table, State.table, htables]
    exact ⟨rfl, rfl, rfl⟩

theorem WordsRead.refl (hs : TablesCanon s) : WordsRead s s := .of_tables hs rfl rfl rfl

theorem WordsRead.trans (h1 : WordsRead s t) (h2 : WordsRead t u) : WordsRead s u := by
  refine ⟨h2.rings.trans h1.rings, h2.clk.trans h1.clk, h2.canon, fun cls bar => ?_⟩
  obtain ⟨h10, h11, h1l⟩ := h1.banks cls bar
  obtain ⟨h20, h21, h2l⟩ := h2.banks cls bar
  exact ⟨h20.trans h10, h21.trans h11, h2l.trans h1l⟩

theorem WordsRead.countN (h : WordsRead s t) (i n : Nat) : WordsRead s (t.countN i n) := h.trans (.of_tables h.canon rfl rfl rfl)

theorem WordsRead.addRepair (h : WordsRead s t) (kind place : Nat) : WordsRead s (addRepair kind place t) := by
  refine h.trans ?_
  unfold Machine.addRepair
  simp only []
  split
  · exact .of_tables h.canon rfl rfl rfl
  · split
    · exact .refl h.canon
    · exact .of_tables h.canon rfl rfl rfl

theorem WordsRead.sramCorrected (h : WordsRead s t) (word : Nat) (err : ReadErr) : WordsRead s (sramCorrected word err t) := by
  have hnoted : WordsRead s (noteCorrection 1 word (correctedBit err) (t.count 20)) := h.trans (.of_tables h.canon rfl rfl rfl)
  unfold Machine.sramCorrected
  extract_lets b noted mine rows repaired
  have hrepaired : WordsRead s repaired := by
    change WordsRead s (if _ then _ else _)
    split
    · exact hnoted.addRepair _ _
    · exact hnoted
  split
  · exact hrepaired.addRepair _ _
  · exact hrepaired

/-- Marking a word of a bank keeps the bank's bytes. -/
theorem withPoison_sameBanks (x : TableSt) (k : Nat) (l : List Nat) : SameBanks x (x.withPoison k l) := by
  unfold TableSt.withPoison
  split <;> exact ⟨rfl, rfl, rfl⟩

variable {word cls bar bank off : Nat} (hword : sramUse word = .table cls bar bank off)
include hword

theorem sramUe_table (s : State) : sramUe word s
    = (addRepair kindSramRow (sramRowPlace word) ((s.count 25).raise 9)).report 0x5001 (logKey (some bar) none none none) 0 (leBytes 1 cls) := by
  simp only [sramUe, reportWord, hword]

theorem markWord_table (s : State) : markWord word s = s.withTable cls bar
    ((s.table cls bar).withPoison bank (distinct ((s.table cls bar).poison bank ++ [off / 16 * 16]))) := by
  simp only [markWord, hword]

theorem meetWord_reads (hs : TablesCanon s) (err : ReadErr) : WordsRead s (meetWord word err s) := by
  unfold meetWord
  split
  · exact .refl hs
  · exact (WordsRead.refl hs).sramCorrected word err
  · exact .refl hs
  · rw [markWord_table hword, sramUe_table hword]
    have hraised : WordsRead s ((s.count 25).raise 9) := by
      have hraise := raise_frame (s.count 25) 9
      refine .of_tables hs ?_ ?_ ?_ <;> rw [hraise] <;> rfl
    have hmet := hraised.addRepair kindSramRow (sramRowPlace word)
    generalize addRepair kindSramRow (sramRowPlace word) ((s.count 25).raise 9) = v at hmet
    refine hmet.trans ⟨rfl, rfl, twf_tput _ _ _ _ hmet.canon, fun c b => ?_⟩
    rw [table_withTable (s := v.report _ _ _ _) hmet.canon]
    split
    next hkey =>
      have hsame : v.table c b = v.table cls bar := by rw [State.table, hkey]; rfl
      rw [hsame]
      exact withPoison_sameBanks _ _ _
    · exact ⟨rfl, rfl, rfl⟩

theorem meetWord_replyFrame (h : replyFrame s t) (err : ReadErr) : replyFrame (meetWord word err s) (meetWord word err t) := by
  unfold meetWord
  rw [h.sramOutcome]
  split
  · exact h
  · exact h.sramCorrected word err
  · exact h
  · rw [markWord_table hword, markWord_table hword, sramUe_table hword, sramUe_table hword]
    have hmet := (((h.countN 25 1).raise 9).addRepair kindSramRow (sramRowPlace word)).report 0x5001 0 (logKey (some bar) none none none)
      (leBytes 1 cls)
    unfold State.count State.withTable State.table
    rw [hmet.same.2.1]
    exact hmet.withTables _

end

end Sys2Proof.Machine
end

section
/-! TABLE_WRITE and TABLE_READ (R78, R165, R169, R305, R316, R341). -/

namespace Sys2Proof.Machine

open Sys2Proof

/-! ## Words that a write covers in part (R305) -/

theorem mem_partWords {off len x : Nat} (hlen : 1 ≤ len) (hx : x ∈ partWords off len) : x < off + len := by
  have hends := (List.mem_filter.mp (mem_distinct.mp hx)).1
  simp only [List.mem_cons, List.not_mem_nil, or_false] at hends
  omega

theorem shadow_le (x : TableSt) : x.shadow ≤ 1 := Nat.sub_le _ _

/-- The bar under which a table is kept is one of its copies. -/
theorem keptBar_lt {cls b : Nat} (hb : b ≤ 7 ∨ deviceWide cls = true) : (if deviceWide cls then 0 else b) < tableCopies cls := by
  unfold tableCopies
  split
  · decide
  next hkept => exact Nat.lt_succ_of_le (hb.resolve_right hkept)

section
variable {cls b : Nat} (hcls : cls ≤ 9) (hb : b ≤ 7 ∨ deviceWide cls = true)
include hcls hb

theorem mergeWord_reads {s : State} {x : Nat} (hs : TablesCanon s) (hx : x < tableSize cls) (errs : List (Nat × ReadErr)) :
    WordsRead s (mergeWord cls b errs s x) := by
  have hword := sramUse_tableAddress hcls (keptBar_lt hb) (shadow_le (s.table cls b)) hx
  unfold mergeWord
  extract_lets k a err met
  have hmet : WordsRead s met := meetWord_reads hword hs err
  split
  · exact hmet
  · exact hmet.countN 22 1
  · exact (hmet.countN 21 1).countN 23 1
  · exact hmet.countN 23 1

theorem mergeWord_replyFrame {s t : State} {x : Nat} (h : replyFrame s t) (hx : x < tableSize cls) (errs : List (Nat × ReadErr)) :
    replyFrame (mergeWord cls b errs s x) (mergeWord cls b errs t x) := by
  have hword := sramUse_tableAddress hcls (keptBar_lt hb) (shadow_le (s.table cls b)) hx
  have htable : t.table cls b = s.table cls b := by rw [State.table, h.same.2.1]; rfl
  unfold mergeWord
  simp only [htable, h.sramOutcome]
  have hmet := meetWord_replyFrame hword h (errAt errs (tableAddress cls (if deviceWide cls then 0 else b) (s.table cls b).shadow x))
  split
  · exact hmet
  · exact hmet.countN 22 1
  · exact (hmet.countN 21 1).countN 23 1
  · exact hmet.countN 23 1

end

/-! ## The states of nozzles that host software writes (R165) -/

theorem setHealth_link (b sl row j hp : Nat) (s : State) : ∃ l, setHealth b sl row j hp s = s.withLink l := by
  unfold setHealth
  split
  · exact ⟨s.link, rfl⟩
  · exact ⟨_, rfl⟩

theorem notePlan_link (b sl row j : Nat) (s : State) : ∃ l, notePlan b sl row j s = s.withLink l := by
  unfold notePlan
  simp only []
  split
  · exact ⟨s.link, rfl⟩
  · exact ⟨_, rfl⟩

theorem hostWord_link (old : Nat → Nat) (b : Nat) (s : State) (i : Nat) : ∃ l, hostWord old b s i = s.withLink l := by
  unfold hostWord
  extract_lets off w sl row
  split
  · exact ⟨s.link, rfl⟩
  · obtain ⟨l, hl⟩ := setHealth_link b sl row (i % 5120) (healthPart w) s
    obtain ⟨l', hl'⟩ := notePlan_link b sl row (i % 5120) (s.withLink l)
    exact ⟨l', by rw [hl, hl']; rfl⟩

section
variable {s t : State} (h : replyFrame s t)
include h

theorem replyFrame.setHealth (b sl row j hp : Nat) : replyFrame (setHealth b sl row j hp s) (Machine.setHealth b sl row j hp t) := by
  have hlink := h.same.2.2.1
  unfold Machine.setHealth State.withHealth State.healthOf State.head State.slot
  rw [hlink]
  split
  · exact h
  · exact h.withLink _

theorem replyFrame.notePlan (b sl row j : Nat) : replyFrame (notePlan b sl row j s) (Machine.notePlan b sl row j t) := by
  unfold Machine.notePlan
  simp only [h.same.2.2.1]
  split
  · exact h
  · exact h.withLink _

theorem replyFrame.hostWord (old : Nat → Nat) (b i : Nat) : replyFrame (hostWord old b s i) (Machine.hostWord old b t i) := by
  obtain ⟨-, htables, hlink, -, -⟩ := h.same
  have hnozzles : ∀ b sl, t.nozzles b sl = s.nozzles b sl := fun b sl => by simp only [State.nozzles, State.head, State.slot, hlink]
  have hshadow : ∀ cls b off w, t.tabShadow cls b off w = s.tabShadow cls b off w :=
    fun cls b off w => by simp only [State.tabShadow, State.table, htables]
  unfold Machine.hostWord
  simp only [hnozzles, hshadow]
  split
  · exact h
  · exact (h.setHealth _ _ _ _ _).notePlan _ _ _ _

theorem replyFrame.foldl {β : Type} {f : State → β → State} (l : List β)
    (hf : ∀ x ∈ l, ∀ s t, replyFrame s t → replyFrame (f s x) (f t x)) : replyFrame (l.foldl f s) (l.foldl f t) := by
  induction l generalizing s t with
  | nil => exact h
  | cons x l ih =>
    exact ih (hf x List.mem_cons_self s t h) fun y hy => hf y (List.mem_cons_of_mem _ hy)

end

/-! ## TABLE_WRITE (R78, R341) -/

/-- The state whose shadow bank takes the bytes of a write: words covered in part have been read. -/
def tableMerged (cls b off len : Nat) (errs : List (Nat × ReadErr)) (s : State) : State := (partWords off len).foldl (mergeWord cls b errs) s

/-- The bytes stand in the shadow bank. -/
def tableWritten (cls b off : Nat) (bs : List Byte) (s : State) : State :=
  let t := s.table cls b
  s.withTable cls b ((t.withBank t.shadow (mwrite (tableDefault cls) (t.bank t.shadow) off bs)).withPoison t.shadow
    (clearPoison (t.poison t.shadow) off bs.length))

/-- Nozzle words that were written take their states into the history. -/
def nozzlesWritten (b off len : Nat) (old s : State) : State :=
  ((List.range (len / 2)).filter (fun i => decide (66336 ≤ off + 2 * i))).foldl
    (fun u i => hostWord (fun o => old.tabShadow 5 b o 2) b u ((off + 2 * i - 66336) / 2)) s

theorem placeTable_eq {cls : Nat} (hcls : cls ≤ 9) (b off : Nat) (bs : List Byte) (errs : List (Nat × ReadErr)) (s : State) :
    placeTable cls b off bs errs s
      = if cls = 5 then nozzlesWritten b off bs.length (tableMerged cls b off bs.length errs s)
          (tableWritten cls b off bs (tableMerged cls b off bs.length errs s))
        else tableWritten cls b off bs (tableMerged cls b off bs.length errs s) := if_neg (by omega)

section
variable {cls b off : Nat} {bs : List Byte} (hcls : cls ≤ 9) (hb : b ≤ 7 ∨ deviceWide cls = true) (hlen : 1 ≤ bs.length)
  (hspan : off + bs.length ≤ tableSize cls)
include hcls hb hlen hspan

theorem tableMerged_reads {s : State} (hs : TablesCanon s) (errs : List (Nat × ReadErr)) :
    WordsRead s (tableMerged cls b off bs.length errs s) :=
  List.foldlRecOn (partWords off bs.length) (mergeWord cls b errs) (motive := WordsRead s) (.refl hs)
    (fun _ ht _ hx => ht.trans (mergeWord_reads hcls hb ht.canon ((mem_partWords hlen hx).trans_le hspan) errs))

theorem placeTable_replyFrame {s t : State} (h : replyFrame s t) (errs : List (Nat × ReadErr)) :
    replyFrame (placeTable cls b off bs errs s) (placeTable cls b off bs errs t) := by
  have hmerged : replyFrame (tableMerged cls b off bs.length errs s) (tableMerged cls b off bs.length errs t) :=
    h.foldl _ fun x hx s t h => mergeWord_replyFrame hcls hb h ((mem_partWords hlen hx).trans_le hspan) errs
  have htables := hmerged.same.2.1
  rw [placeTable_eq hcls, placeTable_eq hcls]
  generalize tableMerged cls b off bs.length errs s = s' at hmerged htables ⊢
  generalize tableMerged cls b off bs.length errs t = t' at hmerged htables ⊢
  have hwritten : replyFrame (tableWritten cls b off bs s') (tableWritten cls b off bs t') := by
    unfold tableWritten State.withTable State.table
    rw [htables]
    exact hmerged.withTables _
  split
  · have hold : (fun o => t'.tabShadow 5 b o 2) = fun o => s'.tabShadow 5 b o 2 := by simp only [State.tabShadow, State.table, htables]
    unfold nozzlesWritten
    rw [hold]
    exact hwritten.foldl _ fun i _ s t h => h.hostWord _ b _
  · exact hwritten

/-- The bytes of a legal write stand in the shadow bank; the rings and the time stand. -/
theorem placeTable_places {s : State} (hs : TablesCanon s) (errs : List (Nat × ReadErr)) :
    (placeTable cls b off bs errs s).host.rings = s.host.rings ∧ (placeTable cls b off bs errs s).clk = s.clk
      ∧ ((placeTable cls b off bs errs s).table cls b).bank (s.table cls b).shadow
        = mwrite (tableDefault cls) ((s.table cls b).bank (s.table cls b).shadow) off bs := by
  have hmerged := tableMerged_reads hcls hb hlen hspan hs errs
  rw [placeTable_eq hcls]
  generalize tableMerged cls b off bs.length errs s = v at hmerged
  have hlinked : ∃ l, nozzlesWritten b off bs.length v (tableWritten cls b off bs v) = (tableWritten cls b off bs v).withLink l :=
    List.foldlRecOn _ _ (motive := fun t => ∃ l, t = (tableWritten cls b off bs v).withLink l) ⟨_, rfl⟩
      (fun t ⟨l, ht⟩ i _ => by
        obtain ⟨l', hl'⟩ := hostWord_link (fun o => v.tabShadow 5 b o 2) b t ((off + 2 * i - 66336) / 2)
        exact ⟨l', by rw [hl', ht]; rfl⟩)
  have hplaced : ∃ l, (if cls = 5 then nozzlesWritten b off bs.length v (tableWritten cls b off bs v) else tableWritten cls b off bs v)
      = (tableWritten cls b off bs v).withLink l := by
    split
    · exact hlinked
    · exact ⟨v.link, rfl⟩
  obtain ⟨l, hl⟩ := hplaced
  rw [hl]
  refine ⟨hmerged.rings, hmerged.clk, ?_⟩
  have htable : (tableWritten cls b off bs v).table cls b = _ := (table_withTable hmerged.canon cls b _ cls b).trans (if_pos rfl)
  have hbanks := hmerged.banks cls b
  change ((tableWritten cls b off bs v).table cls b).bank _ = _
  rw [htable, (withPoison_sameBanks _ _ _).bank, ← hbanks.shadow, ← hbanks.bank]
  unfold TableSt.bank TableSt.withBank
  split <;> rfl

end

theorem spanOk_spec {cls off len : Nat} (h : spanOk cls off len = true) : 1 ≤ len ∧ off + len ≤ tableSize cls := by
  unfold spanOk at h
  obtain ⟨-, -, -, hlow, -, hhigh⟩ := of_decide_eq_true h
  exact ⟨hlow, hhigh⟩

theorem dmaRead_length (s : State) (a n : Nat) : (s.dmaRead a n).length = n := mread_length _ _ _ _

theorem tableWriteBody_places {s : State} {cls bar off len host : Nat} (errs : List (Nat × ReadErr)) (hcls : cls ≤ 9 ∨ cls = 17)
    (hbar : bar ≤ 7 ∨ deviceWide cls = true) (hspan : spanOk cls off len = true) (hkeep : ¬(cls = 1 ∧ keepOwns s bar = true))
    (hidle : cls = 17 → s.dev = .idle) (hlock : isLocked s cls bar = false) (hreg : ¬(cls = 6 ∧ regHolds s = true))
    (hread : s.dmaBad host len = none) :
    tableWriteBody cls bar 0 off len host errs s = (placeTable cls bar off (s.dmaRead host len) errs s, refuse stOk) := by
  have hlegal : ¬((9 < cls ∧ cls ≠ 17) ∨ (7 < bar ∧ (!deviceWide cls) = true) ∨ 0 ≠ 0 ∨ (!spanOk cls off len) = true) := by
    rintro (⟨hhigh, hother⟩ | ⟨hhigh, hkept⟩ | hbank | hbad)
    · omega
    · rcases hbar with hbar | hwide
      · omega
      · simp [hwide] at hkept
    · exact hbank rfl
    · simp [hspan] at hbad
  have hstate : ¬((cls = 1 ∧ keepOwns s bar = true) ∨ (cls = 17 ∧ s.dev ≠ .idle)) := by
    rintro (h | ⟨h17, hdev⟩)
    · exact hkeep h
    · exact hdev (hidle h17)
  have hfree : ¬(isLocked s cls bar = true ∨ (cls = 6 ∧ regHolds s = true)) := by
    rintro (h | h)
    · rw [hlock] at h
      cases h
    · exact hreg h
  rw [tableWriteBody, if_neg hlegal, if_neg hstate, if_neg hfree, hread]

theorem tableWrite_shadow (s : State) (h : Hdr) (cls bar off len host : Nat) (errs : List (Nat × ReadErr))
    (ha : accepts s h (cmdOf 0x0070 0) = true) (hcls : cls ≤ 9) (hbar : bar ≤ 7 ∨ deviceWide cls = true) (hspan : spanOk cls off len = true)
    (hkeep : ¬(cls = 1 ∧ keepOwns s bar = true)) (hlock : isLocked s cls bar = false) (hreg : ¬(cls = 6 ∧ regHolds s = true))
    (hread : s.dmaBad host len = none) (hs : canonOk s = true)
    (hbank : twf (tableDefault cls) ((s.table cls bar).bank (s.table cls bar).shadow) = true) :
    ∃ t, exec (.tableWrite h cls bar 0 off len host errs) s = .next t ∧ repliedWith t h.ring h.tag 0x0070 stOk [] = true
      ∧ (∀ i, i < len → tget (tableDefault cls) ((t.table cls bar).bank (s.table cls bar).shadow) (off + i) = nth 0 (s.dmaRead host len) i)
      ∧ (∀ a, (a < off ∨ off + len ≤ a) → tget (tableDefault cls) ((t.table cls bar).bank (s.table cls bar).shadow) a
          = tget (tableDefault cls) ((s.table cls bar).bank (s.table cls bar).shadow) a)
      ∧ hostOnly (placeTable cls bar off (s.dmaRead host len) errs (s.at h.t)) t h := by
  obtain ⟨hlow, hhigh⟩ := spanOk_spec hspan
  have hbs := dmaRead_length s host len
  have hcanon := tablesCanon_of_canonOk hs
  have hbody : tableWriteBody cls bar 0 off len host errs (begun s h (cmdOf 0x0070 0))
      = (placeTable cls bar off (s.dmaRead host len) errs (begun s h (cmdOf 0x0070 0)), refuse stOk) :=
    tableWriteBody_places (s := begun s h (cmdOf 0x0070 0)) errs (.inl hcls) hbar hspan hkeep (by omega) hlock hreg hread
  generalize s.dmaRead host len = bs at hbs hbody ⊢
  subst hbs
  obtain ⟨hrings, -, -⟩ := placeTable_places (s := begun s h (cmdOf 0x0070 0)) hcls hbar hlow hhigh hcanon errs
  obtain ⟨-, hclk, hshadow⟩ := placeTable_places (s := s.at h.t) hcls hbar hlow hhigh hcanon errs
  have hframe : replyFrame (placeTable cls bar off bs errs (s.at h.t)) (placeTable cls bar off bs errs (begun s h (cmdOf 0x0070 0))) :=
    placeTable_replyFrame hcls hbar hlow hhigh (t := begun s h (cmdOf 0x0070 0)) rfl errs
  have hself : hostOnly (placeTable cls bar off bs errs (s.at h.t)) (placeTable cls bar off bs errs (s.at h.t)) h := by
    have htime : ((placeTable cls bar off bs errs (s.at h.t)).at h.t).clk = (placeTable cls bar off bs errs (s.at h.t)).clk := by
      change { (placeTable cls bar off bs errs (s.at h.t)).clk with
        elapsed := max (placeTable cls bar off bs errs (s.at h.t)).clk.elapsed h.t } = _
      rw [hclk]
      simp [State.at]
    unfold hostOnly
    rw [htime]
  obtain ⟨hreply, hleft⟩ := hostCmd_answers (i := .tableWrite (unstarted h) cls bar 0 off bs.length host []) ha hbody
    (by rw [State.ring, hrings]; rfl) (hself.trans_reply hframe)
  have htables := congrArg State.tables hleft
  have htable : ∀ t : State, t.tables = (placeTable cls bar off bs errs (s.at h.t)).tables → (t.table cls bar).bank (s.table cls bar).shadow
      = mwrite (tableDefault cls) ((s.table cls bar).bank (s.table cls bar).shadow) off bs := fun t ht => by
    rw [State.table, ht]
    exact hshadow
  refine ⟨_, rfl, hreply, fun i hi => ?_, fun a ha => ?_, hleft⟩
  · rw [htable _ htables, tget_mwrite hbank, if_pos (by omega), Nat.add_sub_cancel_left]
  · rw [htable _ htables, tget_mwrite hbank, if_neg (by omega)]

/-! ## The wear totals (R78, R305) -/

/-- No burst of a span without lost ones is poisoned. -/
theorem not_poisoned_of_lostBursts {s : State} {a n x : Nat} (h : lostBursts s a n = []) (hx : x ∈ burstsIn a n) :
    burstOf (physAddr s.dram.cfg.config s.dram.cfg.map x) ∉ s.store.poison := by
  intro hmem
  unfold lostBursts at h
  split at h
  next hnone => simp [hnone] at hmem
  next =>
    have hlost := List.filter_eq_nil_iff.mp h x hx
    exact hlost (decide_eq_true hmem)

theorem mergeBurst_good {s : State} {x : Nat} (h : burstOf (physAddr s.dram.cfg.config s.dram.cfg.map x) ∉ s.store.poison) :
    mergeBurst [] s x = s := by
  have hunmarked : s.burstPoisoned (physAddr s.dram.cfg.config s.dram.cfg.map x) = false := decide_eq_false h
  have hclean : errAt [] x = .clean := rfl
  simp [mergeBurst, hclean, readBurst_good h, hunmarked, burstOutcome_clean]

/-- A write of totals of which none is lost reaches the DRAM and leaves its markers. -/
theorem writeWear_clean {s : State} {a n : Nat} (h : lostBursts s a n = []) : OnlyDram s (writeWear a n [] s) := by
  have hshared := share_onlyDram s (spanSubs s a n)
  have hlost := (lostBursts_congr hshared.poison (share_cfg s (spanSubs s a n)) a n).trans h
  unfold writeWear
  generalize s.share (spanSubs s a n) = v at hshared hlost
  have hmerged : ((burstsIn a n).filter (fun x => !coversBurst a n x)).foldl (mergeBurst []) v = v :=
    List.foldlRecOn _ _ (motive := fun t => t = v) rfl fun t ht x hx => by
      rw [ht]
      exact mergeBurst_good (not_poisoned_of_lostBursts hlost (List.mem_filter.mp hx).1)
  have hnone : v.store.poison.any (fun b => decide (b ∈ ((burstsIn a n).filter (coversBurst a n)).map
      (fun x => burstOf (physAddr v.dram.cfg.config v.dram.cfg.map x)))) = false := by
    rw [List.any_eq_false]
    intro b hb hcovered
    obtain ⟨x, hx, rfl⟩ := List.mem_map.mp (of_decide_eq_true hcovered)
    exact not_poisoned_of_lostBursts hlost (List.mem_filter.mp hx).1 hb
  simp only [hmerged, hnone, Bool.false_eq_true, if_false]
  exact hshared

/-- A write of totals, of which none is lost: the totals take the bytes, and the DRAM is reached. -/
theorem placeTable_totals {s : State} {b off : Nat} {bs : List Byte}
    (h : lostBursts s (wearBase s + 8 * wearIx b (off / 8)) bs.length = []) : placeTable 17 b off bs [] s = { s with
      path := { s.path with wearTotals := writeTotals b (off / 8) bs (bs.length / 8) s.path.wearTotals }
      dram := (placeTable 17 b off bs [] s).dram } := by
  have hplaced : placeTable 17 b off bs [] s = (writeWear (wearBase s + 8 * wearIx b (off / 8)) bs.length [] s).withPath
      { (writeWear (wearBase s + 8 * wearIx b (off / 8)) bs.length [] s).path with
        wearTotals := writeTotals b (off / 8) bs (bs.length / 8) (writeWear (wearBase s + 8 * wearIx b (off / 8)) bs.length [] s).path.wearTotals } :=
    if_pos rfl
  have hdram := writeWear_clean h
  rw [hplaced]
  generalize writeWear (wearBase s + 8 * wearIx b (off / 8)) bs.length [] s = v at hdram
  rw [hdram]
  rfl

theorem tableWrite_totals (s : State) (h : Hdr) (bar off len host : Nat) (ha : accepts s h (cmdOf 0x0070 0) = true) (hbar : bar ≤ 7)
    (hidle : s.dev = .idle) (hspan : spanOk 17 off len = true) (hlock : isLocked s 17 bar = false) (hread : s.dmaBad host len = none)
    (hclean : lostBursts s (wearBase s + 8 * wearIx bar (off / 8)) len = []) :
    ∃ t, exec (.tableWrite h 17 bar 0 off len host []) s = .next t ∧ repliedWith t h.ring h.tag 0x0070 stOk [] = true
      ∧ t.path = { s.path with wearTotals := writeTotals bar (off / 8) (s.dmaRead host len) (len / 8) s.path.wearTotals }
      ∧ hostOnly { s with path := t.path, dram := t.dram } t h := by
  have hbs := dmaRead_length s host len
  have hbody : tableWriteBody 17 bar 0 off len host [] (begun s h (cmdOf 0x0070 0))
      = (placeTable 17 bar off (s.dmaRead host len) [] (begun s h (cmdOf 0x0070 0)), refuse stOk) :=
    tableWriteBody_places (s := begun s h (cmdOf 0x0070 0)) [] (.inr rfl) (.inl hbar) hspan (by omega) (fun _ => hidle) hlock (by omega) hread
  generalize s.dmaRead host len = bs at hbs hbody ⊢
  subst hbs
  have hplaced := placeTable_totals (s := begun s h (cmdOf 0x0070 0)) (b := bar) (off := off) (bs := bs) hclean
  generalize placeTable 17 bar off bs [] (begun s h (cmdOf 0x0070 0)) = u at hplaced hbody
  obtain ⟨hreply, hleft⟩ := hostCmd_answers (i := .tableWrite (unstarted h) 17 bar 0 off bs.length host [])
    (s' := { s with path := u.path, dram := u.dram }) ha hbody (by rw [hplaced]; rfl) (by rw [hplaced]; rfl)
  have hpath := congrArg State.path hleft
  have hdram := congrArg State.dram hleft
  refine ⟨_, rfl, hreply, hpath.trans ?_, ?_⟩
  · rw [hplaced]
    rfl
  · rw [hpath, hdram]
    exact hleft

/-! ## TABLE_READ (R316, R341) -/

theorem counter_countN_other (s : State) {i j : Nat} (n : Nat) (h : j ≠ i) : (s.countN i n).counter j = s.counter j :=
  tget_tput_other _ _ h

/-- From `s` to `v` a read has counted what it met, and reached the DRAM where its class is 17. -/
structure TableReadMet (cls : Nat) (s v : State) : Prop where
  only : v = { s with counters := v.counters, dram := v.dram }
  counters : ∀ i, i ≠ 21 → v.counter i = s.counter i
  dram : cls ≠ 17 → v.dram = s.dram

theorem TableReadMet.countN {cls : Nat} {s v : State} (h : TableReadMet cls s v) (n : Nat) : TableReadMet cls s (v.countN 21 n) := by
  obtain ⟨honly, hcounters, hdram⟩ := h
  refine ⟨?_, fun i hi => (counter_countN_other v n hi).trans (hcounters i hi), hdram⟩
  rw [honly]
  rfl

theorem TableReadMet.share {s v : State} (h : TableReadMet 17 s v) (subs : List Nat) : TableReadMet 17 s (v.share subs) := by
  obtain ⟨honly, hcounters, -⟩ := h
  have hshared := share_onlyDram v subs
  generalize v.share subs = w at hshared
  refine ⟨?_, fun i hi => ?_, fun hne => absurd rfl hne⟩
  · rw [hshared, honly]
    rfl
  · rw [hshared]
    exact hcounters i hi

section
variable {s : State} {cls bar bank off len : Nat} (host : Nat) (hbar : bar ≤ 7 ∨ deviceWide cls = true) (hbank : bank ≤ 1)
  (hspan : spanOk cls off len = true) (hup : s.host.linkUp = true)
  (hgood : 9 < cls ∨ (s.table cls bar).poisoned (if bank = 1 then (s.table cls bar).live else (s.table cls bar).shadow) off len = false)
  (hclean : cls = 17 → lostBursts s (wearBase s + 8 * wearIx bar (off / 8)) len = [])
include hbar hbank hspan hup hgood hclean

theorem tableReadBody_reads : ∃ v, TableReadMet cls s v ∧ tableReadBody cls bar bank off len host [] s
    = (v.dmaWrite host ((List.range len).map (fun i => tableByte s cls bar bank (off + i))), refuse stOk) := by
  have hlegal : ¬((7 < bar ∧ (!deviceWide cls) = true) ∨ 1 < bank ∨ (!spanOk cls off len) = true) := by
    rintro (⟨hhigh, hkept⟩ | hhigh | hbad)
    · rcases hbar with hbar | hwide
      · omega
      · simp [hwide] at hkept
    · omega
    · simp [hspan] at hbad
  unfold tableReadBody
  rw [if_neg hlegal]
  extract_lets bad counted place met t k ue totals bs written host' noted
  have hcounted : TableReadMet cls s counted := TableReadMet.countN ⟨rfl, fun _ _ => rfl, fun _ => rfl⟩ _
  have hmet : TableReadMet cls s totals ∧ ¬ue := by
    by_cases h17 : cls = 17
    · subst h17
      have hlost : lostBursts met place len = [] :=
        (lostBursts_congr (share_onlyDram counted (spanSubs counted place len)).poison (share_cfg counted _) place len).trans (hclean rfl)
      have htotals : totals = met.countN 21 0 := meetTotals_clean hlost
      rw [htotals]
      exact ⟨(hcounted.share _).countN 0, fun h => h hlost⟩
    · have htotals : totals = counted := (if_neg h17).trans (if_neg h17)
      have hue : ue = ((decide (cls ≤ 9) && t.poisoned k off len) = true) := if_neg h17
      have hmet : met = counted := if_neg h17
      have ht : t = s.table cls bar := by
        change met.table cls bar = _
        rw [hmet]
        rfl
      have hk : t.poisoned k off len
          = (s.table cls bar).poisoned (if bank = 1 then (s.table cls bar).live else (s.table cls bar).shadow) off len := by rw [← ht]
      rw [htotals, hue, hk, Bool.and_eq_true, decide_eq_true_eq]
      refine ⟨hcounted, fun ⟨hlow, hbad⟩ => ?_⟩
      rcases hgood with hhigh | hgood
      · omega
      · exact absurd (hgood.symm.trans hbad) (by decide)
  obtain ⟨hread, hue⟩ := hmet
  have honly := hread.only
  have hbs : bs = (List.range len).map (fun i => tableByte s cls bar bank (off + i)) := by
    change (List.range len).map (fun i => tableByte totals cls bar bank (off + i)) = _
    rw [honly]
    rfl
  have hup' : ¬(!totals.host.linkUp) = true := by
    rw [honly]
    simp [hup]
  refine ⟨totals, hread, ?_⟩
  have hnoted : noted = written := if_neg fun h => hue h.2
  rw [if_neg hup', if_neg hue, hnoted, ← hbs]

end

/-- An accepted command that writes `data` at `dest` from a state whose host interface is as the command found it, and answers at once. -/
theorem hostCmd_delivers_from {i : Instr} {h : Hdr} {c : CmdInfo} {body : State → State × Answer} {s v : State} {dest : Nat}
    {data : List Byte} {a : Answer} (ha : accepts s h c = true) (hup : s.host.linkUp = true) (hv : v.host = (begun s h c).host)
    (hbody : body (begun s h c) = (v.dmaWrite dest data, a)) : delivered s (hostCmd i h c body s) h.ring dest data := by
  have hwrite : v.dmaWrite dest data = v.withMem (mwrite zeroByte s.host.mem dest data) := by
    unfold State.dmaWrite
    rw [hv]
    exact if_pos hup
  have hkept : (v.withMem (mwrite zeroByte s.host.mem dest data)).ring h.ring = (begun s h c).ring h.ring := by
    change tget _ v.host.rings h.ring = _
    rw [hv]
    rfl
  have hring := hkept.trans (begun_ring s h c ha)
  rw [hwrite] at hbody
  rw [(hostCmd_replies i h c body s ha (by rw [hbody]; exact hkept)).1, hbody]
  obtain ⟨rep, hlength, hmem⟩ := finalShort_mem (s := v.withMem (mwrite zeroByte s.host.mem dest data)) h.tag c.opcode a
    (by rw [hkept]; exact begun_enabled s h c ha) ((congrArg HostIf.linkUp hv).trans hup)
  rw [hring] at hmem
  exact ⟨rep, hlength, hmem⟩

theorem tableRead_delivers (s : State) (h : Hdr) (cls bar bank off len host : Nat) (ha : accepts s h (cmdOf 0x0071 0) = true)
    (hbar : bar ≤ 7 ∨ deviceWide cls = true) (hbank : bank ≤ 1) (hspan : spanOk cls off len = true) (hup : s.host.linkUp = true)
    (hgood : 9 < cls ∨ (s.table cls bar).poisoned (if bank = 1 then (s.table cls bar).live else (s.table cls bar).shadow) off len = false)
    (hclean : cls = 17 → lostBursts s (wearBase s + 8 * wearIx bar (off / 8)) len = []) :
    ∃ t, exec (.tableRead h cls bar bank off len host []) s = .next t ∧ repliedWith t h.ring h.tag 0x0071 stOk [] = true
      ∧ delivered s t h.ring host ((List.range len).map (fun i => tableByte s cls bar bank (off + i)))
      ∧ (∀ i, i ≠ 21 → t.counter i = s.counter i) ∧ (cls ≠ 17 → t.dram = s.dram)
      ∧ hostOnly { s with counters := t.counters, dram := t.dram } t h := by
  obtain ⟨v, ⟨honly, hcounters, hdram⟩, hbody⟩ := tableReadBody_reads (s := begun s h (cmdOf 0x0071 0)) host hbar hbank hspan hup hgood hclean
  have hring : (v.dmaWrite host ((List.range len).map (fun i => tableByte s cls bar bank (off + i)))).ring h.ring
      = (begun s h (cmdOf 0x0071 0)).ring h.ring := by
    rw [ring_dmaWrite, honly]
    rfl
  have hbegun : hostOnly { s with counters := v.counters, dram := v.dram } v h := by
    rw [honly]
    rfl
  obtain ⟨hreply, hleft⟩ := hostCmd_answers (i := .tableRead (unstarted h) cls bar bank off len host []) ha hbody hring
    (hbegun.trans_reply (dmaWrite_frame _ _ _))
  have hcounted := congrArg State.counters hleft
  have hdrammed := congrArg State.dram hleft
  refine ⟨_, rfl, hreply, ?_, fun i hi => ?_, fun hne => hdrammed.trans (hdram hne), ?_⟩
  · exact hostCmd_delivers_from ha hup (by rw [honly]) hbody
  · rw [State.counter, hcounted]
    exact hcounters i hi
  · rw [hcounted, hdrammed]
    exact hleft

/-- Settles O14: the shadow bank by `placeTable_places` and its frame by `placeTable_replyFrame`, the wear totals by `placeTable_totals`, and
the bytes read by `tableReadBody_reads`. -/
theorem tableCommandsComplete : Obligations.TableCommandsComplete := by
  unfold Obligations.TableCommandsComplete
  exact ⟨tableWrite_shadow, tableWrite_totals, tableRead_delivers⟩

end Sys2Proof.Machine
end

section
/-! CAL_RUN SETUP of a record that stands where the command's own ACCEPTED goes (R321, R326, R424). -/

namespace Sys2Proof.Machine

open Sys2Proof

/-- A thermal record inside its ranges: magic, version 1, SOURCE 0, the default ΔT, and four remote inputs that are OFF. -/
def recordOff : List Byte := padTo 64 (leBytes 2 0x4854 ++ leBytes 1 1)

/-- An idle device whose host has put such a record in the reply ring: it fills the entry at REPLY_TAIL, and the one behind. -/
def recordInReplyRing : State :=
  let s := pressDevice .idle 1
  { s with host := { s.host with mem := mwrite zeroByte [] 8192 recordOff } }

/-- The state is within the invariants of O58 to O60. -/
theorem recordInReplyRing_invariants :
    canonOk recordInReplyRing = true ∧ pressOk recordInReplyRing = true ∧ fireOk recordInReplyRing = true := by decide +kernel

/-- The host reads a legal record there before the command. -/
theorem recordInReplyRing_legal :
    recordInReplyRing.dmaBad 8192 64 = none ∧ thermalRecordOk (recordInReplyRing.dmaRead 8192 64) = true := by decide +kernel

/-- ACCEPTED is written over the record before SETUP reads it, so the record fails its checks: the final reply is BAD_PARAM, and no
calibration has begun. -/
theorem calRunSetup_reads_its_reply :
    (stateAfter (exec (.calRunSetup (headerAtTime 0) 8192) recordInReplyRing)).map
      (fun t => ((t.ring 0).last.map Reply.status, t.thermal.op)) = some (some stBadParam, none) := by decide +kernel

/-- Refutes O35: its clause for SETUP takes the record from host memory before the command, but the device writes ACCEPTED first, and a
record in the ring's next reply entry is no longer there when SETUP reads it. -/
theorem not_calRunCompletes : ¬ Obligations.CalRunCompletes := by
  unfold Obligations.CalRunCompletes
  rintro ⟨-, -, hsetup, -⟩
  obtain ⟨hread, hlegal⟩ := recordInReplyRing_legal
  obtain ⟨t, op, hexec, hop, -⟩ :=
    hsetup recordInReplyRing (headerAtTime 0) 8192 (by decide +kernel) recordInReplyRing_invariants.1 rfl rfl hread hlegal
  have hrefused := calRunSetup_reads_its_reply
  rw [map_of_next hexec, hop] at hrefused
  exact absurd (congrArg (Option.map Prod.snd) hrefused) (by simp)

end Sys2Proof.Machine
end

section
/-! The state after reset (R322, R336, R363, R372). -/

namespace Sys2Proof.Machine

open Sys2Proof

/-- Right after reset no table lists an entry, so every ring, counter and bar reads its reset value. -/
theorem reset_reads (r : Nat) : State.reset.ring r = Ring.reset ∧ State.reset.counter r = 0 ∧ State.reset.bar r = Bar.reset :=
  ⟨rfl, rfl, rfl⟩

/-- Settles O58: fields and families by `reset_reads`, the invariants by evaluating them on the empty tables. Values that no rule fixes are
log 1's. -/
theorem resetStateHolds : Obligations.ResetStateHolds := by
  unfold Obligations.ResetStateHolds
  refine ⟨rfl, rfl, rfl, rfl, fun r => ?_, rfl, rfl, fun i => ?_, rfl, by decide, by decide, by decide, by decide, fun b => ?_⟩
  · rw [(reset_reads r).1]; rfl
  · exact (reset_reads i).2.1
  · rw [(reset_reads b).2.2]; rfl

end Sys2Proof.Machine
end

section
/-! The network paths: link states, answers and supervision frames on both paths, and received frames (R385 to R388, R396). -/

namespace Sys2Proof.Machine

open Sys2Proof

/-! ## The table of paths -/

/-- The table of network paths is in canonical form. -/
def PortsCanon (s : State) : Prop := twf (fun _ => NetPort.reset) s.net.ports = true

/-- From `s` to `t` only the paths have changed. -/
def OnlyPorts (s t : State) : Prop := t = s.withNet { s.net with ports := t.net.ports }

theorem portsCanon_of_canonOk {s : State} (h : canonOk s = true) : PortsCanon s := by
  simp only [canonOk, Bool.and_eq_true] at h
  simp only [PortsCanon, h]

theorem PortsCanon.withPort {s : State} (h : PortsCanon s) (p : Nat) (x : NetPort) : PortsCanon (s.withPort p x) :=
  twf_tput _ _ p x h

theorem netPort_withPort {s : State} (h : PortsCanon s) (p : Nat) (x : NetPort) (q : Nat) :
    (s.withPort p x).netPort q = if q = p then x else s.netPort q := tget_tput _ _ p x q 0 h

theorem OnlyPorts.refl (s : State) : OnlyPorts s s := rfl

theorem OnlyPorts.trans {s t u : State} (h1 : OnlyPorts s t) (h2 : OnlyPorts t u) : OnlyPorts s u := by
  unfold OnlyPorts at *
  rw [h2, h1]
  rfl

theorem withPort_onlyPorts (s : State) (p : Nat) (x : NetPort) : OnlyPorts s (s.withPort p x) := rfl

theorem countPort_onlyPorts (p i : Nat) (s : State) : OnlyPorts s (countPort p i s) := rfl

theorem PortsCanon.countPort {s : State} (h : PortsCanon s) (p i : Nat) : PortsCanon (countPort p i s) := h.withPort p _

/-- Counting on a path leaves its mode, its link state and its latest frame, and every other path. -/
theorem netPort_countPort {s : State} (h : PortsCanon s) (p i q : Nat) :
    (countPort p i s).netPort q = { s.netPort q with
      counters := if q = p then nput (s.netPort p).counters i (sat 4 (nget (s.netPort p).counters i + 1)) else (s.netPort q).counters } := by
  rw [countPort, netPort_withPort h]
  split
  · next hq => rw [hq]
  · rfl

/-- A counted event shows in its counter, unless that has reached its greatest value (R396). -/
theorem countPort_counts {s : State} (h : PortsCanon s) (p i : Nat) :
    nget ((countPort p i s).netPort p).counters i = sat 4 (nget (s.netPort p).counters i + 1) := by
  rw [netPort_countPort h]
  simp only [if_true]
  exact tget_tput_same _ _ _ _ (by simp [sat])

theorem portUp_countPort {s : State} (h : PortsCanon s) (p i q : Nat) : portUp (countPort p i s) q = portUp s q := by
  simp only [portUp, netPort_countPort h]

/-! ## Frames that go out (R387) -/

/-- What sending on a path leaves: the frame is its latest where it is up, and nothing else but its counters has changed. -/
structure SentOn (p : Nat) (f : TxFrame) (s t : State) : Prop where
  canon : PortsCanon t
  only : OnlyPorts s t
  up : ∀ q, portUp t q = portUp s q
  last : portUp s p = true → (t.netPort p).lastTx = some f
  other : ∀ q, q ≠ p → t.netPort q = s.netPort q

theorem sendOn_sentOn {s : State} (h : PortsCanon s) (p : Nat) (f : TxFrame) : SentOn p f s (sendOn p f s) := by
  unfold sendOn
  split
  next hup =>
    have hcount := h.countPort p 1
    have hport := netPort_withPort hcount p { (countPort p 1 s).netPort p with lastTx := some f }
    refine ⟨hcount.withPort p _, (countPort_onlyPorts p 1 s).trans (withPort_onlyPorts _ _ _), fun q => ?_, fun _ => ?_, fun q hq => ?_⟩
    · unfold portUp
      rw [hport]
      split
      · next hq => rw [hq, netPort_countPort h]
      · rw [netPort_countPort h]
    · rw [hport, if_pos rfl]
    · rw [hport, if_neg hq, netPort_countPort h, if_neg hq]
  next hdown => exact ⟨h, .refl s, fun _ => rfl, fun hup => absurd hup hdown, fun _ _ => rfl⟩

/-- A frame takes the next sequence number, and goes out with its trailer on every path that is up (R387). -/
theorem sendBoth_spec {s : State} (h : PortsCanon s) (k : TxKind) :
    sendBoth k s = s.withNet { s.net with ports := (sendBoth k s).net.ports, prpSeq := (s.net.prpSeq + 1) % 65536 }
      ∧ ∀ p, portUp s p = true →
        ((sendBoth k s).netPort p).lastTx = some { kind := k, trailer := some (trailerOf k s.net.prpSeq p) } := by
  have hnumbered : PortsCanon (s.withNet { s.net with prpSeq := (s.net.prpSeq + 1) % 65536 }) := h
  have ha := sendOn_sentOn hnumbered 0 { kind := k, trailer := some (trailerOf k s.net.prpSeq 0) }
  have hb := sendOn_sentOn ha.canon 1 { kind := k, trailer := some (trailerOf k s.net.prpSeq 1) }
  refine ⟨ha.only.trans hb.only, fun p hp => ?_⟩
  have hp1 : p ≤ 1 := by
    simp only [portUp, Bool.and_eq_true, decide_eq_true_eq] at hp
    exact hp.1.1
  obtain rfl | rfl : p = 0 ∨ p = 1 := by omega
  · exact (congrArg NetPort.lastTx (hb.other 0 (by decide))).trans (ha.last hp)
  · exact hb.last ((ha.up 1).trans hp)

theorem sendBoth_prpSeq {s : State} (h : PortsCanon s) (k : TxKind) : (sendBoth k s).net.prpSeq = (s.net.prpSeq + 1) % 65536 := by
  rw [(sendBoth_spec h k).1]
  rfl

/-! ## The path's events (R385, R386) -/

theorem networkPortLink_takes (s : State) (p u : Nat) (up : Bool) (hs : canonOk s = true) (hp : p ≤ 1) (hmode : (s.netPort p).mode ≠ 0)
    (hnew : (s.netPort p).up ≠ up) :
    ∃ t, exec (.networkPortLink p up u) s = .next t ∧ (t.netPort p).up = up ∧ (t.netPort p).mode = (s.netPort p).mode
      ∧ t.netPort (1 - p) = s.netPort (1 - p) ∧ t = { s with clk := (s.at u).clk, net := { s.net with ports := t.net.ports } } := by
  have hcanon : PortsCanon (s.at u) := portsCanon_of_canonOk hs
  have hlinked := hcanon.withPort p { s.netPort p with up := up }
  have hport := netPort_withPort hcanon p { s.netPort p with up := up }
  have hother : 1 - p ≠ p := by omega
  have htaken : exec (.networkPortLink p up u) s = .next (if up then (s.at u).withPort p { s.netPort p with up := up }
      else countPort p 6 ((s.at u).withPort p { s.netPort p with up := up })) :=
    if_neg (by simpa only [not_or, Nat.not_lt] using ⟨hp, hmode, hnew⟩)
  refine ⟨_, htaken, ?_⟩
  cases up
  · rw [if_neg Bool.false_ne_true]
    exact ⟨by rw [netPort_countPort hlinked, hport, if_pos rfl], by rw [netPort_countPort hlinked, hport, if_pos rfl],
      by rw [netPort_countPort hlinked, if_neg hother, hport, if_neg hother]; rfl, rfl⟩
  · rw [if_pos (show true = true from rfl)]
    exact ⟨by rw [hport, if_pos rfl], by rw [hport, if_pos rfl], by rw [hport, if_neg hother]; rfl, rfl⟩

/-- What an answer to a request for the device's own address leaves (R386, R387). -/
theorem sendBoth_answers {s : State} (hs : canonOk s = true) {p : Nat} (hup : portUp s p = true) (k : TxKind) (u : Time) :
    (sendBoth k (s.at u)).net.prpSeq = (s.net.prpSeq + 1) % 65536
      ∧ ((sendBoth k (s.at u)).netPort p).lastTx = some { kind := k, trailer := some (trailerOf k s.net.prpSeq p) }
      ∧ sendBoth k (s.at u) = { s with clk := (s.at u).clk, net := { s.net with
        ports := (sendBoth k (s.at u)).net.ports, prpSeq := (sendBoth k (s.at u)).net.prpSeq } } := by
  have hcanon : PortsCanon (s.at u) := portsCanon_of_canonOk hs
  have hseq := sendBoth_prpSeq hcanon k
  obtain ⟨hframe, hlast⟩ := sendBoth_spec hcanon k
  refine ⟨hseq, hlast p hup, ?_⟩
  rw [hseq]
  exact hframe

theorem requests_answered (s : State) (p ip u : Nat) (hs : canonOk s = true) (hup : portUp s p = true) (hip : ip = s.net.ipv4) :
    (∃ t, exec (.arpRequest p ip u) s = .next t ∧ t.net.prpSeq = (s.net.prpSeq + 1) % 65536
      ∧ (t.netPort p).lastTx = some { kind := .arpReply ip, trailer := some (trailerOf (.arpReply ip) s.net.prpSeq p) }
      ∧ t = { s with clk := (s.at u).clk, net := { s.net with ports := t.net.ports, prpSeq := t.net.prpSeq } })
    ∧ (∃ t, exec (.icmpEchoRequest p ip u) s = .next t ∧ t.net.prpSeq = (s.net.prpSeq + 1) % 65536
      ∧ (t.netPort p).lastTx = some { kind := .echoReply ip, trailer := some (trailerOf (.echoReply ip) s.net.prpSeq p) }
      ∧ t = { s with clk := (s.at u).clk, net := { s.net with ports := t.net.ports, prpSeq := t.net.prpSeq } }) :=
  ⟨⟨_, congrArg Host.Outcome.next (if_pos ⟨hup, hip⟩), sendBoth_answers hs hup _ u⟩,
    ⟨_, congrArg Host.Outcome.next (if_pos ⟨hup, hip⟩), sendBoth_answers hs hup _ u⟩⟩

theorem requests_of_others_ignored (s : State) (p ip u : Nat) (hip : ip ≠ s.net.ipv4) :
    exec (.arpRequest p ip u) s = .next (s.at u) ∧ exec (.icmpEchoRequest p ip u) s = .next (s.at u) :=
  ⟨congrArg Host.Outcome.next (if_neg fun h => hip h.2), congrArg Host.Outcome.next (if_neg fun h => hip h.2)⟩

/-! ## Supervision and received frames (R387, R388, R396) -/

theorem prpSupervision_sends (s : State) (u p : Nat) (hs : canonOk s = true) (hup : portUp s p = true)
    (hdue : ∀ x, s.net.supervisedAt = some x → x + 2 * secT ≤ max s.clk.elapsed u) :
    ∃ t, exec (.prpSupervision u) s = .next t ∧ t.net.supervisedAt = some (max s.clk.elapsed u)
      ∧ t.net.prpSeq = (s.net.prpSeq + 1) % 65536
      ∧ (t.netPort p).lastTx = some { kind := .supervision, trailer := some (trailerOf .supervision s.net.prpSeq p) } ∧ t.dev = s.dev := by
  have hcanon : PortsCanon ((s.at u).withNet { s.net with supervisedAt := some (max s.clk.elapsed u) }) := portsCanon_of_canonOk hs
  obtain ⟨hframe, hlast⟩ := sendBoth_spec hcanon .supervision
  have hany : anyPortUp s = true := by
    have hp1 : p ≤ 1 := by
      simp only [portUp, Bool.and_eq_true, decide_eq_true_eq] at hup
      exact hup.1.1
    obtain rfl | rfl : p = 0 ∨ p = 1 := by omega
    · simp only [anyPortUp, hup, Bool.true_or]
    · simp only [anyPortUp, hup, Bool.or_true]
  have hdue' : (match s.net.supervisedAt with
      | none => true
      | some x => decide (x + 2 * secT ≤ (s.at u).clk.elapsed)) = true := by
    split
    · rfl
    next x hx => exact decide_eq_true (hdue x hx)
  refine ⟨_, congrArg Host.Outcome.next (if_pos (Bool.and_eq_true_iff.mpr ⟨hdue', hany⟩)), ?_, sendBoth_prpSeq hcanon _, hlast p hup, ?_⟩
  · exact (congrArg (fun t => t.net.supervisedAt) hframe :)
  · exact (congrArg State.dev hframe :)

/-- A frame with a trailer is counted, and its LAN identifier where that is wrong (R396). -/
def countedFrame (p lan : Nat) (s : State) : State :=
  if lan ≠ 0xA + p then countPort p 2 (countPort p 0 s) else countPort p 0 s

/-- What the duplicate-discard table lets through is used, or counted as other (R386, R396). -/
def deliverFrame (p : Nat) (content : RxContent) (dup : Bool) (s : State) : State :=
  if dup then countPort p 3 s else if frameUsed s content then s else countPort p 7 s

theorem countedFrame_onlyPorts (p lan : Nat) (s : State) : OnlyPorts s (countedFrame p lan s) := by
  unfold countedFrame
  split
  · exact (countPort_onlyPorts p 0 s).trans (countPort_onlyPorts _ _ _)
  · exact countPort_onlyPorts _ _ _

theorem deliverFrame_onlyPorts (p : Nat) (content : RxContent) (dup : Bool) (s : State) : OnlyPorts s (deliverFrame p content dup s) := by
  unfold deliverFrame
  split
  · exact countPort_onlyPorts _ _ _
  · split
    · exact .refl _
    · exact countPort_onlyPorts _ _ _

/-- A frame of up to 1,536 bytes with a trailer passes the duplicate-discard table. -/
theorem acceptFrame_eq {s : State} {p source seq lan length : Nat} (content : RxContent) (hlength : length ≤ 1536) :
    acceptFrame p source seq lan true length content s
      = deliverFrame p content (dupCheck s.clk.elapsed source seq s.net.dup).2 ((countedFrame p lan s).withNet
        { (countedFrame p lan s).net with dup := (dupCheck s.clk.elapsed source seq s.net.dup).1 }) := by
  have hsame : (countedFrame p lan s).clk = s.clk ∧ (countedFrame p lan s).net.dup = s.net.dup := by
    rw [countedFrame_onlyPorts p lan s]
    exact ⟨rfl, rfl⟩
  rw [← hsame.1, ← hsame.2]
  unfold acceptFrame
  simp only [if_neg (Nat.not_lt.mpr hlength), if_true, true_and]
  rfl

/-- Beside the table only the path's counters change. -/
theorem acceptFrame_discards {s : State} {p source seq lan length : Nat} (content : RxContent) (hlength : length ≤ 1536) :
    (acceptFrame p source seq lan true length content s).net.dup = (dupCheck s.clk.elapsed source seq s.net.dup).1
      ∧ acceptFrame p source seq lan true length content s = s.withNet { s.net with
        ports := (acceptFrame p source seq lan true length content s).net.ports
        dup := (acceptFrame p source seq lan true length content s).net.dup } := by
  rw [acceptFrame_eq content hlength, deliverFrame_onlyPorts, countedFrame_onlyPorts]
  exact ⟨rfl, rfl⟩

theorem prpFrameReceive_accepts (s : State) (p source seq lan length u : Nat) (content : RxContent) (hup : portUp s p = true)
    (hlength : length ≤ 1536) (hwhole : content ≠ .damaged) (hfec : content ≠ .fecLost) :
    ∃ t, exec (.prpFrameReceive p source seq lan true length content u) s = .next t
      ∧ t.net.dup = (dupCheck (max s.clk.elapsed u) source seq s.net.dup).1
      ∧ t = { s with clk := (s.at u).clk, net := { s.net with ports := t.net.ports, dup := t.net.dup } } := by
  have hup' : ¬(!portUp (s.at u) p) = true := by simp [show portUp (s.at u) p = true from hup]
  refine ⟨acceptFrame p source seq lan true length content (s.at u), congrArg Host.Outcome.next ((if_neg hup').trans ?_),
    acceptFrame_discards (s := s.at u) content hlength⟩
  cases content with
  | damaged => exact absurd rfl hwhole
  | fecLost => exact absurd rfl hfec
  | arp _ | echo _ | supervision | heartbeat _ | other => rfl

theorem prpFrameReceive_damaged (s : State) (p source seq lan length u : Nat) (trailer : Bool) (hs : canonOk s = true)
    (hup : portUp s p = true) :
    ∃ t, exec (.prpFrameReceive p source seq lan trailer length .damaged u) s = .next t
      ∧ nget (t.netPort p).counters 4 = sat 4 (nget (s.netPort p).counters 4 + 1)
      ∧ t = { s with clk := (s.at u).clk, net := { s.net with ports := t.net.ports } } := by
  have hup' : ¬(!portUp (s.at u) p) = true := by simp [show portUp (s.at u) p = true from hup]
  exact ⟨countPort p 4 (s.at u), congrArg Host.Outcome.next (if_neg hup'),
    countPort_counts (s := s.at u) (portsCanon_of_canonOk hs) p 4, rfl⟩

/-- Settles O38: link states by `networkPortLink_takes`, answers and supervision by `sendBoth_spec`, received frames by
`acceptFrame_discards` and `countPort_counts`. Silence to requests for other addresses, and what counts as RX_ERR, are log 72's. -/
theorem networkPathsComplete : Obligations.NetworkPathsComplete := by
  unfold Obligations.NetworkPathsComplete
  exact ⟨networkPortLink_takes, requests_answered, requests_of_others_ignored, prpSupervision_sends, prpFrameReceive_accepts,
    prpFrameReceive_damaged⟩

end Sys2Proof.Machine
end

section
/-! PTP messages of a tracked domain: masters, offsets, delays and the loss of the estimate (R391, R392). -/

namespace Sys2Proof.Machine

open Sys2Proof

/-! ## The table of domains -/

/-- The table of tracked domains is in canonical form. -/
def DomainsCanon (s : State) : Prop := twf (fun _ => PtpDomain.reset) s.net.domains = true

theorem domainsCanon_of_canonOk {s : State} (h : canonOk s = true) : DomainsCanon s := by
  simp only [canonOk, Bool.and_eq_true] at h
  simp only [DomainsCanon, h]

theorem DomainsCanon.withDomain {s : State} (h : DomainsCanon s) (d : Nat) (x : PtpDomain) : DomainsCanon (s.withDomain d x) :=
  twf_tput _ _ d x h

theorem domain_withDomain {s : State} (h : DomainsCanon s) (d : Nat) (x : PtpDomain) (e : Nat) :
    (s.withDomain d x).domain e = if e = d then x else s.domain e := tget_tput _ _ d x e 0 h

theorem domain_withDomain_same {s : State} (h : DomainsCanon s) (d : Nat) (x : PtpDomain) : (s.withDomain d x).domain d = x := by
  rw [domain_withDomain h, if_pos rfl]

theorem domain_congr {s t : State} (h : t.net.domains = s.net.domains) (d : Nat) : t.domain d = s.domain d := by
  simp only [State.domain, h]

/-! ## What the choice of a source leaves of the domains (R393, R394, R399) -/

/-- A domain after a step of the time base: its offsets have moved with it. -/
def PtpDomain.moved (x : PtpDomain) (k : Int) : PtpDomain :=
  { x with offsets := x.offsets.map (· + k), filtered := x.filtered.map (· + k) }

theorem PtpDomain.moved_zero (x : PtpDomain) : x.moved 0 = x := by
  simp only [PtpDomain.moved, Int.add_zero, List.map_id']

theorem PtpDomain.moved_moved (x : PtpDomain) (j k : Int) : (x.moved j).moved k = x.moved (j + k) := by
  simp only [PtpDomain.moved, List.map_map, Function.comp_def, Int.add_assoc]

/-- From `s` to `t` the source of the time base may have been chosen anew: device state and press description stay, and the domains' offsets
have moved together, by nothing unless the time base has stepped. -/
structure SourceWork (s t : State) : Prop where
  dev : t.dev = s.dev
  press : t.press = s.press
  canon : DomainsCanon s → DomainsCanon t
  steps : s.clk.steps ≤ t.clk.steps
  moved : DomainsCanon s → ∃ k : Int, (t.clk.steps = s.clk.steps → k = 0) ∧ ∀ d, d ≤ 1 → t.domain d = (s.domain d).moved k

theorem SourceWork.of_still {s t : State} (hdev : t.dev = s.dev) (hpress : t.press = s.press) (hsteps : t.clk.steps = s.clk.steps)
    (hdomains : t.net.domains = s.net.domains) : SourceWork s t where
  dev := hdev
  press := hpress
  canon h := by rwa [DomainsCanon, hdomains]
  steps := hsteps.ge
  moved _ := ⟨0, fun _ => rfl, fun d _ => by rw [PtpDomain.moved_zero, domain_congr hdomains]⟩

theorem SourceWork.refl (s : State) : SourceWork s s := .of_still rfl rfl rfl rfl

theorem SourceWork.trans {s t u : State} (h1 : SourceWork s t) (h2 : SourceWork t u) : SourceWork s u where
  dev := h2.dev.trans h1.dev
  press := h2.press.trans h1.press
  canon h := h2.canon (h1.canon h)
  steps := h1.steps.trans h2.steps
  moved h := by
    obtain ⟨j, hj, hs⟩ := h1.moved h
    obtain ⟨k, hk, ht⟩ := h2.moved (h1.canon h)
    have hle := h1.steps
    have hle' := h2.steps
    exact ⟨j + k, fun e => by rw [hj (by omega), hk (by omega)]; rfl,
      fun d hd => by rw [ht d hd, hs d hd, PtpDomain.moved_moved]⟩

theorem SourceWork.ite {c : Prop} [Decidable c] {s t u : State} (h1 : SourceWork s t) (h2 : SourceWork s u) :
    SourceWork s (if c then t else u) := by
  split
  · exact h1
  · exact h2

theorem raise_sourceWork (s : State) (i : Nat) : SourceWork s (s.raise i) := by
  rw [raise_frame]
  exact .of_still rfl rfl rfl rfl

theorem stepTout_sourceWork (before : Nat) (s : State) (k : Nat) : SourceWork s (stepTout before s k) :=
  .ite (.of_still rfl rfl rfl rfl) (.ite (.of_still rfl rfl rfl rfl) (.refl s))

/-- A step of the time base by k moves the offsets of both domains by k. -/
theorem stepBase_sourceWork (k : Int) (s : State) : SourceWork s (stepBase k s) := by
  unfold stepBase
  simp only [List.foldl_cons, List.foldl_nil]
  generalize hw : ((s.withClk _).withWeb _ : State) = w
  have hdomains : w.net.domains = s.net.domains := by rw [← hw]; rfl
  have hsteps : w.clk.steps = s.clk.steps + 1 := by rw [← hw]; rfl
  have hmoved : SourceWork s ((w.withDomain 0 ((w.domain 0).moved k)).withDomain 1
      (((w.withDomain 0 ((w.domain 0).moved k)).domain 1).moved k)) := by
    have hcanon : DomainsCanon s → DomainsCanon w := fun h => by rwa [DomainsCanon, hdomains]
    refine ⟨?_, ?_, fun h => ((hcanon h).withDomain 0 _).withDomain 1 _, ?_, fun h => ⟨k, fun e => ?_, fun d hd => ?_⟩⟩
    · rw [← hw]; rfl
    · rw [← hw]; rfl
    · exact (Nat.le_succ _).trans_eq hsteps.symm
    · exact absurd (hsteps.symm.trans e) (Nat.succ_ne_self _)
    · have hw := hcanon h
      rw [domain_withDomain (hw.withDomain 0 _), domain_withDomain hw, domain_withDomain hw, ← domain_congr hdomains]
      obtain rfl | rfl : d = 0 ∨ d = 1 := by omega
      · rfl
      · rfl
  exact hmoved.trans (foldl_keeps SourceWork .refl .trans _ (stepTout_sourceWork _) _ _)

theorem withClk_sourceWork {s : State} {c : Clk} (h : c.steps = s.clk.steps) : SourceWork s (s.withClk c) := .of_still rfl rfl h rfl

theorem steer_sourceWork (s : State) (running : Bool) (r : Int) : SourceWork s (s.withClk (s.clk.steer running r)) :=
  withClk_sourceWork rfl

theorem report_sourceWork (s : State) (code value : Nat) (key fields : List Byte) : SourceWork s (s.report code key value fields) :=
  .of_still rfl rfl rfl rfl

theorem foldSlew_sourceWork (s : State) : SourceWork s (s.withClk s.clk.fold) := by
  refine withClk_sourceWork ?_
  unfold Clk.fold
  split <;> rfl

theorem removeDifference_sourceWork (d : Int) (s : State) : SourceWork s (removeDifference d s) :=
  (foldSlew_sourceWork s).trans (.ite (stepBase_sourceWork d _) (.ite (.refl _) (withClk_sourceWork rfl)))

theorem switchSource_sourceWork (new : TimeSource) (d : Int) (s : State) : SourceWork s (switchSource new d s) := by
  have hset : ∀ (fresh : Bool) (u : State), SourceWork s u →
      SourceWork s (if fresh then stepBase d (u.withClk u.clk.fold) else removeDifference d u) := fun _ u hu =>
    hu.trans (.ite ((foldSlew_sourceWork u).trans (stepBase_sourceWork d _)) (removeDifference_sourceWork d u))
  have hchosen : ∀ v : Bool, SourceWork s (s.withClk { s.clk with source := new, taiValid := v }) := fun _ => withClk_sourceWork rfl
  exact hset _ _ ((hchosen _).trans ((raise_sourceWork _ 15).trans ((report_sourceWork _ _ _ _ _).trans (steer_sourceWork _ _ _))))

/-- Choosing a source switches to one at most. -/
theorem selectSource_sourceWork (s : State) : SourceWork s (selectSource s) := by
  have hswitch : ∀ d, SourceWork s (if s.clk.source = trackedSource d then s
      else switchSource (trackedSource d) (differenceTo s d) s) := fun d => .ite (.refl s) (switchSource_sourceWork _ _ s)
  exact .ite (hswitch _) (.ite (hswitch _) (.ite (switchSource_sourceWork _ _ s) (.refl s)))

/-! ## Masters and estimates (R391, R392) -/

/-- A domain that has lost its estimate (R392). -/
def PtpDomain.lost (x : PtpDomain) : PtpDomain := { x with estimate := false, offsets := [], filtered := [] }

theorem loseEstimate_sourceWork (d : Nat) (s : State) : SourceWork (s.withDomain d (s.domain d).lost) (loseEstimate d s) :=
  selectSource_sourceWork _

/-- A domain after one measured offset at elapsed time `now` (R392). -/
def PtpDomain.measured (x : PtpDomain) (off : Int) (now : Time) : PtpDomain :=
  let offsets := (off :: x.offsets).take 16
  let y := { x with offsets := offsets, filtered := (Config.servoOffset x.bandwidth offsets :: x.filtered).take 16 }
  { y with estimate := holdsEstimate y, heldSince := if holdsEstimate y ∧ !x.estimate then now else x.heldSince }

theorem takeOffset_sourceWork (d : Nat) (off : Int) (s : State) :
    SourceWork (s.withDomain d ((s.domain d).measured off s.clk.elapsed)) (takeOffset d off s) := by
  have hsteered : ∀ (p : Prop) [Decidable p] (c : Prop) [Decidable c] (u : State) (k : Clk), k.steps = u.clk.steps →
      SourceWork u (if p then selectSource (if c then u.withClk k else u) else if c then u.withClk k else u) := by
    intro p _ c _ u k hk
    have hclk : SourceWork u (if c then u.withClk k else u) := .ite (withClk_sourceWork hk) (.refl u)
    exact .ite (hclk.trans (selectSource_sourceWork _)) hclk
  exact hsteered _ _ _ _ rfl

/-- A complete Sync: its stamps are kept, no Follow_Up is waited for, and with a delay measured it gives the offset. -/
theorem syncComplete_measures {s : State} (hs : DomainsCanon s) {d : Nat} (hd : d ≤ 1) (p origin arr : Nat) {delay : Nat}
    (hdelay : (s.domain d).delayNow = some delay) :
    ∃ k : Int, ((syncComplete d p origin arr s).clk.steps = s.clk.steps → k = 0)
      ∧ (syncComplete d p origin arr s).domain d
        = (({ s.domain d with syncOrigin := origin, syncArrival := arr, pendingSync := none } : PtpDomain).measured
          ((arr : Int) - origin - delay - (s.domain d).asym p) s.clk.elapsed).moved k := by
  have hstamped := domain_withDomain_same hs d { s.domain d with syncOrigin := origin, syncArrival := arr, pendingSync := none }
  have hcanon := hs.withDomain d { s.domain d with syncOrigin := origin, syncArrival := arr, pendingSync := none }
  have hdelay' : ({ s.domain d with syncOrigin := origin, syncArrival := arr, pendingSync := none } : PtpDomain).delayNow = some delay :=
    hdelay
  unfold syncComplete
  simp only [hdelay']
  have hwork := takeOffset_sourceWork d ((arr : Int) - origin - delay - (s.domain d).asym p)
    (s.withDomain d { s.domain d with syncOrigin := origin, syncArrival := arr, pendingSync := none })
  rw [hstamped] at hwork
  obtain ⟨k, hk, hmoved⟩ := hwork.moved (hcanon.withDomain d _)
  refine ⟨k, hk, (hmoved d hd).trans ?_⟩
  rw [domain_withDomain_same hcanon]
  rfl

/-! ## Messages that arrive (R391) -/

/-- The state in which a message that has arrived on a path is worked: it is counted. -/
def heard (s : State) (p : Nat) (u : Time) : State := countPort p 0 (s.at u)

theorem heard_domainsCanon {s : State} (hs : canonOk s = true) (p : Nat) (u : Time) : DomainsCanon (heard s p u) :=
  show DomainsCanon s from domainsCanon_of_canonOk hs

theorem heard_portsCanon {s : State} (hs : canonOk s = true) (p : Nat) (u : Time) : PortsCanon (heard s p u) :=
  PortsCanon.countPort (s := s.at u) (portsCanon_of_canonOk hs) p 0

/-- A message of a tracked domain that arrives on a path that is up is worked on the state in which it is counted. -/
theorem ptpReceive_hears {s t : State} {d p : Nat} {u : Time} {f : PtpDomain → State → State} (hup : portUp s p = true) (hd : d ≤ 1)
    (hon : (s.domain d).on = true) (ht : f (s.domain d) (heard s p u) = t) : ptpReceive d p u f s = .next t := by
  have hup' : ¬(!portUp (s.at u) p) = true := by simp [show portUp (s.at u) p = true from hup]
  rw [← ht]
  exact (if_neg hup').trans (congrArg Host.Outcome.next (if_pos ⟨hd, hon⟩))

theorem ptpAnnounce_joins (s : State) (a : Announce) (u : Nat) (hs : canonOk s = true) (hup : portUp s a.path = true) (hd : a.domain ≤ 1)
    (hon : (s.domain a.domain).on = true) :
    ∃ t, exec (.ptpAnnounce a u) s = .next t
      ∧ (t.domain a.domain).masters = hearMaster (max s.clk.elapsed u) a (s.domain a.domain).masters ∧ t.dev = s.dev ∧ t.press = s.press := by
  have hcanon := heard_domainsCanon hs a.path u
  have hexec : exec (.ptpAnnounce a u) s = execPtpAnnounce a u s := rfl
  refine ⟨_, hexec.trans (ptpReceive_hears hup hd hon rfl), ?_⟩
  generalize hv : State.withDomain _ _ _ = v
  have hvcanon : DomainsCanon v := hv ▸ hcanon.withDomain _ _
  have hmasters : (v.domain a.domain).masters = hearMaster (max s.clk.elapsed u) a (s.domain a.domain).masters := by
    rw [← hv, domain_withDomain_same hcanon]
    rfl
  have hsame : v.dev = s.dev ∧ v.press = s.press := by
    rw [← hv]
    exact ⟨rfl, rfl⟩
  have hselected : ∀ m, DomainsCanon (v.withDomain a.domain { v.domain a.domain with selected := m })
      ∧ (v.withDomain a.domain { v.domain a.domain with selected := m }).domain a.domain = { v.domain a.domain with selected := m } :=
    fun m => ⟨hvcanon.withDomain _ _, domain_withDomain_same hvcanon _ _⟩
  unfold selectMaster
  dsimp only
  generalize bestMaster _ = m
  obtain ⟨hwcanon, hw⟩ := hselected m
  split
  · rw [hw]
    exact ⟨hmasters, hsame⟩
  · have hwork := loseEstimate_sourceWork a.domain (v.withDomain a.domain { v.domain a.domain with selected := m })
    obtain ⟨k, -, hmoved⟩ := hwork.moved (hwcanon.withDomain _ _)
    rw [hmoved _ hd, domain_withDomain_same hwcanon, hw]
    exact ⟨hmasters, hwork.dev.trans hsame.1, hwork.press.trans hsame.2⟩

theorem ptpSync_completes (s : State) (d p snd seq origin arr li u : Nat) (hs : canonOk s = true) (hup : portUp s p = true) (hd : d ≤ 1)
    (hon : (s.domain d).on = true) (hmaster : fromMaster (s.domain d) p snd = true) :
    (∃ t, exec (.ptpSync d p snd seq origin arr li true u) s = .next t ∧ (t.domain d).pendingSync = some (p, seq, arr)
      ∧ (t.domain d).syncAt = some (max s.clk.elapsed u) ∧ (t.domain d).offsets = (s.domain d).offsets)
    ∧ (∀ delay, (s.domain d).delayNow = some delay →
      ∃ (t : State) (k : Int), exec (.ptpSync d p snd seq origin arr li false u) s = .next t ∧ (t.domain d).syncOrigin = origin
        ∧ (t.domain d).syncArrival = arr ∧ (t.clk.steps = s.clk.steps → k = 0)
        ∧ (t.domain d).offsets = ((((arr : Int) - origin - delay - (s.domain d).asym p) :: (s.domain d).offsets).take 16).map (· + k)) := by
  have hcanon := heard_domainsCanon hs p u
  have hfrom : ¬(!fromMaster (s.domain d) p snd) = true := by simp [hmaster]
  constructor
  · have hexec : exec (.ptpSync d p snd seq origin arr li true u) s = execPtpSync d p snd seq origin arr li true u s := rfl
    refine ⟨_, hexec.trans (ptpReceive_hears hup hd hon ((if_neg hfrom).trans (if_pos rfl))), ?_⟩
    rw [domain_withDomain_same hcanon]
    exact ⟨rfl, rfl, rfl⟩
  · intro delay hdelay
    have hsynced := domain_withDomain_same hcanon d { s.domain d with
      syncAt := some (heard s p u).clk.elapsed, syncInterval := syncSpan li, pendingSync := none }
    obtain ⟨k, hk, hmeasured⟩ := syncComplete_measures (hcanon.withDomain d { s.domain d with
      syncAt := some (heard s p u).clk.elapsed, syncInterval := syncSpan li, pendingSync := none }) hd p origin arr
      (delay := delay) (by rw [hsynced]; exact hdelay)
    have hexec : exec (.ptpSync d p snd seq origin arr li false u) s = execPtpSync d p snd seq origin arr li false u s := rfl
    refine ⟨_, k, hexec.trans (ptpReceive_hears hup hd hon ((if_neg hfrom).trans (if_neg Bool.false_ne_true))),
      ?_, ?_, hk, ?_⟩
    · exact (congrArg PtpDomain.syncOrigin hmeasured :)
    · exact (congrArg PtpDomain.syncArrival hmeasured :)
    · refine (congrArg PtpDomain.offsets hmeasured :).trans ?_
      rw [hsynced]
      rfl

theorem ptpFollowUp_completes (s : State) (d p snd seq origin arr delay u : Nat) (hs : canonOk s = true) (hup : portUp s p = true)
    (hd : d ≤ 1) (hon : (s.domain d).on = true) (hmaster : fromMaster (s.domain d) p snd = true)
    (hpending : (s.domain d).pendingSync = some (p, seq, arr)) (hdelay : (s.domain d).delayNow = some delay) :
    ∃ (t : State) (k : Int), exec (.ptpFollowUp d p snd seq origin u) s = .next t ∧ (t.domain d).pendingSync = none
      ∧ (t.domain d).syncOrigin = origin ∧ (t.clk.steps = s.clk.steps → k = 0)
      ∧ (t.domain d).offsets = ((((arr : Int) - origin - delay - (s.domain d).asym p) :: (s.domain d).offsets).take 16).map (· + k) := by
  have hcanon := heard_domainsCanon hs p u
  obtain ⟨k, hk, hmeasured⟩ := syncComplete_measures hcanon hd p origin arr (delay := delay) hdelay
  have hexec : exec (.ptpFollowUp d p snd seq origin u) s = execPtpFollowUp d p snd seq origin u s := rfl
  refine ⟨syncComplete d p origin arr (heard s p u), k, hexec.trans (ptpReceive_hears hup hd hon ?_), ?_, ?_, hk,
    (congrArg PtpDomain.offsets hmeasured :)⟩
  · simp only [hpending, hmaster, and_self, if_true]
  · exact (congrArg PtpDomain.pendingSync hmeasured :)
  · exact (congrArg PtpDomain.syncOrigin hmeasured :)

/-! ## Delays (R391) -/

theorem setDelay_delays {s : State} (hs : DomainsCanon s) (d p : Nat) (delay : Int) :
    (setDelay d p delay s).domain d = { s.domain d with
      delays := tput (fun _ => none) (s.domain d).delays p (some delay.toNat) } :=
  domain_withDomain_same hs d _

/-- The delay just measured is the path's. -/
theorem setDelay_delay {s : State} (hs : DomainsCanon s) (d p : Nat) (delay : Int) :
    tget (fun _ => none) ((setDelay d p delay s).domain d).delays p = some delay.toNat := by
  rw [setDelay_delays hs]
  exact tget_tput_same _ _ _ _ (by simp)

/-- A request goes out on a path that is up, and its domain notes it. -/
theorem request_goes {s : State} (hs : canonOk s = true) {d p : Nat} (hup : portUp s p = true) (u : Time) (x : PtpDomain) (f : TxFrame) :
    (sendOn p f ((s.at u).withDomain d x)).domain d = x ∧ ((sendOn p f ((s.at u).withDomain d x)).netPort p).lastTx = some f
      ∧ sendOn p f ((s.at u).withDomain d x) = { s with clk := (s.at u).clk, net := { s.net with
        ports := (sendOn p f ((s.at u).withDomain d x)).net.ports
        domains := (sendOn p f ((s.at u).withDomain d x)).net.domains } } := by
  have hcanon : DomainsCanon (s.at u) := domainsCanon_of_canonOk hs
  have hports : PortsCanon ((s.at u).withDomain d x) := show PortsCanon s from portsCanon_of_canonOk hs
  have hsent := sendOn_sentOn hports p f
  have hsame := domain_congr (congrArg (fun t => t.net.domains) hsent.only) d
  refine ⟨hsame.trans (domain_withDomain_same hcanon d x), hsent.last hup, ?_⟩
  rw [hsent.only]
  rfl

theorem delayReqSend_sends (s : State) (d p u : Nat) (m : Announce) (hs : canonOk s = true) (hup : portUp s p = true) (hd : d ≤ 1)
    (hon : (s.domain d).on = true) (hmech : (s.domain d).delayMech = 0) (hselected : (s.domain d).selected = some m) (hpath : m.path = p)
    (hsync : (s.domain d).syncAt.isSome = true) :
    ∃ t, exec (.delayReqSend d p u) s = .next t ∧ (t.domain d).delayReq = some ((s.domain d).txSeq, p, (s.at u).base)
      ∧ (t.domain d).txSeq = ((s.domain d).txSeq + 1) % 65536
      ∧ (t.netPort p).lastTx = some { kind := .delayReq d (s.domain d).txSeq, trailer := none }
      ∧ t = { s with clk := (s.at u).clk, net := { s.net with ports := t.net.ports, domains := t.net.domains } } := by
  obtain ⟨hdomain, hlast, hframe⟩ := request_goes hs hup u (d := d) { s.domain d with
    delayReq := some ((s.domain d).txSeq, p, (s.at u).base), txSeq := ((s.domain d).txSeq + 1) % 65536 }
    { kind := .delayReq d (s.domain d).txSeq, trailer := none }
  have htaken : ¬(1 < d ∨ !(s.domain d).on ∨ (s.domain d).delayMech ≠ 0 ∨ !decide (m.path = p) ∨ (s.domain d).syncAt.isNone
      ∨ !portUp s p) := by
    simp [hon, hmech, hpath, hup, Option.isSome_iff_ne_none.mp hsync, hd]
  refine ⟨_, ?_, (congrArg PtpDomain.delayReq hdomain :), (congrArg PtpDomain.txSeq hdomain :), hlast, hframe⟩
  change execDelayReqSend d p u s = _
  unfold execDelayReqSend
  simp only [show (s.at u).domain d = s.domain d from rfl, hselected]
  exact if_neg htaken

theorem ptpDelayResp_measures (s : State) (d p snd seq received sent u : Nat) (hs : canonOk s = true) (hup : portUp s p = true) (hd : d ≤ 1)
    (hon : (s.domain d).on = true) (hmaster : fromMaster (s.domain d) p snd = true) (hreq : (s.domain d).delayReq = some (seq, p, sent)) :
    ∃ t, exec (.ptpDelayResp d p snd seq received u) s = .next t ∧ (t.domain d).delayReq = none
      ∧ tget (fun _ => none) (t.domain d).delays p = some ((((((s.domain d).syncArrival : Int) - (s.domain d).syncOrigin)
          + ((received : Int) - sent)) / 2).toNat) := by
  have hcanon := heard_domainsCanon hs p u
  have hanswered := hcanon.withDomain d { s.domain d with delayReq := none }
  have hexec : exec (.ptpDelayResp d p snd seq received u) s = execPtpDelayResp d p snd seq received u s := rfl
  refine ⟨setDelay d p ((((s.domain d).syncArrival : Int) - (s.domain d).syncOrigin + ((received : Int) - sent)) / 2)
    ((heard s p u).withDomain d { s.domain d with delayReq := none }),
    hexec.trans (ptpReceive_hears hup hd hon ?_), ?_, setDelay_delay hanswered d p _⟩
  · simp [hreq, hmaster]
  · rw [setDelay_delays hanswered, domain_withDomain_same hcanon]

theorem pdelayReqSend_sends (s : State) (d p u : Nat) (hs : canonOk s = true) (hup : portUp s p = true) (hd : d ≤ 1)
    (hon : (s.domain d).on = true) (hmech : (s.domain d).delayMech = 1) (hnone : tget (fun _ => none) (s.domain d).pdelayReq p = none) :
    ∃ t, exec (.pdelayReqSend d p u) s = .next t
      ∧ tget (fun _ => none) (t.domain d).pdelayReq p = some ((s.domain d).txSeq, (s.at u).base, max s.clk.elapsed u)
      ∧ (t.netPort p).lastTx = some { kind := .pdelayReq d (s.domain d).txSeq, trailer := none } := by
  obtain ⟨hdomain, hlast, -⟩ := request_goes hs hup u (d := d) { s.domain d with
    pdelayReq := tput (fun _ => none) (s.domain d).pdelayReq p (some ((s.domain d).txSeq, (s.at u).base, (s.at u).clk.elapsed))
    pdelayRx := tput (fun _ => none) (s.domain d).pdelayRx p none, txSeq := ((s.domain d).txSeq + 1) % 65536 }
    { kind := .pdelayReq d (s.domain d).txSeq, trailer := none }
  have htaken : ¬(1 < d ∨ !(s.domain d).on ∨ (s.domain d).delayMech ≠ 1 ∨ !true ∨ !portUp s p) := by
    simp [hon, hmech, hup, hd]
  refine ⟨_, ?_, ?_, hlast⟩
  · change execPdelayReqSend d p u s = _
    unfold execPdelayReqSend
    simp only [show (s.at u).domain d = s.domain d from rfl, hnone]
    exact if_neg htaken
  · rw [hdomain]
    exact tget_tput_same _ _ _ _ (by simp)

theorem ptpPdelayReq_answers (s : State) (d p snd seq u : Nat) (hs : canonOk s = true) (hup : portUp s p = true) (hd : d ≤ 1)
    (hon : (s.domain d).on = true) (hmech : (s.domain d).delayMech = 1) :
    ∃ t, exec (.ptpPdelayReq d p snd seq u) s = .next t
      ∧ (t.netPort p).lastTx = some { kind := .pdelayRespFollowUp d seq, trailer := none } ∧ t.net.domains = s.net.domains := by
  have hports := heard_portsCanon hs p u
  have hup' : portUp (heard s p u) p = true := (portUp_countPort (portsCanon_of_canonOk (s := s) hs : PortsCanon (s.at u)) p 0 p).trans hup
  have hresp := sendOn_sentOn hports p { kind := .pdelayResp d seq, trailer := none }
  have hfollow := sendOn_sentOn hresp.canon p { kind := .pdelayRespFollowUp d seq, trailer := none }
  have hexec : exec (.ptpPdelayReq d p snd seq u) s = execPtpPdelayReq d p snd seq u s := rfl
  refine ⟨_, hexec.trans (ptpReceive_hears hup hd hon (if_neg (not_not_intro hmech))),
    hfollow.last ((hresp.up p).trans hup'), ?_⟩
  exact (congrArg (fun t => t.net.domains) (hresp.only.trans hfollow.only) :)

theorem ptpPdelayResp_measures (s : State) (d p snd seq sent at_ rec_ arr stamp u : Nat) (hs : canonOk s = true) (hup : portUp s p = true)
    (hd : d ≤ 1) (hon : (s.domain d).on = true) (hreq : tget (fun _ => none) (s.domain d).pdelayReq p = some (seq, sent, at_))
    (hrx : tget (fun _ => none) (s.domain d).pdelayRx p = some (rec_, arr)) :
    ∃ t, exec (.ptpPdelayResp d p snd seq true stamp u) s = .next t
      ∧ tget (fun _ => none) (t.domain d).delays p = some (((((arr : Int) - sent) - ((stamp : Int) - rec_)) / 2).toNat) := by
  have hcanon := heard_domainsCanon hs p u
  have hexec : exec (.ptpPdelayResp d p snd seq true stamp u) s = execPtpPdelayResp d p snd seq true stamp u s := rfl
  refine ⟨setDelay d p ((((arr : Int) - sent) - ((stamp : Int) - rec_)) / 2) ((heard s p u).withDomain d { s.domain d with
      pdelayRx := tput (fun _ => none) (s.domain d).pdelayRx p none }),
    hexec.trans (ptpReceive_hears hup hd hon ?_), setDelay_delay (hcanon.withDomain d _) d p _⟩
  simp [hreq, hrx]

/-! ## Loss (R392) -/

theorem ptpEstimateLoss_loses (s : State) (d u : Nat) (hs : canonOk s = true) (hd : d ≤ 1)
    (hmaster : masterSilent (s.at u) (s.domain d) = false) (hsync : syncSilent (s.at u) (s.domain d) = true) :
    ∃ t, exec (.ptpEstimateLoss d u) s = .next t ∧ (t.domain d).estimate = false ∧ (t.domain d).offsets = [] ∧ t.dev = s.dev := by
  have hcanon : DomainsCanon (s.at u) := domainsCanon_of_canonOk hs
  have hwork := loseEstimate_sourceWork d (s.at u)
  obtain ⟨k, -, hmoved⟩ := hwork.moved (hcanon.withDomain d _)
  have hlost := (hmoved d hd).trans (by rw [domain_withDomain_same hcanon])
  have htaken : exec (.ptpEstimateLoss d u) s = .next (loseEstimate d (s.at u)) := by
    have hmaster' : ¬masterSilent (s.at u) (s.domain d) = true := by simp [hmaster]
    exact (if_neg (Nat.not_lt.mpr hd)).trans ((if_neg hmaster').trans (congrArg Host.Outcome.next (if_pos hsync)))
  exact ⟨_, htaken, (congrArg PtpDomain.estimate hlost :), (congrArg PtpDomain.offsets hlost :), hwork.dev⟩

/-- Settles O40: masters by `ptpAnnounce_joins`, offsets by `syncComplete_measures`, delays by `setDelay_delay`, frames by `sendOn_sentOn`; that
the offsets move with a step of the time base is `selectSource_sourceWork`. The selection of masters and the filter are log 72's. -/
theorem ptpMessagesComplete : Obligations.PtpMessagesComplete := by
  unfold Obligations.PtpMessagesComplete
  exact ⟨ptpAnnounce_joins, ptpSync_completes, ptpFollowUp_completes, delayReqSend_sends, ptpDelayResp_measures, pdelayReqSend_sends,
    ptpPdelayReq_answers, ptpPdelayResp_measures, ptpEstimateLoss_loses⟩

end Sys2Proof.Machine
end

section
/-! LOG_READ and the error unit: entries delivered, marked and cleared, and reports recorded (R361, R441 to R446). -/

namespace Sys2Proof.Machine

open Sys2Proof

/-! ## LOG_READ (R446) -/

/-- What an accepted LOG_READ writes at DEST is delivered, and beside its reply nothing else has changed. -/
theorem hostCmd_reads {i : Instr} {h : Hdr} {c : CmdInfo} {body : State → State × Answer} {s : State} {dest : Nat} {data result : List Byte}
    (ha : accepts s h c = true) (hup : s.host.linkUp = true)
    (hbody : body (begun s h c) = ((begun s h c).dmaWrite dest data, answer stOk result)) :
    repliedWith (hostCmd i h c body s) h.ring h.tag c.opcode stOk result = true ∧ delivered s (hostCmd i h c body s) h.ring dest data
      ∧ hostOnly s (hostCmd i h c body s) h := by
  have hwritten : hostOnly s ((begun s h c).dmaWrite dest data) h :=
    hostOnly.trans_reply (t := begun s h c) rfl (dmaWrite_frame _ dest data)
  obtain ⟨hreply, hframe⟩ := hostCmd_answers (i := i) ha hbody (ring_dmaWrite _ _ _ _) hwritten
  exact ⟨hreply, hostCmd_delivers ha hup hbody, hframe⟩

theorem logReadRead_delivers (s : State) (h : Hdr) (first count dest : Nat) (ha : accepts s h (cmdOf 0x00F0 0) = true) (hmin : 1 ≤ count)
    (hmax : count ≤ 256) (hup : s.host.linkUp = true) :
    ∃ t, exec (.logReadRead h first count dest) s = .next t
      ∧ repliedWith t h.ring h.tag 0x00F0 stOk (leBytes 4 (match heldEntries s first count with | [] => first | e :: _ => e.seq)
          ++ leBytes 4 (heldEntries s first count).length) = true
      ∧ delivered s t h.ring dest ((heldEntries s first count).flatMap LogEntry.toBytes) ∧ hostOnly s t h := by
  have hcount : ¬(count = 0 ∨ 256 < count) := by omega
  have hlink : ¬(!(begun s h (cmdOf 0x00F0 0)).host.linkUp) = true := by simp [show (begun s h (cmdOf 0x00F0 0)).host.linkUp = true from hup]
  exact ⟨_, rfl, hostCmd_reads ha hup ((if_neg hcount).trans (if_neg hlink))⟩

theorem logReadAck_marks (s : State) (h : Hdr) (first : Nat) (ha : accepts s h (cmdOf 0x00F0 1) = true) (hfirst : first ≤ s.log.next) :
    ∃ t, exec (.logReadAck h first) s = .next t ∧ repliedWith t h.ring h.tag 0x00F0 stOk [] = true
      ∧ hostOnly (s.withLog { s.log with readMark := max s.log.readMark first }) t h := by
  have hmarked : hostOnly (s.withLog { s.log with readMark := max s.log.readMark first })
      ((begun s h (cmdOf 0x00F0 1)).withLog { s.log with readMark := max s.log.readMark first }) h := rfl
  exact ⟨_, rfl, hostCmd_answers (a := refuse stOk) ha (if_neg (Nat.not_lt.mpr hfirst)) rfl hmarked⟩

/-- The bytes of STATUS: the counts by severity, then the read mark. -/
theorem logStatus_eq (s : State) : logStatus s
    = leBytes 2 (nget s.log.since 0) ++ leBytes 2 (nget s.log.since 1) ++ leBytes 2 (nget s.log.since 2) ++ leBytes 2 (nget s.log.since 3)
      ++ leBytes 2 (nget s.log.since 4) ++ leBytes 2 (nget s.log.since 5) ++ leBytes 4 s.log.readMark := rfl

theorem logReadStatus_answers (s : State) (h : Hdr) (ha : accepts s h (cmdOf 0x00F0 2) = true) :
    ∃ t, exec (.logReadStatus h) s = .next t ∧ repliedWith t h.ring h.tag 0x00F0 stOk
        (leBytes 2 (nget s.log.since 0) ++ leBytes 2 (nget s.log.since 1) ++ leBytes 2 (nget s.log.since 2) ++ leBytes 2 (nget s.log.since 3)
          ++ leBytes 2 (nget s.log.since 4) ++ leBytes 2 (nget s.log.since 5) ++ leBytes 4 s.log.readMark) = true ∧ hostOnly s t h := by
  rw [← logStatus_eq]
  have hbegun : hostOnly s (begun s h (cmdOf 0x00F0 2)) h := rfl
  exact ⟨_, rfl, hostCmd_answers (a := answer stOk (logStatus s)) ha rfl rfl hbegun⟩

theorem logReadFatal_delivers (s : State) (h : Hdr) (first count dest : Nat) (ha : accepts s h (cmdOf 0x00F0 3) = true) (hmin : 1 ≤ count)
    (hmax : count ≤ 16) (hup : s.host.linkUp = true) :
    ∃ t, exec (.logReadFatal h first count dest) s = .next t
      ∧ repliedWith t h.ring h.tag 0x00F0 stOk (leBytes 4 ((s.log.fatalRecords.drop first).take count).length
          ++ leBytes 4 s.log.fatalRecords.length) = true
      ∧ delivered s t h.ring dest (((s.log.fatalRecords.drop first).take count).flatMap (padTo 512)) ∧ hostOnly s t h := by
  have hcount : ¬(count = 0 ∨ 16 < count) := by omega
  have hlink : ¬(!(begun s h (cmdOf 0x00F0 3)).host.linkUp) = true := by simp [show (begun s h (cmdOf 0x00F0 3)).host.linkUp = true from hup]
  exact ⟨_, rfl, hostCmd_reads ha hup ((if_neg hcount).trans (if_neg hlink))⟩

theorem clearFirst_clears (s : State) (h : Hdr) (ha : accepts s h (cmdOf 0x00F0 4) = true) :
    ∃ t, exec (.clearFirst h) s = .next t ∧ repliedWith t h.ring h.tag 0x00F0 stOk [] = true
      ∧ hostOnly (s.withLog { s.log with first := none, firstArrival := none, since := [] }) t h := by
  have hcleared : hostOnly (s.withLog { s.log with first := none, firstArrival := none, since := [] })
      ((begun s h (cmdOf 0x00F0 4)).withLog { s.log with first := none, firstArrival := none, since := [] }) h := rfl
  exact ⟨_, rfl, hostCmd_answers (a := refuse stOk) ha rfl rfl hcleared⟩

/-! ## A report that gets an entry of its own (R361, R441, R445) -/

/-- The entry of a report (R361, R441). -/
def newEntry (s : State) (r : Report) : LogEntry :=
  { writtenAt := s.clk.elapsed, arrival := r.arrival, seq := s.log.next, code := r.code, severity := severityOf r.code, rep := false
    time := r.time, webPos := r.webPos, key := r.key, value := r.value, fields := r.fields, count := 0 }

/-- From `s` to `t` the entry just written may have been noted: by its sensor, by the trace, and as an event. -/
def EntryNoted (s t : State) : Prop := t = { s with host := t.host, trace := t.trace, thermal := t.thermal }

theorem EntryNoted.refl (s : State) : EntryNoted s s := rfl

theorem EntryNoted.trans {s t u : State} (h1 : EntryNoted s t) (h2 : EntryNoted t u) : EntryNoted s u := by
  unfold EntryNoted at *
  rw [h2, h1]

theorem EntryNoted.ite {c : Prop} [Decidable c] {s t u : State} (h1 : EntryNoted s t) (h2 : EntryNoted s u) :
    EntryNoted s (if c then t else u) := by
  split
  · exact h1
  · exact h2

theorem noteBroken_noted (s : State) (sensor seq : Nat) : EntryNoted s (s.noteBroken sensor seq) := rfl

theorem traceTest_noted (s : State) (code : Nat) : EntryNoted s (s.traceTest code) := by
  unfold State.traceTest
  dsimp only
  split <;> rfl

theorem traceRec_noted (s : State) (source unit : Nat) (data : List Byte) : EntryNoted s (s.traceRec source unit data) := by
  rw [traceRec_withTrace]
  rfl

theorem raise_noted (s : State) (i : Nat) : EntryNoted s (s.raise i) := by
  rw [raise_frame]
  rfl

theorem freeze_keeps (l : LogUnit) (e : LogEntry) : (l.freeze e).slots = l.slots ∧ (l.freeze e).next = l.next
    ∧ (l.freeze e).queue = l.queue ∧ (l.freeze e).followUps = l.followUps := by
  unfold LogUnit.freeze
  split
  · exact ⟨rfl, rfl, rfl, rfl⟩
  · split <;> exact ⟨rfl, rfl, rfl, rfl⟩

/-- What recording a report that coalesces with no entry leaves: its entry under the next sequence number, the waiting reports as they were,
and no change outside log, host interface, trace and sensors. -/
structure Recorded (s : State) (r : Report) (t : State) : Prop where
  next : t.log.next = (s.log.next + 1) % 2 ^ 32
  slot : t.log.slot (s.log.next % 256) = some (newEntry s r)
  queue : t.log.queue = s.log.queue
  followUps : t.log.followUps = s.log.followUps
  frame : t = { s with log := t.log, host := t.host, trace := t.trace, thermal := t.thermal }

theorem record_recorded {s : State} {r : Report} (h : coalesceTarget s r = none) : Recorded s r (s.record r) := by
  have hwritten : ∃ l : LogUnit, EntryNoted (s.withLog (l.freeze (newEntry s r))) (s.record r)
      ∧ l.slots = tput (fun _ => none) s.log.slots (s.log.next % 256) (some (newEntry s r)) ∧ l.next = (s.log.next + 1) % 2 ^ 32
      ∧ l.queue = s.log.queue ∧ l.followUps = s.log.followUps := by
    unfold State.record
    rw [h]
    exact ⟨_, .trans (.ite (noteBroken_noted _ _ _) (.refl _)) (.trans (traceTest_noted _ _) (.trans (traceRec_noted _ _ _ _)
      (.ite (raise_noted _ _) (.refl _)))), rfl, rfl, rfl, rfl⟩
  obtain ⟨l, hnoted, hslots, hnext, hqueue, hfollow⟩ := hwritten
  obtain ⟨hslots', hnext', hqueue', hfollow'⟩ := freeze_keeps l (newEntry s r)
  have hlog : (s.record r).log = l.freeze (newEntry s r) := congrArg State.log hnoted
  constructor
  · rw [hlog, hnext', hnext]
  · rw [hlog, LogUnit.slot, hslots', hslots]
    exact tget_tput_same _ _ _ _ (by simp)
  · rw [hlog, hqueue', hqueue]
  · rw [hlog, hfollow', hfollow]
  · rw [hlog]
    exact hnoted

/-! ## The error unit at work (R443, R444) -/

theorem logRecord_records (s : State) (u : Nat) (r : Report) (hhead : headReport s.log.queue = some r) (hfollow : r.followAt = none)
    (hcoalesce : coalesceTarget ((s.at u).withLog { s.log with queue := s.log.queue.filter (fun x => x.arrival != r.arrival) }) r = none) :
    ∃ t e, exec (.logRecord u) s = .next t ∧ t.log.next = (s.log.next + 1) % 2 ^ 32 ∧ t.log.slot (s.log.next % 256) = some e
      ∧ e.seq = s.log.next ∧ e.code = r.code ∧ e.severity = severityOf r.code ∧ e.key = r.key ∧ e.value = r.value ∧ e.fields = r.fields
      ∧ e.time = r.time ∧ e.webPos = r.webPos ∧ t.log.queue = s.log.queue.filter (fun x => x.arrival != r.arrival)
      ∧ t = { s with clk := (s.at u).clk, log := t.log, host := t.host, trace := t.trace, thermal := t.thermal } := by
  obtain ⟨hnext, hslot, hqueue, -, hframe⟩ := record_recorded hcoalesce
  have hexec : exec (.logRecord u) s = .next (State.record ((s.at u).withLog { s.log with
      queue := s.log.queue.filter (fun x => x.arrival != r.arrival) }) r) := by
    change Host.Outcome.next (s.at u).recordHead = _
    unfold State.recordHead
    simp only [at_log, hhead, hfollow]
  exact ⟨_, _, hexec, hnext, hslot, rfl, rfl, rfl, rfl, rfl, rfl, rfl, rfl, hqueue, hframe⟩

/-- A follow-up's report leaves the queue and the follow-ups, and its entry is written with these fields. -/
theorem endFollowUp_recorded {s : State} {u : Time} {r : Report} {fields : List Byte}
    (hcoalesce : coalesceTarget ((s.at u).withLog { s.log with
      followUps := s.log.followUps.filter (fun x => x.1.arrival != r.arrival)
      queue := s.log.queue.filter (fun x => x.arrival != r.arrival) }) { r with fields := fields } = none) :
    let t := endFollowUp r fields (s.at u)
    t.log.next = (s.log.next + 1) % 2 ^ 32
      ∧ (∃ e, t.log.slot (s.log.next % 256) = some e ∧ e.code = r.code ∧ e.fields = fields)
      ∧ t.log.followUps = s.log.followUps.filter (fun x => x.1.arrival != r.arrival)
      ∧ t.log.queue = s.log.queue.filter (fun x => x.arrival != r.arrival)
      ∧ t = { s with clk := (s.at u).clk, log := t.log, host := t.host, trace := t.trace, thermal := t.thermal } := by
  obtain ⟨hnext, hslot, hqueue, hfollow, hframe⟩ := record_recorded hcoalesce
  exact ⟨hnext, ⟨_, hslot, rfl, rfl⟩, hfollow, hqueue, hframe⟩

theorem followUpEnd_records (s : State) (u : Nat) (r : Report) (hhead : headReport (s.log.followUps.map (·.1)) = some r)
    (hcoalesce : coalesceTarget ((s.at u).withLog { s.log with
      followUps := s.log.followUps.filter (fun x => x.1.arrival != r.arrival)
      queue := s.log.queue.filter (fun x => x.arrival != r.arrival) }) r = none) :
    ∃ t e, exec (.followUpEnd u) s = .next t ∧ t.log.next = (s.log.next + 1) % 2 ^ 32 ∧ t.log.slot (s.log.next % 256) = some e
      ∧ e.code = r.code ∧ e.fields = r.fields ∧ t.log.followUps = s.log.followUps.filter (fun x => x.1.arrival != r.arrival)
      ∧ t = { s with clk := (s.at u).clk, log := t.log, host := t.host, trace := t.trace, thermal := t.thermal } := by
  obtain ⟨hnext, ⟨e, hslot, hcode, hfields⟩, hfollow, -, hframe⟩ := endFollowUp_recorded (fields := r.fields) hcoalesce
  have hexec : exec (.followUpEnd u) s = .next (endFollowUp r r.fields (s.at u)) := by
    change execFollowUpEnd u s = _
    unfold execFollowUpEnd currentFollowUp
    simp only [at_log, hhead]
  exact ⟨_, e, hexec, hnext, hslot, hcode, hfields, hfollow, hframe⟩

theorem followUpTimeout_records (s : State) (u : Nat) (r : Report) (hoverdue : overdue (s.at u) = some r)
    (hcoalesce : coalesceTarget ((s.at u).withLog { s.log with
        followUps := s.log.followUps.filter (fun y => y.1.arrival != r.arrival)
        queue := s.log.queue.filter (fun y => y.arrival != r.arrival) })
      { r with fields := r.fields.take 1 ++ List.replicate (r.fields.length - 1) 0xFF } = none) :
    ∃ t e, exec (.followUpTimeout u) s = .next t ∧ t.log.next = (s.log.next + 1) % 2 ^ 32 ∧ t.log.slot (s.log.next % 256) = some e
      ∧ e.code = r.code ∧ e.fields = r.fields.take 1 ++ List.replicate (r.fields.length - 1) 0xFF
      ∧ t.log.followUps = s.log.followUps.filter (fun y => y.1.arrival != r.arrival)
      ∧ t.log.queue = s.log.queue.filter (fun y => y.arrival != r.arrival)
      ∧ t = { s with clk := (s.at u).clk, log := t.log, host := t.host, trace := t.trace, thermal := t.thermal } := by
  obtain ⟨hnext, ⟨e, hslot, hcode, hfields⟩, hfollow, hqueue, hframe⟩ := endFollowUp_recorded hcoalesce
  have hexec : exec (.followUpTimeout u) s
      = .next (endFollowUp r (r.fields.take 1 ++ List.replicate (r.fields.length - 1) 0xFF) (s.at u)) := by
    change execFollowUpTimeout u s = _
    unfold execFollowUpTimeout
    simp only [hoverdue]
  exact ⟨_, e, hexec, hnext, hslot, hcode, hfields, hfollow, hqueue, hframe⟩

/-- A report with a follow-up goes from the queue to the follow-ups. -/
theorem logRecord_begins (s : State) (u v : Nat) (r : Report) (hhead : headReport s.log.queue = some r) (hfollow : r.followAt = some v) :
    exec (.logRecord u) s = .next ((s.at u).withLog { s.log with
      queue := s.log.queue.filter (fun x => x.arrival != r.arrival), followUps := s.log.followUps ++ [(r, v)] }) := by
  change Host.Outcome.next (s.at u).recordHead = _
  unfold State.recordHead
  simp only [at_log, hhead, hfollow]
  rfl

/-- What is overdue is a waiting report with a follow-up, 10 ms old or older. -/
theorem overdue_waits (s : State) (u : Nat) (r : Report) (hoverdue : overdue (s.at u) = some r) :
    ∃ v, r.followAt = some v ∧ v + 10 * msT ≤ max s.clk.elapsed u
      ∧ (r ∈ s.log.queue ∨ r ∈ s.log.followUps.map (·.1)) := by
  have hmem := List.mem_of_find?_eq_some hoverdue
  have hold := List.find?_some hoverdue
  split at hold
  next v hv => exact ⟨v, hv, of_decide_eq_true hold, (List.mem_append.mp hmem).symm⟩
  · cases hold

/-- Settles O6: LOG_READ by `hostCmd_reads` and `hostCmd_answers`, the error unit by `record_recorded`. -/
theorem errorLogCompletes : Obligations.ErrorLogCompletes := by
  unfold Obligations.ErrorLogCompletes
  exact ⟨logReadRead_delivers, logReadAck_marks, logReadStatus_answers, logReadFatal_delivers, clearFirst_clears, logRecord_records,
    followUpEnd_records, followUpTimeout_records, logRecord_begins, overdue_waits⟩

end Sys2Proof.Machine
end

section
/-! The lead role: configuration, transfer, verdicts, lease, takeover and handoff (R400, R401, R405, R406, R408, R409). -/

namespace Sys2Proof.Machine

open Sys2Proof

/-! ## Commands of the lead role (R400, R401, R408, R409) -/

/-- An accepted command whose rules change the network unit alone and answer at once. -/
theorem hostCmd_changesNet {i : Instr} {h : Hdr} {c : CmdInfo} {body : State → State × Answer} {s : State} {st : Nat} {n : Net}
    (ha : accepts s h c = true) (hbody : body (begun s h c) = ((begun s h c).withNet n, refuse st)) :
    repliedWith (hostCmd i h c body s) h.ring h.tag c.opcode st [] = true ∧ (hostCmd i h c body s).net = n
      ∧ hostOnly (s.withNet (hostCmd i h c body s).net) (hostCmd i h c body s) h := by
  have hbegun : hostOnly (s.withNet n) ((begun s h c).withNet n) h := rfl
  obtain ⟨hreply, hframe⟩ := hostCmd_answers (i := i) ha hbody rfl hbegun
  have hnet : (hostCmd i h c body s).net = n := congrArg State.net hframe
  exact ⟨hreply, hnet, by rw [hnet]; exact hframe⟩

theorem leadConfig_configures (s : State) (h : Hdr) (home sw el pid mac : Nat) (ha : accepts s h (cmdOf 0x00E0 0) = true)
    (hrole : s.net.lead.role ≠ .solo) (hpress : s.press.isSome = true) (hhome : home ≤ 1) (hsw : sw ≤ 1) (hel : el ≤ 1) (hpid : pid ≠ 0) :
    ∃ t, exec (.leadConfig h home sw el pid mac) s = .next t ∧ repliedWith t h.ring h.tag 0x00E0 stOk [] = true
      ∧ t.net.lead.config = some { home := decide (home = 1), manual := decide (sw = 1), eligible := decide (el = 1), pressId := pid
                                   groupMac := mac }
      ∧ t.net.lead.role = s.net.lead.role ∧ hostOnly (s.withNet t.net) t h := by
  have hstate : ¬(s.net.lead.role = .solo ∨ s.press.isNone) := by
    simp [hrole, Option.isSome_iff_ne_none.mp hpress]
  have hlegal : ¬(1 < home ∨ 1 < sw ∨ 1 < el ∨ pid = 0) := by omega
  obtain ⟨hreply, hnet, hframe⟩ := hostCmd_changesNet (i := .leadConfig (unstarted h) home sw el pid mac) ha
    (body := leadConfigBody home sw el pid mac) ((if_neg hstate).trans (if_neg hlegal))
  exact ⟨_, rfl, hreply, by rw [hnet], by rw [hnet]; rfl, hframe⟩

theorem leadTransfer_announces (s : State) (h : Hdr) (i : Nat) (ha : accepts s h (cmdOf 0x00E1 0) = true) (hrole : s.net.lead.role = .lead)
    (hmay : mayLead (s.at h.t) i = true) (hfree : s.net.lead.handoff = none) :
    ∃ t x, exec (.leadTransfer h i) s = .next t ∧ t.net.lead.handoff = some x ∧ x.target = i ∧ (s.web.running = false → x.boundary = 0)
      ∧ t.host.waits = s.host.waits ++ [{ ring := h.ring, tag := h.tag, opcode := 0x00E1, orphan := false
                                          since := max s.clk.elapsed h.t, kind := .leadTransfer i (s.net.lead.epoch + 1) }]
      ∧ t.net.lead.role = .lead ∧ t.dev = s.dev ∧ t.press = s.press := by
  have hmay' : ¬(!mayLead (begun s h (cmdOf 0x00E1 0)) i) = true := by
    simp [show mayLead (begun s h (cmdOf 0x00E1 0)) i = true from hmay]
  have hfree' : ¬(begun s h (cmdOf 0x00E1 0)).net.lead.handoff.isSome = true := by
    rw [show (begun s h (cmdOf 0x00E1 0)).net.lead.handoff = none from hfree]
    exact Bool.false_ne_true
  have hwaits := hostWait_waiting (i := .leadTransfer (unstarted h) i) ha
    (body := leadTransferBody h i) ((if_neg (not_not_intro hrole)).trans ((if_neg hmay').trans (if_neg hfree'))) rfl
  exact ⟨_, _, congrArg Host.Outcome.next hwaits, rfl, rfl, fun hstill => if_neg (ne_true_of_eq_false hstill), rfl, hrole, rfl, rfl⟩

theorem leadTransfer_refused (s : State) (h : Hdr) (i : Nat) (ha : accepts s h (cmdOf 0x00E1 0) = true) (hrole : s.net.lead.role ≠ .lead) :
    ∃ t, exec (.leadTransfer h i) s = .next t ∧ repliedWith t h.ring h.tag 0x00E1 stWrongState [] = true ∧ hostOnly s t h := by
  have hbegun : hostOnly s (begun s h (cmdOf 0x00E1 0)) h := rfl
  exact ⟨_, rfl, hostWait_answers (a := refuse stWrongState) ha (if_pos hrole) rfl hbegun⟩

theorem leadTransferTimeout_answers (s : State) (u x : Nat) (w : Wait) (hat : s.net.lead.transferAt = some x)
    (hwait : s.host.waits.find? isTransfer = some w) (hdue : x + 100 * msT ≤ max s.clk.elapsed u) (horphan : w.orphan = false)
    (henabled : (s.ring w.ring).enabled = true) (hfetched : (s.ring w.ring).fetched = []) :
    ∃ t, exec (.leadTransferTimeout u) s = .next t ∧ repliedWith t w.ring w.tag w.opcode stTimeout [] = true
      ∧ t.host.waits = s.host.waits.erase w ∧ t.net.lead = { s.net.lead with transferAt := none } := by
  let v := ((s.at u).withLead { s.net.lead with transferAt := none }).withHost { s.host with waits := s.host.waits.erase w }
  obtain ⟨-, hreply, hkept, -⟩ := finalShort_ring v w.ring w.tag w.opcode (refuse stTimeout) henabled
  have hframe := finalShort_frame v false w.ring w.tag w.opcode (refuse stTimeout)
  have hexec : exec (.leadTransferTimeout u) s = .next (v.finalShort false w.ring w.tag w.opcode (refuse stTimeout)) := by
    change execLeadTransferTimeout u s = _
    unfold execLeadTransferTimeout
    simp only [at_net, at_host, hat, hwait]
    rw [if_pos (show x + 100 * msT ≤ (s.at u).clk.elapsed from hdue), State.endWait, horphan]
    exact congrArg Host.Outcome.next (settle_nil _ _ (hkept.trans hfetched))
  exact ⟨_, hexec, hreply, (congrArg (fun t => t.host.waits) hframe :), (congrArg (fun t => t.net.lead) hframe :)⟩

theorem arbiterVerdict_releases (s : State) (h : Hdr) (i e : Nat) (ha : accepts s h (cmdOf 0x00E2 0) = true)
    (hrole : s.net.lead.role = .lead) (hpress : s.press.isSome = true) (hi : i ≤ 3) (hother : i ≠ ownIndex s) (he : s.net.lead.epochSeen < e) :
    ∃ t, exec (.arbiterVerdict h i e) s = .next t ∧ repliedWith t h.ring h.tag 0x00E2 stOk [] = true
      ∧ t.net.lead.role = .follower ∧ t.net.lead.release = true ∧ t.net.lead.leadIndex = none ∧ hostOnly (s.withNet t.net) t h := by
  have hstate : ¬(s.net.lead.role = .solo ∨ s.press.isNone) := by
    simp [hrole, Option.isSome_iff_ne_none.mp hpress]
  have hlegal : ¬((3 < i ∧ i ≠ 0xFF) ∨ e ≤ s.net.lead.epochSeen) := by omega
  obtain ⟨hreply, hnet, hframe⟩ := hostCmd_changesNet (i := .arbiterVerdict (unstarted h) i e) ha (body := verdictBody i e)
    ((if_neg hstate).trans ((if_neg hlegal).trans ((if_pos hother).trans (congrArg (·, refuse stOk) (if_neg (not_not_intro hrole))))))
  exact ⟨_, rfl, hreply, by rw [hnet], by rw [hnet], by rw [hnet], hframe⟩

/-! ## Changes of the lead (R405, R406, R408, R409) -/

/-- LEAD_CHANGE raises its event and its log entry, and changes nothing else but the trace and the event's message. -/
theorem leadChange_tells (i e : Nat) (s : State) : (leadChange i e s).host.evtStatus.getLsbD 10 = true
    ∧ leadChange i e s = { s with host := (leadChange i e s).host, trace := (leadChange i e s).trace, log := (leadChange i e s).log } := by
  constructor
  · change (s.raise 10).host.evtStatus.getLsbD 10 = true
    rw [raise_evtStatus, BitVec.getLsbD_or, Bool.or_eq_true]
    exact .inr (by decide)
  · unfold leadChange
    rw [raise_frame]
    rfl

/-- A device that takes the lead, with no stop asked for: the role is its own with the epoch and a lease of 40 ms, LEAD_CHANGE is raised, and its
run goes on. -/
structure TakesLead (s : State) (e : Nat) (t : State) : Prop where
  role : t.net.lead.role = .lead
  epoch : t.net.lead.epoch = e
  lease : t.net.lead.leaseEnd = s.base + 40 * msT
  index : t.net.lead.leadIndex = some (ownIndex s)
  verdict : t.net.lead.verdictEpoch = none
  event : t.host.evtStatus.getLsbD 10 = true
  dev : t.dev = s.dev
  press : t.press = s.press
  run : t.run = s.run

theorem becomeLead_takesLead {s : State} (hstop : s.net.lead.stopReq = none) (e : Nat) : TakesLead s e (becomeLead e s) := by
  have hlead : ∃ v, becomeLead e s = (match v.net.lead.stopReq with | some b => adoptStop b v | none => v)
      ∧ v.net.lead.stopReq = s.net.lead.stopReq ∧ TakesLead s e v := by
    unfold becomeLead
    dsimp only
    generalize hw : State.withWeb _ _ = w
    obtain ⟨hevent, hframe⟩ := leadChange_tells (ownIndex w) e w
    generalize leadChange (ownIndex w) e w = c at hevent hframe
    have htold : TakesLead s e c := by
      rw [hframe, ← hw]
      exact ⟨rfl, rfl, rfl, rfl, rfl, hevent, rfl, rfl, rfl⟩
    have hkept : c.net.lead.stopReq = s.net.lead.stopReq := by
      rw [hframe, ← hw]
      rfl
    refine ⟨_, rfl, ?_⟩
    split
    · exact ⟨hkept, htold⟩
    · exact ⟨hkept, ⟨htold.role, htold.epoch, htold.lease, htold.index, htold.verdict, htold.event, htold.dev, htold.press, htold.run⟩⟩
  obtain ⟨v, hv, hkept, htakes⟩ := hlead
  rw [hv, hkept, hstop]
  exact htakes

/-- A lead that comes to follow another device raises LEAD_CHANGE, and its run goes on. -/
theorem followLead_of_lead {s : State} (hrole : s.net.lead.role = .lead) (i e leaseEnd : Nat) :
    (followLead i e leaseEnd s).net.lead.role = .follower ∧ (followLead i e leaseEnd s).net.lead.leadIndex = some i
      ∧ (followLead i e leaseEnd s).net.lead.epoch = e ∧ (followLead i e leaseEnd s).net.lead.handoff = s.net.lead.handoff
      ∧ (followLead i e leaseEnd s).host.evtStatus.getLsbD 10 = true ∧ (followLead i e leaseEnd s).run = s.run := by
  have hunknown : ¬decide (s.net.lead.role = .follower ∧ s.net.lead.leadIndex = some i) = true := by simp [hrole]
  unfold followLead
  rw [if_neg hunknown]
  generalize hw : State.withLead _ _ = w
  obtain ⟨hevent, hframe⟩ := leadChange_tells i e w
  generalize leadChange i e w = c at hevent hframe
  rw [hframe, ← hw]
  exact ⟨rfl, rfl, rfl, rfl, hevent, rfl⟩

theorem leaseRenew_renews (s : State) (u : Nat) (hrole : s.net.lead.role = .lead) (hdue : s.net.lead.renewedAt + 8 * msT ≤ max s.clk.elapsed u)
    (hmay : mayRenew s = true) :
    exec (.leaseRenew u) s = .next ((s.at u).withLead { s.net.lead with
      leaseEnd := (s.at u).base + 40 * msT, renewedAt := max s.clk.elapsed u }) :=
  congrArg Host.Outcome.next (if_pos ⟨hrole, hdue, hmay⟩)

theorem leaseLost_releases (s : State) (u : Nat) (hrole : s.net.lead.role = .lead) (hend : s.net.lead.leaseEnd ≤ (s.at u).base + msT) :
    ∃ t, exec (.leaseLost u) s = .next t ∧ t.net.lead.role = .none ∧ t.net.lead.leadIndex = none ∧ t.net.lead.epoch = s.net.lead.epoch
      ∧ t = { s with clk := (s.at u).clk, net := t.net, log := t.log } := by
  have hdue : ¬(s.net.lead.role ≠ .lead ∨ (s.at u).base + msT < s.net.lead.leaseEnd) := by
    simp [hrole, hend]
  exact ⟨_, if_neg hdue, rfl, rfl, rfl, rfl⟩

theorem takeover_takes (s : State) (u : Nat) (c : LeadConfig) (hconfig : s.net.lead.config = some c) (hmay : mayTake (s.at u) c = true)
    (hstop : s.net.lead.stopReq = none) :
    ∃ t, exec (.takeover u) s = .next t ∧ t.net.lead.role = .lead ∧ t.net.lead.epoch = s.net.lead.epochSeen + 1
      ∧ t.net.lead.leaseEnd = (s.at u).base + 40 * msT ∧ t.net.lead.leadIndex = some (ownIndex s)
      ∧ t.host.evtStatus.getLsbD 10 = true ∧ t.dev = s.dev ∧ t.press = s.press ∧ t.run = s.run := by
  have h := becomeLead_takesLead (s := s.at u) hstop (s.net.lead.epochSeen + 1)
  have hexec : exec (.takeover u) s = .next (becomeLead (s.net.lead.epochSeen + 1) (s.at u)) := by
    change execTakeover u s = _
    unfold execTakeover
    simp only [at_net, hconfig]
    exact congrArg Host.Outcome.next (if_pos hmay)
  exact ⟨_, hexec, h.role, h.epoch, h.lease, h.index, h.event, h.dev, h.press, h.run⟩

theorem handoff_gives (s : State) (u : Nat) (x : Handoff) (hx : s.net.lead.handoff = some x) (hboundary : x.boundary ≠ 0)
    (hrole : s.net.lead.role = .lead) (hdue : s.web.running = false ∨ x.boundary ≤ s.web.webPos) (hother : x.target ≠ ownIndex s) :
    ∃ t, exec (.handoff u) s = .next t ∧ t.net.lead.role = .follower ∧ t.net.lead.leadIndex = some x.target
      ∧ t.net.lead.epoch = s.net.lead.epoch + 1 ∧ t.net.lead.handoff = none ∧ t.host.evtStatus.getLsbD 10 = true ∧ t.run = s.run := by
  have happlied : x.boundary ≠ 0 ∧ (s.net.lead.role = .lead ∨ s.net.lead.role = .follower)
      ∧ (!s.web.running ∨ x.boundary ≤ s.web.webPos) := ⟨hboundary, .inl hrole, hdue.imp_left (by simp)⟩
  have hexec : exec (.handoff u) s = .next (applyHandoff x.target (s.at u)) := by
    change execHandoff u s = _
    unfold execHandoff
    simp only [at_net, hx]
    exact congrArg Host.Outcome.next (if_pos happlied)
  have happly : applyHandoff x.target (s.at u) = followLead x.target (s.net.lead.epoch + 1) ((s.at u).base + 40 * msT)
      ((s.at u).withLead { s.net.lead with
        handoff := none, transferAt := if s.net.lead.role = .lead then some (s.at u).clk.elapsed else s.net.lead.transferAt }) :=
    if_neg hother
  rw [happly] at hexec
  obtain ⟨hfollows, hindex, hepoch, hhandoff, hevent, hrun⟩ := followLead_of_lead
    (s := (s.at u).withLead { s.net.lead with
      handoff := none, transferAt := if s.net.lead.role = .lead then some (s.at u).clk.elapsed else s.net.lead.transferAt })
    hrole x.target (s.net.lead.epoch + 1) ((s.at u).base + 40 * msT)
  exact ⟨_, hexec, hfollows, hindex, hepoch, hhandoff, hevent, hrun⟩

theorem verdictLeaseEnd_takes (s : State) (u e : Nat) (hverdict : s.net.lead.verdictEpoch = some e) (hrole : s.net.lead.role ≠ .lead)
    (hlease : foreignLease (s.at u) = false) (hstop : s.net.lead.stopReq = none) :
    ∃ t, exec (.verdictLeaseEnd u) s = .next t ∧ t.net.lead.role = .lead ∧ t.net.lead.epoch = e ∧ t.net.lead.verdictEpoch = none
      ∧ t.dev = s.dev ∧ t.press = s.press := by
  have h := becomeLead_takesLead (s := s.at u) hstop e
  have hexec : exec (.verdictLeaseEnd u) s = .next (becomeLead e (s.at u)) := by
    change execVerdictLeaseEnd u s = _
    unfold execVerdictLeaseEnd
    simp only [at_net, hverdict]
    exact congrArg Host.Outcome.next (if_pos ⟨hrole, by simp [hlease]⟩)
  exact ⟨_, hexec, h.role, h.epoch, h.verdict, h.dev, h.press⟩

/-- Settles O41: each clause by its lemma, the changes of the lead by `becomeLead_takesLead` and `leadChange_tells`. That a handoff announced
for a boundary is due once the line clock has stopped is log 73's. -/
theorem leadRoleCompletes : Obligations.LeadRoleCompletes := by
  unfold Obligations.LeadRoleCompletes
  exact ⟨leadConfig_configures, leadTransfer_announces, leadTransfer_refused, leadTransferTimeout_answers, arbiterVerdict_releases,
    leaseRenew_renews, leaseLost_releases, takeover_takes, handoff_gives, verdictLeaseEnd_takes⟩

end Sys2Proof.Machine
end

section
/-! Firmware updates (R374 to R376, log 57): the update is opened and filled, the checks of a package read nothing but flash, and an operation
that has no work left ends in the step that accepts it. -/

namespace Sys2Proof.Machine

open Sys2Proof

/-! ## What the checks of a package read (R371, R372) -/

/-- The checks of a pair read flash alone. -/
theorem checkPair_congr {s t : State} (h : t.boot.flash = s.boot.flash) (pref : Nat) : checkPair t pref = checkPair s pref := by
  have hflash (x : State) : checkPair x pref = checkPair (x.withBoot { BootUnit.reset with flash := x.boot.flash }) pref := rfl
  have hread (x : State) : checkPair (x.withBoot { BootUnit.reset with flash := x.boot.flash }) pref
      = checkPair (State.reset.withBoot { BootUnit.reset with flash := x.boot.flash }) pref := rfl
  rw [hflash t, hflash s, hread t, hread s, h]

/-! ## Long operations that end in the step that accepts them (R329) -/

/-- An accepted long operation runs: no other one of its ring that still answers has its tag (R325). -/
theorem acceptedLong_runs {s : State} {h : Hdr} {c : CmdInfo} (ha : acceptsLong s h c = true) :
    LongRuns (acceptedLong s h c) h.ring h.tag c.opcode := by
  obtain ⟨hacc, -⟩ := accepts_of_acceptsLong ha
  obtain ⟨-, -, hfetched⟩ := acceptedLong_spec ha
  have hnone : s.host.longOps.find? (fun o => decide (o.ring = h.ring ∧ o.tag = h.tag) && !o.orphan) = none := by
    have hcheck := packetCheck_accepts h c s hacc
    unfold packetCheck at hcheck
    split_ifs at hcheck with _ _ _ hfree
    have hany : (begun s h c).host.longOps.any (fun o => decide (o.ring = h.ring ∧ o.tag = h.tag) && !o.orphan) ≠ true := fun hx =>
      hfree (.inr (.inr (.inl hx)))
    exact List.find?_eq_none.mpr fun o ho hx => hany (List.any_eq_true.mpr ⟨o, ho, hx⟩)
  refine ⟨⟨newLong s h c, ?_, rfl⟩, ?_, hfetched⟩
  · change ((acceptedLong s h c).host.longOps.find? _) = _
    rw [acceptedLong, longOps_putReply]
    change (s.host.longOps ++ [newLong s h c]).find? _ = _
    rw [List.find?_append, hnone]
    simp [newLong]
  · have henabled := begun_enabled s h c hacc
    have howed := oweLess_ring ((begun s h c).withLongs (s.host.longOps ++ [newLong s h c])) h.ring 1 henabled
    change (((((begun s h c).withLongs (s.host.longOps ++ [newLong s h c])).oweLess h.ring 1).putReply
      (acceptedReply h c)).ring (acceptedReply h c).ring).enabled = true
    rw [putReply_ring _ _ (by rw [show (acceptedReply h c).ring = h.ring from rfl, howed]; exact henabled)]
    exact (congrArg Ring.enabled howed).trans henabled

/-- A long operation whose body answers at once. -/
theorem hostLong_answers {s s' u : State} {h : Hdr} {c : CmdInfo} {body : State → State} {a : Answer} (i : Instr)
    (ha : acceptsLong s h c = true) (hbody : body (acceptedLong s h c) = u.finishLong h.ring h.tag a)
    (hhost : u.host = (acceptedLong s h c).host) (hu : longFrame s' u h.t) :
    repliedWith (hostLong i h c body s) h.ring h.tag c.opcode a.status a.result = true ∧ longFrame s' (hostLong i h c body s) h.t := by
  obtain ⟨hreply, -, hfetched⟩ := finishLong_ends ((acceptedLong_runs ha).congr (t := u) (by rw [hhost]) (by rw [hhost])) a
  rw [hostLong_eq ha, hbody, settle_nil _ _ hfetched]
  exact ⟨hreply, hu.finishLong _ _ _⟩

theorem longFrame.withBoot {s t : State} {u : Time} (h : longFrame s t u) (x : BootUnit) : longFrame (s.withBoot x) (t.withBoot x) u := by
  unfold longFrame at *
  rw [h]
  rfl

theorem longFrame.ite {c : Prop} [Decidable c] {s t t' : State} {u : Time} (h1 : longFrame s t u) (h2 : longFrame s t' u) :
    longFrame s (if c then t else t') u := by
  split
  · exact h1
  · exact h2

/-- A reply of progress touches the host interface and the trace alone. -/
theorem longFrame.progressTo {s t : State} {u : Time} (h : longFrame s t u) (ring tag p : Nat) :
    longFrame s (t.progressTo ring tag p) u := by
  unfold State.progressTo
  split
  · exact h
  next l _ =>
    have hnoted (x : LongOp) : longFrame s (t.updLong ring tag (fun _ => x)) u := by
      unfold longFrame at *
      rw [h]
      rfl
    exact .ite (hnoted _) (.ite (hnoted _) ((hnoted _).trans_reply (putReply_frame _ _)))

theorem longFrame.boot_eq {s t : State} {u : Time} (h : longFrame s t u) : t.boot = s.boot := by
  unfold longFrame at h
  rw [h]

/-- The end of a long operation whose work is done: `u` is what its event leaves but for the final reply. -/
theorem withStep_answers {s s' u : State} {o : OpRef} {opcode : Nat} {a : Answer} {f : LongOp → State → State}
    (hruns : LongRuns s o.ring o.tag opcode) (hf : ∀ l, f l (s.at o.t) = u.finishLong o.ring o.tag a)
    (hu : LongRuns u o.ring o.tag opcode) (hlongs : u.host.longOps.length = s.host.longOps.length) (hframe : longFrame s' u o.t) :
    endedWith s (withStep o opcode f s) o opcode a.status a.result ∧ longFrame s' (withStep o opcode f s) o.t := by
  obtain ⟨l, hl⟩ := withStep_runs hruns f
  obtain ⟨hreply, hcount, hfetched⟩ := finishLong_ends hu a
  rw [hl, hf l, settle_nil _ _ hfetched]
  exact ⟨⟨hreply, hcount.trans hlongs⟩, hframe.finishLong _ _ _⟩

/-! ## The commands (R374 to R376) -/

theorem imageUpdateBegin_opens (s : State) (h : Hdr) (target length : Nat) (ha : accepts s h (cmdOf 0x0020 0) = true)
    (hlength : (target = 1 ∧ length = 64) ∨ (target = 0 ∧ 256 ≤ length ∧ length ≤ 16777216)) (hnone : s.boot.update = none) :
    ∃ t, exec (.imageUpdateBegin h target length) s = .next t ∧ repliedWith t h.ring h.tag 0x0020 stOk [] = true
      ∧ hostOnly (s.withBoot { s.boot with update := some { target := target, length := length, written := 0, data := [] } }) t h := by
  have hlegal : ¬(1 < target ∨ (target = 1 ∧ length ≠ 64) ∨ (target = 0 ∧ (length < 256 ∨ 16777216 < length))) := by omega
  have hclosed : ¬(begun s h (cmdOf 0x0020 0)).boot.update.isSome = true := by
    change ¬s.boot.update.isSome = true
    simp [hnone]
  have hbegun : hostOnly (s.withBoot { s.boot with update := some { target := target, length := length, written := 0, data := [] } })
      ((begun s h (cmdOf 0x0020 0)).withBoot { s.boot with
        update := some { target := target, length := length, written := 0, data := [] } }) h := rfl
  exact ⟨_, rfl, hostCmd_answers (a := refuse stOk) ha ((if_neg hlegal).trans (if_neg hclosed)) rfl hbegun⟩

theorem imageUpdateData_begins (s : State) (h : Hdr) (offset length source : Nat) (x : Update)
    (ha : acceptsLong s h (cmdOf 0x0021 0) = true) (hx : s.boot.update = some x) (hdata : s.boot.dataOp = none)
    (hcommit : s.boot.commitOp = none) (hpos : 0 < length) (hmax : length ≤ 16777216) (hoffset : offset = x.written)
    (hinside : offset + length ≤ x.length) :
    ∃ t, exec (.imageUpdateData h offset length source) s = .next t ∧ startedLong s t h (cmdOf 0x0021 0)
      ∧ longFrame (s.withBoot { s.boot with dataOp := some (h.ring, h.tag, offset, length, source) }) t h.t := by
  obtain ⟨-, hframe, -⟩ := acceptedLong_spec ha
  have hboot := hframe.boot_eq
  have hbegin : dataBegin h offset length source (acceptedLong s h (cmdOf 0x0021 0))
      = (acceptedLong s h (cmdOf 0x0021 0)).withBoot { s.boot with dataOp := some (h.ring, h.tag, offset, length, source) } := by
    have hlegal : ¬(length = 0 ∨ 16777216 < length ∨ offset ≠ x.written) := by omega
    simp only [dataBegin, hboot, hx, hdata, hcommit, Option.isSome_none, Bool.false_eq_true, or_self, if_false]
    rw [if_neg hlegal, if_neg (by omega)]
  exact ⟨_, rfl, hostLong_begins _ ha hbegin rfl (hframe.withBoot _)⟩

/-- Flash programmed, or the record taken, up to `offset + n`. -/
theorem programData_record (u : Update) (offset source : Nat) {n : Nat} (s : State) (hn : 0 < n) (htarget : u.target = 1) :
    programData u offset n source s = s.withBoot { s.boot with
      update := some { u with written := offset + n, data := u.data.take offset ++ s.dmaRead source n } } := by
  unfold programData
  rw [if_neg (by omega), if_pos htarget]

theorem programData_package (u : Update) (offset source : Nat) {n : Nat} (s : State) (hn : 0 < n) (htarget : u.target ≠ 1) :
    programData u offset n source s = s.withBoot { s.boot with
      update := some { u with written := offset + n }
      flash := mwrite flashByte s.boot.flash (slotBase (1 - s.boot.preferred) + offset)
        (s.dmaRead source n ++ List.replicate ((4096 - (offset + n) % 4096) % 4096) 0xFF) } := by
  unfold programData
  rw [if_neg (by omega), if_neg htarget]
  rfl

/-- The step that programs the last byte: `b` is the boot unit with the data programmed. -/
theorem imageUpdateDataDone_programs {s : State} {o : OpRef} {offset length source : Nat} {x : Update} {b : BootUnit}
    (hlong : runsLong s o 0x0021 = true) (hop : s.boot.dataOp = some (o.ring, o.tag, offset, length, source))
    (hx : s.boot.update = some x) (hsource : s.dmaBad source length = none)
    (hb : programData x offset length source (s.at o.t) = (s.at o.t).withBoot b) :
    ∃ t, exec (.imageUpdateDataDone o) s = .next t ∧ endedWith s t o 0x0021 stOk []
      ∧ longFrame (s.withBoot { b with dataOp := none }) t o.t := by
  obtain ⟨hruns, hreach⟩ := longRuns_of_runsLong hlong
  have hop' : (s.at o.t).boot.dataOp = some (o.ring, o.tag, offset, length, source) := hop
  have hx' : (s.at o.t).boot.update = some x := hx
  have hsource' : (s.at o.t).dmaBad source length = none := hsource
  have hwork := progressTo_work (ring := o.ring) (tag := o.tag) ((offset + length) / 65536) ((s.at o.t).withBoot b)
  have hstart : longFrame (s.withBoot b) ((s.at o.t).withBoot b) o.t := rfl
  have hframe := (hstart.progressTo o.ring o.tag ((offset + length) / 65536)).withBoot { b with dataOp := none }
  refine ⟨_, rfl, withStep_answers (a := refuse stOk)
    (u := (((s.at o.t).withBoot b).progressTo o.ring o.tag ((offset + length) / 65536)).withBoot { b with dataOp := none })
    hruns (fun l => ?_) ((hwork.runs 0x0021 (hruns.congr rfl rfl)).congr rfl rfl) hwork.longs hframe⟩
  simp only [hop', hx', hreach, hsource', hb, ne_eq, not_true_eq_false, or_self, if_false, Option.isSome_none, Bool.false_eq_true,
    progressTo_boot, withBoot_boot]

theorem imageUpdateDataDone_ends (s : State) (o : OpRef) (offset length source : Nat) (x : Update)
    (hlong : runsLong s o 0x0021 = true) (hop : s.boot.dataOp = some (o.ring, o.tag, offset, length, source))
    (hx : s.boot.update = some x) (hpos : 0 < length) (hsource : s.dmaBad source length = none) :
    let data := s.dmaRead source length
    ∃ t, exec (.imageUpdateDataDone o) s = .next t ∧ endedWith s t o 0x0021 stOk []
      ∧ (x.target = 1 → longFrame (s.withBoot { s.boot with dataOp := none, update := some { x with
          written := offset + length, data := x.data.take offset ++ data } }) t o.t)
      ∧ (x.target ≠ 1 → longFrame (s.withBoot { s.boot with
          dataOp := none, update := some { x with written := offset + length }
          flash := mwrite flashByte s.boot.flash (slotBase (1 - s.boot.preferred) + offset)
            (data ++ List.replicate ((4096 - (offset + length) % 4096) % 4096) 0xFF) }) t o.t) := by
  intro data
  by_cases htarget : x.target = 1
  · obtain ⟨t, hexec, hended, hframe⟩ := imageUpdateDataDone_programs hlong hop hx hsource
      (programData_record x offset source (s.at o.t) hpos htarget)
    exact ⟨t, hexec, hended, fun _ => hframe, fun hne => absurd htarget hne⟩
  · obtain ⟨t, hexec, hended, hframe⟩ := imageUpdateDataDone_programs hlong hop hx hsource
      (programData_package x offset source (s.at o.t) hpos htarget)
    exact ⟨t, hexec, hended, fun heq => absurd heq htarget, fun _ => hframe⟩

theorem imageUpdateCommitActivate_begins (s : State) (h : Hdr) (ha : acceptsLong s h (cmdOf 0x0022 0) = true)
    (hx : s.boot.update.isSome = true) (hdata : s.boot.dataOp = none) (hcommit : s.boot.commitOp = none) :
    ∃ t, exec (.imageUpdateCommitActivate h) s = .next t ∧ startedLong s t h (cmdOf 0x0022 0)
      ∧ longFrame (s.withBoot { s.boot with commitOp := some (h.ring, h.tag, 0) }) t h.t := by
  obtain ⟨-, hframe, -⟩ := acceptedLong_spec ha
  have hboot := hframe.boot_eq
  have hopen : ¬s.boot.update.isNone = true := by simpa [Option.isSome_iff_ne_none] using hx
  have hbegin : activateBegin h (acceptedLong s h (cmdOf 0x0022 0))
      = (acceptedLong s h (cmdOf 0x0022 0)).withBoot { s.boot with commitOp := some (h.ring, h.tag, 0) } := by
    simp only [activateBegin, hboot, hopen, hdata, hcommit, Option.isSome_none, Bool.false_eq_true, or_self, if_false]
  exact ⟨_, rfl, hostLong_begins _ ha hbegin rfl (hframe.withBoot _)⟩

/-- The end of ACTIVATE with the outcome of its checks: `b` is the boot unit with what the update comes to. -/
theorem imageUpdateCommitDone_answers {s : State} {o : OpRef} {n st : Nat} {x : Update} {b : BootUnit} (hlong : runsLong s o 0x0022 = true)
    (hop : s.boot.commitOp = some (o.ring, o.tag, n)) (hx : s.boot.update = some x)
    (hb : activate x (s.at o.t) = ((s.at o.t).withBoot b, st)) :
    ∃ t, exec (.imageUpdateCommitDone o) s = .next t ∧ endedWith s t o 0x0022 st []
      ∧ longFrame (s.withBoot { b with commitOp := none, update := none }) t o.t := by
  obtain ⟨hruns, hreach⟩ := longRuns_of_runsLong hlong
  have hop' : (s.at o.t).boot.commitOp = some (o.ring, o.tag, n) := hop
  have hx' : (s.at o.t).boot.update = some x := hx
  refine ⟨_, rfl, withStep_answers (a := refuse st)
    (u := (s.at o.t).withBoot { b with commitOp := none, update := none }) hruns (fun l => ?_) (hruns.congr rfl rfl) rfl rfl⟩
  simp only [hreach, hop', hx', hb, ne_eq, not_true_eq_false, or_self, if_false]
  rfl

theorem packageStatus_at (s : State) (x : Update) (u : Time) : packageStatus (s.at u) x = packageStatus s x := rfl

theorem activate_package (x : Update) (s : State) (htarget : x.target = 0) :
    activate x s = (s.withBoot (if packageStatus s x = stOk
      then { s.boot with preferred := 1 - s.boot.preferred, trial := true, tries := 0 } else s.boot), packageStatus s x) := by
  simp only [activate, htarget, if_true]
  split <;> rfl

theorem imageUpdateCommitDone_package (s : State) (o : OpRef) (n : Nat) (x : Update) (hlong : runsLong s o 0x0022 = true)
    (hop : s.boot.commitOp = some (o.ring, o.tag, n)) (hx : s.boot.update = some x) (htarget : x.target = 0) :
    ∃ t, exec (.imageUpdateCommitDone o) s = .next t ∧ endedWith s t o 0x0022 (packageStatus s x) []
      ∧ (packageStatus s x = stOk → longFrame (s.withBoot { s.boot with
          commitOp := none, update := none, preferred := 1 - s.boot.preferred, trial := true, tries := 0 }) t o.t)
      ∧ (packageStatus s x ≠ stOk → longFrame (s.withBoot { s.boot with commitOp := none, update := none }) t o.t) := by
  have hactivate := activate_package x (s.at o.t) htarget
  rw [packageStatus_at] at hactivate
  obtain ⟨t, hexec, hended, hframe⟩ := imageUpdateCommitDone_answers hlong hop hx hactivate
  refine ⟨t, hexec, hended, fun hok => ?_, fun hfail => ?_⟩
  · rw [if_pos hok] at hframe
    exact hframe
  · rw [if_neg hfail] at hframe
    exact hframe

theorem writeRecord_eq (r : List Byte) (s : State) :
    writeRecord r s = s.withBoot { s.boot with flash := (writeRecord r s).boot.flash } := by
  unfold writeRecord
  split <;> rfl

theorem imageUpdateCommitDone_record (s : State) (o : OpRef) (n : Nat) (x : Update) (hlong : runsLong s o 0x0022 = true)
    (hop : s.boot.commitOp = some (o.ring, o.tag, n)) (hx : s.boot.update = some x) (htarget : x.target = 1) (hwritten : x.written = 64)
    (hvalid : recordValid x.data = true) :
    ∃ t, exec (.imageUpdateCommitDone o) s = .next t ∧ endedWith s t o 0x0022 stOk []
      ∧ longFrame (s.withBoot { s.boot with commitOp := none, update := none, flash := (writeRecord x.data s).boot.flash }) t o.t := by
  have hflash : (writeRecord x.data (s.at o.t)).boot.flash = (writeRecord x.data s).boot.flash := by
    have hlive : liveCopy (s.at o.t) = liveCopy s := rfl
    unfold writeRecord
    rw [hlive]
    split <;> rfl
  have hactivate : activate x (s.at o.t)
      = ((s.at o.t).withBoot { s.boot with flash := (writeRecord x.data s).boot.flash }, stOk) := by
    have htarget' : ¬x.target = 0 := by omega
    rw [activate, if_neg htarget', if_pos ⟨hwritten, hvalid⟩, writeRecord_eq, hflash]
    rfl
  exact imageUpdateCommitDone_answers hlong hop hx hactivate

theorem imageUpdateCommitConfirm_ends (s : State) (h : Hdr) (ha : acceptsLong s h (cmdOf 0x0022 1) = true) :
    ∃ t, exec (.imageUpdateCommitConfirm h) s = .next t ∧ repliedWith t h.ring h.tag 0x0022 stOk [] = true
      ∧ longFrame (s.withBoot { s.boot with trial := false }) t h.t := by
  obtain ⟨-, hframe, -⟩ := acceptedLong_spec ha
  refine ⟨_, rfl, hostLong_answers (a := refuse stOk)
    (u := (acceptedLong s h (cmdOf 0x0022 1)).withBoot { s.boot with trial := false }) _ ha ?_ rfl (hframe.withBoot _)⟩
  rw [hframe.boot_eq]

theorem imageUpdateCommitRollback_ends (s : State) (h : Hdr) (ha : acceptsLong s h (cmdOf 0x0022 2) = true) :
    let fail := (checkPair s (1 - s.boot.preferred)).fail
    ∃ t, exec (.imageUpdateCommitRollback h) s = .next t
      ∧ repliedWith t h.ring h.tag 0x0022 (match fail with | none => stOk | some f => f.2) [] = true
      ∧ longFrame (if fail = none then s.withBoot { s.boot with preferred := 1 - s.boot.preferred, trial := false } else s) t h.t := by
  intro fail
  obtain ⟨-, hframe, -⟩ := acceptedLong_spec ha
  have hboot := hframe.boot_eq
  have hcheck : (checkPair (acceptedLong s h (cmdOf 0x0022 2)) (1 - s.boot.preferred)).fail = fail :=
    congrArg PairCheck.fail (checkPair_congr (by rw [hboot]) _)
  cases hfail : fail with
  | none =>
    refine ⟨_, rfl, hostLong_answers (a := refuse stOk)
      (u := (acceptedLong s h (cmdOf 0x0022 2)).withBoot { s.boot with preferred := 1 - s.boot.preferred, trial := false })
      _ ha ?_ rfl (hframe.withBoot _)⟩
    simp only [rollbackBody, hboot, hcheck, hfail]
  | some f =>
    refine ⟨_, rfl, hostLong_answers (a := refuse f.2) _ ha ?_ rfl hframe⟩
    simp only [rollbackBody, hboot, hcheck, hfail]

/-- Settles O45: each command and event by its lemma; that a failed ACTIVATE closes the open update is log 57. -/
theorem updatesComplete : Obligations.UpdatesComplete := by
  unfold Obligations.UpdatesComplete
  exact ⟨imageUpdateBegin_opens, imageUpdateData_begins, imageUpdateDataDone_ends, imageUpdateCommitActivate_begins,
    imageUpdateCommitDone_package, imageUpdateCommitDone_record, imageUpdateCommitConfirm_ends, imageUpdateCommitRollback_ends⟩

end Sys2Proof.Machine
end

section
/-! Resets (R25, R363 to R367, R457, R467 to R469; logs 57 and 81): the gates settle first, then every unit goes to its reset value, and the
source alone says whether DRAM is kept. -/

namespace Sys2Proof.Machine

open Sys2Proof

/-! ## The gates as a reset leaves them (R226, R227) -/

/-- Announcing keeps what a reset keeps of the host interface and of the fatal records. -/
structure AnnouncesKept (s t : State) : Prop where
  badReads : t.host.badReads = s.host.badReads
  perstLow : t.host.perstLow = s.host.perstLow
  fatalRecords : t.log.fatalRecords = s.log.fatalRecords

theorem AnnouncesKept.refl (s : State) : AnnouncesKept s s := ⟨rfl, rfl, rfl⟩

theorem AnnouncesKept.trans {s t u : State} (h1 : AnnouncesKept s t) (h2 : AnnouncesKept t u) : AnnouncesKept s u :=
  ⟨h2.badReads.trans h1.badReads, h2.perstLow.trans h1.perstLow, h2.fatalRecords.trans h1.fatalRecords⟩

theorem raise_announcesKept (s : State) (i : Nat) : AnnouncesKept s (s.raise i) := by
  rw [raise_frame]
  exact ⟨rfl, rfl, rfl⟩

/-- A report joins or displaces reports of the queue; fatal records have a place of their own. -/
theorem arrive_fatalRecords (l : LogUnit) (r : Report) : (l.arrive r).fatalRecords = l.fatalRecords := by
  unfold LogUnit.arrive
  dsimp only
  split
  · rfl
  · split
    · rfl
    · split <;> rfl

theorem report_announcesKept (s : State) (code value : Nat) (key fields : List Byte) :
    AnnouncesKept s (s.report code key value fields) := ⟨rfl, rfl, arrive_fatalRecords _ _⟩

theorem traceRec_announcesKept (s : State) (source unit : Nat) (data : List Byte) : AnnouncesKept s (s.traceRec source unit data) := by
  rw [traceRec_withTrace]
  exact ⟨rfl, rfl, rfl⟩

theorem OnlyBars.announcesKept {s t : State} (h : OnlyBars s t) : AnnouncesKept s t := by
  rw [h]
  exact ⟨rfl, rfl, rfl⟩

theorem settleGates_announcesKept (s : State) : AnnouncesKept s s.settleGates := by
  have hbars : AnnouncesKept s ((List.range 8).foldl driveFire ((List.range 8).foldl latchBar s)) :=
    ((foldl_keeps OnlyBars OnlyBars.refl OnlyBars.trans latchBar latchBar_onlyBars (List.range 8) s).trans
      (foldl_keeps OnlyBars OnlyBars.refl OnlyBars.trans driveFire driveFire_onlyBars (List.range 8) _)).announcesKept
  unfold State.settleGates
  simp only []
  split
  · exact hbars
  · exact (hbars.trans ((raise_announcesKept _ 7).trans (report_announcesKept _ _ _ _ _))).trans
      (foldl_keeps AnnouncesKept AnnouncesKept.refl AnnouncesKept.trans _ (fun t b => traceRec_announcesKept t _ b _) _ _)

theorem foldl_same {σ β : Type} {f : σ → β → σ} {s : σ} {l : List β} (h : ∀ x ∈ l, f s x = s) : l.foldl f s = s := by
  induction l with
  | nil => rfl
  | cons x l ih =>
    rw [List.foldl_cons, h x List.mem_cons_self]
    exact ih fun y hy => h y (List.mem_cons_of_mem x hy)

/-- With no FIRE_EN to fall, a device that leaves its run for BOOT has no edge to tell. -/
theorem settleGates_boot {s : State} (hdev : s.dev = .boot) (hfire : ∀ b, b < 8 → (s.bar b).fireEn = false) : s.settleGates = s := by
  have hlatch : (List.range 8).foldl latchBar s = s := foldl_same fun b _ => if_neg (by simp [hdev])
  have hdrive : (List.range 8).foldl driveFire s = s := foldl_same fun b hb => by
    have hvalue : fireEnValue s b = false := by simp [fireEnValue, runEnabled, hdev]
    exact if_pos ((hfire b (List.mem_range.mp hb)).trans hvalue.symm)
  unfold State.settleGates
  simp only [hlatch, hdrive]
  exact if_pos (Nat.xor_self _)

/-! ## What a reset starts from -/

/-- In `g` stands what a reset at elapsed time `u` from `s` keeps. -/
structure ResetFrom (s g : State) (u : Time) : Prop where
  pending : g.pending = s.pending
  elapsed : g.clk.elapsed = max s.clk.elapsed u
  badReads : g.host.badReads = s.host.badReads
  perstLow : g.host.perstLow = s.host.perstLow
  target : g.keep.target = s.keep.target
  flash : g.boot.flash = s.boot.flash
  preferred : g.boot.preferred = s.boot.preferred
  trial : g.boot.trial = s.boot.trial
  tries : g.boot.tries = s.boot.tries
  checkpoint : g.boot.checkpoint = s.boot.checkpoint
  dram : g.dram = s.dram
  rf : g.link.rf = s.link.rf
  health : g.link.health = s.link.health
  store : g.store = s.store
  wearTotals : g.path.wearTotals = s.path.wearTotals

theorem ResetFrom.settle {s g : State} {u : Time} (h : ResetFrom s g u) : ResetFrom s (g.withDev .boot).settleGates u := by
  have hgates := settleGates_leaves (g.withDev .boot)
  obtain ⟨hbad, hperst, -⟩ := settleGates_announcesKept (g.withDev .boot)
  have hbad := hbad.trans h.badReads
  have hperst := hperst.trans h.perstLow
  generalize (g.withDev .boot).settleGates = t at *
  unfold GatesSettled at hgates
  rw [hgates]
  exact { h with badReads := hbad, perstLow := hperst }

theorem afterReset_of {s g : State} {u : Time} (h : ResetFrom s g u) (source : ResetSource) (keep : Bool) (path : PowerPath) :
    afterReset s (resetState g (resetBoot g.boot source keep path g.clk.elapsed)) source path u := by
  obtain ⟨hpending, helapsed, hbad, hperst, htarget, hflash, hpreferred, htrial, htries, hcheckpoint, hdram, hrf, hhealth, -, -⟩ := h
  refine ⟨rfl, rfl, rfl, rfl, rfl, rfl, rfl, rfl, rfl, rfl, hpending, ?_, ?_, rfl, ?_, rfl, rfl, helapsed, rfl, rfl, rfl, rfl, rfl, hflash,
    hpreferred, htrial, htries, hcheckpoint, (congrArg Dram.repairs hdram : g.dram.repairs = _), hrf, hhealth⟩
  · rw [← helapsed]
    rfl
  · rw [← hbad, ← hperst]
    rfl
  · rw [← htarget]
    rfl

theorem afterCold_of {s g : State} {u : Time} (h : ResetFrom s g u) (source : ResetSource) (path : PowerPath) :
    afterCold s (resetState g (resetBoot g.boot source false path g.clk.elapsed)) source path u :=
  ⟨afterReset_of h source false path, rfl, rfl, rfl, rfl, rfl⟩

/-- The state in which a reset of this source begins: the gates have settled, unless the supplies are lost with them. -/
def resetBegins (s : State) (source : ResetSource) : State := if source = .porN then s else (s.withDev .boot).settleGates

theorem doReset_eq (s : State) (source : ResetSource) (warm : Bool) (path : PowerPath) :
    s.doReset source warm path = resetState (resetBegins s source) (resetBoot (resetBegins s source).boot source
      (warm && (resetBegins s source).dram.cfg.retain && (resetBegins s source).dram.trained) path (resetBegins s source).clk.elapsed) := rfl

theorem ResetFrom.begins {s g : State} {u : Time} (h : ResetFrom s g u) (source : ResetSource) : ResetFrom s (resetBegins g source) u := by
  unfold resetBegins
  split
  · exact h
  · exact h.settle

theorem doReset_cold {s g : State} {u : Time} (h : ResetFrom s g u) (source : ResetSource) (path : PowerPath) :
    afterCold s (g.doReset source false path) source path u := afterCold_of (h.begins source) source path

theorem doReset_warm {s g : State} {u : Time} (h : ResetFrom s g u) (source : ResetSource) (path : PowerPath) :
    afterWarm s (g.doReset source true path) source path u := by
  have hg := h.begins source
  have hdram := hg.dram
  rw [doReset_eq]
  generalize resetBegins g source = r at *
  rw [hdram]
  refine ⟨fun hretain htrained => ?_, fun hlost => ?_⟩
  · rw [hretain, htrained]
    refine ⟨afterReset_of hg source true path, rfl, rfl, ?_, hg.wearTotals⟩
    rw [← hg.store]
    rfl
  · have hkeep : (true && s.dram.cfg.retain && s.dram.trained) = false := by
      obtain hretain | htrained := hlost
      · rw [hretain, Bool.and_false, Bool.false_and]
      · rw [htrained, Bool.and_false]
    rw [hkeep]
    exact afterCold_of hg source path

theorem resetBegins_boot (s : State) (source : ResetSource) : (resetBegins s source).boot = s.boot := by
  unfold resetBegins
  split
  · rfl
  · exact (congrArg State.boot (settleGates_leaves (s.withDev .boot)) :)

/-- The boot unit after a reset, whatever it keeps of DRAM. -/
theorem doReset_boot (s : State) (source : ResetSource) (warm : Bool) (path : PowerPath) :
    ∃ keep now, (s.doReset source warm path).boot = resetBoot s.boot source keep path now := by
  rw [doReset_eq, resetBegins_boot]
  exact ⟨_, _, rfl⟩

theorem doReset_fatalRecords (s : State) (source : ResetSource) (warm : Bool) (path : PowerPath) :
    (s.doReset source warm path).log.fatalRecords = s.log.fatalRecords := by
  change (resetBegins s source).log.fatalRecords = _
  unfold resetBegins
  split
  · rfl
  · exact (settleGates_announcesKept _).fatalRecords

/-- With no FIRE_EN to fall, a reset keeps host memory and sends nothing. -/
theorem doReset_quiet {s : State} (hfire : ∀ b, b < 8 → (s.bar b).fireEn = false) (source : ResetSource) (warm : Bool) (path : PowerPath) :
    (s.doReset source warm path).host.mem = s.host.mem ∧ (s.doReset source warm path).host.messages = s.host.messages := by
  change (resetBegins s source).host.mem = _ ∧ (resetBegins s source).host.messages = _
  unfold resetBegins
  split
  · exact ⟨rfl, rfl⟩
  · rw [settleGates_boot (s := s.withDev .boot) rfl hfire]
    exact ⟨rfl, rfl⟩

/-! ## Pins and rails (R363, R467 to R469) -/

theorem resetFrom_at (s : State) (u : Time) : ResetFrom s (s.at u) u :=
  ⟨rfl, rfl, rfl, rfl, rfl, rfl, rfl, rfl, rfl, rfl, rfl, rfl, rfl, rfl, rfl⟩

theorem porN_resets (s : State) (held u : Nat) (hlong : usT ≤ held) :
    ∃ t, exec (.porN held u) s = .next t ∧ afterCold s t .porN .held u ∧ t.boot.porLow = true
      ∧ t.boot.jtag = 1 ∧ t.host.mem = s.host.mem ∧ t.host.messages = s.host.messages := by
  have hcold := doReset_cold (resetFrom_at s u) .porN .held
  exact ⟨_, congrArg Host.Outcome.next (if_neg (Nat.not_lt.mpr hlong)), hcold, rfl, rfl, rfl, rfl⟩

theorem supplyDrop_resets (s : State) (rail mv held u : Nat) (hrail : railLow rail mv = true) (hlong : 2 * usT ≤ held) :
    ∃ t, exec (.supplyDrop rail mv held u) s = .next t ∧ afterCold s t .porN .held u ∧ t.boot.supplyBad = true
      ∧ t.host.mem = s.host.mem ∧ t.host.messages = s.host.messages := by
  have hcold := doReset_cold (resetFrom_at s u) .porN .held
  have haccepted : ¬((!railLow rail mv) = true ∨ held < 2 * usT) := by
    rw [hrail]
    simpa using hlong
  exact ⟨_, congrArg Host.Outcome.next (if_neg haccepted), hcold, rfl, rfl, rfl⟩

theorem resetN_resets (s : State) (held u : Nat) (hpor : s.boot.porLow = false) (hsupply : s.boot.supplyBad = false)
    (hlong : 2 * alwaysOnCycle ≤ held) :
    ∃ t, exec (.resetN held u) s = .next t ∧ afterWarm s t .resetN .held u ∧ t.boot.resetLow = true
      ∧ ((∀ b, b < 8 → (s.bar b).fireEn = false) → t.host.mem = s.host.mem ∧ t.host.messages = s.host.messages) := by
  have hwarm := doReset_warm (resetFrom_at s u) .resetN .held
  have hgood : ¬((s.at u).boot.porLow = true ∨ (s.at u).boot.supplyBad = true) := by
    change ¬(s.boot.porLow = true ∨ s.boot.supplyBad = true)
    simp [hpor, hsupply]
  have hexec : exec (.resetN held u) s = .next (((s.at u).doReset .resetN true .held).withBoot
      { ((s.at u).doReset .resetN true .held).boot with resetLow := true }) := by
    change execResetN held u s = _
    unfold execResetN
    simp only [hgood, if_false]
    exact congrArg Host.Outcome.next (if_neg (Nat.not_lt.mpr hlong))
  exact ⟨_, hexec, hwarm, rfl, fun hfire => doReset_quiet (s := s.at u) hfire .resetN true .held⟩

theorem resetN_notes (s : State) (held u : Nat) (hbad : s.boot.porLow = true ∨ s.boot.supplyBad = true)
    (hlong : 2 * alwaysOnCycle ≤ held) :
    exec (.resetN held u) s = .next { s with clk := (s.at u).clk, boot := { s.boot with resetLow := true } } := by
  have hbad' : (s.at u).boot.porLow = true ∨ (s.at u).boot.supplyBad = true := hbad
  change execResetN held u s = _
  unfold execResetN
  simp only [hbad', if_true]
  exact congrArg Host.Outcome.next (if_neg (Nat.not_lt.mpr hlong))

theorem short_pulse_ignored (s : State) (rail mv held u : Nat) :
    (held < usT → exec (.porN held u) s = .next (s.at u))
    ∧ (railLow rail mv = false ∨ held < 2 * usT → exec (.supplyDrop rail mv held u) s = .next (s.at u))
    ∧ (held < 2 * alwaysOnCycle → exec (.resetN held u) s = .next (s.at u)) := by
  refine ⟨fun hshort => congrArg Host.Outcome.next (if_pos hshort), fun hrefused => congrArg Host.Outcome.next (if_pos ?_),
    fun hshort => congrArg Host.Outcome.next (if_pos hshort)⟩
  simpa using hrefused

/-! ## The watchdog (R25, R363) -/

/-- The state in which an expiry of the watchdog is judged. -/
def watchdogFed (s : State) (core fed : Nat) (u : Time) : State :=
  (s.at u).withBoot { s.boot with wdogFed := nput s.boot.wdogFed core (max fed (nget s.boot.wdogFed core)) }

theorem watchdogExpiry_eq (s : State) {core : Nat} (fed u : Nat) (hcore : core < 4) :
    exec (.watchdogExpiry core fed u) s = .next (if s.boot.path ∈ [PowerPath.up, .booting, .record]
        ∧ max fed (nget s.boot.wdogFed core) + 100 * msT ≤ max s.clk.elapsed u
      then (watchdogFed s core fed u).doReset .watchdog true .booting else watchdogFed s core fed u) :=
  if_neg (by omega)

theorem watchdogExpiry_resets (s : State) (core fed u : Nat) (hcore : core < 4) (hpath : s.boot.path ∈ [PowerPath.up, .booting, .record])
    (hdue : max fed (nget s.boot.wdogFed core) + 100 * msT ≤ max s.clk.elapsed u) :
    ∃ t, exec (.watchdogExpiry core fed u) s = .next t ∧ afterWarm s t .watchdog .booting u ∧ t.boot.wdogOut = true
      ∧ ((∀ b, b < 8 → (s.bar b).fireEn = false) → t.host.mem = s.host.mem ∧ t.host.messages = s.host.messages) := by
  have hfrom : ResetFrom s (watchdogFed s core fed u) u := ⟨rfl, rfl, rfl, rfl, rfl, rfl, rfl, rfl, rfl, rfl, rfl, rfl, rfl, rfl, rfl⟩
  rw [watchdogExpiry_eq s fed u hcore, if_pos ⟨hpath, hdue⟩]
  obtain ⟨keep, now, hboot⟩ := doReset_boot (watchdogFed s core fed u) .watchdog true .booting
  exact ⟨_, rfl, doReset_warm hfrom .watchdog .booting, by rw [hboot]; rfl,
    fun hfire => doReset_quiet (s := watchdogFed s core fed u) hfire .watchdog true .booting⟩

theorem watchdogExpiry_fed (s : State) (core fed u : Nat) (hcore : core < 4)
    (hidle : s.boot.path ∉ [PowerPath.up, .booting, .record] ∨ max s.clk.elapsed u < max fed (nget s.boot.wdogFed core) + 100 * msT) :
    exec (.watchdogExpiry core fed u) s = .next ((s.at u).withBoot { s.boot with
      wdogFed := nput s.boot.wdogFed core (max fed (nget s.boot.wdogFed core)) }) := by
  rw [watchdogExpiry_eq s fed u hcore, if_neg]
  · rfl
  · rintro ⟨hpath, hdue⟩
    obtain hout | hearly := hidle
    · exact hout hpath
    · exact Nat.not_le.mpr hearly hdue

/-! ## DEVICE_RESET (R366) -/

/-- DEVICE_RESET answers, and then resets. -/
theorem deviceReset_resets (s : State) (h : Hdr) (kind : Nat) (ha : accepts s h (cmdOf 0x0120 0) = true) (hup : s.host.linkUp = true)
    (hkind : kind ≤ 1) :
    ∃ t, exec (.deviceReset h kind) s = .next t ∧ ((∀ b, b < 8 → (s.bar b).fireEn = false) → delivered s t h.ring 0 [])
      ∧ (kind = 0 → afterWarm s t .deviceReset .booting h.t)
      ∧ (kind = 1 → afterCold s t .deviceReset .booting h.t) := by
  have hbegun : hostOnly (s.withBoot { s.boot with resetReq := some kind })
      ((begun s h (cmdOf 0x0120 0)).withBoot { s.boot with resetReq := some kind }) h := rfl
  have hbody : resetBody kind (begun s h (cmdOf 0x0120 0))
      = ((begun s h (cmdOf 0x0120 0)).withBoot { s.boot with resetReq := some kind }, refuse stOk) := if_neg (by omega)
  have hframe := (hostCmd_answers (i := .deviceReset (unstarted h) kind) (a := refuse stOk) ha hbody rfl hbegun).2
  have hwrites : ((begun s h (cmdOf 0x0120 0)).withBoot { s.boot with resetReq := some kind }).dmaWrite 0 []
      = (begun s h (cmdOf 0x0120 0)).withBoot { s.boot with resetReq := some kind } := if_pos hup
  have hmem := hostCmd_delivers_from (i := .deviceReset (unstarted h) kind) (dest := 0) (data := []) (a := refuse stOk) ha hup
    (v := (begun s h (cmdOf 0x0120 0)).withBoot { s.boot with resetReq := some kind }) rfl (by rw [hwrites]; exact hbody)
  have hexec : exec (.deviceReset h kind) s = .next ((hostCmd (.deviceReset (unstarted h) kind) h (cmdOf 0x0120 0) (resetBody kind) s).doReset
      .deviceReset (decide (kind = 0)) .booting) := by
    have hreq : (hostCmd (.deviceReset (unstarted h) kind) h (cmdOf 0x0120 0) (resetBody kind) s).boot.resetReq = some kind := by
      rw [hframe]
      rfl
    change execDeviceReset h kind s = _
    unfold execDeviceReset
    simp only [hreq]
  rw [hexec]
  generalize hostCmd (.deviceReset (unstarted h) kind) h (cmdOf 0x0120 0) (resetBody kind) s = g at *
  have hfrom : ResetFrom s g h.t := by
    unfold hostOnly at hframe
    rw [hframe]
    exact ⟨rfl, rfl, rfl, rfl, rfl, rfl, rfl, rfl, rfl, rfl, rfl, rfl, rfl, rfl, rfl⟩
  have hbars : g.bar = s.bar := by
    unfold hostOnly at hframe
    rw [hframe]
    rfl
  refine ⟨_, rfl, fun hfire => ?_, fun h0 => ?_, fun h1 => ?_⟩
  · obtain ⟨rep, hlength, hrep⟩ := hmem
    exact ⟨rep, hlength, (doReset_quiet (s := g) (by rw [hbars]; exact hfire) _ _ _).1.trans hrep⟩
  · subst h0
    exact doReset_warm hfrom _ _
  · subst h1
    exact doReset_cold hfrom _ _

/-! ## The fatal record (R367, R448) -/

/-- The state in which a written fatal record, or one that was not written in its 10 ms, leads to the reset. -/
def recordEnded (s : State) (complete : Bool) : State :=
  if complete then s.withLog { s.log with fatalRecords := (s.boot.fatalRec :: s.log.fatalRecords).take 16 }
  else s.withBoot { s.boot with recordLost := true }

theorem fatalRecordWritten_eq {s : State} {c : FatalCause} (complete : Bool) (u : Nat) (hfatal : s.boot.fatal = some c)
    (hpath : s.boot.path = .record) (hdue : complete = true ∨ s.boot.fatalAt + 10 * msT ≤ max s.clk.elapsed u) :
    exec (.fatalRecordWritten complete u) s = .next ((recordEnded (s.at u) complete).doReset .fatal
      (decide (c ≠ .refreshOverrun) && !decide (Pll.time ∈ s.boot.pllLost)) .booting) := by
  have hfatal' : (s.at u).boot.fatal = some c := hfatal
  have hends : ¬((s.at u).boot.path ≠ .record ∨ ((!complete) = true ∧ (s.at u).clk.elapsed < (s.at u).boot.fatalAt + 10 * msT)) := by
    change ¬(s.boot.path ≠ .record ∨ ((!complete) = true ∧ max s.clk.elapsed u < s.boot.fatalAt + 10 * msT))
    rintro (hne | ⟨hlost, hearly⟩)
    · exact hne hpath
    · obtain hcomplete | hlate := hdue
      · rw [hcomplete] at hlost
        cases hlost
      · exact Nat.not_lt.mpr hlate hearly
  have hclocks : clocksGone (recordEnded (s.at u) complete) = decide (Pll.time ∈ s.boot.pllLost) := by
    unfold recordEnded
    split <;> rfl
  rw [← hclocks]
  change execFatalRecordWritten complete u s = _
  unfold execFatalRecordWritten
  dsimp only
  split
  next hnone => cases hfatal'.symm.trans hnone
  next c' hc' =>
    cases hfatal'.symm.trans hc'
    exact if_neg hends

theorem recordEnded_resetFrom (s : State) (complete : Bool) (u : Time) : ResetFrom s (recordEnded (s.at u) complete) u := by
  cases complete <;> exact ⟨rfl, rfl, rfl, rfl, rfl, rfl, rfl, rfl, rfl, rfl, rfl, rfl, rfl, rfl, rfl⟩

theorem fatalRecordWritten_resets (s : State) (u : Nat) (c : FatalCause) (hfatal : s.boot.fatal = some c) (hpath : s.boot.path = .record) :
    ∃ t, exec (.fatalRecordWritten true u) s = .next t ∧ t.log.fatalRecords = (s.boot.fatalRec :: s.log.fatalRecords).take 16
      ∧ (c ≠ .refreshOverrun → Pll.time ∉ s.boot.pllLost → afterWarm s t .fatal .booting u)
      ∧ ((c = .refreshOverrun ∨ Pll.time ∈ s.boot.pllLost) → afterCold s t .fatal .booting u)
      ∧ t.boot.wdogOut = true ∧ t.boot.fatal = none := by
  have hfrom := recordEnded_resetFrom s true u
  rw [fatalRecordWritten_eq true u hfatal hpath (.inl rfl)]
  obtain ⟨keep, now, hboot⟩ := doReset_boot (recordEnded (s.at u) true) .fatal
    (decide (c ≠ .refreshOverrun) && !decide (Pll.time ∈ s.boot.pllLost)) .booting
  refine ⟨_, rfl, doReset_fatalRecords _ _ _ _, fun hc hpll => ?_, fun hcold => ?_, by rw [hboot]; rfl, by rw [hboot]; rfl⟩
  · have hwarm : (decide (c ≠ .refreshOverrun) && !decide (Pll.time ∈ s.boot.pllLost)) = true := by simp [hc, hpll]
    rw [hwarm]
    exact doReset_warm hfrom _ _
  · have hlost : (decide (c ≠ .refreshOverrun) && !decide (Pll.time ∈ s.boot.pllLost)) = false := by
      obtain hc | hpll := hcold
      · simp [hc]
      · simp [hpll]
    rw [hlost]
    exact doReset_cold hfrom _ _

theorem fatalRecordWritten_lost (s : State) (u : Nat) (c : FatalCause) (hfatal : s.boot.fatal = some c) (hpath : s.boot.path = .record)
    (hdue : s.boot.fatalAt + 10 * msT ≤ max s.clk.elapsed u) :
    ∃ t, exec (.fatalRecordWritten false u) s = .next t ∧ t.log.fatalRecords = s.log.fatalRecords ∧ t.boot.recordLost = true
      ∧ t.dev = .boot ∧ t.boot.path = .booting ∧ t.boot.source = .fatal := by
  rw [fatalRecordWritten_eq false u hfatal hpath (.inr hdue)]
  obtain ⟨keep, now, hboot⟩ := doReset_boot (recordEnded (s.at u) false) .fatal
    (decide (c ≠ .refreshOverrun) && !decide (Pll.time ∈ s.boot.pllLost)) .booting
  exact ⟨_, rfl, doReset_fatalRecords _ _ _ _, by rw [hboot]; rfl, rfl, by rw [hboot]; rfl, by rw [hboot]; rfl⟩

/-! ## The test access port (R456, R457) -/

theorem jtagInstruction_of_test {i : Nat} (h1 : 1 ≤ i) (h7 : i ≤ 7) : jtagInstruction i = i := if_pos ⟨h1, h7⟩

theorem jtagInstruction_bypass (i : Nat) (h : i = 0 ∨ 7 < i) : jtagInstruction i = 0xFF := if_neg (by omega)

theorem jtagInstructionLoad_resets (s : State) (i u : Nat) (h3 : 3 ≤ i) (h7 : i ≤ 7) :
    ∃ t, exec (.jtagInstructionLoad i u) s = .next t ∧ afterCold s t s.boot.source .test u ∧ t.boot.jtag = i := by
  have hi : jtagInstruction (i % 256) = i := by
    rw [Nat.mod_eq_of_lt (by omega)]
    exact jtagInstruction_of_test (by omega) h7
  have hexec : exec (.jtagInstructionLoad i u) s = .next (((s.at u).doReset s.boot.source false .test).withBoot
      { ((s.at u).doReset s.boot.source false .test).boot with jtag := i }) := by
    change execJtagInstructionLoad i u s = _
    unfold execJtagInstructionLoad
    simp only [hi, if_pos (And.intro h3 h7)]
    rfl
  exact ⟨_, hexec, doReset_cold (resetFrom_at s u) s.boot.source .test, rfl⟩

theorem jtagInstructionLoad_loads (s : State) (i u : Nat) (h : ¬(3 ≤ i % 256 ∧ i % 256 ≤ 7)) :
    exec (.jtagInstructionLoad i u) s = .next { s with
      clk := (s.at u).clk, boot := { s.boot with jtag := jtagInstruction (i % 256) } } := by
  have hother : ¬(3 ≤ jtagInstruction (i % 256) ∧ jtagInstruction (i % 256) ≤ 7) := by
    unfold jtagInstruction
    split
    · exact h
    · omega
  change execJtagInstructionLoad i u s = _
  unfold execJtagInstructionLoad
  simp only [if_neg hother]
  rfl

/-- Settles O43: each source by its lemma; the time base at 0 after a reset is log 57, the domains at PD0 alone log 81. -/
theorem resetsComplete : Obligations.ResetsComplete := by
  unfold Obligations.ResetsComplete
  exact ⟨porN_resets, supplyDrop_resets, resetN_resets, resetN_notes, short_pulse_ignored, watchdogExpiry_resets, watchdogExpiry_fed,
    deviceReset_resets, fatalRecordWritten_resets, fatalRecordWritten_lost, jtagInstructionLoad_resets, jtagInstructionLoad_loads,
    rfl, rfl, jtagInstruction_bypass⟩

end Sys2Proof.Machine
end

section
/-! The boot (R288, R369 to R373, R378, R415; log 57): what its steps leave of the boot unit, of the store and of the DRAM controller, up to
IDLE or MAINT. -/

namespace Sys2Proof.Machine

open Sys2Proof

/-! ## Steps that leave the boot unit, or the store as well -/

/-- From `s` to `t` the boot unit stands, and DRAM is trained or not as it was. -/
structure BootStands (s t : State) : Prop where
  boot : t.boot = s.boot
  trained : t.dram.trained = s.dram.trained

theorem BootStands.refl (s : State) : BootStands s s := ⟨rfl, rfl⟩

theorem BootStands.trans {s t u : State} (h1 : BootStands s t) (h2 : BootStands t u) : BootStands s u :=
  ⟨h2.boot.trans h1.boot, h2.trained.trans h1.trained⟩

theorem BootStands.ite {c : Prop} [Decidable c] {s t t' : State} (h1 : BootStands s t) (h2 : BootStands s t') :
    BootStands s (if c then t else t') := by
  split
  · exact h1
  · exact h2

/-- As `BootStands`; the store, the print path and the configuration of DRAM stand as well. -/
structure UnitsStand (s t : State) : Prop extends BootStands s t where
  cfg : t.dram.cfg = s.dram.cfg
  store : t.store = s.store
  path : t.path = s.path

theorem UnitsStand.refl (s : State) : UnitsStand s s := ⟨.refl s, rfl, rfl, rfl⟩

theorem UnitsStand.trans {s t u : State} (h1 : UnitsStand s t) (h2 : UnitsStand t u) : UnitsStand s u :=
  ⟨h1.toBootStands.trans h2.toBootStands, h2.cfg.trans h1.cfg, h2.store.trans h1.store, h2.path.trans h1.path⟩

theorem UnitsStand.foldl {β : Type} (f : State → β → State) (h : ∀ s x, UnitsStand s (f s x)) (l : List β) (s : State) :
    UnitsStand s (l.foldl f s) := foldl_keeps UnitsStand UnitsStand.refl UnitsStand.trans f h l s

theorem BootStands.foldl {β : Type} (f : State → β → State) (h : ∀ s x, BootStands s (f s x)) (l : List β) (s : State) :
    BootStands s (l.foldl f s) := foldl_keeps BootStands BootStands.refl BootStands.trans f h l s

theorem report_unitsStand (s : State) (code value : Nat) (key fields : List Byte) : UnitsStand s (s.report code key value fields) :=
  ⟨⟨rfl, rfl⟩, rfl, rfl, rfl⟩

theorem reportExhausted_unitsStand (dram : Bool) (s : State) : UnitsStand s (reportExhausted dram s) :=
  .foldl _ (fun s _ => report_unitsStand s _ _ _ _) _ s

theorem moveTap_unitsStand (s : State) (x : Nat × Nat) : UnitsStand s (moveTap s x) := ⟨⟨rfl, rfl⟩, rfl, rfl, rfl⟩

theorem trainRead_unitsStand (s : State) (x : Nat × Nat) : UnitsStand s (trainRead s x) := ⟨⟨rfl, rfl⟩, rfl, rfl, rfl⟩

theorem coldTarget_unitsStand (s : State) (c : Nat) : UnitsStand s (coldTarget s c) := by
  unfold coldTarget
  split <;> exact ⟨⟨rfl, rfl⟩, rfl, rfl, rfl⟩

theorem enter_unitsStand (s : State) (d : DevState) : UnitsStand s (s.enter d) := by
  have hgates : GatesSettled (s.withDev d) (s.enter d) := settleGates_leaves (s.withDev d)
  unfold GatesSettled at hgates
  rw [hgates]
  exact ⟨⟨rfl, rfl⟩, rfl, rfl, rfl⟩

theorem enter_dev (s : State) (d : DevState) : (s.enter d).dev = d :=
  (congrArg State.dev (settleGates_leaves (s.withDev d)) :)

/-! ## The boot unit on its way -/

/-- The pins are high again, and the straps are latched after POR_N (R369, R467). -/
def releasedBoot (b : BootUnit) (straps : Nat) : BootUnit :=
  { b with
    porLow := false, resetLow := false, supplyBad := false, pllLost := b.pllLost.filter (fun p => p = .pcie), xspiResetN := true
    straps := if b.source = .porN then straps else b.straps }

/-- The boot goes back to the other slot: a trial has had its three tries when the watchdog or a fatal error resets it (R373). -/
def triesSpent (b : BootUnit) : Bool := b.trial && decide ((b.source = .watchdog ∨ b.source = .fatal) ∧ b.tries = 3)

/-- The slot that the boot takes, and what becomes of its trial (R373). -/
def triedBoot (b : BootUnit) : BootUnit :=
  { b with
    preferred := if triesSpent b then 1 - b.preferred else b.preferred
    trial := b.trial && !triesSpent b
    tries := if b.trial && !triesSpent b then min 3 (b.tries + 1) else b.tries }

theorem triedBoot_settled {b : BootUnit} (h : b.trial = false) : triedBoot b = b := by
  cases b
  simp_all [triedBoot, triesSpent]

theorem triedBoot_spent {b : BootUnit} (h : triesSpent b = true) :
    triedBoot b = { b with preferred := 1 - b.preferred, trial := false } := by
  simp [triedBoot, h]

theorem triedBoot_tries {b : BootUnit} (htrial : b.trial = true) (h : triesSpent b = false) :
    triedBoot b = { b with tries := min 3 (b.tries + 1) } := by
  simp [triedBoot, h, htrial]

theorem bootState_stands (s : State) : UnitsStand (s.withBoot (triedBoot s.boot)) (bootState s) := by
  unfold bootState
  dsimp only
  split
  next hsettled =>
    have htrial : s.boot.trial = false := by simpa using hsettled
    rw [triedBoot_settled htrial]
    exact .refl s
  next htrial =>
    have htrial : s.boot.trial = true := by simpa using htrial
    split
    next hback =>
      have hspent : triesSpent s.boot = true := by rw [triesSpent, htrial, decide_eq_true hback, Bool.and_self]
      rw [triedBoot_spent hspent]
      exact report_unitsStand _ _ _ _ _
    next hstay =>
      have hspent : triesSpent s.boot = false := by rw [triesSpent, decide_eq_false hstay, Bool.and_false]
      rw [triedBoot_tries htrial hspent]
      exact .refl _

/-- What the reset before left to log is logged. -/
def loggedBoot (b : BootUnit) : BootUnit := { b with recordLost := false, shutdownRec := none, lockoutLog := false }

theorem report_ite_unitsStand (s : State) (c : Bool) (code value : Nat) (key fields : List Byte) :
    UnitsStand s (if c then s.report code key value fields else s) := by
  split
  · exact report_unitsStand _ _ _ _ _
  · exact .refl s

/-- The thermal shutdown that preceded the reset is logged (R433). -/
def logShutdown (s : State) : State :=
  match s.boot.shutdownRec with
  | none => s
  | some r => s.report 0x7005 (logKey none none none none) 0
      (leBytes 1 r.cluster ++ r.readings.flatMap (leInt 2) ++ leBytes 8 (taiSec r.tai) ++ leBytes 4 (taiNs r.tai))

theorem logShutdown_unitsStand (s : State) : UnitsStand s (logShutdown s) := by
  unfold logShutdown
  split
  · exact .refl s
  · exact report_unitsStand _ _ _ _ _

/-- The reports with which the boot begins. -/
def bootReports (s : State) : State :=
  let lost := if s.boot.recordLost then s.report 0x6006 (logKey none none none none) 0 [] else s
  let shut := logShutdown lost
  if shut.boot.lockoutLog then shut.report 0x7006 (logKey none none none none) 0 [] else shut

theorem bootReports_unitsStand (s : State) : UnitsStand s (bootReports s) :=
  ((report_ite_unitsStand s s.boot.recordLost _ _ _ _).trans (logShutdown_unitsStand _)).trans (report_ite_unitsStand _ _ _ _ _ _)

theorem bootLogs_eq (s : State) : bootLogs s = (bootReports s).withBoot (loggedBoot (bootReports s).boot) := rfl

theorem bootLogs_stands (s : State) : UnitsStand (s.withBoot (loggedBoot s.boot)) (bootLogs s) := by
  have h := bootReports_unitsStand s
  rw [bootLogs_eq]
  exact ⟨⟨congrArg loggedBoot h.boot, h.trained⟩, h.cfg, h.store, h.path⟩

/-! ## A boot without a pair (R369, R372) -/

/-- MAINT, entered with its reason and the versions of the pair. -/
theorem enterMaint_spec (reason : MaintReason) (status fw uc : Nat) (s : State) :
    let t := enterMaint reason status fw uc s
    t.dev = .maint ∧ t.dram.trained = false ∧ t.store = s.store
      ∧ t.boot = { s.boot with
          path := .up, warm := false, maint := reason, fwVersion := fw, ucodeVersion := uc, wdogOut := false, domains := 0x83F
          domainsReady := 0x83F } := ⟨rfl, rfl, rfl, rfl⟩

/-! ## The units start -/

/-- The boot unit when the units start. -/
def upBoot (p : PairCheck) (b : BootUnit) : BootUnit :=
  { b with
    path := .up, fwVersion := p.fw, ucodeVersion := p.uc, wdogOut := false, resetOutN := true, dramResetN := true, domains := 0x83F
    domainsReady := 0x83F }

/-- The channels of DRAM are served and owe nothing. -/
def servedChannels (s : State) : State :=
  State.noDebt ((List.range 4).foldl (fun s c => s.withChannel c
    { Channel.reset with lastRequest := s.clk.elapsed, lastRetrain := s.clk.elapsed, oscSince := s.clk.elapsed, zq := true }) s)

theorem noDebt_unitsStand (s : State) : UnitsStand s s.noDebt := ⟨⟨rfl, rfl⟩, rfl, rfl, rfl⟩

theorem withChannel_unitsStand (s : State) (c : Nat) (x : Channel) : UnitsStand s (s.withChannel c x) := ⟨⟨rfl, rfl⟩, rfl, rfl, rfl⟩

theorem servedChannels_unitsStand (s : State) : UnitsStand s (servedChannels s) :=
  (UnitsStand.foldl _ (fun s c => withChannel_unitsStand s c _) _ s).trans (noDebt_unitsStand _)

/-- A cold boot calibrates every target (R415). -/
def calibrated (s : State) : State := if s.boot.retained then s else calCodes.foldl coldTarget s

theorem calibrated_unitsStand (s : State) : UnitsStand s (calibrated s) := by
  unfold calibrated
  split
  · exact .refl s
  · exact .foldl _ coldTarget_unitsStand _ s

theorem startUnits_eq (p : PairCheck) (s : State) :
    startUnits p s = (bootLogs (calibrated (servedChannels (s.withBoot (upBoot p s.boot))))).enter .idle := rfl

theorem startUnits_stands (p : PairCheck) (s : State) :
    UnitsStand (s.withBoot (loggedBoot (upBoot p s.boot))) (startUnits p s) := by
  have h := (servedChannels_unitsStand (s.withBoot (upBoot p s.boot))).trans (calibrated_unitsStand _)
  rw [startUnits_eq]
  generalize calibrated (servedChannels (s.withBoot (upBoot p s.boot))) = r at *
  have hlogged : UnitsStand (s.withBoot (loggedBoot (upBoot p s.boot))) (r.withBoot (loggedBoot r.boot)) :=
    ⟨⟨congrArg loggedBoot h.boot, h.trained⟩, h.cfg, h.store, h.path⟩
  exact (hlogged.trans (bootLogs_stands r)).trans (enter_unitsStand _ _)

theorem startUnits_dev (p : PairCheck) (s : State) : (startUnits p s).dev = .idle := enter_dev _ _

/-! ## A cold boot (R288, R378) -/

/-- Nothing of a retained store is kept (R378). -/
def voidedStore (cfg : DramConfig) (s : State) : State :=
  let c := s.boot.checkpoint
  let s := s.withBoot { s.boot with
    retained := false,
    checkpoint := { c with ready := [], mapBad := false, mapFrames := [], mapAreas := [], mirrorBad := c.mirror.map (·.1), cfg := some cfg } }
  ((s.withStore Store.reset).withPath { s.path with wearTotals := [] }).withTrace { s.trace with buffer := [] }

/-- DRAM that begins its training. -/
def trainingDram (cfg : DramConfig) (s : State) : State := s.withDram { s.dram with cfg := hotConfig cfg, trained := true, channels := [] }

theorem coldDram_eq (cfg : DramConfig) (s : State) :
    coldDram cfg s = trainDram (reportExhausted true (trainingDram cfg (voidedStore cfg s))) := rfl

/-- The results of the training go to the calibration store (R291). -/
def keepTraining (s : State) : State :=
  let (v, s) := s.draw 65536
  let s := s.withDram { s.dram with vendor := v }
  s.withBoot { s.boot with checkpoint := { s.boot.checkpoint with taps := s.dram.taps, vendor := v } }

/-- But for the checkpoint, `t` has the units of `s`. -/
structure CheckpointKept (s t : State) : Prop where
  boot : t.boot = { s.boot with checkpoint := t.boot.checkpoint }
  units : UnitsStand s (t.withBoot s.boot)

theorem UnitsStand.checkpointKept {s t u : State} (h1 : UnitsStand s t) (h2 : CheckpointKept t u) : CheckpointKept s u := by
  obtain ⟨hboot, hunits⟩ := h2
  refine ⟨hboot.trans (congrArg (fun b : BootUnit => { b with checkpoint := u.boot.checkpoint }) h1.boot), ?_⟩
  exact ⟨⟨rfl, hunits.trained.trans h1.trained⟩, hunits.cfg.trans h1.cfg, hunits.store.trans h1.store, hunits.path.trans h1.path⟩

theorem keepTraining_kept (s : State) : CheckpointKept s (keepTraining s) := ⟨rfl, ⟨⟨rfl, rfl⟩, rfl, rfl, rfl⟩⟩

theorem trainDram_eq (s : State) :
    trainDram s = keepTraining (((List.range 8).flatMap (fun h => s.ranks.map (fun r => (h, r)))).foldl trainRead s) := rfl

theorem trainDram_kept (s : State) : CheckpointKept s (trainDram s) := by
  rw [trainDram_eq]
  exact (UnitsStand.foldl _ trainRead_unitsStand _ s).checkpointKept (keepTraining_kept _)

theorem coldDram_spec (cfg : DramConfig) (s : State) :
    (coldDram cfg s).boot = { s.boot with retained := false, checkpoint := (coldDram cfg s).boot.checkpoint }
      ∧ (coldDram cfg s).store = Store.reset ∧ (coldDram cfg s).path.wearTotals = [] ∧ (coldDram cfg s).dram.cfg = hotConfig cfg
      ∧ (coldDram cfg s).dram.trained = true := by
  have h := (reportExhausted_unitsStand true (trainingDram cfg (voidedStore cfg s))).checkpointKept (trainDram_kept _)
  rw [coldDram_eq]
  generalize trainDram (reportExhausted true (trainingDram cfg (voidedStore cfg s))) = t at h ⊢
  exact ⟨h.boot, h.units.store, congrArg PrintPath.wearTotals h.units.path, h.units.cfg, h.units.trained⟩

/-! ## A boot that may retain the store (R378) -/

theorem dramUe_bootStands (phys : Nat) (s : State) : BootStands s (dramUe phys s) := by
  unfold dramUe
  rw [addRepair_eq]
  exact ⟨by simp, by simp⟩

theorem dramCorrected_bootStands (phys : Nat) (s : State) : BootStands s (dramCorrected phys s) := by
  unfold dramCorrected
  refine .ite ?_ ⟨rfl, rfl⟩
  rw [addRepair_eq]
  exact ⟨rfl, rfl⟩

theorem markBurst_bootStands (phys : Nat) (s : State) : BootStands s (markBurst phys s) := .ite (.refl s) ⟨rfl, rfl⟩

theorem raise_bootStands (s : State) (i : Nat) : BootStands s (s.raise i) := ⟨by simp, by simp⟩

theorem count_bootStands (s : State) (i : Nat) : BootStands s (s.count i) := ⟨rfl, rfl⟩

theorem reportScrub_bootStands (h burst : Nat) (s : State) : BootStands s (reportScrub h burst s) := by
  rw [reportScrub_eq]
  exact ⟨rfl, rfl⟩

theorem meetBurst_bootStands (phys : Nat) (marked : Bool) (err : ReadErr) (s : State) : BootStands s (meetBurst phys marked err s).1 := by
  unfold meetBurst
  split
  · exact .refl s
  · exact dramCorrected_bootStands phys s
  · exact count_bootStands s 21
  · have hreported : BootStands s (reportUe phys (dramUe phys s)) := (dramUe_bootStands phys s).trans ⟨rfl, rfl⟩
    exact hreported.trans (markBurst_bootStands phys _)

theorem meetBursts_bootStands (errs : List (Nat × ReadErr)) (s : State) : BootStands s (meetBursts errs s) :=
  .foldl _ (fun _ _ => meetBurst_bootStands _ _ _ _) _ s

theorem checkFrame_bootStands (errs : List (Nat × ReadErr)) (s : State) (x : Nat × Nat) : BootStands s (checkFrame errs s x) := by
  have hrefuse (phys : Nat) (s : State) : BootStands s (markBurst phys (reportScrub x.1 (headerAt x.2 / 64) s)) :=
    (reportScrub_bootStands _ _ s).trans (markBurst_bootStands _ _)
  have hcheck (phys : Nat) (s : State) : BootStands s (if (headerError (s.frameRead x.1 (headerAt x.2) 32)).isSome
      then markBurst phys (reportScrub x.1 (headerAt x.2 / 64) (s.raise 9)) else s) :=
    .ite ((raise_bootStands s 9).trans (hrefuse phys _)) (.refl s)
  unfold checkFrame
  dsimp only
  refine .ite (.refl s) ?_
  split
  · exact hcheck _ s
  · exact (dramCorrected_bootStands _ s).trans (hcheck _ _)
  · exact count_bootStands s 21
  · exact (dramUe_bootStands _ s).trans (hrefuse _ _)

/-- The handles and areas that the checkpoint lists are those in use again. -/
def restoredMap (s : State) : State :=
  s.withStore { s.store with frames := s.boot.checkpoint.mapFrames, areas := s.boot.checkpoint.mapAreas }

theorem restoredMap_bootStands (s : State) : BootStands s (restoredMap s) := ⟨rfl, rfl⟩

theorem meetDescs_bootStands (errs : List (Nat × ReadErr)) (s : State) : BootStands s (meetDescs errs s) := meetBursts_bootStands _ s

/-- Entries of the ready queue whose descriptors do not stand are given up. -/
def reportLost (l : List Ready) (s : State) : State :=
  l.foldl (fun s r =>
    s.report 0x5007 (logKey none none none none) 0 (leBytes 4 r.descriptor ++ leBytes 4 r.first ++ leBytes 4 r.count)) s

/-- The frames of the descriptors that stand are checked. -/
def checkFrames (errs : List (Nat × ReadErr)) (good : List Ready) (s : State) : State :=
  (distinct (good.map (·.descriptor))).foldl (fun s d => (framesByLayer s d).foldl (checkFrame errs) s) s

/-- The ready queue becomes the entries that stand. -/
def keepReady (good : List Ready) (s : State) : State := mirrorReady (s.withRun { s.run with ready := good })

theorem validateStore_eq {s : State} (errs : List (Nat × ReadErr)) (h : s.boot.checkpoint.mapBad = false) :
    validateStore errs s = checkFrames errs (s.boot.checkpoint.ready.filter (descStands (meetDescs errs (restoredMap s))))
      (keepReady (s.boot.checkpoint.ready.filter (descStands (meetDescs errs (restoredMap s))))
        (reportLost (s.boot.checkpoint.ready.filter (fun r => !descStands (meetDescs errs (restoredMap s)) r))
          (meetDescs errs (restoredMap s)))) := if_neg (by simp [h])

theorem reportLost_bootStands (l : List Ready) (s : State) : BootStands s (reportLost l s) :=
  .foldl _ (fun _ _ => (report_unitsStand _ _ _ _ _).toBootStands) l s

theorem checkFrames_bootStands (errs : List (Nat × ReadErr)) (good : List Ready) (s : State) : BootStands s (checkFrames errs good s) :=
  .foldl _ (fun s d => .foldl _ (checkFrame_bootStands errs) (framesByLayer s d) s) _ s

/-- Validating the retained store changes nothing of the boot unit but the checkpoint. -/
theorem validateStore_boot (errs : List (Nat × ReadErr)) (s : State) :
    (validateStore errs s).boot = { s.boot with checkpoint := (validateStore errs s).boot.checkpoint }
      ∧ (validateStore errs s).dram.trained = s.dram.trained := by
  cases hmap : s.boot.checkpoint.mapBad with
  | true =>
    unfold validateStore
    rw [if_pos hmap]
    exact ⟨rfl, rfl⟩
  | false =>
    rw [validateStore_eq errs hmap]
    have hmet := (restoredMap_bootStands s).trans (meetDescs_bootStands errs (restoredMap s))
    generalize meetDescs errs (restoredMap s) = met at hmet ⊢
    generalize s.boot.checkpoint.ready.filter (descStands met) = good
    have hlost := hmet.trans (reportLost_bootStands (s.boot.checkpoint.ready.filter (fun r => !descStands met r)) met)
    generalize reportLost _ met = lost at hlost ⊢
    have hchecked := checkFrames_bootStands errs good (keepReady good lost)
    generalize checkFrames errs good (keepReady good lost) = t at hchecked ⊢
    rw [hchecked.boot, hchecked.trained]
    exact ⟨congrArg (fun b : BootUnit => { b with checkpoint := { lost.boot.checkpoint with ready := good } }) hlost.boot, hlost.trained⟩

/-- Without an entry of the ready queue the store is what the checkpoint lists. -/
theorem validateStore_store (errs : List (Nat × ReadErr)) {s : State} (hmap : s.boot.checkpoint.mapBad = false)
    (hready : s.boot.checkpoint.ready = []) : (validateStore errs s).store = (restoredMap s).store := by
  have hmet : meetDescs errs (restoredMap s) = restoredMap s := by
    have hready' : (restoredMap s).boot.checkpoint.ready = [] := hready
    unfold meetDescs
    simp only [hready', List.flatMap_nil, List.any_nil, List.filter_false]
    rfl
  rw [validateStore_eq errs hmap, hready, hmet]
  rfl

/-- The training that a cold boot kept is loaded (R288, R291). -/
def loadedTraining (cfg : DramConfig) (s : State) : State :=
  (s.withBoot { s.boot with retained := true }).withDram { s.dram with
    cfg := hotConfig cfg, trained := true, channels := [], taps := s.boot.checkpoint.taps, vendor := s.boot.checkpoint.vendor }

/-- The read timing of every rank is updated (R291). -/
def updatedTaps (s : State) : State := ((List.range 8).flatMap (fun h => s.ranks.map (fun r => (h, r)))).foldl moveTap s

theorem updatedTaps_unitsStand (s : State) : UnitsStand s (updatedTaps s) := .foldl _ moveTap_unitsStand _ s

theorem warmDram_eq (cfg : DramConfig) (errs : List (Nat × ReadErr)) (s : State) :
    warmDram cfg errs s = validateStore errs (updatedTaps (loadedTraining cfg s)) := rfl

theorem warmDram_boot (cfg : DramConfig) (errs : List (Nat × ReadErr)) (s : State) :
    (warmDram cfg errs s).boot = { s.boot with retained := true, checkpoint := (warmDram cfg errs s).boot.checkpoint }
      ∧ (warmDram cfg errs s).dram.trained = true := by
  have htaps := updatedTaps_unitsStand (loadedTraining cfg s)
  rw [warmDram_eq]
  generalize updatedTaps (loadedTraining cfg s) = r at htaps ⊢
  obtain ⟨hboot, htrained⟩ := validateStore_boot errs r
  generalize validateStore errs r = t at hboot htrained ⊢
  refine ⟨hboot.trans ?_, htrained.trans htaps.trained⟩
  exact congrArg (fun b : BootUnit => { b with checkpoint := t.boot.checkpoint }) htaps.boot

theorem warmDram_store (cfg : DramConfig) (errs : List (Nat × ReadErr)) {s : State} (hmap : s.boot.checkpoint.mapBad = false)
    (hready : s.boot.checkpoint.ready = []) : (warmDram cfg errs s).store = (restoredMap s).store := by
  have htaps := updatedTaps_unitsStand (loadedTraining cfg s)
  rw [warmDram_eq]
  generalize updatedTaps (loadedTraining cfg s) = r at htaps ⊢
  rw [validateStore_store errs (by rw [htaps.boot]; exact hmap) (by rw [htaps.boot]; exact hready)]
  unfold restoredMap
  rw [htaps.boot, htaps.store]
  rfl

/-! ## BOOT (R369 to R373) -/

/-- The state in which the boot looks for its configuration record. -/
def bootReleased (s : State) (u : Time) (straps : Nat) : State :=
  reportExhausted false ((s.at u).withBoot (releasedBoot s.boot straps))

theorem bootReleased_stands (s : State) (u : Time) (straps : Nat) :
    UnitsStand (s.withBoot (releasedBoot s.boot straps)) (bootReleased s u straps) := by
  have hat : UnitsStand (s.withBoot (releasedBoot s.boot straps)) ((s.at u).withBoot (releasedBoot s.boot straps)) :=
    ⟨⟨rfl, rfl⟩, rfl, rfl, rfl⟩
  exact hat.trans (reportExhausted_unitsStand false _)

theorem flashRead_congr {s t : State} (h : t.boot.flash = s.boot.flash) : flashRead t = flashRead s := by
  unfold flashRead
  rw [h]

theorem copyAt_congr {s t : State} (h : t.boot.flash = s.boot.flash) : copyAt t = copyAt s := by
  unfold copyAt
  rw [flashRead_congr h]

theorem liveCopy_congr {s t : State} (h : t.boot.flash = s.boot.flash) : liveCopy t = liveCopy s := by
  unfold liveCopy
  rw [copyAt_congr h]

theorem mayRetain_congr {s t : State} (hwarm : t.boot.warm = s.boot.warm) (hcheckpoint : t.boot.checkpoint = s.boot.checkpoint) :
    mayRetain t = mayRetain s := by
  unfold mayRetain
  rw [hwarm, hcheckpoint]

theorem boot_eq {s : State} {u : Time} (straps : Nat) (sr : Bool) (timing : List Nat) (errs : List (Nat × ReadErr))
    (hpath : s.boot.path = .booting ∨ s.boot.path = .held) (hdue : s.boot.resetAt + msT ≤ max s.clk.elapsed u) :
    exec (.boot u sr timing straps errs) s = (match liveCopy s with
      | none => .next (enterMaint .imageMissing stBadLength 0 0 (bootLogs (bootReleased s u straps)))
      | some k => .next (bootFrom (copyAt s k) sr timing errs (bootReleased s u straps))) := by
  have hboots : ¬(((s.at u).boot.path ≠ .booting ∧ (s.at u).boot.path ≠ .held) ∨ (s.at u).clk.elapsed < (s.at u).boot.resetAt + msT) := by
    rintro (⟨hnot, hnot'⟩ | hearly)
    · exact hpath.elim hnot hnot'
    · exact Nat.not_lt.mpr hdue hearly
  have hflash : (bootReleased s u straps).boot.flash = s.boot.flash := by
    rw [(bootReleased_stands s u straps).boot]
    rfl
  rw [← liveCopy_congr hflash, ← copyAt_congr hflash]
  exact if_neg hboots

theorem boot_waits (s : State) (u straps : Nat) (sr : Bool) (timing : List Nat) (errs : List (Nat × ReadErr))
    (h : ¬(s.boot.path = .booting ∨ s.boot.path = .held) ∨ max s.clk.elapsed u < s.boot.resetAt + msT) :
    exec (.boot u sr timing straps errs) s = .next (s.at u) := by
  refine if_pos ?_
  obtain hpath | hearly := h
  · exact .inl (not_or.mp hpath)
  · exact .inr hearly

theorem boot_withoutRecord (s : State) (u straps : Nat) (sr : Bool) (timing : List Nat) (errs : List (Nat × ReadErr))
    (hpath : s.boot.path = .booting ∨ s.boot.path = .held) (hdue : s.boot.resetAt + msT ≤ max s.clk.elapsed u)
    (hlive : liveCopy s = none) :
    ∃ t, exec (.boot u sr timing straps errs) s = .next t ∧ t.dev = .maint ∧ t.boot.path = .up ∧ t.boot.maint = .imageMissing
      ∧ t.boot.fwVersion = 0 ∧ t.boot.ucodeVersion = 0 ∧ t.dram.trained = false ∧ t.boot.porLow = false ∧ t.boot.resetLow = false
      ∧ t.store = s.store ∧ t.boot.flash = s.boot.flash := by
  have hreleased := bootReleased_stands s u straps
  have hlogged := bootLogs_stands (bootReleased s u straps)
  rw [boot_eq straps sr timing errs hpath hdue, hlive]
  refine ⟨_, rfl, ?_⟩
  obtain ⟨hdev, htrained, hstore, hboot⟩ := enterMaint_spec .imageMissing stBadLength 0 0 (bootLogs (bootReleased s u straps))
  generalize enterMaint .imageMissing stBadLength 0 0 (bootLogs (bootReleased s u straps)) = t at *
  rw [hlogged.boot, show (bootReleased s u straps).boot = _ from hreleased.boot] at hboot
  rw [hboot, hstore]
  exact ⟨hdev, rfl, rfl, rfl, rfl, htrained, rfl, rfl, hlogged.store.trans hreleased.store, rfl⟩

/-- The boot unit with which the boot assembles its pair. -/
theorem bootState_booted (s : State) (u : Time) (straps : Nat) :
    UnitsStand (s.withBoot (triedBoot (releasedBoot s.boot straps))) (bootState (bootReleased s u straps)) := by
  have hreleased := bootReleased_stands s u straps
  have hboot : (bootReleased s u straps).boot = releasedBoot s.boot straps := hreleased.boot
  have htried := bootState_stands (bootReleased s u straps)
  rw [hboot] at htried
  have hkept : UnitsStand (s.withBoot (triedBoot (releasedBoot s.boot straps)))
      ((bootReleased s u straps).withBoot (triedBoot (releasedBoot s.boot straps))) :=
    ⟨⟨rfl, hreleased.trained⟩, hreleased.cfg, hreleased.store, hreleased.path⟩
  exact hkept.trans htried

/-- What every boot with a configuration record comes to, whatever its pair. -/
structure BootEnds (s : State) (straps : Nat) (p : PairCheck) (t : State) : Prop where
  path : t.boot.path = .up
  preferred : t.boot.preferred = (triedBoot s.boot).preferred
  trial : t.boot.trial = (triedBoot s.boot).trial
  tries : t.boot.tries = (triedBoot s.boot).tries
  fwVersion : t.boot.fwVersion = p.fw
  ucodeVersion : t.boot.ucodeVersion = p.uc
  domains : t.boot.domains = 0x83F
  domainsReady : t.boot.domainsReady = 0x83F
  straps : t.boot.straps = (if s.boot.source = .porN then straps else s.boot.straps)

section
variable {s r : State} {straps : Nat} (hr : UnitsStand (s.withBoot (triedBoot (releasedBoot s.boot straps))) r)
include hr

theorem maint_ends (p : PairCheck) (reason : MaintReason) (status : Nat) :
    let t := enterMaint reason status p.fw p.uc (bootLogs r)
    BootEnds s straps p t ∧ t.dev = .maint ∧ t.boot.maint = reason ∧ t.dram.trained = false := by
  have hboot : (bootLogs r).boot = loggedBoot (triedBoot (releasedBoot s.boot straps)) :=
    (bootLogs_stands r).boot.trans (congrArg loggedBoot hr.boot)
  obtain ⟨hdev, htrained, -, hmaint⟩ := enterMaint_spec reason status p.fw p.uc (bootLogs r)
  generalize enterMaint reason status p.fw p.uc (bootLogs r) = t at *
  rw [hboot] at hmaint
  refine ⟨?_, hdev, by rw [hmaint], htrained⟩
  constructor <;> rw [hmaint] <;> rfl

/-- The units start on what the boot made of DRAM: `d` has its boot unit but for the checkpoint. -/
theorem startUnits_ends (p : PairCheck) {d : State} {retained : Bool}
    (hd : d.boot = { r.boot with retained := retained, checkpoint := d.boot.checkpoint }) :
    BootEnds s straps p (startUnits p d) ∧ (startUnits p d).boot.resetOutN = true ∧ (startUnits p d).boot.retained = retained := by
  have hstarted := (startUnits_stands p d).boot
  have hboot : r.boot = triedBoot (releasedBoot s.boot straps) := hr.boot
  rw [hboot] at hd
  generalize d.boot.checkpoint = c at hd
  generalize startUnits p d = t at *
  have ht : t.boot = loggedBoot (upBoot p { triedBoot (releasedBoot s.boot straps) with retained := retained, checkpoint := c }) :=
    hstarted.trans (congrArg (fun b => loggedBoot (upBoot p b)) hd)
  refine ⟨?_, by rw [ht]; rfl, by rw [ht]; rfl⟩
  constructor <;> rw [ht] <;> rfl

/-- The units start on a cleared store. -/
theorem cold_ends (p : PairCheck) (cfg : DramConfig) :
    let t := startUnits p (coldDram cfg r)
    BootEnds s straps p t ∧ t.boot.resetOutN = true ∧ t.dram.trained = true ∧ t.boot.retained = false ∧ t.store = Store.reset
      ∧ t.path.wearTotals = [] ∧ t.dram.cfg = hotConfig cfg := by
  obtain ⟨hboot, hstore, hwear, hcfg, htrained⟩ := coldDram_spec cfg r
  generalize coldDram cfg r = d at *
  obtain ⟨hends, hout, hkept⟩ := startUnits_ends hr p hboot
  have hunits := startUnits_stands p d
  generalize startUnits p d = t at *
  exact ⟨hends, hout, hunits.trained.trans htrained, hkept, hunits.store.trans hstore,
    (congrArg PrintPath.wearTotals hunits.path).trans hwear, hunits.cfg.trans hcfg⟩

/-- The units start on a retained store. -/
theorem warm_ends (p : PairCheck) (cfg : DramConfig) (errs : List (Nat × ReadErr)) :
    let t := startUnits p (warmDram cfg errs r)
    BootEnds s straps p t ∧ t.boot.resetOutN = true ∧ t.dram.trained = true ∧ t.boot.retained = true
      ∧ (s.boot.checkpoint.mapBad = false → s.boot.checkpoint.ready = [] →
        t.store = { s.store with frames := s.boot.checkpoint.mapFrames, areas := s.boot.checkpoint.mapAreas }) := by
  have hcheckpoint : r.boot.checkpoint = s.boot.checkpoint := by
    rw [hr.boot]
    rfl
  have hstore : s.boot.checkpoint.mapBad = false → s.boot.checkpoint.ready = [] → (warmDram cfg errs r).store = (restoredMap r).store :=
    fun hmap hready => warmDram_store cfg errs (by rw [hcheckpoint]; exact hmap) (by rw [hcheckpoint]; exact hready)
  obtain ⟨hboot, htrained⟩ := warmDram_boot cfg errs r
  generalize warmDram cfg errs r = d at *
  obtain ⟨hends, hout, hkept⟩ := startUnits_ends hr p hboot
  have hunits := startUnits_stands p d
  generalize startUnits p d = t at *
  refine ⟨hends, hout, hunits.trained.trans htrained, hkept, fun hmap hready => (hunits.store.trans (hstore hmap hready)).trans ?_⟩
  unfold restoredMap
  rw [hcheckpoint, hr.store]
  rfl

end

theorem boot_withRecord (s : State) (u straps k : Nat) (sr : Bool) (timing : List Nat) (errs : List (Nat × ReadErr))
    (hpath : s.boot.path = .booting ∨ s.boot.path = .held) (hdue : s.boot.resetAt + msT ≤ max s.clk.elapsed u)
    (hlive : liveCopy s = some k) :
    let p := checkPair s (triedBoot s.boot).preferred
    ∃ t, exec (.boot u sr timing straps errs) s = .next t ∧ BootEnds s straps p t
      ∧ (∀ (r : MaintReason) (st : Nat), p.fail = some (r, st) → t.dev = .maint ∧ t.boot.maint = r ∧ t.dram.trained = false)
      ∧ (p.fail = none → t.dev = .idle ∧ t.boot.resetOutN = true ∧ t.dram.trained = true
        ∧ t.boot.retained = mayRetain s sr (copyAt s k)
        ∧ (mayRetain s sr (copyAt s k) = false → t.store = Store.reset ∧ t.path.wearTotals = []
          ∧ t.dram.cfg = hotConfig (recordConfig (copyAt s k) timing))
        ∧ (mayRetain s sr (copyAt s k) = true → s.boot.checkpoint.mapBad = false → s.boot.checkpoint.ready = [] →
          t.store = { s.store with frames := s.boot.checkpoint.mapFrames, areas := s.boot.checkpoint.mapAreas })) := by
  intro p
  have hr := bootState_booted s u straps
  rw [boot_eq straps sr timing errs hpath hdue, hlive]
  dsimp only
  unfold bootFrom
  generalize bootState (bootReleased s u straps) = r at hr ⊢
  have hpref : r.boot.preferred = (triedBoot s.boot).preferred := by
    rw [hr.boot]
    rfl
  have hp : checkPair r r.boot.preferred = p := by
    rw [hpref]
    exact checkPair_congr (by rw [hr.boot]; rfl) _
  have hretain : mayRetain r = mayRetain s := mayRetain_congr (by rw [hr.boot]; rfl) (by rw [hr.boot]; rfl)
  dsimp only
  rw [hp, hretain]
  cases hfail : p.fail with
  | some f =>
    obtain ⟨hends, hdev, hmaint, htrained⟩ := maint_ends hr p f.1 f.2
    refine ⟨_, rfl, hends, ?_, fun hnone => by cases hnone⟩
    rintro reason st ⟨⟩
    exact ⟨hdev, hmaint, htrained⟩
  | none =>
    cases hmay : mayRetain s sr (copyAt s k) with
    | true =>
      rw [if_pos rfl]
      generalize { recordConfig (copyAt s k) (r.boot.checkpoint.cfg.getD (recordConfig (copyAt s k) timing)).timing with
        rate := (r.boot.checkpoint.cfg.getD (recordConfig (copyAt s k) timing)).rate } = cfg
      obtain ⟨hends, hout, htrained, hkept, hstore⟩ := warm_ends hr p cfg errs
      exact ⟨_, rfl, hends, fun _ _ hsome => (by cases hsome), fun _ => ⟨startUnits_dev p _, hout, htrained, hkept,
        fun hnot => (by cases hnot), fun _ => hstore⟩⟩
    | false =>
      rw [if_neg (by simp)]
      obtain ⟨hends, hout, htrained, hkept, hstore⟩ := cold_ends hr p (recordConfig (copyAt s k) timing)
      exact ⟨_, rfl, hends, fun _ _ hsome => (by cases hsome), fun _ => ⟨startUnits_dev p _, hout, htrained, hkept,
        fun _ => hstore, fun hnot => (by cases hnot)⟩⟩

/-- Settles O44: the boot without a record by `boot_withoutRecord`, with one by `boot_withRecord`; that BOOT implies good levels, its bound of
1 ms, the straps of POR_N alone, TRIES up to 3, the rollback under TRIAL and DRAM untrained in MAINT are log 57. -/
theorem bootCompletes : Obligations.BootCompletes := by
  unfold Obligations.BootCompletes
  refine ⟨boot_withoutRecord, boot_waits, fun s u straps k sr timing errs hpath hdue hlive => ?_⟩
  intro back pref p
  obtain ⟨t, hexec, hends, hmaint, hidle⟩ := boot_withRecord s u straps k sr timing errs hpath hdue hlive
  exact ⟨t, hexec, hends.path, hends.preferred, hends.trial, hends.tries, hends.fwVersion, hends.ucodeVersion, hends.domains,
    hends.domainsReady, hends.straps, hmaint, hidle⟩

end Sys2Proof.Machine
end

section
/-! THROTTLE_OFF (R264, R265, R431): the staging queue of a port empties with all that was in it, so the lines noted as staged go as well. -/

namespace Sys2Proof.Machine

open Sys2Proof

/-- Throttling is in force, T_J has stayed below its end since 0, and port 0 holds a line of frame 5 in its staging queue while no frame waits to
be coded. -/
def stagedWhileThrottled : State :=
  ((State.reset.withThermal { State.reset.thermal with throttle := true, belowSince := some 0 }).withCams
    (tput (fun _ => CamPort.reset) [] 0 { CamPort.reset with staged := [(5, 7)] }))

theorem stagedWhileThrottled_canonOk : canonOk stagedWhileThrottled = true := by decide +kernel

/-- One second later throttling ends, and nothing is staged any longer. -/
theorem stagedWhileThrottled_empties {t : State} (h : exec (.throttleOff secT) stagedWhileThrottled = .next t) :
    (t.cam 0).staged = [] := by
  cases h
  decide +kernel

/-- Refutes O37: the statement keeps the lines noted as staged when THROTTLE_OFF empties the staging queue of a port whose coding queue is empty;
the model forgets them with the queue. -/
theorem not_thermalUnitCompletes : ¬ Obligations.ThermalUnitCompletes := by
  unfold Obligations.ThermalUnitCompletes
  rintro ⟨-, -, -, -, -, -, hoff, -⟩
  obtain ⟨t, hexec, -, -, -, hidle⟩ := hoff stagedWhileThrottled secT 0 stagedWhileThrottled_canonOk rfl rfl (by decide)
  obtain ⟨hcam, -⟩ := hidle (by decide) (by decide) (by decide)
  have hkept : (t.cam 0).staged = [(5, 7)] := by
    rw [hcam 0 (by decide)]
    decide
  rw [stagedWhileThrottled_empties hexec] at hkept
  cases hkept

end Sys2Proof.Machine
end
